-- ==== Sys2Proof/Word.lean ====
section
/-! DEFINITION. The byte, the words and the plainest arithmetic: clamping and rounding. -/

namespace Sys2Proof

/-- One byte of a packet, record or payload. -/
abbrev Byte := BitVec 8

/-- A PI code, an EId, or any other 16-bit identity (R156, R202). -/
abbrev Id16 := BitVec 16

/-- A 32-bit service identifier (R208), 16-bit SIds zero-extended. -/
abbrev Id32 := BitVec 32

/-- A value of the device frame counter, modulo 2^32 (R15, R27). -/
abbrev Dfc := BitVec 32

/-- A number limited to a range (R382). -/
def clampNat (lo hi x : Nat) : Nat := max lo (min hi x)

/-- A signed number limited to a range (R382). -/
def clampInt (lo hi x : Int) : Int := max lo (min hi x)

/-- A counter that stops at its highest value. -/
def satAdd (top x n : Nat) : Nat := min top (x + n)

end Sys2Proof
end

