-- ==== Sys2Proof/Syntax.lean ====
section
/-! DEFINITION. The commands: one constructor of `Instr` for each row of the table of operations and events,
and the data that an event row takes from the world (levels, received blocks and FIGs, voltages, pins). -/

namespace Sys2Proof

/-- What the bus was doing when a transfer broke (R367). `bytes` counts packet bytes received. -/
inductive XferDir where
  | write (bytes : Nat)
  | read (delivered : Nat)
deriving DecidableEq, Repr

/-- The departures from a clean transfer of Table 13-2 (R367) that have no row of their own. -/
inductive BrokenKind where
  | startDuring (d : XferDir)
  | stopDuring (d : XferDir)
  | afterWholePacket
  | sclHeldLow
  | readNotAcked (delivered : Nat)
deriving DecidableEq, Repr

/-- First bytes that the device does not acknowledge (R352). -/
inductive BusByte where
  | generalCall
  | startByte
  | tenBit
  | highSpeed
  | otherTarget
deriving DecidableEq, Repr

/-- Offset words of a received RDS block (R153). -/
inductive RdsOffset where
  | a | b | c | cPrime | d | e | unknown
deriving DecidableEq, Repr

/-- What the checkword of a received RDS block shows (R154). -/
inductive RdsError where
  | clean | twoBits | burst | uncorrectable
deriving DecidableEq, Repr

/-- A complex number: a bin sample in bin full scale (R106), a baseband sample or a carrier. -/
structure Cx where
  re : Rat
  im : Rat
deriving DecidableEq, Repr

/-- What the channelizer forms for each input of a set, before the compensation of gain steps: the samples of the bins that the
instance draws, lowest bin first (Table 4-3). -/
abbrev BinSamples := List (Nat × List (List Cx))

/-- What one 10 ms update of a lane receives (R139). -/
structure LaneFigures where
  /-- CNR that the statistics behind the channel filter give, 0.01 dB. -/
  cnr : Int
  /-- Runs of samples whose tokens fail fabric parity (R504): first of the ticks of the update, and ticks. -/
  lost : List (Nat × Nat)
  bins : BinSamples
deriving DecidableEq, Repr

/-- What the pilot loop of an FM lane has shown for `ms` (R136): deviations in Hz. -/
structure PilotObs where
  locked : Bool
  least : Nat
  most : Nat
  ms : Nat
deriving DecidableEq, Repr

/-- What the carrier loop of an AM lane has shown for `ms` (R147): absolute phase error in degrees, offset in Hz. -/
structure LoopObs where
  least : Nat
  most : Nat
  offset : Int
  /-- Change of the carrier's frequency, mHz/s. -/
  drift : Nat
  ms : Nat
deriving DecidableEq, Repr

/-- One component entry of FIG 0/2 (R202). -/
structure FigComp where
  tmid : Nat
  ascty : Nat
  subch : Nat
  scid : Nat
  primary : Bool
  scrambled : Bool
deriving DecidableEq, Repr

/-- The FIGs that the device interprets (Table 8-1), decoded from their FIB. -/
inductive Fig where
  /-- FIG 0/0: EId, CIF counter, change flags, occurrence change. -/
  | ensemble (eid : Id16) (cif change occurrence : Nat)
  /-- FIG 0/1: start, size and protection byte (Table 7-8). -/
  | subchannel (next : Bool) (id start size prot : Nat)
  /-- FIG 0/2. -/
  | service (next : Bool) (sid : Id32) (caid : Nat) (comps : List FigComp)
  /-- FIG 0/3: packet address and subchannel of a packet component. -/
  | packetComp (scid subch addr : Nat) (dscty : Nat)
  /-- FIG 0/5. -/
  | language (sid : Id32) (scids lang : Nat)
  /-- FIG 0/6: linkage set. `active` and `hard` are its flags. -/
  | linkage (lsn : Nat) (pd ils hard active : Bool) (sids : List Id32) (pis : List Id16) (eids : List Id16)
  /-- FIG 0/8: SCIdS of a secondary component, by its SubChId or, in the long form, by its SCId. -/
  | scids (sid : Id32) (scids : Nat) (long : Bool) (value : Nat)
  /-- FIG 0/9. -/
  | ecc (ecc : Nat) (lto : Int)
  /-- FIG 0/10. -/
  | dateTime (mjd ms : Nat)
  /-- FIG 0/13. -/
  | userApps (sid : Id32) (scids : Nat) (types : List Nat)
  /-- FIG 0/14. -/
  | packetFec (subch fec : Nat)
  /-- FIG 0/17. -/
  | pty (sid : Id32) (pty : Nat)
  /-- FIG 0/18. -/
  | annSupport (sid : Id32) (asu : Nat) (clusters : List Nat)
  /-- FIG 0/19. -/
  | annSwitch (cluster asw subch : Nat) (new : Bool) (region : Nat)
  /-- FIG 1/0. -/
  | ensembleLabel (label : List Byte) (mask charset : Nat)
  /-- FIG 1/1 and 1/5. -/
  | serviceLabel (sid : Id32) (label : List Byte) (mask charset : Nat)
  /-- FIG 1/4. -/
  | componentLabel (sid : Id32) (scids : Nat) (label : List Byte) (mask charset : Nat)
  /-- Any other FIG: delivered raw only (R202). -/
  | other
deriving DecidableEq, Repr

/-- One received FIB (R194): its CRC outcome, its 30 bytes and the FIGs in it. -/
structure Fib where
  ok : Bool
  raw : List Byte
  figs : List Fig
deriving DecidableEq, Repr

/-- A searcher peak of one frame (R179). -/
structure PeakObs where
  /-- Timing relative to the tracked timing, samples at 2.048 MS/s; positive is later. -/
  timing : Int
  /-- The symbol at this timing. -/
  prs : BinSamples
  /-- A FIB of the FIC at this timing passed in this frame, and the EId that FIG 0/0 of it gave. -/
  fib : Bool
  eid : Option Id16
deriving DecidableEq, Repr

/-- What an engine receives in one transmission frame, as its FIC ends (R176 to R200). -/
structure FrameObs where
  /-- Powers of consecutive windows of 256 samples, oldest first (R177). -/
  windows : List Rat
  /-- The PRS reference of EN 300 401 on the carriers -768 to 768 without 0. -/
  ref : List Cx
  /-- The null symbol, the symbol after it (after a dip that the null search has found, the one after the dip), the FIC symbols. -/
  nulls : BinSamples
  prs : BinSamples
  fic : List BinSamples
  peaks : List PeakObs
  fibs : List Fib
  /-- Offset from the nearest sub-carrier that guard-interval correlation finds, Hz. -/
  fine : Int
  /-- Timing-drift estimate, 0.01 ppm. -/
  clockPpm : Int
  /-- Symbols of which a token fails fabric parity on the way to the engine: 0 the null symbol, 1 the PRS, then the FIC (R504). -/
  lost : List Nat
deriving DecidableEq, Repr

/-- One MSC symbol. `lost`: a token of its samples fails fabric parity (R504). `bad`: its soft values do, on their way to the store. -/
structure SymbolObs where
  bins : BinSamples
  lost : Bool
  bad : Bool
deriving DecidableEq, Repr

/-- One unit of coded audio: an access unit or a Layer II frame (Table 8-5). -/
inductive UnitResult where
  /-- Its own CRC passes. -/
  | good
  /-- Its CRC fails, or its header CRC fails or its sync is lost. -/
  | failed
  /-- A scale-factor CRC fails: the samples come with the subbands of that CRC muted. -/
  | muted
deriving DecidableEq, Repr

/-- Channels of a unit (R216): two channels, mono, or dual channel. -/
inductive ChannelMode where
  | stereo | mono | dual
deriving DecidableEq, Repr

structure AudioUnit where
  result : UnitResult
  mode : ChannelMode
  /-- Sampling rate in kHz: 48, 32 or 24. -/
  rate : Nat
  /-- Sample pairs of signed 24 bits at that rate. -/
  samples : List (Int × Int)
deriving DecidableEq, Repr

/-- Counts of one subchannel over the layers above the Viterbi decoder in one CIF (R194, R198). -/
structure SubchObs where
  subch : Nat
  rsCorr : Nat
  rsFail : Nat
  frameFail : Nat
  /-- Audio parameters that its stream signals, as `audio` of Table 8-4 codes them. -/
  audio : Nat
  /-- Units whose last bit this CIF completes. -/
  units : List AudioUnit
deriving DecidableEq, Repr

/-- One CIF as it reaches the soft-bit store (R187, R188). -/
structure CifObs where
  symbols : List SymbolObs
  counts : List SubchObs
  /-- Groups whose parity failed on reading in this CIF: CIF of the store, oldest first, and group (R192). -/
  parityErrors : List (Nat × Nat)
deriving DecidableEq, Repr

/-- What a decision point knows of one program's sources (R257, R258). -/
structure ProgObs where
  program : Nat
  /-- Bits of the program's delay store that have changed on their own since the last decision point: pair, newest first, channel
  (true for right), value and bit (R256). -/
  upsets : List (Nat × Bool × Nat × Nat)
deriving DecidableEq, Repr

/-- Measurements that the validity tests of Table 3-2 read. -/
structure ValidObs where
  clipped : Nat
  samples : Nat
  /-- Composite RMS over the window, 0.01 dBFS. -/
  rms : Int
deriving DecidableEq, Repr

/-- One rehearsal sub-window (R76). -/
structure SubWindowObs where
  valid : ValidObs
  /-- Timing estimate, 0.5 fs from tap 64. -/
  skew : Int
  /-- Threshold estimates of bits 1 to 11, 1/32 LSB from trim 32. -/
  sar : List Int
deriving DecidableEq, Repr

/-- The end of a rehearsal (R76): mean and RMS matching targets of the rehearsed sub-lane. -/
structure RehearsalObs where
  /-- Record units of Table 3-6. -/
  offset : Int
  gain : Int
deriving DecidableEq, Repr

/-- One low-band evaluation window (R82). -/
structure EvalObs where
  valid : ValidObs
  /-- For each of 51 decision levels the offsets of candidates A, B, C, 1/64 LSB. -/
  comps : List (List Int)
  /-- For each of stages 1 to 3 the error with each of nine spares. -/
  caps : List (List Nat)
  offset : Int
  gain : Int
deriving DecidableEq, Repr

/-- The synthesizers (R441). -/
inductive Synth where
  | s | a | n
deriving DecidableEq, Repr

/-- What the main domain finds when it becomes ready (R101, R165, R478, R518). -/
structure ReadyObs where
  romOk : Bool
  /-- Region code of a wipe that failed twice (R478). -/
  wipeFailed : Option Nat
  /-- Item codes of retained items that fail their CRC on load (Table 18-4). -/
  badItems : List Nat
  /-- Single-bit errors that the retained bank's SEC-DED corrected in the load (R101). -/
  corrected : Nat
  /-- Edges of the reference arrive (R444). -/
  refPresent : Bool
  /-- Readings of the speed rings (R273). -/
  cmeasRings : List Nat
deriving DecidableEq, Repr

/-- What the ghost light watch receives (R488). -/
inductive WatchObs where
  /-- A PI was confirmed under R156, or an EId read from a passing FIB. -/
  | identity (id : Id16)
  /-- The identity was lost (FM), or 21 frames failed (DAB). -/
  | lost
  /-- FM watch: a traffic, alarm or test condition begins or ends. 0 traffic, 1 alarm, 2 test. -/
  | condition (kind : Nat) (start : Bool)
  /-- DAB watch: a use of FIG 0/19. -/
  | switching (cluster asw subch : Nat) (new : Bool) (region : Nat)
  /-- DAB watch: a cluster has not been signalled for 2.0 s. -/
  | silent (cluster : Nat)
  /-- PLL-N lock changed (R461, R466). -/
  | pllN (locked : Bool)
deriving DecidableEq, Repr

/-- What a word of the general and service buffers belongs to (R502). -/
inductive BufferItem where
  /-- A queued packet of a flow, oldest first. -/
  | packet (flow pos : Nat)
  /-- A millisecond of the history of a program's path, newest first. -/
  | window (program : Nat) (dab : Bool) (ms : Nat)
  /-- An object of an engine's service model: 0 service, 1 component, 2 subchannel, 3 linkage set, 4 announcement support. -/
  | object (engine table pos : Nat)
  | laneWork (lane : Nat)
  | engineWork (engine : Nat)
deriving DecidableEq, Repr

/-- The place a scrub, or a read of the general buffers, stands at: a firmware word, a retained item, the item that a buffer
word belongs to (R500 to R502). -/
inductive ScrubMem where
  | firmware (addr : Nat)
  | retained (item : Nat)
  | buffers (item : BufferItem)
deriving DecidableEq, Repr

/-- Sample pairs of a member that miss their instant: `late` of them late, `bad` failing fabric parity (R294, R504). -/
structure UnderrunObs where
  slot : Nat
  late : Nat
  bad : Nat
deriving DecidableEq, Repr

/-- What befalls a packet on its way: the source's own check fails, or a token of it fails fabric parity (R504). -/
structure PacketCheck where
  failed : Bool
  parity : Bool
deriving DecidableEq, Repr

/-- The commands: one constructor for each row of the table. A host command carries its TAG and its PARAM bytes. -/
inductive Instr where
  -- system commands (Table 14-2)
  | nop (tag : Byte) (p : List Byte)
  | identify (tag : Byte) (p : List Byte)
  | eventRead (tag : Byte) (p : List Byte)
  | eventMask (tag : Byte) (p : List Byte)
  | stageReset (tag : Byte) (p : List Byte)
  | patchLoad (tag : Byte) (p : List Byte)
  | patchCommit (tag : Byte) (p : List Byte)
  | timeRead (tag : Byte) (p : List Byte)
  | cueSet (tag : Byte) (p : List Byte)
  | cueCancel (tag : Byte) (p : List Byte)
  | cueList (tag : Byte) (p : List Byte)
  | undefinedOpcode (opc : Byte) (tag : Byte) (p : List Byte)
  -- reception commands (Table 14-5)
  | bandPlan (tag : Byte) (p : List Byte)
  | rxStart (tag : Byte) (p : List Byte)
  | rxStop (tag : Byte) (p : List Byte)
  | frontendGain (tag : Byte) (p : List Byte)
  | antennaFeed (tag : Byte) (p : List Byte)
  | diversitySet (tag : Byte) (p : List Byte)
  | scanPolicy (tag : Byte) (p : List Byte)
  | laneAssign (tag : Byte) (p : List Byte)
  | laneRelease (tag : Byte) (p : List Byte)
  | laneList (tag : Byte) (p : List Byte)
  | laneStatus (tag : Byte) (p : List Byte)
  | fmParams (tag : Byte) (p : List Byte)
  | amParams (tag : Byte) (p : List Byte)
  | rdsConfig (tag : Byte) (p : List Byte)
  | dabEngineAssign (tag : Byte) (p : List Byte)
  | dabEngineRelease (tag : Byte) (p : List Byte)
  | dabEngineStatus (tag : Byte) (p : List Byte)
  | softbitMode (tag : Byte) (p : List Byte)
  -- services commands (Table 14-8)
  | serviceList (tag : Byte) (p : List Byte)
  | serviceInfo (tag : Byte) (p : List Byte)
  | announcementPolicy (tag : Byte) (p : List Byte)
  | alertPolicy (tag : Byte) (p : List Byte)
  -- program commands (Table 15-1); the action byte of PROGRAM_SET and CURTAIN is the row's own
  | programStop (tag : Byte) (p : List Byte)
  | programStart (tag : Byte) (p : List Byte)
  | programAddMember (tag : Byte) (p : List Byte)
  | programRemoveMember (tag : Byte) (p : List Byte)
  | programStatus (tag : Byte) (p : List Byte)
  | linkPolicy (tag : Byte) (p : List Byte)
  | delayStoreConfig (tag : Byte) (p : List Byte)
  | curtainCloseAndHold (tag : Byte) (p : List Byte)
  | curtainReleaseAndOpen (tag : Byte) (p : List Byte)
  | curtainSetTimes (tag : Byte) (p : List Byte)
  -- port commands (Table 15-2)
  | portConfig (tag : Byte) (p : List Byte)
  | slotMap (tag : Byte) (p : List Byte)
  | statusSlotConfig (tag : Byte) (p : List Byte)
  | spdifConfig (tag : Byte) (p : List Byte)
  | portStatus (tag : Byte) (p : List Byte)
  -- flow commands (Table 15-3)
  | flowOpen (tag : Byte) (p : List Byte)
  | flowClose (tag : Byte) (p : List Byte)
  | flowShape (tag : Byte) (p : List Byte)
  | classShape (tag : Byte) (p : List Byte)
  | egressConfig (tag : Byte) (p : List Byte)
  | flowStats (tag : Byte) (p : List Byte)
  | mailboxRead (tag : Byte) (p : List Byte)
  -- calibration commands (Table 15-4)
  | calPolicy (tag : Byte) (p : List Byte)
  | calRun (tag : Byte) (p : List Byte)
  | calStatus (tag : Byte) (p : List Byte)
  | calTableRead (tag : Byte) (p : List Byte)
  -- clock commands (Table 15-6)
  | refConfig (tag : Byte) (p : List Byte)
  | samplePlan (tag : Byte) (p : List Byte)
  | clockOut (tag : Byte) (p : List Byte)
  | syncArm (tag : Byte) (p : List Byte)
  | freqTrim (tag : Byte) (p : List Byte)
  | clockStatus (tag : Byte) (p : List Byte)
  -- power and life-cycle commands (Table 15-8); the action byte of GHOST_LIGHT_CONFIG is the row's own
  | powerPolicy (tag : Byte) (p : List Byte)
  | capacityStatus (tag : Byte) (p : List Byte)
  | ghostLightConfig (tag : Byte) (p : List Byte)
  | ghostLightEnter (tag : Byte) (p : List Byte)
  | ghostLightLeave (tag : Byte) (p : List Byte)
  | supplyStatus (tag : Byte) (p : List Byte)
  | lifecycleRead (tag : Byte) (p : List Byte)
  | lifecycleAdvance (tag : Byte) (p : List Byte)
  | retainedWipe (tag : Byte) (p : List Byte)
  -- diagnostic commands (Table 15-10)
  | faultLogRead (tag : Byte) (p : List Byte)
  | integrityCounters (tag : Byte) (p : List Byte)
  | temperatureRead (tag : Byte) (p : List Byte)
  | spectrumSnapshot (tag : Byte) (p : List Byte)
  | selftest (tag : Byte) (p : List Byte)
  -- control link
  | commandReceipt (bytes : List Byte)
  | replyRead (delivered : Nat)
  | brokenTransfer (kind : BrokenKind)
  | tSlimExpiry (write : Bool)
  | sdaHoldExpiry (write : Bool)
  | replyFifoEntry
  | promptDueTimer
  | prompt (sclFell : Bool)
  -- timeline and cues
  | dfcTick
  | cueFire
  | audioCueEffect
  -- stage manager and capacity
  | decisionPoint (obs : List ProgObs)
  | fineMapUpdate (high low : List (Nat × List Int))
  | binMapUpdate (input : Nat) (powers : List Int)
  | capacityMeasurement (rings : List Nat)
  | powerWindow (mw : Nat)
  | sheddingPass
  | restore
  | derateDecay
  | inputFifoDrop (input : Nat)
  | underrun (program : Nat) (obs : UnderrunObs)
  | memberReturn (program slot : Nat)
  | sensorRead (sensors : List Int) (backup : Int)
  | thermalRestart
  -- front end
  | gainWindow64us (input clipped samples : Nat)
  | gainWindow1ms (input : Nat) (rms : Int)
  | feedFault (line : Nat)
  | feedRetry (line : Nat)
  -- calibration
  | rotationIntervalEnd (input : Nat) (obs : RehearsalObs)
  | overlapEnd (input : Nat) (rmsDiff meanDiff : Nat)
  | subWindowEnd (input : Nat) (obs : SubWindowObs)
  | evaluationWindowEnd (input : Nat) (obs : EvalObs)
  | selectionChange (input : Nat)
  | calRetry (input : Nat) (obs : ValidObs)
  | calIntervalTrigger (input : Nat)
  -- lanes
  | laneUpdate (lane : Nat) (figs : LaneFigures)
  | pilotStateChange (lane : Nat) (obs : PilotObs)
  | syncLoopLockChange (lane : Nat) (obs : LoopObs)
  | processingStart
  | drainingEnd (engine : Bool) (id : Nat)
  -- RDS
  | rdsBlock (lane : Nat) (info : Id16) (offset : RdsOffset) (err : RdsError) (inGap : Bool)
  | rdsGroup (lane : Nat)
  | identityLost (lane : Nat)
  | identityRecord (lane : Nat)
  | eonTaTimeout (lane : Nat)
  | alertEndTimer (lane : Nat)
  | stationRecordWrite (index : Nat)
  -- DAB
  | dabFrame (engine : Nat) (obs : FrameObs)
  | cifBoundary (engine : Nat) (obs : CifObs)
  | softbitConversionEnd (engine : Nat)
  | modelObjectTimeout (engine : Nat)
  | engineAbandon (engine : Nat)
  | announcementTimeout (engine cluster : Nat)
  | decoderFirstValidSample (decoder : Nat)
  | announcementSourceReady (program : Nat)
  -- programs
  | curtainClosed (program : Nat)
  | curtainOpened (program : Nat)
  | endDelayExpiry (program : Nat)
  | refinement (program : Nat) (frac : Int)
  | alignmentFailed (program : Nat)
  | searchRestart (program : Nat)
  | tracking (program : Nat) (frac : Int)
  | memberDelayMeasure (program slot : Nat) (frac : Int)
  | pageRequestGrant
  | noDabMemberTimeout (program : Nat)
  | crossfadeEnd (program : Nat)
  -- ports
  | portLock (port : Nat) (ppm : Int)
  | portStop (port : Nat)
  | tdmFrame (port : Nat) (place : Nat × Nat) (completed : Bool)
  | spdifFrame (num den : Nat)
  | fsyncGlitch (port : Nat)
  | portClockLoss (port : Nat)
  | rateStep (port : Nat) (ppm : Int)
  -- flows
  | packetArrival (kind source : Nat) (qualifier : Nat) (check : PacketCheck) (payload : List Byte)
  | flowDropRecord (flow : Nat)
  -- clocks
  | referenceAbsent
  | referencePresent
  | buildOutComplete (synth : Synth) (stepPs : Nat) (coastErr : Int)
  | pllLossOfLock (synth : Synth)
  | pllLock (synth : Synth)
  | pllSRelockRetry (locked : Bool)
  | trimStep
  | syncCapture
  | syncInstant
  -- supplies, resets, ghost light
  | sagWarning (mv : Nat)
  | sagCleared (mv : Nat)
  | switchOver (vmain vbak : Nat)
  | switchBack (mv : Nat)
  | hardHalt (vmain vbak : Nat)
  | mainDomainReturn (mv : Nat)
  | backupPowerOn (addr1 addr0 : Bool) (vmain vbak : Nat)
  | backupLoss
  | vioLevelChange (mv : Nat)
  | resetnLow (ns : Nat)
  | resetnRelease (addr1 addr0 : Bool)
  | watchdogExpiry
  | firmwareRamError (addr : Nat)
  | deviceReady (obs : ReadyObs)
  | sceneReapplication
  | sceneCapture
  | ghostLightEntry
  | watchStateChange (obs : WatchObs)
  | alertLogWrite
  | scrub (mem : ScrubMem) (corrected : Nat) (bad : Bool)
  | integrityRecord (index : Nat)
  | recoveryRunnable (code inst : Nat)
  | faultLogWrite
  | boundaryScan (drive : Bool)
  | vmainRiseAfterBackupOnlyStart (mv : Nat)
  | generalCall (first : BusByte)
deriving DecidableEq, Repr

end Sys2Proof
end

