-- ==== Sys2Proof/Config.lean ====
section
/-! DEFINITION. What one die fixes (fuses, ROM) and the values the manual leaves open: constants without a body,
so that no proof can see a value of them (log entries 4 and 12 to 19). -/

namespace Sys2Proof.Config

/-- Silicon revision, firmware in ROM and the identifier of the die (R388). -/
opaque silicon : Byte
opaque romVersion : Id16
opaque deviceUid : BitVec 64

/-- Capacity in 0.25 EU for the period of the slowest canary ring (R273): the per-device factor fused at test. -/
opaque capacityOfRing : Nat → Nat

/-- The speed table rho (R274), at a table voltage in mV and at 125 degC (true) or 25 degC (false), scaled to integers. -/
opaque rho : Nat → Bool → Nat

/-- The fused factor k of R280, in 0.01 mW per EU. -/
opaque powerFactor : Nat

/-- Own noise level N(g) of an input at a gain, 0.01 dBFS (R68). -/
opaque ownNoise : Nat → Nat → Int

/-- Wideband baseband of one input from the samples of its bins under a plan (Table 4-3): FM 384 kS/s, AM 24 kS/s. The manual gives rates
and spans and no filter. -/
opaque assemble : Bool → Nat → List (List Cx) → List Cx

/-- FM channel filter of a width in kHz (R134). -/
opaque fmChannel : Nat → List Cx → List Cx

/-- Weight of a value of the multiplex in the audio filters (R128, R137). -/
opaque audioTap : Nat → Rat

/-- AM channel filter of an audio bandwidth in Hz (Table 5-7). -/
opaque amChannel : Nat → List Cx → List Cx

/-- One sideband of an AM baseband about its carrier, upper or lower (R147). -/
opaque sideband : Nat → List Cx → List Cx

/-- Weight of a value in the interpolation of AM audio from 24 kS/s to the timeline. -/
opaque timelineTap : Nat → Rat

/-- The 300 Hz to 3 kHz band of a millisecond of mono audio, and its decimation to 8 kHz (R244). -/
opaque envelopeBand : List Int → List Int
opaque decimate : List Int → List Int

/-- Weight of a sample in the rate conversion of a port (R305): rate code, offset of the rate in 0.01 ppm, fraction of a sample, number
of the sample. -/
opaque asrcTap : Nat → Rat → Rat → Nat → Rat

/-- Weight of a sample in an interpolation filter of a decoder's resampler (R216): fraction of a sample, number of the sample. -/
opaque resampleTap : Rat → Nat → Rat

/-- The coded bits of EN 300 401 that decoded bytes stand for at a protection, without the punctured ones (R193, R198). -/
opaque encodeBits : Nat → List Byte → List Bool

/-- Bytes of a subchannel behind the Viterbi decoder, from its time-deinterleaved values (R193): values and protection. The codes are
those of EN 300 401. -/
opaque viterbi : List Int → Nat → List Byte

/-- Whether an image passes the signature verification of the ROM and names its version, and its patch version (R394). -/
opaque patchVerifies : List Byte → Bool
opaque patchVersion : List Byte → Id16

/-- Fresh open values of the manual, by draw number: a choice and a number. -/
opaque freeBool : Nat → Bool
opaque freeNat : Nat → Nat

/-- The SELFTEST result bits and detail the manual leaves to the silicon (log entry 17). -/
opaque selftestFails : Nat → Nat

/-- Measured duration of a self test in ms (R440). -/
opaque selftestMs : Nat → Nat

end Sys2Proof.Config
end

