-- ==== Sys2Proof/Machine/Bytes.lean ====
section
/-! DEFINITION. Byte order (R7), signed fields (R8) and the check codes of the interfaces (R101, R332, R354). -/

namespace Sys2Proof.Machine

/-- The low 8 bits of a number as a byte. -/
def byte (n : Nat) : Byte := BitVec.ofNat 8 n

/-- A number as `k` bytes, least significant first (R7). -/
def le : Nat → Nat → List Byte
  | 0, _ => []
  | k + 1, n => byte n :: le k (n / 256)

/-- A signed number as `k` bytes in two's complement (R8). -/
def leS (k : Nat) (x : Int) : List Byte := le k (x % (256 ^ k : Nat)).toNat

/-- The number that bytes spell, least significant first. -/
def leVal : List Byte → Nat
  | [] => 0
  | x :: xs => x.toNat + 256 * leVal xs

/-- Field of `k` bytes at an offset; bytes that are not there read 0. -/
def rd (p : List Byte) (off k : Nat) : Nat := leVal ((p.drop off).take k)

/-- A number of `k` bytes read as two's complement. -/
def toSigned (k n : Nat) : Int := if n < 256 ^ k / 2 then n else (n : Int) - (256 ^ k : Nat)

/-- Signed field of `k` bytes at an offset. -/
def rdS (p : List Byte) (off k : Nat) : Int := toSigned k (rd p off k)

def flag (x : Bool) : Nat := if x then 1 else 0

/-- One bit of a mask. -/
def bitOf (m n : Nat) : Bool := m.testBit n

/-- The number of bits set among the first `n`. -/
def popBits (m n : Nat) : Nat := ((List.range n).filter (bitOf m)).length

/-- The mask with a bit set for each listed number. -/
def maskOf (l : List Nat) : Nat := l.foldl (fun m i => m ||| 2 ^ i) 0

/-- One shift of the CRC-8 of R354. -/
def crc8Step (c : BitVec 8) : BitVec 8 := if c.getMsbD 0 then (c <<< 1) ^^^ 0x2F else c <<< 1

/-- CRC-8, polynomial 0x2F, initial value 0xFF (R354). -/
def crc8 (l : List Byte) : Byte :=
  l.foldl (fun c x => (List.range 8).foldl (fun c _ => crc8Step c) (c ^^^ x)) 0xFF

def crc16Step (c : BitVec 16) : BitVec 16 := if c.getMsbD 0 then (c <<< 1) ^^^ 0x1021 else c <<< 1

/-- CRC-16, polynomial 0x1021, initial value 0xFFFF (R332). -/
def crc16 (l : List Byte) : BitVec 16 :=
  l.foldl (fun c x => (List.range 8).foldl (fun c _ => crc16Step c) (c ^^^ BitVec.ofNat 16 (x.toNat * 256))) 0xFFFF

def crc32Step (c : BitVec 32) : BitVec 32 := if c.getLsbD 0 then (c >>> 1) ^^^ 0xEDB88320 else c >>> 1

/-- CRC-32 of IEEE 802.3 (R101). -/
def crc32 (l : List Byte) : BitVec 32 :=
  (l.foldl (fun c x => (List.range 8).foldl (fun c _ => crc32Step c) (c ^^^ BitVec.ofNat 32 x.toNat)) 0xFFFFFFFF) ^^^ 0xFFFFFFFF

/-- Division rounded to the nearest whole number, ties away from zero. -/
def roundDiv (x : Int) (d : Nat) : Int :=
  if 0 ≤ x then (2 * x + d) / (2 * d) else -((-2 * x + d) / (2 * d))

/-- A rational rounded to the nearest whole number, ties away from zero. -/
def roundRat (x : Rat) : Int := if 0 ≤ x then (x + 1 / 2).floor else -((-x + 1 / 2).floor)

/-- Replace the element at a position, where there is one. -/
def upd {α : Type} (l : List α) (i : Nat) (f : α → α) : List α :=
  match l[i]? with
  | some x => l.set i (f x)
  | none => l

/-- Apply a function to each element with its position. -/
def mapIdx {α β : Type} (f : Nat → α → β) (l : List α) : List β := l.zipIdx.map fun x => f x.2 x.1

/-- `later a b` of two DFC values: a is after b in the window of 2^31 (R15). -/
def dfcAfter (a b : Dfc) : Bool := a != b && (a - b).toNat < 2 ^ 31

/-- Put an element before the first that it may stand before. -/
def insertBy {α : Type} (before : α → α → Bool) (x : α) : List α → List α
  | [] => [x]
  | y :: ys => if before x y then x :: y :: ys else y :: insertBy before x ys

/-- A stable sort. -/
def sortBy {α : Type} (before : α → α → Bool) (l : List α) : List α := l.foldr (insertBy before) []

/-- The position of the first element that satisfies a test. -/
def findPos {α : Type} (l : List α) (t : α → Bool) : Option Nat := l.findIdx? t
/-- Bits of the first mask that the second lacks. -/
def maskMinus (a b : Nat) : Nat := maskOf ((List.range 8).filter fun i => bitOf a i && !bitOf b i)

end Sys2Proof.Machine
end

