-- ==== Sys2Proof/Machine/State.lean ====
section
/-! DEFINITION. The state of the device as plain data, and `State.reset`, the state in which a cold reset has ended
and the start-up of the main domain has begun (log entry 6). -/

namespace Sys2Proof.Machine

/-- Why a step stops with a fault. -/
inductive Fault where
  /-- Raised by an event row that names a unit the variant does not have (R2, R17): a fused-off unit has no events.
  Safe: the model stops where the hardware cannot be. -/
  | absentUnit
deriving DecidableEq, Repr

/-- Why a step is refused. -/
inductive Refusal where
  /-- Raised by an arm of the dispatcher that has no meaning. Safe. -/
  | notModelled (mnemonic : String)
  /-- Raised when an opcode 0xF0 to 0xFF is executed outside FIELD (Table 17-10 calls it a vendor test and gives no
  effect). Safe. -/
  | vendorTest
deriving DecidableEq, Repr

/-! ## The part and its supplies -/

inductive Tier where | t96 | t48 | t24
deriving DecidableEq, Repr

/-- The variant of Table 0-1. -/
structure Variant where
  tier : Tier
  whole : Bool
  gradeC : Bool
deriving DecidableEq, Repr

inductive LifeCycle where | foundry | oem | field | retired
deriving DecidableEq, Repr

structure Chip where
  variant : Variant
  life : LifeCycle
  /-- The OEM provisioning area has been written since its last wipe (R499). -/
  oemWritten : Bool
deriving DecidableEq, Repr

/-- What the main domain does (R388, R479, R517). -/
inductive Domain where
  | off | starting | ready | blackout
deriving DecidableEq, Repr

/-- Why the main domain is off (R486, R487, R515). -/
inductive OffCause where
  | none | hardHalt | thermal | command | resetn | backupOnly
deriving DecidableEq, Repr

/-- The causes of `EV_RESET_DONE` (Table 17-3 and cold). -/
inductive ResetCause where
  | cold | resetn | command | watchdog | mainReturn | ramError | thermal
deriving DecidableEq, Repr

structure Supply where
  vmain : Nat
  vbak : Nat
  vio : Nat
  vana : Nat
  sag : Bool
  onVbak : Bool
  vio33 : Bool
  ioTristate : Bool
  halts : Nat
  switchovers : Nat
  resetnLow : Bool
  /-- VBK_CAP is above its thresholds (R471). -/
  backupOn : Bool
deriving DecidableEq, Repr

structure Reset where
  domain : Domain
  offCause : OffCause
  /-- Cause of the reset in progress or last ended. -/
  cause : ResetCause
  skipScene : Bool
  /-- The previous reset's `EV_RESET_DONE` has been queued (R484). -/
  doneQueued : Bool
  /-- `now` at the last `EV_RESET_DONE` (R518). -/
  doneAt : Nat
  /-- Consecutive resets of cause 3 or 5 (R518). -/
  coreChain : Nat
  /-- The reset now in progress followed one of cause 3 or 5 whose `EV_RESET_DONE` was never queued (R484). -/
  sceneBarred : Bool
  /-- The scene is being reapplied (R485). -/
  reapplying : Bool
  /-- Ticks since the main domain stopped, saturating (R473). -/
  offTicks : Nat
  /-- After a trip: `now` since which 115 degC or less and VMAIN good have held together (R515). -/
  coolSince : Option Nat
  /-- A wipe failed or the ROM failed and the code that is logged (R518). -/
  blackoutCode : Option Nat
deriving DecidableEq, Repr

structure Thermal where
  sensors : List Int
  backup : Int
  /-- Consecutive reads at 135 degC or more (R515). -/
  tripReads : Nat
  /-- Die temperature at which calibration triggers were last decided (R35, R90). -/
  judged : Int
deriving DecidableEq, Repr

/-! ## Control link and events -/

/-- A command packet without its CRC (R353). -/
structure Packet where
  opc : Byte
  tag : Byte
  param : List Byte
deriving DecidableEq, Repr

structure Reply where
  status : Byte
  tag : Byte
  payload : List Byte
deriving DecidableEq, Repr

structure Link where
  address : Nat
  queue : List Packet
  fifo : List Reply
  /-- Reply of a completed command that waits for a FIFO entry (R360). -/
  waiting : Option Reply
  /-- Nothing is acknowledged until a STOP (R352, R366, R369). -/
  ignoring : Bool
deriving DecidableEq, Repr

structure Event where
  bit : Nat
  epoch : Byte
  eflags : Byte
  dfc : Dfc
  body : List Byte
deriving DecidableEq, Repr

/-- The place of the overflow record: how many ordinary records stand before it (R390). -/
structure Overflow where
  before : Nat
  epoch : Byte
  eflags : Byte
  dfc : Dfc
  lost : Nat
deriving DecidableEq, Repr

inductive PinLevel where | low | high | highZ
deriving DecidableEq, Repr

structure Events where
  queue : List Event
  overflow : Option Overflow
  mask : BitVec 32
  promptEnable : Bool
  mirrorGpio : Nat
  mirror : PinLevel
  promptDue : Bool
  /-- `now` of the last prompt made or abandoned, or of the last `EVENT_READ` (R371). -/
  promptBase : Nat
  promptsMade : Nat
deriving DecidableEq, Repr

/-! ## Timeline, clocks -/

inductive TimeSource where | pllA | flywheel | held
deriving DecidableEq, Repr

structure Timeline where
  dfc : Dfc
  epoch : Byte
  source : TimeSource
  /-- PLL-A has locked since the reset, so the DFC has been set to 0 (R27). -/
  started : Bool
  /-- The next first lock is the one after a cold reset (R27). -/
  coldLock : Bool
  armed : Bool
  /-- An armed edge has been captured and its sync instant is to come (R457). -/
  captured : Bool
  edges : Nat
  /-- Alignment in use (R464). -/
  inUse : Bool
  lostSinceArm : Bool
  /-- Alignment was in use when the reference was lost (R464). -/
  usedAtLoss : Bool
  /-- A SYNC edge was acted on during the return (Table 16-7). -/
  edgeInReturn : Bool
deriving DecidableEq, Repr

inductive RefState where | absent | present | buildOut
deriving DecidableEq, Repr

/-- PLL-S states of Table 15-7. -/
inductive PllSState where | off | locking | locked | coasting | hopping
deriving DecidableEq, Repr

/-- PLL-A states of Table 15-7. -/
inductive PllAState where | off | locking | locked | gated | coasting
deriving DecidableEq, Repr

inductive PllNState where | off | locking | locked
deriving DecidableEq, Repr

structure ClockOutput where
  enable : Bool
  source : Nat
  divider : Nat
  delay : Nat
  gated : Bool
deriving DecidableEq, Repr

structure Clocks where
  refin : Bool
  refHz : Nat
  pathS : Nat
  pathA : Nat
  pathN : Nat
  ref : RefState
  pllS : PllSState
  pllA : PllAState
  pllN : PllNState
  /-- Plan in force and plan recorded for the next start of reception (R424). -/
  plan : Nat
  recorded : Nat
  trim : Int
  target : Int
  /-- TAG of a `FREQ_TRIM` that is pending (R427). -/
  trimTag : Option Byte
  pauseUs : Nat
  hops : Nat
  outs : List ClockOutput
  /-- Plans whose sub-band is held in the main copy of the band memory (R447). -/
  band : List Bool
  /-- PLL-A and PLL-S have both locked since the start-up or the last `REF_CONFIG` (R467). -/
  startLocked : Bool
  /-- Build-out offsets in ps of PLL-S and PLL-A (R463), and the largest of the present return. -/
  offS : Nat
  offA : Nat
  stepMax : Nat
  /-- `trimStep` movement counter: `now` of the last step. -/
  stepAt : Nat
deriving DecidableEq, Repr

/-! ## Cues and the stage manager -/

structure Cue where
  id : Nat
  target : Dfc
  packet : Packet
  /-- The target was not in the future when the cue was set, or the cue has been held behind a command (R31, R35). -/
  late : Bool
deriving DecidableEq, Repr

/-- A slot content of Table 11-3. -/
structure Slot where
  content : Nat
  source : Nat
deriving DecidableEq, Repr

structure SpdifCfg where
  enable : Bool
  program : Nat
  rate : Nat
  wordLen : Nat
  copy : Nat
  category : Nat
deriving DecidableEq, Repr

/-- What names a source of a program (R235). Kind 0 FM lane, 1 AM lane, 2 DAB component. -/
structure Source where
  kind : Nat
  lane : Nat
  eid : Id16
  sid : Id32
  scids : Nat
deriving DecidableEq, Repr

/-- The audio part of a command, which a cue executed ahead holds until its target (R29). -/
inductive AudioEffect where
  | slots (port first : Nat) (slots : List Slot)
  | spdif (cfg : SpdifCfg)
  /-- Times always; hold or release unless the command only sets times. -/
  | curtain (program : Nat) (hold : Option Bool) (downMs upMs : Nat)
  | remove (program : Nat) (source : Source)
  | primary (program : Nat)
  | stop (program : Nat)
deriving DecidableEq, Repr

structure HeldEffect where
  cue : Nat
  target : Dfc
  effect : AudioEffect
deriving DecidableEq, Repr

/-- What a command that has been executed up to its last step still waits for (R282, R316, R384). -/
inductive Wait where
  | lane (id : Nat)
  | engine (id : Nat)
  | reception
  | port (port : Nat)
  | relock
deriving DecidableEq, Repr

/-- A command that has started and not completed (R35). -/
structure Executing where
  packet : Packet
  cue : Option Nat
  late : Bool
  execDfc : Dfc
  wait : Wait
  payload : List Byte
deriving DecidableEq, Repr

structure Manager where
  executing : Option Executing
  cueExec : Option Executing
  rxRunning : Bool
  rxStartedSinceReset : Bool
  patch : List Byte
  patchVersion : Id16
  committed : Bool
  /-- A commit has failed and the load is kept, to be corrected from any offset (R394). -/
  commitFailed : Bool
  /-- `now` of the oldest change not yet captured (R482). -/
  sceneChanged : Option Nat
  sceneCapturedAt : Option Nat
deriving DecidableEq, Repr

/-! ## Inputs, feed lines, calibration -/

structure BandPlan where
  enable : Bool
  fmRanges : Nat
  dab : Bool
  fmRaster : Nat
  amRanges : Nat
  amRaster : Nat
deriving DecidableEq, Repr

structure GainCfg where
  fixedMode : Bool
  fixed : Nat
  floor : Nat
  ceiling : Nat
  target : Int
deriving DecidableEq, Repr

structure Input where
  plan : BandPlan
  gcfg : GainCfg
  gain : Nat
  receiving : Bool
  /-- Admitted, and not yet receiving (R282). -/
  waiting : Bool
  receivedSinceReset : Bool
  rms : Int
  /-- Consecutive 1 ms windows since the last step, at or below target - 2 dB and without a clipped sample, up to 100 (R44). -/
  quietMs : Nat
  /-- A 64 us window of the present 1 ms window held a clipped sample. -/
  clipSeen : Bool
  /-- 64 us windows, newest first: `now` at the end, clipped and all samples (R55). -/
  clipHist : List (Nat × Nat × Nat)
  /-- Clipped and all samples of the present 1 ms window, and of the latest whole one (R80, R84). -/
  clipMs : Nat × Nat
  clipLast : Nat × Nat
  /-- Whole 1 ms windows since the last step, up to 2 (R80). -/
  windows : Nat
  /-- The digital factor ahead of the channelizer, 1/512 dB: the inverse of the gain changes since the input started (R48). -/
  comp : Int
  /-- Steps of the last 200 ms, newest first: `now` and the factor before (R48). -/
  compLog : List (Nat × Int)
  /-- Gap markers of the last 200 ms, newest first: first tick and ticks (R106, R291). -/
  gaps : List (Nat × Nat)
  /-- A setting waits for the first step instant (R46). -/
  gainDue : Bool
  overloaded : Bool
  binMap : List Int
  binDfc : Dfc
  fineMap : List Int
  fineDfc : Dfc
  /-- The 1 ms RMS before the latest one (R80). -/
  rmsPrev : Int
  /-- A step began the present 1 ms window: the gains before and after it, and the RMS before it (R80). -/
  stepPending : Option (Nat × Nat × Int)
deriving DecidableEq, Repr

structure Feed where
  input : Nat
  mode : Nat
  retryMs : Nat
  retryMax : Nat
  enabled : Bool
  faultLow : Bool
  latched : Bool
  retries : Nat
  /-- Waiting to retry since (R60). -/
  waitSince : Option Nat
  /-- Re-enabled at (R60). -/
  enabledAt : Option Nat
deriving DecidableEq, Repr

inductive RunState where | idle | due | running | deferred
deriving DecidableEq, Repr

/-- Corrections of one high-band sub-lane in record units (Table 3-6). -/
structure SubLane where
  offset : Int
  gain : Int
  skew : Int
  sar : List Int
deriving DecidableEq, Repr

/-- The corrections of one input (Table 3-1), high band and low band together. -/
structure WorkSet where
  subs : List SubLane
  stepDev : List (Option Int)
  comps : List Nat
  caps : List Nat
  offset : Int
  gain : Int
deriving DecidableEq, Repr

/-- One entry of a calibration table (Tables 3-6, 3-7). -/
structure CalEntry where
  valid : Bool
  settled : Bool
  atLimit : Bool
  length : Nat
  tMeas : Int
  set : WorkSet
deriving DecidableEq, Repr

/-- A calibration table in the retained bank; `ok` is its CRC (R101). -/
structure CalTable where
  input : Nat
  plan : Nat
  ok : Bool
  initialised : Bool
  writes : Nat
  entries : List CalEntry
deriving DecidableEq, Repr

structure CalInput where
  run : RunState
  /-- The pending run was named by `CAL_RUN`, so it starts in mode 1 too (R92). -/
  byCommand : Bool
  /-- Reason bits of the latest window, or of the deferral (Table 3-8). -/
  reasons : Nat
  deferredSince : Option Nat
  /-- `now` from which the tests of a deferred run are evaluated again (R85, R93). -/
  retryAt : Nat
  /-- The last run completed since the stage reset (Table 15-5). -/
  lastTMeas : Option Int
  lastAt : Nat
  lastFlags : Nat
  /-- T_meas of the entry nearest to the die temperature when the ADC started (R90). -/
  tStart : Option Int
  startedAt : Nat
  /-- The working set has been derived since the stage reset (R88). -/
  derived : Bool
  /-- Plan whose table the working set follows (R89). -/
  plan : Nat
  work : WorkSet
  /-- Row of Table 3-5 of the latest derivation that found an entry (R97). -/
  row : Nat
  /-- Skew targets of the 17 sub-lanes, 0.5 fs from tap 64, of mean 0 (R76). -/
  targets : List Int
  /-- Reason mask of the latest failing window of the run (R85). -/
  failMask : Nat
  /-- Slot of the entry whose selections the derivation follows (R87). -/
  selSlot : Option Nat
  /-- Temperatures of the previous updates: of each sub-lane (index 0 in the low band), then of the step deviations. -/
  tLast : List Int
  /-- The latest completed run on this plan settled (R97). -/
  settledRun : Bool
  /-- Run data: start temperature, sum and number of temperatures read, windows or rotation intervals so far, failed windows
  or void rehearsals, whether the first window is still to come, and the sub-lanes whose latest rehearsal met R94. -/
  runStartT : Int
  tSum : Int
  tCount : Nat
  runLen : Nat
  runFails : Nat
  runFirst : Bool
  runQuiet : List Bool
  /-- Rotation (R72): sub-lane at each position, withdrawn sub-lane, swap position. -/
  occ : List Nat
  understudy : Nat
  pos : Nat
  rotating : Bool
  inOverlap : Bool
  swapFails : Nat
  suspect : Option Nat
  subWin : Nat
  subFails : Nat
  /-- The sub-window in progress contains a sequencer reset (R81). -/
  skipWin : Bool
  /-- The rehearsed sub-lane as its rehearsal began (R88, R94). -/
  before : SubLane
  /-- Low-band selection changes not yet applied: level (true) or stage, its number and the choice (R83). -/
  pendingSel : List (Bool × Nat × Nat)
  pendingOffGain : Option (Int × Int)
  /-- A completed result and the plan of its table wait for VMAIN (R95). -/
  writeWaits : Option (Nat × CalEntry)
deriving DecidableEq, Repr

structure CalPolicy where
  mask : Nat
  mode : Nat
  deltaT : Nat
  maxInterval : Nat
  store : Bool
deriving DecidableEq, Repr

structure Cal where
  policy : CalPolicy
  inputs : List CalInput
deriving DecidableEq, Repr

/-! ## Lanes and RDS -/

inductive InstState where | free | wings | running | draining
deriving DecidableEq, Repr

inductive Owner where | host | scan | af | watch
deriving DecidableEq, Repr

structure FmSet where
  deemph : Nat
  stereo : Nat
  filter : Nat
  profile : Nat
deriving DecidableEq, Repr

structure AmSet where
  detector : Nat
  sideband : Nat
  bandwidth : Nat
  blanker : Nat
  profile : Nat
deriving DecidableEq, Repr

/-- An assignment that waits for draining to end (R21): `mask` is the effective set as admitted, `asked` the inputs that the
assignment named, 0 for the default. -/
structure Pend where
  owner : Owner
  exact : Bool
  af : Option Id16
  freq : Nat
  block : Nat
  mask : Nat
  asked : Nat
  pin : Bool
  start : Bool
  opc : Byte
  tag : Byte
deriving DecidableEq, Repr

/-- A field read twice before it is accepted (R158). -/
structure Twice where
  last : Option Nat
  acc : Option Nat
deriving DecidableEq, Repr

structure RdsFields where
  tp : Twice
  pty : Twice
  ta : Twice
  ms : Twice
  di : List Twice
  ps : List Twice
  ecc : Twice
  lang : Twice
  pin : Twice
  /-- EON PS segments: other PI, segment, field (R162). -/
  eonPs : List (Id16 × Nat × Twice)
  /-- AF list in progress: the codes since its count code (R160). -/
  afList : Option (List Nat)
deriving DecidableEq, Repr

structure RdsCfg where
  rbds : Bool
  correct : Nat
  regional : Bool
  afLanes : Nat
  flowQuality : Nat
  groupMask : BitVec 32
  dbStore : Bool
deriving DecidableEq, Repr

structure RdsDecoder where
  synced : Bool
  /-- Last offset seen without error, for acquisition (R153). -/
  prev : Option RdsOffset
  /-- The last 50 blocks, newest first: status 3 or not. -/
  history : List Bool
  /-- Position of the next block in its group, and whether the group has been received from its first block. -/
  pos : Nat
  whole : Bool
  /-- Blocks of the group in progress: word and status; and the offset of block 3. -/
  blocks : List (Id16 × Nat)
  cPrime : Bool
  firstGroup : Bool
  /-- A whole group waits for its row. -/
  ready : Bool
  /-- Configuration in force until the group boundary (R155). -/
  cfg : Option RdsCfg
deriving DecidableEq, Repr

structure Identity where
  pi : Option Id16
  /-- The last PI reported or first confirmed, and the PI as last reported (R144). -/
  last : Option Id16
  shown : Option Id16
  cand : Option Id16
  count : Nat
  carriedAt : Nat
  /-- `now` of the last identity record, and the changes since that wait for the end of its 500 ms. -/
  recordAt : Option Nat
  waiting : Nat
deriving DecidableEq, Repr

structure Quality where
  cnr : Nat
  mpImp : Nat
  adj : Nat
  lq : Nat
deriving DecidableEq, Repr

/-- A block of 8 complex samples of one bin: exponent field E and the mantissas of I and Q (R111). -/
structure BinBlock where
  exp : Nat
  mant : List (Int × Int)
deriving DecidableEq, Repr

/-- A sample pair of signed 24-bit PCM with its valid flag (R128, R130). -/
structure Sample where
  l : Int
  r : Int
  valid : Bool
deriving DecidableEq, Repr

/-- One antenna of an FM lane's combining (R115, R116): its channel relative to the strongest, whether it has weight, and the
factor of its entry or its leaving. -/
structure Branch where
  input : Nat
  h : Cx
  live : Bool
  ramp : Rat
deriving DecidableEq, Repr

/-- Memories of the audio networks of a lane: de-emphasis, high cut, level control and high-pass. -/
structure Networks where
  deemL : Rat
  deemR : Rat
  cutL : Rat
  cutR : Rat
  level : Rat
  hpIn : Rat
  hpOut : Rat
deriving DecidableEq, Repr

/-- The settings of a lane's audio whose change is crossfaded (R132, R135, R140, R147, R149). -/
structure ChainSet where
  deemph : Nat
  width : Nat
  sync : Bool
  sideband : Nat
  corner : Option Rat
  /-- The width follows ADJ (R135). -/
  auto : Bool
deriving DecidableEq, Repr

structure Lane where
  st : InstState
  owner : Owner
  pinned : Bool
  /-- Admitted work whose processing has not begun (R282). -/
  starting : Bool
  freq : Nat
  mask : Nat
  /-- Antennas of the set that have been admitted and whose processing has not begun (R282). -/
  held : Nat
  /-- Antennas whose weight ramps to zero, and `now` at the end of the ramp (R116). -/
  ramps : List (Nat × Nat)
  pend : Option Pend
  doneTag : Option (Byte × Byte)
  fm : FmSet
  am : AmSet
  /-- Parameters to be taken at the next 10 ms update (R132). -/
  fmNext : Option FmSet
  amNext : Option AmSet
  first : Bool
  raw : Quality
  cnrS : Rat
  mpS : Rat
  adjS : Rat
  smoothed : Quality
  levels : List Int
  freqOffset : Int
  peak : Nat
  pilotDev : Nat
  audioRms : Nat
  silenceMs : Nat
  pilot : Bool
  loop : Bool
  syncDet : Bool
  concealing : Bool
  valid : Bool
  gate : Rat
  blendS : Rat
  corner : Option Rat
  mute : Rat
  filter : Nat
  widenMs : Nat
  statsMs : Nat
  ident : Identity
  rds : RdsDecoder
  fields : RdsFields
  traffic : Bool
  alarm : Bool
  test : Bool
  /-- `now` since which PTY has been accepted as another value (R167). -/
  alarmOffAt : Option Nat
  testOffAt : Option Nat
  startedAt : Nat
  /-- Scan and AF bookkeeping: absent since, PI that an AF lane serves. -/
  absentSince : Option Nat
  afFor : Option Id16
  /-- An AF lane has confirmed its programme within 5 s of starting (R169). -/
  afOk : Bool
  /-- Centre bin and offset in Hz, loaded at assignment and at a hop (R113, R114). -/
  bin : Nat
  nco : Int
  branches : List Branch
  /-- The blocks of the latest update as transported: input, and the blocks of each bin (R111). -/
  bins : List (Nat × List (List BinBlock))
  nets : Networks
  chain : Option ChainSet
  /-- Side factor b at the end of the latest update (R137), the last values of the multiplex (FM) and samples of the wideband baseband
  on their way through the blanker (AM). -/
  sideGain : Rat
  mpx : List Rat
  wide : List Cx
  /-- Samples to come before concealment, the output of the present tick, and outputs before it, newest first (R293). -/
  audio : List Sample
  out : Sample
  past : List Sample
  /-- Samples lost on the way to the lane alone (R502, R504): first tick and ticks, beside the gaps of its inputs. -/
  gaps : List (Nat × Nat)
  /-- A gap span under way: samples since it began, samples left, and whether it exceeds 20 ms; then samples of the fade-in. -/
  spanDone : Nat
  spanLeft : Nat
  spanLong : Bool
  fadeIn : Nat
  /-- Per update, newest first: offsets (100 ms), peaks (1 s), mean output power (1 s), blanked fraction in 10^-6 (100 ms); and the
power of the samples put out since the latest update. -/
  offsets : List Int
  peaks : List Nat
  powers : List Rat
  blanked : List Nat
  outPower : Rat
deriving DecidableEq, Repr

structure Lanes where
  fm : List Lane
  am : List Lane
  fmDefault : FmSet
  amDefault : AmSet
deriving DecidableEq, Repr

structure AfEntry where
  code : Nat
  regional : Bool
  lfMf : Bool
  methodB : Bool
  eon : Bool
  /-- `now` when it was last listed (R161). -/
  seenAt : Nat
deriving DecidableEq, Repr

/-- A station record (Table 6-3). -/
structure Station where
  valid : Bool
  pi : Id16
  tp : Bool
  ta : Bool
  ms : Bool
  ecc : Option Nat
  lang : Option Nat
  pin : Option Nat
  rbds : Bool
  eonOnly : Bool
  pty : Nat
  di : Nat
  ps : List (Option Nat)
  /-- `now` when a lane last confirmed this PI. -/
  seenAt : Nat
  lastLq : Nat
  lastLane : Nat
  af : List AfEntry
  eonPi : List Id16
  /-- Changed since, last written to the retained bank. -/
  changedAt : Option Nat
  writtenAt : Option Nat
deriving DecidableEq, Repr

structure EonTraffic where
  lane : Nat
  pi : Id16
  lastAt : Nat
deriving DecidableEq, Repr

structure Rds where
  cfg : RdsCfg
  stations : List Station
  generation : Nat
  eon : List EonTraffic
  /-- Frequencies skipped by the AF rule until (R169). -/
  afSkip : List (Nat × Nat)
  /-- The records have been wiped: running lanes make theirs at the next fine-map update (R165). -/
  remake : Bool
deriving DecidableEq, Repr

structure ScanPolicy where
  mode : Nat
  fmDetect : Nat
  amDetect : Nat
  dabDetect : Nat
  antennas : Nat
  keepFm : Nat
  keepDab : Nat
  holdS : Nat
  swapDb : Nat
deriving DecidableEq, Repr

/-- A scan point and the consecutive updates at which it met its threshold (R122). -/
structure Point where
  kind : Nat
  freq : Nat
  excess : List (Nat × Int)
  seen : Nat
  detected : Bool
deriving DecidableEq, Repr

structure Scan where
  policy : ScanPolicy
  next : Option ScanPolicy
  points : List Point
  /-- The strongest unheld carrier of each kind and its count of updates (R123). -/
  rivals : List (Nat × Nat × Nat)
  /-- Blocks not assigned again until (R123). -/
  barred : List (Nat × Nat)
deriving DecidableEq, Repr

/-! ## DAB -/

inductive Acq where | idle | nullSearch | prsSync | candidate | locked | hold
deriving DecidableEq, Repr

structure Subch where
  id : Nat
  start : Nat
  size : Nat
  prot : Nat
  fec : Nat
  /-- Audio parameters last signalled (Table 8-4), 0 until then. -/
  audio : Nat
  /-- Newest first: bit errors and bits of 84 CIFs; RS corrections, RS failures and frame failures of 420 CIFs (R198). -/
  ber : List (Nat × Nat)
  rs : List (Nat × Nat × Nat)
  /-- A reconfiguration found its next organisation not received: it waits for FIG 0/1 (R205). -/
  late : Bool
  /-- Start and size under which the latest CIFs were received, newest first, `none` for erased ones; older ones as now (R205). -/
  places : List (Option (Nat × Nat))
  /-- Locked frames of the engine at the last use (R204). -/
  seen : Nat
deriving DecidableEq, Repr

structure Component where
  sid : Id32
  scids : Nat
  subch : Nat
  tmid : Nat
  /-- ASCTy, or DSCTy of a packet component. -/
  ascty : Nat
  scid : Nat
  primary : Bool
  /-- Scrambled by the flag of its FIG 0/2 entry or a CAId; and that flag alone (R207). -/
  scrambled : Bool
  scrFlag : Bool
  caid : Nat
  addr : Nat
  lang : Nat
  apps : List Nat
  label : Option (List Byte)
  labelMask : Nat
  charset : Nat
  seen : Nat
deriving DecidableEq, Repr

structure Service where
  sid : Id32
  label : Option (List Byte)
  labelMask : Nat
  charset : Nat
  pty : Option Nat
  caid : Nat
  /-- The component entries of its FIG 0/2. -/
  listed : List FigComp
  seen : Nat
deriving DecidableEq, Repr

/-- FIG 0/3: subchannel, packet address and DSCTy of a packet component. -/
structure PacketComp where
  scid : Nat
  subch : Nat
  addr : Nat
  dscty : Nat
deriving DecidableEq, Repr

structure Linkage where
  lsn : Nat
  pd : Bool
  ils : Bool
  hard : Bool
  active : Bool
  sids : List Id32
  pis : List Id16
  eids : List Id16
  seen : Nat
deriving DecidableEq, Repr

structure AnnSupport where
  sid : Id32
  asu : Nat
  clusters : List Nat
  seen : Nat
deriving DecidableEq, Repr

structure Cluster where
  id : Nat
  asw : Nat
  subch : Nat
  new : Bool
  region : Nat
  /-- Types in progress, and types clear at the latest use only (R222). -/
  active : Nat
  clearOnce : Nat
  usedAt : Nat
deriving DecidableEq, Repr

structure Model where
  eid : Option Id16
  cif : Nat
  change : Nat
  occurrence : Nat
  ecc : Nat
  lto : Int
  mjd : Nat
  ms : Nat
  label : Option (List Byte)
  labelMask : Nat
  charset : Nat
  services : List Service
  comps : List Component
  subchs : List Subch
  linkage : List Linkage
  annSup : List AnnSupport
  clusters : List Cluster
  packets : List PacketComp
  /-- FIG 0/8: SId and SCIdS of a secondary component, and its SubChId or, in the long form (true), its SCId. -/
  secondaries : List (Id32 × Nat × Bool × Nat)
  /-- Next configuration collected for a reconfiguration (R205). -/
  nextSubchs : List Subch
  nextServices : List (Id32 × Nat × List FigComp)
  current : Bool
  everCurrent : Bool
  /-- `now` at the last use of a passing FIB (R206). -/
  lastFibAt : Option Nat
deriving DecidableEq, Repr

/-- A searcher peak with its run of qualifying frames (R179). -/
structure Peak where
  timing : Int
  /-- Sub-carriers from the tracked offset (R179, R181). -/
  shift : Int
  relDb : Int
  frames : Nat
  strong : Nat
  /-- A FIB at its timing has passed in this run. -/
  fib : Bool
  eid : Option Id16
  ignore : Nat
deriving DecidableEq, Repr

/-- A group of the soft-bit store: its codes as values, its parity bit and its erasure bit (R190). -/
structure Group where
  vals : List Int
  parity : Bool
  erased : Bool
deriving DecidableEq, Repr

/-- One antenna of an engine (R185, R186): taps, noise powers and the gate of each carrier, symbols until it joins and the factor of
its leaving. -/
structure Antenna where
  input : Nat
  taps : List Cx
  noise : List Rat
  gate : List Bool
  wait : Nat
  ramp : Rat
deriving DecidableEq, Repr

/-- Figures of an engine as last measured, for its draining (R150, R197): flags, strongest peak, clock, seconds of lock, quality. -/
structure LastFigures where
  flags : Nat
  searcher : Int
  clock : Int
  lockS : Nat
  eq : Nat
deriving DecidableEq, Repr

structure Engine where
  st : InstState
  owner : Owner
  pinned : Bool
  starting : Bool
  block : Nat
  freq : Nat
  mask : Nat
  /-- Antennas of the set that have been admitted and whose processing has not begun (R282). -/
  held : Nat
  ramps : List (Nat × Nat)
  pend : Option Pend
  doneTag : Option (Byte × Byte)
  exact : Bool
  /-- Mode change waiting for the next CIF boundary; conversion under way (R191). -/
  modeNext : Option Bool
  converting : Bool
  shares : Nat
  acq : Acq
  acqFrames : Nat
  eid : Option Id16
  lastEid : Option Id16
  failed : Nat
  otherEid : Option Id16
  otherCount : Nat
  peaks : List Peak
  cifsStored : Nat
  /-- The last 16 CIFs, oldest first, in groups (R188 to R190). -/
  store : List (List Group)
  /-- Newest first, failed FIBs of the last 21 frames. -/
  ficHist : List Nat
  /-- MER of the last frame and smoothed MER, 0.01 dB (R195). -/
  merRaw : Int
  merS : Rat
  /-- The next value sets the smoothed MER (R195). -/
  merFirst : Bool
  levels : List Int
  freqOffset : Int
  clockPpm : Int
  clockSince : Option Nat
  lockAt : Nat
  lockedFrames : Nat
  erasing : Bool
  beyondGuard : Bool
  tapsReused : Bool
  /-- Centre bin and offset in Hz, loaded at assignment and at a hop (R113, R201). -/
  bin : Nat
  nco : Int
  antennas : List Antenna
  /-- Estimated carriers of the latest symbol, and the symbol as received on each input (R185, R186). -/
  sent : List Cx
  prevSym : List (Nat × List Cx)
  /-- Place of the FFT window, samples (R185). -/
  window : Int
  /-- Sums of the MER of the frame in progress (R195). -/
  merNum : Rat
  merDen : Rat
  /-- MSC symbols that a path handover cuts off the next frame (R182). -/
  cut : Nat
  /-- CIFs of the frame in progress, and the counter of the CIF stored last (R182). -/
  cifOfFrame : Nat
  lastCif : Option Nat
  /-- Samples on their way to the engine have been lost since its last frame, beside the gaps of its inputs (R200, R504). -/
  gapSeen : Bool
  lastFigs : Option LastFigures
  model : Model
  startedAt : Nat
  absentSince : Option Nat
  statsFrames : Nat
  fibFrame : List (List Byte)
deriving DecidableEq, Repr

structure Dab where
  engines : List Engine
  defaultExact : Bool
  generation : Nat
deriving DecidableEq, Repr

/-- Who uses a program decoder (R211, R212). -/
inductive DecoderUse where
  | none
  | own (program : Nat)
  | loan (program order : Nat)
deriving DecidableEq, Repr

/-- Output of a decoder from one unit: its first and last tick, the quality of the frames it came in, and whether it is concealment
(R217, R257). -/
structure OutSpan where
  first : Nat
  last : Nat
  eq : Nat
  conceals : Bool
deriving DecidableEq, Repr

structure Decoder where
  use : DecoderUse
  key : Option Source
  /-- Engine it is bound to; `none` while unbound (R214). -/
  engine : Option Nat
  /-- Engine of the last binding of this key (R249). -/
  last : Option Nat
  valid : Bool
  /-- It conceals the audio of the latest CIF (R217). -/
  concealing : Bool
  /-- The effort of R213 is held. -/
  charged : Bool
  limited : Bool
  /-- Decoded samples at the component's rate before the resampler, with the place of the next output sample among them (R216). -/
  coded : List Sample
  place : Rat
  /-- Its rate in kHz. -/
  rate : Nat
  /-- Output samples to come and the one of the present tick (R216). -/
  audio : List Sample
  out : Sample
  /-- What its output in the latest and the coming ticks came from, oldest first (R257). -/
  spans : List OutSpan
  /-- The last good unit, samples at 48 kHz since the first concealed one, and whether the next good unit fades in (R217). -/
  lastGood : List (Int × Int)
  concealed : Nat
  fadeIn : Bool
  /-- Ratio of the adaptive resampler in 0.01 ppm, once it follows a clock (R216). -/
  ratio : Option Rat
deriving DecidableEq, Repr

/-! ## Programs -/

structure LinkPolicy where
  auto : Nat
  prefer : Nat
  align : Bool
  entry : Nat
  eqLow : Nat
  eqHyst : Nat
  lqLow : Nat
  lqHyst : Nat
  lqMargin : Nat
  holdS : Nat
  maxMembers : Nat
deriving DecidableEq, Repr

structure AnnPolicy where
  enable : Bool
  types : Nat
  fmTraffic : Bool
  scope : Nat
  gainDb : Int
  endDelay : Nat
deriving DecidableEq, Repr

/-- An alignment history (R244), newest first: samples of the present ms, the envelope at 1 kHz with its validity, and the audio at
8 kHz in 8 bits. -/
structure Trace where
  acc : List (Int × Bool)
  env : List (Nat × Bool)
  /-- A sample-plan hop or a FIFO gap fell into the ms (R267). -/
  hit : List Bool
  aud : List Nat
deriving DecidableEq, Repr

/-- One channel of a block of the delay store (R251): shift and mantissas (class C) or samples (class E), and its CRC-8. -/
structure StoreBlock where
  shift : Nat
  vals : List Int
  crc : Byte
deriving DecidableEq, Repr

/-- A block pair with its metadata. -/
structure BlockPair where
  left : StoreBlock
  right : StoreBlock
  lq : Nat
  valid : Bool
  slot : Nat
deriving DecidableEq, Repr

/-- The delay store of one program: samples of the block in progress and whole pairs, newest first, and samples recorded. -/
structure DelayStore where
  acc : List Sample
  pairs : List BlockPair
  recorded : Nat
deriving DecidableEq, Repr

structure Member where
  src : Source
  /-- 0 primary, 1 host, 2 automatic. -/
  origin : Nat
  delta : Option Int
  lowSince : Option Nat
  goodSince : Option Nat
  betterSince : Option Nat
  underrun : Bool
  /-- First tick of the latest run of late samples, and the tick from which they are on time again (R265, R266). -/
  lateFrom : Nat
  onTimeSince : Option Nat
  concealDue : Bool
  joinedAt : Nat
  notAdmittedSince : Option Nat
  /-- Better candidates of the same path, and since when each has stood, for the replacement of R238. -/
  rivals : List (Source × Nat)
  /-- The latest measurement of its delay since it joined (R242). -/
  measuredAt : Option Nat
  /-- Its trim stage, newest first (R241), and its history for the measurement of its delay (R242). -/
  line : List Sample
  trace : Trace
deriving DecidableEq, Repr

/-- Where the search for tau stands (R245 to R249). -/
inductive AlignState where
  | off
  | searching (since : Nat)
  | refining (since lagMs at_ : Nat)
  | aligned
  | realigning (since : Nat)
  | failed (since : Nat)
deriving DecidableEq, Repr

/-- A switch in progress (R260). -/
structure Fade where
  /-- True between the paths. -/
  output : Bool
  old : Nat
  new : Nat
  start : Nat
  ms : Nat
  reversed : Bool
deriving DecidableEq, Repr

/-- What happens when the curtain reaches closed (R226, R234, R260, R264). -/
inductive AfterClose where
  | stop
  | newPrimary
  | switchMember (dab : Bool) (slot : Nat)
  | switchPath (dab : Bool)
  | enterAligned
  | leaveAligned
  | takeAnnouncement
  | returnNormal
deriving DecidableEq, Repr

structure Curtain where
  pos : Rat
  /-- Moving to open (some true), to closed (some false), or at rest. -/
  moving : Option Bool
  held : Bool
  downMs : Nat
  upMs : Nat
  /-- What the closed instant makes, in order. -/
  after : List AfterClose
  /-- Opens at the first valid sample of the source (R234). -/
  waitValid : Bool
  /-- A change made under the curtain has not ended with the curtain open (R262). -/
  switching : Bool
deriving DecidableEq, Repr

/-- An announcement or alarm condition (R222, R166, R229, R167). `origin` 0 DAB, 1 RDS, 2 EON. -/
structure Announce where
  alarm : Bool
  test : Bool
  origin : Nat
  id : Nat
  eidPi : Id16
  other : Id16
  /-- Type: the ASw bit, 0 for an alarm and 1 for FM traffic (R224). -/
  ty : Nat
  asw : Nat
  cluster : Nat
  subch : Nat
  new : Bool
  region : Nat
deriving DecidableEq, Repr

/-- The announcement or alarm that a program has selected (R226), and its audio source (R225). -/
structure Holding where
  ann : Announce
  src : Source
  /-- The source holds the output (after the closed instant of step 3). -/
  onAir : Bool
  /-- `now` at the end edge, while the end delay runs (R226 step 5). -/
  endedAt : Option Nat
  delayMs : Nat
  gainDb : Int
  /-- The curtain was held closed by the host when an alarm opened it (R231). -/
  overrode : Bool
  /-- The program's own decoder is rebound to the source (R227). -/
  ownRebound : Bool
deriving DecidableEq, Repr

/-- A source still heard while the curtain closes for a new group: its gain, its delay in the trim stage, and the stage (R234). -/
structure OutTerm where
  src : Source
  gain : Rat
  delay : Nat
  line : List Sample
deriving DecidableEq, Repr

/-- A path still heard while the curtain closes for a new group (R234, R267): its gain, its sources, and the delay store that it goes
through in aligned mode, with the read point. -/
structure OutPath where
  gain : Rat
  terms : List OutTerm
  store : Option (DelayStore × Rat)
  cls : Nat
  pages : Nat
deriving DecidableEq, Repr

structure Program where
  running : Bool
  members : List (Option Member)
  excluded : List Source
  policy : LinkPolicy
  /-- A policy that applies from the next decision point (R267). -/
  policyNext : Option LinkPolicy
  ann : AnnPolicy
  clsCfg : Nat
  pages : Nat
  cls : Nat
  request : Option (Nat × Nat)
  outDab : Bool
  /-- What is still heard while the curtain closes for a new primary member (R234). -/
  outgoing : List OutPath
  selA : Option Nat
  selD : Option Nat
  anchorA : Option Nat
  anchorD : Option Nat
  align : AlignState
  alignedMode : Bool
  unaligned : Bool
  /-- The offset in ticks, the read point of the analog path: it moves in fractions (R248). -/
  tau : Rat
  loud : Option Int
  recordSince : Option Nat
  badTracks : Nat
  dabValidAt : Option Nat
  noDabSince : Option Nat
  fade : Option Fade
  curtain : Curtain
  holding : Option Holding
  /-- The next selection, while the present one is still on air (R224, R231). -/
  nextHold : Option Holding
  /-- The announcement that an alarm has pre-empted (R231). -/
  resume : Option Holding
  noSource : Bool
  blended : Bool
  /-- Where tracking moves tau to (R248), and whether the group has been aligned (R249). -/
  tauTarget : Int
  wasAligned : Bool
  /-- Ticks of valid DAB audio since its first valid sample (R245), and `now` of the latest tracking (R248). -/
  dabTicks : Nat
  trackedAt : Nat
  /-- Loudness in force in 0.1 dB, which follows `loud` (R250). -/
  loudNow : Option Int
  /-- Histories of the two path outputs (R244), and the delay store (R251). -/
  traceA : Trace
  traceD : Trace
  store : DelayStore
  /-- The sample of the present tick before the curtain, and the latest 2400, newest first. -/
  out : Sample
  past : List Sample
  /-- The latest 97 samples behind the program curtain, newest first: the gain of each, and the sample before it (R305, R314). -/
  sent : List (Rat × Sample)
deriving DecidableEq, Repr

structure AlertPolicy where
  mask : Nat
  sources : Nat
  tests : Bool
  gainDb : Int
  overrideCurtain : Bool
  endDelay : Nat
deriving DecidableEq, Repr

structure Alerts where
  policy : AlertPolicy
  active : List Announce
  /-- The selected alarm, until it ends (R232). -/
  chosen : Option Announce
deriving DecidableEq, Repr

/-! ## Capacity -/

structure ShedEntry where
  engine : Bool
  id : Nat
  mask : Nat
  /-- Step of Table 10-5 that reduced it. -/
  step : Nat
deriving DecidableEq, Repr

/-- The fields of `POWER_POLICY` (Table 10-4). -/
structure PowerSet where
  economy : Bool
  capMw : Nat
  ceiling : Nat
  restore : Bool
deriving DecidableEq, Repr

structure Capacity where
  economy : Bool
  capMw : Nat
  ceiling : Nat
  restore : Bool
  /-- A policy that takes effect at the next measurement (R276). -/
  next : Option PowerSet
  vcore : Nat
  /-- The latest measurement in 0.25 EU, and the voltage at which it was made. -/
  cmeas : Nat
  measuredAt : Nat
  powerMw : Nat
  vcap : Nat
  underCap : Nat
  thermal : Nat
  thermalHeld : Bool
  derate : Nat
  derateAt : Nat
  /-- 1 ms measurements for which C_meas >= 1.25 D has held (R278). -/
  richMs : Nat
  /-- Consecutive measurements short at V_eff (R283). -/
  shortReads : Nat
  shortfall : Bool
  overcommitted : Bool
  unattainable : Bool
  /-- `now` at the end of the latest slew of VCORE (R273). -/
  slewEnd : Nat
  /-- Instances that the last shedding pass changed: engine or lane, identifier (R283). -/
  passUnits : List (Bool × Nat)
  restoreList : List ShedEntry
  restoreSince : Option Nat
  restoredAt : Option Nat
  shedPasses : Nat
  fifoDrops : Nat
deriving DecidableEq, Repr

/-! ## Ports and flows -/

structure PortCfg where
  enable : Bool
  target : Bool
  rate : Nat
  bclks : Nat
  width : Nat
  offset : Nat
  fsync : Nat
  edge : Nat
deriving DecidableEq, Repr

inductive PortState where | disabled | starting | locked | lost | stopping
deriving DecidableEq, Repr

structure Port where
  cfg : PortCfg
  st : PortState
  /-- The state in which the stop in progress was ordered (R317). -/
  before : PortState
  /-- Configuration to start with after the stop in progress (R317). -/
  next : Option PortCfg
  curtain : Rat
  curtainUp : Bool
  gated : Bool
  slots : List Slot
  slotsNext : Option (List Slot)
  block : Nat
  /-- Measured offset of the host's rate in 0.01 ppm, its value at the latest lock, and that of the ASRC, which follows it (R305, R318). -/
  ppm : Int
  lockPpm : Int
  tracked : Rat
  /-- Consecutive complete frames of a host that the port waits for (R316), and `now` of the latest frame. -/
  okFrames : Nat
  frameAt : Option Nat
  glitches : Nat
  losses : Nat
  glitchRun : Nat
  glitchAt : Option Nat
  glitchSecond : Nat
  pendTag : Option Byte
  words : List (Option Nat)
deriving DecidableEq, Repr

structure StatusSlot where
  programs : List Nat
  copy : Nat
  category : Nat
deriving DecidableEq, Repr

/-- Preambles of IEC 60958: Z a block, X a frame, Y the second subframe (R312). -/
inductive Preamble where | x | y | z
deriving DecidableEq, Repr

/-- A subframe of IEC 60958: preamble, time slots 4 to 27, and the V, U, C and P bits (R312). -/
structure Subframe where
  preamble : Preamble
  word : Nat
  v : Bool
  u : Bool
  c : Bool
  p : Bool
deriving DecidableEq, Repr

/-- How a port takes a program's samples: as they were some ticks ago, or through the ASRC of a rate code and an offset in 0.01 ppm, the
frame beginning a fraction of a tick after the tick (R304, R305, R312). -/
inductive Carriage where
  | direct (lag : Nat)
  | asrc (rate : Nat) (ppm place : Rat)

/-- What a pin of a port does (Table 11-11). -/
inductive PinDrive where | highZ | input | driven
deriving DecidableEq, Repr

structure Spdif where
  cfg : SpdifCfg
  next : Option SpdifCfg
  running : Bool
  gated : Bool
  block : Nat
  curtain : Rat
  curtainUp : Bool
  /-- The two subframes of the last frame, and `now` of it. -/
  frame : Option (Subframe × Subframe)
  frameAt : Option Nat
deriving DecidableEq, Repr

structure Ports where
  tdm : List Port
  status : List StatusSlot
  spdif : Spdif
deriving DecidableEq, Repr

structure FlowPacket where
  kind : Nat
  flags : Nat
  source : Nat
  dfc : Dfc
  seq : Nat
  payload : List Byte
  /-- Merge key of an urgent packet: origin, id, cluster (R340). -/
  key : Option (Nat × Nat × Nat)
deriving DecidableEq, Repr

inductive FlowState where | free | opened | closing
deriving DecidableEq, Repr

structure Flow where
  st : FlowState
  kind : Nat
  cls : Nat
  clsNext : Option Nat
  source : Nat
  qual : Nat
  rate : Nat
  burst : Nat
  limit : Nat
  /-- Tokens in 2^-32 packet (R336). -/
  tokens : Int
  queue : List FlowPacket
  held : List FlowPacket
  pktSeq : Nat
  fragSeq : Nat
  /-- Bytes of the head packet already sent, while it is started (R336). -/
  sent : Option Nat
  /-- Packets behind the head that were started and begin again, with no further charge (R342). -/
  again : Nat
  /-- Rate and burst from the next DFC tick (R337). -/
  shapeNext : Option (Nat × Nat)
  closeReason : Nat
  discarded : Nat
  pktsSent : Nat
  bytesSent : Nat
  dropsQueue : Nat
  dropsPool : Nat
  sourceErrors : Nat
  merged : Nat
  resends : Nat
  dropMark : Bool
  dropsNew : Nat
  dropRecAt : Option Nat
  /-- Toggle and text of the dynamic label last delivered (R220). -/
  label : List Byte
deriving DecidableEq, Repr

structure ClassBucket where
  rate : Nat
  burst : Nat
  tokens : Int
  /-- Rate and burst from the next DFC tick (R337). -/
  shapeNext : Option (Nat × Nat)
  /-- Flows whose packets are started in this class, in their order: more than one only after a discard of R342 (R338). -/
  started : List Nat
  /-- Weighted selection: source code, cur (R338). -/
  cur : List (Nat × Int)
  lastServed : List (Nat × Nat)
deriving DecidableEq, Repr

/-- A fragment on its way: its flow and class, its words, its packet bytes, and the packet that it ends (R342). -/
structure Fragment where
  flow : Nat
  cls : Nat
  words : List Nat
  bytes : Nat
  ends : Option FlowPacket
deriving DecidableEq, Repr

structure Flows where
  flows : List Flow
  classes : List ClassBucket
  mailbox : Bool
  /-- Fragments that wait to be resent (R342), and those in a mailbox reply that waits for the reply FIFO (R345). -/
  resend : List Fragment
  inFlight : List Fragment
deriving DecidableEq, Repr

/-! ## Ghost light, retained bank, integrity -/

inductive WatchState where | off | acquiring | watching | lost
deriving DecidableEq, Repr

structure GhostCfg where
  watch : Nat
  freq : Nat
  expectId : Id16
  prompts : Nat
  auto : Bool
deriving DecidableEq, Repr

structure Ghost where
  cfg : GhostCfg
  watch : WatchState
  /-- Identity last confirmed by the watch, or shown by the alert log on entry (R491). -/
  identity : Option Id16
  /-- The sentinel receiver is powered (R63, R486). -/
  sentinel : Bool
  /-- The entry record waits for the first lock of PLL-N (R486). -/
  entryDue : Bool
  /-- Clusters that a DAB watch sees signalled (R222, R229). -/
  clusters : List Cluster
deriving DecidableEq, Repr

/-- The alert log (R491): conditions last reported as active, each with its time. -/
structure AlertLog where
  identity : Option Id16
  conds : List (Announce × Dfc)
  changed : Bool
  /-- Its copy in the retained bank passes its CRC (R493). -/
  ok : Bool
  /-- `now` of the main domain's return, for the 60 s of R492. -/
  returnAt : Option Nat
deriving DecidableEq, Repr

structure Scene where
  ok : Bool
  truncated : Bool
  writes : Nat
  dfc : Dfc
  packets : List Packet
deriving DecidableEq, Repr

/-- A fault-log record (Table 18-6). -/
structure LogRec where
  seq : Nat
  epoch : Byte
  rank : Nat
  code : Nat
  phase : Nat
  dfc : Dfc
  off : Bool
  other : Nat
  detailA : Nat
  detailB : Int
  vmain : Nat
  tj : Int
  vcore : Nat
  ok : Bool
deriving DecidableEq, Repr

structure Retained where
  tables : List CalTable
  /-- The table last written, and the last tick at which that write may be under way (R102). -/
  writing : Option (Nat × Nat)
  band : List (Option Bool)
  scene : Option Scene
  stations : List (Option Station)
  /-- Records whose copy in the bank fails its CRC until it is written again (R165). -/
  badStations : List Nat
  alertLog : AlertLog
  ring : List LogRec
deriving DecidableEq, Repr

/-- A recovery of a fault (R512): its phase is queued, running, aborted or waiting to become runnable. -/
inductive RecPhase where
  | waiting
  | running
  | queued
  /-- Aborted by a recovery of this rank. -/
  | aborted (rank : Nat)
deriving DecidableEq, Repr

structure Recovery where
  rank : Nat
  code : Nat
  inst : Nat
  phase : RecPhase
  detailA : Nat
  detailB : Int
  /-- The recovery may begin (R512). -/
  ready : Bool
deriving DecidableEq, Repr

structure Integrity where
  counters : List Nat
  /-- Per counter: `now` and value of its last record (R508). -/
  recorded : List (Option (Nat × Nat))
  lastInst : List Nat
  /-- Records held until the stage reset ends (R508). -/
  heldRecs : List (Nat × Nat × Nat)
  holding : Bool
  recoveries : List Recovery
  logSeq : Nat
  staging : List LogRec
  logLost : Nat
  scan : Bool
deriving DecidableEq, Repr

/-- The state of the device, with the queue of the commands that wait. -/
structure State where
  pending : List Instr
  /-- The model's own clock: 48 kHz periods elapsed (log entry 1). -/
  now : Nat
  /-- The model's own count of free values drawn (log entry 2). -/
  draws : Nat
  chip : Chip
  supply : Supply
  reset_ : Reset
  thermal : Thermal
  link : Link
  events : Events
  time : Timeline
  clocks : Clocks
  cues : List Cue
  held : List HeldEffect
  mgr : Manager
  inputs : List Input
  feeds : List Feed
  cal : Cal
  lanes : Lanes
  rds : Rds
  scan : Scan
  dab : Dab
  decoders : List Decoder
  progs : List Program
  alerts : Alerts
  cap : Capacity
  ports : Ports
  flows : Flows
  ghost : Ghost
  retained : Retained
  integ : Integrity
deriving DecidableEq, Repr

/-! ## Values at reset -/

/-- A sub-lane record and a working set at the nominal values (Tables 3-6, 3-7). -/
def SubLane.nominal : SubLane := { offset := 0, gain := 0, skew := 64, sar := List.replicate 11 32 }

def WorkSet.nominal : WorkSet :=
  { subs := List.replicate 17 SubLane.nominal, stepDev := List.replicate 30 none,
    comps := List.replicate 51 0, caps := [8, 8, 8], offset := 0, gain := 0 }

def CalEntry.empty : CalEntry :=
  { valid := false, settled := false, atLimit := false, length := 0, tMeas := 0, set := WorkSet.nominal }

/-- A table after a wipe: its CRC over zeros fails, so it is cold (R101, R102). -/
def CalTable.wiped (input plan : Nat) : CalTable :=
  { input := input, plan := plan, ok := false, initialised := false, writes := 0, entries := List.replicate 8 CalEntry.empty }

def CalInput.idle : CalInput :=
  { run := .idle, byCommand := false, reasons := 0, deferredSince := none, retryAt := 0, lastTMeas := none, lastAt := 0,
    lastFlags := 0, tStart := none, startedAt := 0, derived := false, plan := 0, work := WorkSet.nominal, row := 2, targets := List.replicate 17 0, failMask := 0, selSlot := none,
    tLast := List.replicate 18 0, settledRun := false, runStartT := 0, tSum := 0, tCount := 0, runLen := 0, runFails := 0,
    runFirst := false, runQuiet := List.replicate 17 false, occ := List.range 16, understudy := 16, pos := 0,
    rotating := false, inOverlap := false, swapFails := 0, suspect := none, subWin := 0, subFails := 0, skipWin := false,
    before := SubLane.nominal, pendingSel := [], pendingOffGain := none, writeWaits := none }

def BandPlan.default : BandPlan :=
  { enable := false, fmRanges := 4, dab := true, fmRaster := 100, amRanges := 3, amRaster := 9 }

/-- The defaults of Table 2-3 for input `i`. -/
def GainCfg.default (i : Nat) : GainCfg :=
  { fixedMode := false, fixed := if i < 4 then 20 else 12, floor := 0, ceiling := if i < 4 then 30 else 24, target := -15 }

def Input.default (i : Nat) : Input :=
  { plan := BandPlan.default, gcfg := GainCfg.default i, gain := if i < 4 then 30 else 24,
    receiving := false, waiting := false, receivedSinceReset := false, rms := 0, quietMs := 0, clipSeen := false,
    clipHist := [], clipMs := (0, 0), clipLast := (0, 0), windows := 0, comp := 0, compLog := [], gaps := [], gainDue := false, overloaded := false, binMap := [], binDfc := 0, fineMap := [], fineDfc := 0,
    rmsPrev := 0, stepPending := none }

/-- The default input of a feed line (Table 2-4). -/
def Feed.defaultInput (v : Variant) (n : Nat) : Nat :=
  if v.tier = .t24 ∧ v.whole ∧ 2 ≤ n then n + 2 else n

def Feed.default (v : Variant) (n : Nat) : Feed :=
  { input := Feed.defaultInput v n, mode := 0, retryMs := 1000, retryMax := 3, enabled := false, faultLow := false,
    latched := false, retries := 0, waitSince := none, enabledAt := none }

def FmSet.default : FmSet := { deemph := 1, stereo := 0, filter := 0, profile := 0 }

def AmSet.default : AmSet := { detector := 0, sideband := 0, bandwidth := 4500, blanker := 1, profile := 0 }

def Twice.none : Twice := { last := Option.none, acc := Option.none }

def RdsFields.none : RdsFields :=
  { tp := Twice.none, pty := Twice.none, ta := Twice.none, ms := Twice.none, di := List.replicate 4 Twice.none,
    ps := List.replicate 4 Twice.none, ecc := Twice.none, lang := Twice.none, pin := Twice.none, eonPs := [],
    afList := Option.none }

def RdsDecoder.none : RdsDecoder :=
  { synced := false, prev := Option.none, history := [], pos := 0, whole := false, blocks := [], cPrime := false, firstGroup := false,
    ready := false, cfg := Option.none }

def Identity.none : Identity :=
  { pi := Option.none, last := Option.none, shown := Option.none, cand := Option.none, count := 0, carriedAt := 0,
    recordAt := Option.none, waiting := 0 }

def Quality.zero : Quality := { cnr := 0, mpImp := 0, adj := 0, lq := 0 }

def Sample.silent : Sample := { l := 0, r := 0, valid := false }

def Networks.none : Networks := { deemL := 0, deemR := 0, cutL := 0, cutR := 0, level := 0, hpIn := 0, hpOut := 0 }

def Lane.free : Lane :=
  { st := .free, owner := .host, pinned := false, starting := false, freq := 0, mask := 0, held := 0, ramps := [],
    pend := none, doneTag := none, fm := FmSet.default, am := AmSet.default, fmNext := none, amNext := none, first := true,
    raw := Quality.zero, cnrS := 0, mpS := 0, adjS := 0, smoothed := Quality.zero, levels := [], freqOffset := 0, peak := 0,
    pilotDev := 0, audioRms := 0, silenceMs := 0, pilot := false, loop := false, syncDet := false, concealing := false,
    valid := false, gate := 0, blendS := 0, corner := none, mute := 0, filter := 5, widenMs := 0, statsMs := 0,
    ident := Identity.none, rds := RdsDecoder.none, fields := RdsFields.none, traffic := false, alarm := false,
    test := false, alarmOffAt := none, testOffAt := none, startedAt := 0, absentSince := none, afFor := none, afOk := false,
    bin := 0, nco := 0, branches := [], bins := [], nets := Networks.none, chain := none, sideGain := 0, mpx := [], wide := [], audio := [], out := Sample.silent, past := [],
    gaps := [], spanDone := 0, spanLeft := 0, spanLong := false, fadeIn := 0, offsets := [], peaks := [], powers := [], blanked := [], outPower := 0 }

def Model.empty : Model :=
  { eid := none, cif := 0, change := 0, occurrence := 0, ecc := 0, lto := 0, mjd := 0, ms := 0, label := none, labelMask := 0,
    charset := 0, services := [], comps := [], subchs := [], linkage := [], annSup := [], clusters := [], packets := [],
    secondaries := [], nextSubchs := [],
    nextServices := [], current := false, everCurrent := false, lastFibAt := none }

def Engine.free : Engine :=
  { st := .free, owner := .host, pinned := false, starting := false, block := 255, freq := 0, mask := 0, held := 0, ramps := [], pend := none, doneTag := none, exact := false, modeNext := none, converting := false, shares := 0,
    acq := .idle, acqFrames := 0, eid := none, lastEid := none, failed := 0, otherEid := none, otherCount := 0, peaks := [],
    cifsStored := 0, store := [], ficHist := [], merRaw := 0, merS := 0, merFirst := true, levels := [], freqOffset := 0,
    clockPpm := 0, clockSince := none, lockAt := 0, lockedFrames := 0, erasing := false, beyondGuard := false,
    tapsReused := false, bin := 0, nco := 0, antennas := [], sent := [], prevSym := [], window := 0,
    merNum := 0, merDen := 0, cut := 0, cifOfFrame := 0, lastCif := none, gapSeen := false, lastFigs := none, model := Model.empty, startedAt := 0, absentSince := none, statsFrames := 0, fibFrame := [] }

def Decoder.unowned : Decoder :=
  { use := .none, key := none, engine := none, last := none, valid := false, concealing := false, charged := false, limited := false,
    coded := [], place := 0, rate := 48, audio := [], out := Sample.silent, spans := [], lastGood := [], concealed := 0, fadeIn := false, ratio := none }

def LinkPolicy.default : LinkPolicy :=
  { auto := 0xB, prefer := 0, align := true, entry := 0, eqLow := 60, eqHyst := 30, lqLow := 50, lqHyst := 30,
    lqMargin := 30, holdS := 5, maxMembers := 12 }

def AnnPolicy.default : AnnPolicy :=
  { enable := false, types := 2, fmTraffic := true, scope := 0, gainDb := 0, endDelay := 500 }

def Curtain.default : Curtain :=
  { pos := 0, moving := none, held := false, downMs := 8, upMs := 20, after := [], waitValid := false, switching := false }

def Trace.none : Trace := { acc := [], env := [], hit := [], aud := [] }

def DelayStore.none : DelayStore := { acc := [], pairs := [], recorded := 0 }

def Program.stopped : Program :=
  { running := false, members := List.replicate 12 none, excluded := [], policy := LinkPolicy.default, policyNext := none,
    ann := AnnPolicy.default, clsCfg := 0, pages := 0, cls := 0, request := none, outDab := false, outgoing := [], selA := none, selD := none,
    anchorA := none, anchorD := none, align := .off, alignedMode := false, unaligned := false, tau := 0, loud := none,
    recordSince := none, badTracks := 0, dabValidAt := none, noDabSince := none, fade := none, curtain := Curtain.default,
    holding := none, nextHold := none, resume := none, noSource := false, blended := false,
    tauTarget := 0, wasAligned := false, dabTicks := 0, trackedAt := 0, loudNow := none, traceA := Trace.none, traceD := Trace.none,
    store := DelayStore.none, out := Sample.silent, past := [], sent := [] }

def PortCfg.default : PortCfg :=
  { enable := false, target := false, rate := 2, bclks := 256, width := 32, offset := 0, fsync := 0, edge := 0 }

def Port.disabled : Port :=
  { cfg := PortCfg.default, st := .disabled, before := .disabled, next := none, curtain := 0, curtainUp := false, gated := false,
    slots := List.replicate 32 { content := 0, source := 0 }, slotsNext := none, block := 0, ppm := 0, lockPpm := 0, tracked := 0, okFrames := 0, frameAt := none, glitches := 0,
    losses := 0, glitchRun := 0, glitchAt := none, glitchSecond := 0, pendTag := none, words := [] }

def StatusSlot.default : StatusSlot := { programs := List.replicate 8 255, copy := 0, category := 0 }

def SpdifCfg.default : SpdifCfg := { enable := false, program := 0, rate := 2, wordLen := 24, copy := 0, category := 0 }

def Spdif.disabled : Spdif :=
  { cfg := SpdifCfg.default, next := none, running := false, gated := false, block := 0, curtain := 0, curtainUp := false,
    frame := none, frameAt := none }

def Flow.free : Flow :=
  { st := .free, kind := 0, cls := 3, clsNext := none, source := 0, qual := 0, rate := 0, burst := 0, limit := 0, tokens := 0,
    queue := [], held := [], pktSeq := 0, fragSeq := 0, sent := none, again := 0, shapeNext := none, closeReason := 0, discarded := 0, pktsSent := 0,
    bytesSent := 0, dropsQueue := 0, dropsPool := 0, sourceErrors := 0, merged := 0, resends := 0, dropMark := false,
    dropsNew := 0, dropRecAt := none, label := [] }

/-- A class bucket after a stage reset: 80 000 quarter packets per second, burst 256, full (R336, Table 12-6). -/
def ClassBucket.default : ClassBucket :=
  { rate := 80000, burst := 256, tokens := 256 * 4294967296, shapeNext := none, started := [], cur := [], lastServed := [] }

def ClockOutput.default (n : Nat) : ClockOutput :=
  { enable := false, source := 0, divider := if n = 0 then 2 else 1024, delay := 0, gated := false }

def RdsCfg.default : RdsCfg :=
  { rbds := false, correct := 1, regional := false, afLanes := 0, flowQuality := 1, groupMask := 0xFFFFFFFF, dbStore := true }

def ScanPolicy.default : ScanPolicy :=
  { mode := 3, fmDetect := 12, amDetect := 15, dabDetect := 6, antennas := 1, keepFm := 0, keepDab := 0, holdS := 10, swapDb := 6 }

def AlertPolicy.default : AlertPolicy :=
  { mask := 1, sources := 3, tests := false, gainDb := 0, overrideCurtain := true, endDelay := 1000 }

def GhostCfg.default : GhostCfg := { watch := 0, freq := 0, expectId := 0, prompts := 2, auto := true }

def AlertLog.empty : AlertLog := { identity := none, conds := [], changed := false, ok := true, returnAt := none }

/-! ### Counts of the variant (Tables 0-1 and 1-2) -/

def Tier.scale : Tier → Nat
  | .t96 => 16
  | .t48 => 8
  | .t24 => 4

/-- FM lanes: 96, 48, 24. -/
def Variant.fmLanes (v : Variant) : Nat := match v.tier with | .t96 => 96 | .t48 => 48 | .t24 => 24

/-- AM lanes: 48, 24, 12, and none in V parts. -/
def Variant.amLanes (v : Variant) : Nat := if v.whole then v.fmLanes / 2 else 0

def Variant.engines (v : Variant) : Nat := v.tier.scale

def Variant.programs (v : Variant) : Nat := v.tier.scale

def Variant.flows (v : Variant) : Nat := match v.tier with | .t96 => 512 | .t48 => 256 | .t24 => 128

/-- Bonded inputs (R4, R17). -/
def Variant.bonded (v : Variant) (i : Nat) : Bool :=
  if i < 4 then i < 2 || v.tier != .t24 else i < 6 && v.whole

/-- Bit n set for each bonded input n (Table 14-3). -/
def Variant.inputMask (v : Variant) : Nat :=
  ((List.range 6).filter v.bonded).foldl (fun m i => m + 2 ^ i) 0

/-! ### Groups of State after a stage reset -/

def Lanes.reset (v : Variant) : Lanes :=
  { fm := List.replicate v.fmLanes Lane.free, am := List.replicate v.amLanes Lane.free, fmDefault := FmSet.default,
    amDefault := AmSet.default }

def Cal.reset (v : Variant) : Cal :=
  { policy := { mask := v.inputMask, mode := 0, deltaT := 5, maxInterval := 600, store := true },
    inputs := List.replicate 6 CalInput.idle }

def Scan.reset : Scan := { policy := ScanPolicy.default, next := none, points := [], rivals := [], barred := [] }

def Dab.reset (v : Variant) : Dab :=
  { engines := List.replicate v.engines Engine.free, defaultExact := false, generation := 0 }

def Alerts.reset : Alerts := { policy := AlertPolicy.default, active := [], chosen := none }

/-- Capacity state after a stage reset; `cmeas` is the first measurement (R273). -/
def Capacity.reset (cmeas : Nat) : Capacity :=
  { economy := false, capMw := 3500, ceiling := 850, restore := true, next := none, vcore := 750, cmeas := cmeas, measuredAt := 750, powerMw := 0, vcap := 850,
    underCap := 0, thermal := 850, thermalHeld := false, derate := 0, derateAt := 0, richMs := 0, shortReads := 0,
    shortfall := false, overcommitted := false, unattainable := false, slewEnd := 0, passUnits := [], restoreList := [],
    restoreSince := none, restoredAt := none, shedPasses := 0, fifoDrops := 0 }

def Ports.reset : Ports :=
  { tdm := [Port.disabled, Port.disabled], status := List.replicate 4 StatusSlot.default, spdif := Spdif.disabled }

def Flows.reset (v : Variant) : Flows :=
  { flows := List.replicate v.flows Flow.free, classes := List.replicate 4 ClassBucket.default, mailbox := false, resend := [],
    inFlight := [] }

def Manager.reset : Manager :=
  { executing := none, cueExec := none, rxRunning := false, rxStartedSinceReset := false, patch := [], patchVersion := 0,
    committed := false, commitFailed := false, sceneChanged := none, sceneCapturedAt := none }

def Retained.wiped : Retained :=
  { tables := ((List.range 4).flatMap fun i => (List.range 4).map fun p => CalTable.wiped i p) ++
      [CalTable.wiped 4 255, CalTable.wiped 5 255],
    band := List.replicate 4 none, scene := none, stations := List.replicate 512 none, badStations := [],
    alertLog := AlertLog.empty, ring := [], writing := none }

def Station.invalid : Station :=
  { valid := false, pi := 0, tp := false, ta := false, ms := false, ecc := none, lang := none, pin := none, rbds := false,
    eonOnly := false, pty := 0, di := 0, ps := List.replicate 4 none, seenAt := 0, lastLq := 0, lastLane := 255, af := [],
    eonPi := [], changedAt := none, writtenAt := none }

def Rds.reset : Rds :=
  { cfg := RdsCfg.default, stations := List.replicate 512 Station.invalid, generation := 0, eon := [], afSkip := [], remake := false }

/-- The clocks as they start (R467), keeping the fields of `REF_CONFIG` that the backup domain holds (R456). -/
def Clocks.start (refin : Bool) (refHz pathS pathA pathN : Nat) : Clocks :=
  { refin := refin, refHz := refHz, pathS := pathS, pathA := pathA, pathN := pathN, ref := .absent, pllS := .locking,
    pllA := .locking, pllN := .off, plan := 0, recorded := 0, trim := 0, target := 0, trimTag := none, pauseUs := 0, hops := 0,
    outs := (List.range 4).map ClockOutput.default, band := List.replicate 4 false, startLocked := false, offS := 0,
    offA := 0, stepMax := 0, stepAt := 0 }

/-- The timeline before PLL-A has locked (R27). -/
def Timeline.start (dfc : Dfc) (epoch : Byte) (cold : Bool) : Timeline :=
  { dfc := dfc, epoch := epoch, source := .held, started := false, coldLock := cold, armed := false, captured := false, edges := 0,
    inUse := false, lostSinceArm := false, usedAtLoss := false, edgeInReturn := false }

def Events.reset : Events :=
  { queue := [], overflow := none, mask := 0x800FFFFF, promptEnable := true, mirrorGpio := 255, mirror := .highZ,
    promptDue := false, promptBase := 0, promptsMade := 0 }

def Integrity.reset : Integrity :=
  { counters := List.replicate 32 0, recorded := List.replicate 32 none, lastInst := List.replicate 32 0, heldRecs := [],
    holding := false, recoveries := [], logSeq := 0, staging := [], logLost := 0, scan := false }

/-- The variant the model names at reset (log entry 3): the host asks for one machine; statements hold for every variant. -/
def Variant.named : Variant := { tier := .t96, whole := true, gradeC := false }

/-- The device right after a cold reset (R475, R479): the backup domain is ready, the main domain is starting. The next
rows are `PLL_LOCK`, `DEVICE_READY` and `SCENE_REAPPLICATION` (log entry 6). -/
def State.reset : State :=
  { pending := [], now := 0, draws := 0,
    chip := { variant := Variant.named, life := .oem, oemWritten := false },
    supply := { vmain := 3300, vbak := 3000, vio := 3300, vana := 1800, sag := false, onVbak := false, vio33 := true, ioTristate := false,
                halts := 0, switchovers := 0, resetnLow := false, backupOn := true },
    reset_ := { domain := .starting, offCause := .none, cause := .cold, skipScene := false, doneQueued := false, doneAt := 0,
                coreChain := 0, sceneBarred := false, reapplying := false, offTicks := 0, coolSince := none, blackoutCode := none },
    thermal := { sensors := List.replicate 8 400, backup := 400, tripReads := 0, judged := 400 },
    link := { address := 0x30, queue := [], fifo := [], waiting := none, ignoring := false },
    events := Events.reset, time := Timeline.start 0 0 true, clocks := Clocks.start false 38400000 0 0 0,
    cues := [], held := [], mgr := Manager.reset,
    inputs := (List.range 6).map Input.default, feeds := (List.range 4).map (Feed.default Variant.named),
    cal := Cal.reset Variant.named, lanes := Lanes.reset Variant.named, rds := Rds.reset, scan := Scan.reset,
    dab := Dab.reset Variant.named, decoders := List.replicate Variant.named.programs Decoder.unowned,
    progs := List.replicate Variant.named.programs Program.stopped, alerts := Alerts.reset, cap := Capacity.reset 5000,
    ports := Ports.reset, flows := Flows.reset Variant.named,
    ghost := { cfg := GhostCfg.default, watch := .off, identity := none, sentinel := false, entryDue := false, clusters := [] },
    retained := Retained.wiped, integ := Integrity.reset }

end Sys2Proof.Machine
end

