-- ==== Sys2Proof/Machine/Ops.lean ====
section
/-! DEFINITION. Shared operations: event records, replies, integrity counters, the fault log, and looking up the units
of the variant. -/

namespace Sys2Proof.Machine

/-! ### Event records (R389, R390, R406, R407) -/

/-- A record may prompt when its bit is in the mask; the overflow record always does (R371). -/
def mayPrompt (e : Events) (bit : Nat) : Bool := bit == 31 || e.mask.getLsbD bit

/-- An unread record may prompt. -/
def anyPrompt (e : Events) : Bool := e.overflow.isSome || e.queue.any fun r => mayPrompt e r.bit

def mainOff (s : State) : Bool := s.reset_.domain == .off

/-- The main domain runs and accepts commands of every kind. -/
def mainReady (s : State) : Bool := s.reset_.domain == .ready

/-- The level of the mirror GPIO (R374): driven by a main domain that is ready, low while a record may prompt. -/
def mirrorLevel (s : State) : PinLevel :=
  if s.events.mirrorGpio = 255 || !mainReady s || s.supply.ioTristate then .highZ
  else if anyPrompt s.events then .low else .high

def refreshMirror (s : State) : State := { s with events := { s.events with mirror := mirrorLevel s } }

/-- Flags, epoch and time that a record carries when it is raised now (R406, R473). -/
def stampFlags (s : State) : Byte := if mainOff s then 1 else 0

def stampDfc (s : State) : Dfc := if mainOff s then BitVec.ofNat 32 s.reset_.offTicks else s.time.dfc

/-- Queue a record, or count it in the overflow record (R390). -/
def enqueue (e : Events) (r : Event) : Events :=
  if e.queue.length < 255 then { e with queue := e.queue ++ [r] }
  else match e.overflow with
    | none => { e with overflow := some { before := e.queue.length, epoch := r.epoch, eflags := r.eflags, dfc := r.dfc, lost := 1 } }
    | some o => { e with overflow := some { o with lost := satAdd 65535 o.lost 1 } }

/-- Raise one event record (R389 to R391, R371, R374). -/
def raise (bit : Nat) (body : List Byte) (s : State) : State :=
  let had := anyPrompt s.events
  let e := enqueue s.events { bit := bit, epoch := s.time.epoch, eflags := stampFlags s, dfc := stampDfc s, body := body }
  let due := e.promptDue || (e.promptEnable && !had && anyPrompt e)
  refreshMirror { s with events := { e with promptDue := due } }

/-- Source coding of Table 12-2 with the input value of R406. -/
def laneSource (lane : Nat) : Nat := lane

def engineSource (engine subch : Nat) : Nat := 0x1000 + engine * 256 + subch

def inputSource (input : Nat) : Nat := 0x3000 + input

def evCmdDone (opc tag : Byte) (status : Nat) : State → State := raise 0 [opc, tag, byte status, 0]

def evLane (source reason detail a b : Nat) (c : Int) : State → State :=
  raise 1 (le 2 source ++ [byte reason, byte detail] ++ le 2 a ++ le 2 b ++ leS 4 c)

def evService (engine reason : Nat) (eid : Id16) (sid : Id32) (scids : Nat) (value : Int) : State → State :=
  raise 2 ([byte engine, byte reason] ++ le 2 eid.toNat ++ le 4 sid.toNat ++ [byte scids, 0] ++ leS 2 value)

/-- Key of 7 bytes: a lane, or a component (R406). -/
def extKey (x : Source) : List Byte :=
  if x.kind = 2 then le 2 x.eid.toNat ++ le 4 x.sid.toNat ++ [byte x.scids] else byte x.lane :: List.replicate 6 0

def evLink (program reason a b : Nat) (key : List Byte) (c : Int) : State → State :=
  raise 5 ([byte program, byte reason, byte a, byte b] ++ (if key.length = 7 then key else List.replicate 7 0) ++ [0] ++ leS 4 c)

def evCalDone (input plan : Nat) (t : Int) (len flags : Nat) : State → State :=
  raise 6 ([byte input, byte plan] ++ leS 2 t ++ [byte len, byte flags, 0, 0])

def evCalDeferred (input reasons : Nat) : State → State := raise 7 [byte input, byte reasons, 0, 0]

def evClock (clock reason : Nat) (value : Int) : State → State := raise 9 ([byte clock, byte reason, 0, 0] ++ leS 4 value)

def evSupply (reason : Nat) (s : State) : State :=
  raise 10 ([byte reason, 0] ++ le 2 s.supply.vmain ++ le 2 s.supply.vbak) s

def evThermal (reason : Nat) (tj : Int) : State → State := raise 11 ([byte reason, 0] ++ leS 2 tj)

def evPort (port reason : Nat) (value : Int) : State → State := raise 12 ([byte port, byte reason, 0, 0] ++ leS 4 value)

def evFlowDrop (flow reason drops : Nat) : State → State := raise 13 (le 2 flow ++ [byte reason, 0] ++ le 4 drops)

def evIntegrity (index inst count : Nat) : State → State := raise 14 ([byte index, 0] ++ le 2 inst ++ le 4 count)

/-- `EV_CUE` (R33, R407): with the cancellation flag no status and no reply. -/
def evCue (cue qflags : Nat) (opc tag : Byte) (status : Nat) (exec : Dfc) (reply : List Byte) : State → State :=
  raise 15 ([byte cue, byte qflags, opc, tag, byte status, byte reply.length] ++ le 4 exec.toNat ++ reply.take 48)

def evGhost (reason : Nat) (s : State) : State :=
  let id := match s.ghost.identity with | some i => i | none => 0
  raise 16 ([byte reason, byte (s.ghost.cfg.watch - 1)] ++ le 2 id.toNat ++ le 4 s.ghost.cfg.freq) s

def evSyncLost (reason : Nat) : State → State := raise 17 [byte reason, 0, 0, 0]

def evAntFault (line reason retries : Nat) : State → State := raise 18 [byte line, byte reason, byte retries, 0]

/-! ### Replies (R360) -/

/-- A reply enters the FIFO, or waits when its four entries are taken (R360). -/
def putReply (r : Reply) (s : State) : State :=
  if s.link.fifo.length < 4 then { s with link := { s.link with fifo := s.link.fifo ++ [r] } }
  else { s with link := { s.link with waiting := some r } }

/-! ### The fault log (R519 to R522) -/

def maxInt (l : List Int) : Int := l.foldl max (-32768)

/-- The highest sensor (R438): the backup-domain monitor while the main domain is off. -/
def tjMax (s : State) : Int := if mainOff s then s.thermal.backup else maxInt s.thermal.sensors

/-- The die temperature: the mean of the eight sensors (R438). -/
def tDie (s : State) : Int := if mainOff s then s.thermal.backup else roundDiv s.thermal.sensors.sum (max 1 s.thermal.sensors.length)

def logRecord (s : State) (seq rank code phase other : Nat) (detailA : Nat) (detailB : Int) : LogRec :=
  { seq := seq, epoch := s.time.epoch, rank := rank, code := code, phase := phase, dfc := stampDfc s, off := mainOff s,
    other := other, detailA := detailA, detailB := detailB, vmain := s.supply.vmain, tj := tjMax s,
    vcore := if mainOff s then 0 else s.cap.vcore, ok := true }

/-! ### Integrity counters (R507, R508) -/

/-- Counters whose increments raise `EV_INTEGRITY` (Table 18-3). -/
def counterRaises (i : Nat) : Bool := !(i ≤ 5 || i == 16 || i == 18 || i == 20 || i == 24)

/-- Counters that raise a record at every increment. -/
def counterEach (i : Nat) : Bool := i == 22 || i == 28 || i == 29

/-- Counters held in the backup domain (Table 18-3). -/
def counterBackup (i : Nat) : Bool := (18 ≤ i && i ≤ 25) || (28 ≤ i && i ≤ 31)

/-- The counters that a stage reset leaves (R507). -/
def stageCounters (l : List Nat) : List Nat := mapIdx (fun i n => if counterBackup i then n else 0) l

/-- Raise the record of a counter now. -/
def raiseCounter (i : Nat) (s : State) : State :=
  let n := s.integ.counters.getD i 0
  evIntegrity i (s.integ.lastInst.getD i 0) n
    { s with integ := { s.integ with recorded := s.integ.recorded.set i (some (s.now, n)) } }

/-- Count `n` increments of counter `i` for an item, with its record under R508. -/
def count (i n inst : Nat) (s : State) : State :=
  if n = 0 then s else
  let s1 := { s with integ := { s.integ with counters := upd s.integ.counters i (satAdd 0xFFFFFFFF · n),
                                             lastInst := s.integ.lastInst.set i inst } }
  if !counterRaises i then s1
  else if s1.integ.holding then
    { s1 with integ := { s1.integ with heldRecs := s1.integ.heldRecs ++ [(i, inst, s1.integ.counters.getD i 0)] } }
  else if counterEach i then raiseCounter i s1
  else match s1.integ.recorded.getD i none with
    | some (t, _) => if s1.now < t + 48000 then s1 else raiseCounter i s1
    | none => raiseCounter i s1

/-- Stage one fault-log record; with the staging buffer full it is lost and counted (R522). -/
def logPhase (rank code phase other : Nat) (detailA : Nat) (detailB : Int) (s : State) : State :=
  if 16 ≤ s.integ.staging.length then
    count 31 1 0 { s with integ := { s.integ with logLost := s.integ.logLost + 1 } }
  else
    let lostRec := logRecord s s.integ.logSeq 0 0xFF 0 0 0 s.integ.logLost
    let st := if s.integ.logLost = 0 then s.integ.staging else s.integ.staging ++ [lostRec]
    let seq := if s.integ.logLost = 0 then s.integ.logSeq else s.integ.logSeq + 1
    if 16 ≤ st.length then
      count 31 1 0 { s with integ := { s.integ with staging := st, logSeq := seq, logLost := 1 } }
    else
      { s with integ := { s.integ with staging := st ++ [logRecord s seq rank code phase other detailA detailB],
                                       logSeq := seq + 1, logLost := 0 } }

/-! ### Units of the variant -/

/-- A lane by its identifier of Table 1-2. -/
def laneAt (s : State) (id : Nat) : Option Lane :=
  if id < 0x80 then s.lanes.fm[id]? else s.lanes.am[id - 0x80]?

def isAm (id : Nat) : Bool := 0x80 ≤ id

def setLane (id : Nat) (l : Lane) (s : State) : State :=
  if id < 0x80 then { s with lanes := { s.lanes with fm := s.lanes.fm.set id l } }
  else { s with lanes := { s.lanes with am := s.lanes.am.set (id - 0x80) l } }

def updLane (id : Nat) (f : Lane → Lane) (s : State) : State :=
  match laneAt s id with
  | some l => setLane id (f l) s
  | none => s

/-- Every lane identifier of the variant, FM first (R402). -/
def laneIds (s : State) : List Nat :=
  List.range s.lanes.fm.length ++ (List.range s.lanes.am.length).map (· + 0x80)

def engineAt (s : State) (e : Nat) : Option Engine := s.dab.engines[e]?

def updEngine (e : Nat) (f : Engine → Engine) (s : State) : State :=
  { s with dab := { s.dab with engines := upd s.dab.engines e f } }

/-- Gap markers of the inputs of a set that reach past a tick (R291). -/
def gapsAfter (s : State) (mask t : Nat) : List (Nat × Nat) :=
  (s.inputs.zipIdx.filter fun x => bitOf mask x.2).flatMap fun x => x.1.gaps.filter fun g => decide (t < g.1 + g.2)

/-- A gap marker on an input of a set falls into the ticks from `a` up to `b`. -/
def gapIn (s : State) (mask a b : Nat) : Bool := (gapsAfter s mask a).any fun g => decide (g.1 < b)

/-- A gap of some ticks begins on an input now: every consumer of its bins sees this one marker (R291). -/
def gapNow (ticks now : Nat) (x : Input) : Input :=
  { x with gaps := (now, ticks) :: x.gaps.filter fun g => decide (now < g.1 + g.2 + 48000) }

/-- The digital factor of an input for the sample of a tick (R48). -/
def compAt (x : Input) (t : Nat) : Int := x.compLog.foldl (fun c e => if t < e.1 then e.2 else c) x.comp

/-- Samples lost on the way to a running engine count for the frame that they fall in (R200). -/
def gapEngine (t : Engine → Bool) (x : Engine) : Engine := if x.st = .running && t x then { x with gapSeen := true } else x

def gapEngines (t : Engine → Bool) (s : State) : State :=
  { s with dab := { s.dab with engines := s.dab.engines.map (gapEngine t) } }

def updProgram (n : Nat) (f : Program → Program) (s : State) : State := { s with progs := upd s.progs n f }

def updInput (i : Nat) (f : Input → Input) (s : State) : State := { s with inputs := upd s.inputs i f }

def updFeed (i : Nat) (f : Feed → Feed) (s : State) : State := { s with feeds := upd s.feeds i f }

def updCal (i : Nat) (f : CalInput → CalInput) (s : State) : State :=
  { s with cal := { s.cal with inputs := upd s.cal.inputs i f } }

def updPort (n : Nat) (f : Port → Port) (s : State) : State :=
  { s with ports := { s.ports with tdm := upd s.ports.tdm n f } }

def pllAUp (c : Clocks) : Bool := c.pllA == .locked || c.pllA == .coasting

/-- Gating stops a running port at once; it restarts from step 1 of R316 (R320). -/
def gatePort (p : Port) : Port :=
  match p.st with
  | .disabled => p
  | .stopping => { p with curtain := 0, gated := true, words := [], block := 0, okFrames := 0 }
  | _ => { p with st := .starting, curtain := 0, curtainUp := false, gated := true, words := [], block := 0, okFrames := 0 }

def updFlow (n : Nat) (f : Flow → Flow) (s : State) : State :=
  { s with flows := { s.flows with flows := upd s.flows.flows n f } }

def updDecoder (n : Nat) (f : Decoder → Decoder) (s : State) : State := { s with decoders := upd s.decoders n f }

def updOut (n : Nat) (f : ClockOutput → ClockOutput) (s : State) : State :=
  { s with clocks := { s.clocks with outs := upd s.clocks.outs n f } }

def inputAt (s : State) (i : Nat) : Input := s.inputs.getD i (Input.default i)

/-- A bonded input (R4). -/
def bonded (s : State) (i : Nat) : Bool := s.chip.variant.bonded i

/-- Fold an operation over a list of numbers. -/
def forEach {α : Type} (l : List α) (f : α → State → State) (s : State) : State := l.foldl (fun s x => f x s) s

def ticksOfMs (ms : Nat) : Nat := 48 * ms

def ticksOfS (sec : Nat) : Nat := 48000 * sec

/-- `d` periods have passed since the given instant. -/
def elapsed (s : State) (since d : Nat) : Bool := since + d ≤ s.now

/-- Mark the scene changed (R482). -/
def sceneChange (s : State) : State :=
  { s with mgr := { s.mgr with sceneChanged := match s.mgr.sceneChanged with | some t => some t | none => some s.now } }

/-- Draw a fresh open choice (log entry 2). -/
def drawBool (s : State) : Bool × State := (Config.freeBool s.draws, { s with draws := s.draws + 1 })

def drawNat (s : State) : Nat × State := (Config.freeNat s.draws, { s with draws := s.draws + 1 })

/-- No command of the host and no cue is executing: the stage manager makes its own decisions between commands (R35). -/
def decides (s : State) : Bool := s.mgr.executing.isNone && s.mgr.cueExec.isNone

/-! ### Commands and their outcome -/

/-- A command as it is executed: from the host, from a cue, or from a scene (R33, R485). -/
structure Call where
  tag : Byte
  p : List Byte
  cue : Option Nat
  scene : Bool

/-- What a command comes to: status (R380), payload, state, the audio effects it has (R29), and what it waits for. -/
structure Res where
  status : Nat
  payload : List Byte
  state : State
  effects : List AudioEffect := []
  wait : Option Wait := none
  /-- The command places no reply (R375, R434). -/
  silent : Bool := false
  /-- The main domain is gated once the reply is placed (R432). -/
  gate : Bool := false

def stOk : Nat := 0x00
def stPending : Nat := 0x02
def stUnknown : Nat := 0x10
def stBadLength : Nat := 0x11
def stBadCrc : Nat := 0x12
def stQueueFull : Nat := 0x13
def stNotInVariant : Nat := 0x20
def stNoResource : Nat := 0x21
def stWrongState : Nat := 0x22
def stLocked : Nat := 0x30
def stIdle : Nat := 0xFE

/-- A command that fails has no effect and an empty payload (R381). -/
def fail (status : Nat) (s : State) : Res := { status := status, payload := [], state := s }

def okay (payload : List Byte) (s : State) : Res := { status := stOk, payload := payload, state := s }

end Sys2Proof.Machine
end

