-- ==== Sys2Proof/Machine/Recovery.lean ====
section
/-! DEFINITION. Fault ranking and ordered recovery (R510 to R514, R520): one recovery runs at a time, a higher rank aborts
it, an equal or lower rank is queued. -/

namespace Sys2Proof.Machine

/-- Rank of a fault-log code (Table 18-5). -/
def rankOf (code : Nat) : Nat := code / 16

/-- Faults that log only their beginning and their end (R520). -/
def quietRank (rank : Nat) : Bool := rank == 7 || rank == 8

def isRec (code inst : Nat) (r : Recovery) : Bool := r.code == code && r.inst == inst

def recAt (s : State) (code inst : Nat) : Option Recovery := s.integ.recoveries.find? (isRec code inst)

def runningRec (s : State) : Option Recovery := s.integ.recoveries.find? fun r => r.phase == .running

def setRecs (l : List Recovery) (s : State) : State := { s with integ := { s.integ with recoveries := l } }

def updRec (code inst : Nat) (f : Recovery → Recovery) (s : State) : State :=
  setRecs (s.integ.recoveries.map fun r => if isRec code inst r then f r else r) s

/-- Log a change of phase of a recovery; faults of ranks 7 and 8 log phases 0, 2 and 7 only (R520). -/
def logRec (r : Recovery) (phase other : Nat) (s : State) : State :=
  if quietRank r.rank && !(phase == 0 || phase == 2 || phase == 7) then s
  else logPhase r.rank r.code phase other r.detailA r.detailB s

/-- A port whose recovery was aborted is gated until it restarts, and while PLL-A is out (R320). -/
def freePort (r : Recovery) (s : State) : State :=
  if r.rank = 6 then updPort r.inst (fun p => { p with gated := !pllAUp s.clocks }) s else s

/-- The recovery runs: phase 1, or 5 when it restarts (R513). -/
def startRec (r : Recovery) (s : State) : State :=
  match r.phase with
  | .aborted _ => freePort r (logRec r 5 0 (updRec r.code r.inst (fun x => { x with phase := .running, ready := true }) s))
  | _ => logRec r 1 0 (updRec r.code r.inst (fun x => { x with phase := .running, ready := true }) s)

/-- The running recovery is aborted by one of a higher rank (R513); that of a port leaves the port gated (R320). -/
def abortRec (r : Recovery) (rank : Nat) (s : State) : State :=
  let s1 := logRec r 3 rank (updRec r.code r.inst (fun x => { x with phase := .aborted rank }) s)
  if r.rank = 6 then updPort r.inst gatePort s1 else s1

/-- An aborted recovery waits for the one that aborted it (R513). -/
def mayStart (s : State) (r : Recovery) : Bool :=
  match r.phase with
  | .aborted k => !(s.integ.recoveries.any fun q => q.rank == k)
  | _ => true

def queueRec (r : Recovery) (rank : Nat) (s : State) : State :=
  logRec r 4 rank (updRec r.code r.inst (fun x => { x with phase := .queued }) s)

/-- A recovery becomes runnable (R512, R513): it runs, aborts a lower one, or is queued. -/
def becomesRunnable (code inst : Nat) (s : State) : State :=
  match recAt s code inst with
  | none => s
  | some r =>
    let s1 := updRec code inst (fun x => { x with ready := true }) s
    match runningRec s with
    | none => if mayStart s r then startRec r s1 else s1
    | some q =>
      if isRec code inst q then s
      else if r.rank < q.rank && mayStart s r then startRec r (abortRec q r.rank s1)
      else if r.phase = .waiting then queueRec r q.rank s1 else s1

/-- A fault is detected and contained (R511, R513, R514): phase 0, and its place among the recoveries. -/
def faultBegins (code inst : Nat) (a : Nat) (b : Int) (ready : Bool) (s : State) : State :=
  match recAt s code inst with
  | some r =>
    let r1 := { r with detailA := a, detailB := b }
    let s1 := updRec code inst (fun x => { x with detailA := a, detailB := b }) s
    if r.phase = .running then logRec r1 5 0 s1 else logRec r1 0 0 s1
  | none =>
    let r : Recovery := { rank := rankOf code, code := code, inst := inst, phase := .waiting, detailA := a, detailB := b, ready := ready }
    let s1 := logRec r 0 0 (setRecs (s.integ.recoveries ++ [r]) s)
    if ready then becomesRunnable code inst s1
    else match runningRec s1 with
      | none => s1
      | some q => if r.rank < q.rank then abortRec q r.rank s1 else queueRec r q.rank s1

/-- A recovery that waits for its turn and may take it now. -/
def mayRun (s : State) (r : Recovery) : Bool :=
  match r.phase with
  | .queued => r.ready
  | .aborted _ => mayStart s r
  | _ => false

/-- The next recovery: by rank, within a rank by order of detection (R513). -/
def nextRec (s : State) : Option Recovery :=
  (s.integ.recoveries.filter (mayRun s)).foldl (fun best r =>
    match best with
    | none => some r
    | some b => if r.rank < b.rank then some r else best) none

/-- When the slot is free the next recovery takes it. -/
def slotFree (s : State) : State :=
  match runningRec s with
  | some _ => s
  | none => match nextRec s with
    | some r => startRec r s
    | none => s

/-- A fault ends with a phase: 2 completed, 6 closed without recovery, 7 ended by a stage reset. -/
def faultEnds (code inst phase : Nat) (s : State) : State :=
  match recAt s code inst with
  | none => s
  | some r => slotFree (logRec r phase 0 (setRecs (s.integ.recoveries.filter fun q => !isRec code inst q) s))

/-- The recovery of a fault holds the slot. -/
def holdsSlot (s : State) (code inst : Nat) : Bool :=
  match runningRec s with
  | some r => isRec code inst r
  | none => false

/-- A fault of this code and unit is open. -/
def faultOpen (s : State) (code inst : Nat) : Bool := (recAt s code inst).isSome

/-- A main-domain fault: ranks 4 to 9, but for feed line 0 while the sentinel watches (R514). -/
def mainFault (s : State) (r : Recovery) : Bool :=
  4 ≤ r.rank && r.rank ≤ 9 && !(r.rank == 9 && r.inst == 0 && s.ghost.sentinel)

/-- A stage reset ends every recovery of a main-domain fault, with phase 7 (R514). -/
def endMainFaults (s : State) : State :=
  let out := s.integ.recoveries.filter (mainFault s)
  setRecs (s.integ.recoveries.filter fun r => !mainFault s r) (out.foldl (fun s r => logRec r 7 0 s) s)

/-- Recoveries that are a stage reset complete with its `EV_RESET_DONE` (R514). -/
def resetFault (r : Recovery) : Bool := r.code == 0x10 || r.code == 0x20 || r.code == 0x30 || r.code == 0x31

def completeResetFaults (s : State) : State :=
  let out := s.integ.recoveries.filter resetFault
  slotFree (out.foldl (fun s r => logRec r 2 0 s) (setRecs (s.integ.recoveries.filter fun r => !resetFault r) s))

/-- The faults of blackout are closed with phase 6 when the device leaves it (R514). -/
def blackoutFault (r : Recovery) : Bool := r.code == 0x32 || r.code == 0x33 || r.code == 0x34

def closeBlackoutFaults (s : State) : State :=
  let out := s.integ.recoveries.filter blackoutFault
  slotFree (out.foldl (fun s r => logRec r 6 0 s) (setRecs (s.integ.recoveries.filter fun r => !blackoutFault r) s))

end Sys2Proof.Machine
end

