-- ==== Sys2Proof/Machine/Bands.lean ====
section
/-! DEFINITION. Bins, band plans and antenna sets (R105 to R118, R171, R446). -/

namespace Sys2Proof.Machine

/-- Sample clock of a plan in Hz (Table 16-3). -/
def fsOf (plan : Nat) : Nat := [614400000, 604800000, 624000000, 595200000].getD plan 614400000

/-- Bins over the span: Δ is fs over this number (Table 4-1). -/
def binDiv (low : Bool) : Nat := if low then 65536 else 4096

/-- Bins that a channelizer may compute. -/
def binCount (low : Bool) : Nat := if low then 4096 else 2048

/-- Trimmed sample clock in units of 10^-8 Hz (R449). -/
def fsTrimmed (plan : Nat) (trim : Int) : Nat := fsOf plan * (100000000 + trim).toNat

/-- Centre bin of a frequency (R113), with Δ scaled by the trim in force (R449). -/
def centreBin (low : Bool) (plan : Nat) (trim : Int) (f : Nat) : Nat :=
  (2 * f * binDiv low * 100000000 + fsTrimmed plan trim) / (2 * fsTrimmed plan trim)

/-- NCO offset in Hz, rounded to the nearest, ties away from zero (R113). -/
def ncoOffset (low : Bool) (plan : Nat) (trim : Int) (f : Nat) : Int :=
  roundDiv ((f : Int) * (binDiv low * 100000000 : Nat) - (centreBin low plan trim f : Int) * fsTrimmed plan trim)
    (binDiv low * 100000000)

/-- Enabled ranges of a high-band plan in Hz (Table 4-2). -/
def highRanges (b : BandPlan) : List (Nat × Nat) :=
  (if bitOf b.fmRanges 0 then [(65800000, 74000000)] else []) ++
  (if bitOf b.fmRanges 1 then [(76000000, 95000000)] else []) ++
  (if bitOf b.fmRanges 2 then [(87500000, 108000000)] else []) ++
  (if b.dab then [(174000000, 240000000)] else [])

def lowRanges (b : BandPlan) : List (Nat × Nat) :=
  (if bitOf b.amRanges 0 then [(144000, 288000)] else []) ++
  (if bitOf b.amRanges 1 then [(522000, 1710000)] else []) ++
  (if bitOf b.amRanges 2 then [(2300000, 26100000)] else [])

def isLow (i : Nat) : Bool := 4 ≤ i

def rangesOf (i : Nat) (b : BandPlan) : List (Nat × Nat) := if isLow i then lowRanges b else highRanges b

/-- An input is enabled: `enable` 1 and at least one range of its band (R108). -/
def planEnabled (i : Nat) (b : BandPlan) : Bool := b.enable && !(rangesOf i b).isEmpty

def inputEnabled (s : State) (i : Nat) : Bool := bonded s i && planEnabled i (inputAt s i).plan

def guardHz (low : Bool) : Nat := if low then 50000 else 1000000

/-- A bin is computed: its centre lies within an enabled range widened by the guard (R108). -/
def binComputed (i : Nat) (b : BandPlan) (plan k : Nat) : Bool :=
  b.enable && k < binCount (isLow i) &&
  (rangesOf i b).any fun r =>
    (r.1 - guardHz (isLow i)) * binDiv (isLow i) ≤ k * fsOf plan && k * fsOf plan ≤ (r.2 + guardHz (isLow i)) * binDiv (isLow i)

/-- Number of computed bins of an input (R108). -/
def computedBins (i : Nat) (b : BandPlan) (plan : Nat) : Nat :=
  ((List.range (binCount (isLow i))).filter (binComputed i b plan)).length

/-- Bins on each side of the centre that a lane or engine draws (Table 4-3). -/
def halfBins (engine : Bool) (am : Bool) : Nat := if engine then 6 else if am then 2 else 1

/-- Every bin that the carrier needs is computed on the input. -/
def carriesBins (i : Nat) (b : BandPlan) (plan : Nat) (trim : Int) (half f : Nat) : Bool :=
  let k := centreBin (isLow i) plan trim f
  half ≤ k && (List.range (2 * half + 1)).all fun j => binComputed i b plan (k - half + j)

/-- An input can serve a carrier: bonded, enabled, and it computes every bin (Table 4-4). -/
def inputServes (s : State) (plan : Nat) (half f i : Nat) : Bool :=
  inputEnabled s i && carriesBins i (inputAt s i).plan plan s.clocks.trim half f

/-- The high-band inputs of a mask that can serve the carrier. -/
def highMask (s : State) (plan half f asked : Nat) : Nat :=
  maskOf ((List.range 4).filter fun i => bitOf asked i && inputServes s plan half f i)

/-- The low-band input of a mask that can serve the carrier; the lower one of two (Table 4-4). -/
def lowMask (s : State) (plan f asked : Nat) : Nat :=
  let l := [4, 5].filter fun i => bitOf asked i && inputServes s plan 2 f i
  maskOf (l.take 1)

/-- Effective antenna set of a lane assignment (Table 4-4): mask 0 selects the default. -/
def laneMask (s : State) (plan lane f asked : Nat) : Nat :=
  let m := asked % 64
  if isAm lane then
    if m = 0 then lowMask s plan f (if inputEnabled s 4 then 0x10 else 0x20) else lowMask s plan f m
  else if m = 0 then highMask s plan 1 f 0xF else highMask s plan 1 f m

/-- Effective antenna set of an engine assignment (Table 7-3). -/
def engineMask (s : State) (plan f asked : Nat) : Nat :=
  let m := asked % 16
  if m = 0 then highMask s plan 6 f 0xF else highMask s plan 6 f m

/-- Centre frequencies of the Band III blocks by index, in kHz (Table 7-2). -/
def blockKhz : List Nat :=
  [174928, 176640, 178352, 180064, 181936, 183648, 185360, 187072, 188928, 190640, 192352, 194064] ++
  [195936, 197648, 199360, 201072, 202928, 204640, 206352, 208064, 209936, 211648, 213360, 215072] ++
  [216928, 218640, 220352, 222064, 223936, 225648, 227360, 229072, 230784, 232496, 234208, 235776] ++
  [237488, 239200, 210096, 217088, 224096]

def blockHz (n : Nat) : Nat := blockKhz.getD n 0 * 1000

/-- Antennas in a mask. -/
def antennas (mask : Nat) : Nat := popBits mask 8

end Sys2Proof.Machine
end

