-- ==== Sys2Proof/Machine/Capacity.lean ====
section
/-! DEFINITION. Effort, demand, capacity estimates and admission (R271 to R287). All effort is in units of 0.25 EU. -/

namespace Sys2Proof.Machine

def channelizerCost (i : Nat) : Nat := if isLow i then 24 else 200

/-- Cost of a lane with `n` antennas (Table 10-2). -/
def laneCost (am : Bool) (n : Nat) : Nat := if am then 1 else 8 + 2 * max 1 n

/-- Cost of an engine with `n` antennas (Table 10-2). -/
def engineCost (n : Nat) : Nat := 40 + 8 * max 1 n

def decoderCost : Nat := 20
def blendCost : Nat := 6
def calibrationCost : Nat := 40

/-- Antennas that are still charged: those of the set and those whose ramp to zero weight has not ended (R271, R116). -/
def chargedMask (s : State) (mask : Nat) (ramps : List (Nat × Nat)) : Nat :=
  mask ||| maskOf ((ramps.filter fun r => decide (s.now < r.2)).map (·.1))

/-- Antennas of an assignment that waits for draining; its cost is held from admission (R21, R119). -/
def pendMask (x : Option Pend) : Nat := match x with | some p => p.mask | none => 0

def laneDemand (s : State) (am : Bool) (l : Lane) : Nat :=
  if l.st = .free then 0
  else max (laneCost am (antennas (chargedMask s l.mask l.ramps))) (laneCost am (antennas (pendMask l.pend)))

def engineDemand (s : State) (e : Engine) : Nat :=
  if e.st = .free then 0
  else max (engineCost (antennas (chargedMask s e.mask e.ramps))) (engineCost (antennas (pendMask e.pend)))

/-- An input is frozen: mode 2, or outside the policy mask (R92). -/
def calFrozen (s : State) (i : Nat) : Bool := s.cal.policy.mode == 2 || !bitOf s.cal.policy.mask i

/-- The effort of background calibration is held (R96). -/
def calHeld (s : State) : Bool := (List.range 6).any fun i => ((inputAt s i).receiving || (inputAt s i).waiting) && !calFrozen s i

def sumNat (l : List Nat) : Nat := l.foldl (· + ·) 0

/-- Demand D (R272). -/
def demand (s : State) : Nat :=
  sumNat ((List.range 6).map fun i => if (inputAt s i).receiving || (inputAt s i).waiting then channelizerCost i else 0) +
  sumNat (s.lanes.fm.map (laneDemand s false)) + sumNat (s.lanes.am.map (laneDemand s true)) +
  sumNat (s.dab.engines.map (engineDemand s)) +
  decoderCost * (s.decoders.filter (·.charged)).length +
  blendCost * (s.progs.filter (·.blended)).length +
  (if calHeld s then calibrationCost else 0)

/-- Reserved demand: the part held in the wings (R272). -/
def reservedDemand (s : State) : Nat :=
  sumNat (s.lanes.fm.map fun l => if l.st = .wings then laneDemand s false l else 0) +
  sumNat (s.lanes.am.map fun l => if l.st = .wings then laneDemand s true l else 0) +
  sumNat (s.dab.engines.map fun e => if e.st = .wings then engineDemand s e else 0)

/-- The speed table between its points at one temperature: linear in V, over 0.60 to 0.85 V in 50 mV steps (R274). -/
def rhoV (mv : Nat) (hot : Bool) : Rat :=
  let v := clampNat 600 850 mv
  let lo := v / 50 * 50
  let hi := min 850 (lo + 50)
  let a : Rat := Config.rho lo hot
  let b : Rat := Config.rho hi hot
  a + (b - a) * ((v - lo : Nat) : Rat) / 50

/-- The speed table at a voltage and a temperature in 1/16 degC: linear in T, held beyond 25 and 125 degC (R274). -/
def rhoVT (mv : Nat) (t : Int) : Rat :=
  let tc := clampInt 400 2000 t
  rhoV mv false + (rhoV mv true - rhoV mv false) * ((tc - 400 : Int) : Rat) / 1600

/-- Estimated capacity at a voltage (R274); at the voltage of the measurement it is the measured one. -/
def capEst (s : State) (mv : Nat) : Rat :=
  if mv = s.cap.measuredAt then (s.cap.cmeas : Rat)
  else (s.cap.cmeas : Rat) * rhoVT mv (tDie s) / rhoVT s.cap.measuredAt (tDie s)

/-- Effective ceiling (R277). -/
def vEff (c : Capacity) : Nat :=
  let a := min c.ceiling c.thermal
  if c.economy then min a c.vcap else a

/-- Admission capacity C_lim (R277). -/
def capLim (s : State) : Rat := capEst s (vEff s.cap) * ((100 - s.cap.derate : Nat) : Rat) / 100

/-- `x * 1.10`. -/
def plusTenth (x : Nat) : Rat := (x : Rat) * 11 / 10

/-- Predicted input power under Economy, mW (R280). -/
def powerPredicted (s : State) (c : Nat) : Rat :=
  (s.cap.powerMw : Rat) + (c : Rat) / 4 * (Config.powerFactor : Rat) / 100 * (vEff s.cap : Rat) ^ 2 / 562500

/-- Work that raises the demand by `c` is admitted (R280). A change that does not raise it always is. -/
def admits (s : State) (c : Nat) : Bool :=
  c == 0 ||
  (decide (plusTenth (demand s + c) ≤ capLim s) &&
    (!s.cap.economy || decide (powerPredicted s c ≤ (s.cap.capMw : Rat))))

/-- Processing of admitted work may begin (R282). -/
def capacityMet (s : State) : Bool := decide (plusTenth (demand s) ≤ (s.cap.cmeas : Rat))

/-- A shortfall by the first test of R283. -/
def shortByLimit (s : State) : Bool := decide (capLim s < plusTenth (demand s))

/-- The voltages that may be set, ascending, in 5 mV steps. -/
def vSteps : List Nat := (List.range 51).map fun n => 600 + 5 * n

/-- Lowest voltage above the present one, at or below the effective ceiling, that meets the demand with its margin (R278); else
the ceiling. -/
def vNeeded (s : State) : Nat :=
  match vSteps.find? fun v => decide (s.cap.vcore < v) && decide (v ≤ vEff s.cap) && decide (plusTenth (demand s) ≤ capEst s v) with
  | some v => v
  | none => vEff s.cap

/-- Soft-bit shares held by all engines (R190). -/
def sharesHeld (s : State) : Nat := sumNat (s.dab.engines.map (·.shares))

def sharesFree (s : State) : Nat := 16 - sharesHeld s

/-- Free delay-store pages (R252). -/
def pagesFree (s : State) : Nat := 256 - sumNat (s.progs.map (·.pages))

end Sys2Proof.Machine
end

