-- ==== Sys2Proof/Machine/Operands.lean ====
section
/-! DEFINITION. The fields of every setting command: how PARAM bytes become the values applied (clamped numbers,
defaulted enumerations, masks without their undefined bits, R382) and how applied values are echoed (R384). -/

namespace Sys2Proof.Machine

/-- An enumeration: values outside the documented set take the default (R382). -/
def enumOf (allowed : List Nat) (dflt x : Nat) : Nat := if allowed.contains x then x else dflt

/-- A field that is 0 or 1. -/
def boolOf (dflt : Bool) (x : Nat) : Bool := if x = 0 then false else if x = 1 then true else dflt

def bflag (x : Bool) : Byte := byte (flag x)

/-- One PARAM byte as a number. -/
def p1 (p : List Byte) (off : Nat) : Nat := rd p off 1

/-! ### Event mask (Table 13-3) -/

def maskField (p : List Byte) : BitVec 32 := BitVec.ofNat 32 (rd p 0 4 % 0x100000 + 0x80000000)

def mirrorField (p : List Byte) : Nat := enumOf [0, 1, 2, 3, 4, 5, 6, 7, 0xFF] 0xFF (p1 p 5)

/-! ### Band plan (Table 4-2) -/

def parseBandPlan (p : List Byte) : BandPlan :=
  { enable := boolOf false (p1 p 1), fmRanges := p1 p 2 % 8, dab := boolOf true (p1 p 3),
    fmRaster := enumOf [30, 50, 100, 200] 100 (p1 p 4), amRanges := p1 p 5 % 8, amRaster := enumOf [9, 10] 9 (p1 p 6) }

def bandPlanBytes (i : Nat) (b : BandPlan) : List Byte :=
  [byte i, bflag b.enable, byte b.fmRanges, bflag b.dab, byte b.fmRaster, byte b.amRanges, byte b.amRaster]

/-! ### Gain controller (Table 2-3) -/

def gainTop (i : Nat) : Nat := if isLow i then 24 else 30

def parseGain (i : Nat) (p : List Byte) : GainCfg :=
  let lo := clampNat 0 (gainTop i) (p1 p 3)
  { fixedMode := boolOf false (p1 p 1), fixed := clampNat 0 (gainTop i) (p1 p 2), floor := lo,
    ceiling := max lo (clampNat 0 (gainTop i) (p1 p 4)), target := clampInt (-24) (-9) (rdS p 5 1) }

def gainBytes (i : Nat) (g : GainCfg) : List Byte :=
  [byte i, bflag g.fixedMode, byte g.fixed, byte g.floor, byte g.ceiling] ++ leS 1 g.target

/-! ### Feed line (Table 2-4) -/

structure FeedFields where
  input : Nat
  mode : Nat
  retryMs : Nat
  retryMax : Nat

def parseFeed (p : List Byte) : FeedFields :=
  { input := p1 p 1, mode := enumOf [0, 1, 2] 0 (p1 p 2), retryMs := clampNat 100 10000 (rd p 3 2),
    retryMax := clampNat 0 15 (p1 p 5) }

def feedBytes (n : Nat) (f : Feed) : List Byte := [byte n, byte f.input, byte f.mode] ++ le 2 f.retryMs ++ [byte f.retryMax]

/-! ### Scan policy (Table 4-5) -/

def parseScan (v : Variant) (p : List Byte) : ScanPolicy :=
  { mode := enumOf [0, 1, 2, 3] 3 (p1 p 0), fmDetect := clampNat 3 40 (p1 p 1), amDetect := clampNat 3 40 (p1 p 2),
    dabDetect := clampNat 3 40 (p1 p 3), antennas := clampNat 1 4 (p1 p 4), keepFm := clampNat 0 v.fmLanes (p1 p 5),
    keepDab := clampNat 0 v.engines (p1 p 6), holdS := clampNat 1 600 (rd p 7 2), swapDb := clampNat 3 20 (p1 p 9) }

def scanBytes (x : ScanPolicy) : List Byte :=
  [byte x.mode, byte x.fmDetect, byte x.amDetect, byte x.dabDetect, byte x.antennas, byte x.keepFm, byte x.keepDab] ++
    le 2 x.holdS ++ [byte x.swapDb]

/-! ### Lane and engine assignment (Tables 4-4, 7-3) -/

/-- Carrier frequency of a lane of a kind (Table 4-4). -/
def laneFreq (am : Bool) (f : Nat) : Nat := if am then clampNat 144000 30000000 f else clampNat 64000000 248000000 f

/-- `block` of Table 7-3: 0 to 40, anything else 0xFF. -/
def blockField (x : Nat) : Nat := if x ≤ 40 then x else 0xFF

/-- Centre applied for a block (Table 7-3). -/
def engineFreq (block f : Nat) : Nat := if block ≤ 40 then blockHz block else clampNat 174000000 240000000 f

/-! ### Lane parameters (Tables 5-1, 5-7) -/

def parseFm (p : List Byte) : FmSet :=
  { deemph := enumOf [0, 1, 2] 1 (p1 p 1), stereo := enumOf [0, 1] 0 (p1 p 2), filter := enumOf [0, 1, 2, 3, 4, 5] 0 (p1 p 3),
    profile := enumOf [0, 1, 2] 0 (p1 p 4) }

def fmBytes (lane : Nat) (x : FmSet) : List Byte := [byte lane, byte x.deemph, byte x.stereo, byte x.filter, byte x.profile]

/-- A multiple of 500 Hz, ties upward (Table 5-7). -/
def amBandwidth (hz : Nat) : Nat := (clampNat 2500 10000 hz + 250) / 500 * 500

def parseAm (p : List Byte) : AmSet :=
  { detector := enumOf [0, 1, 2] 0 (p1 p 1), sideband := enumOf [0, 1, 2] 0 (p1 p 2), bandwidth := amBandwidth (rd p 3 2),
    blanker := enumOf [0, 1] 1 (p1 p 5), profile := enumOf [0, 1, 2] 0 (p1 p 6) }

def amBytes (lane : Nat) (x : AmSet) : List Byte :=
  [byte lane, byte x.detector, byte x.sideband] ++ le 2 x.bandwidth ++ [byte x.blanker, byte x.profile]

/-! ### RDS configuration (Table 6-2) -/

def parseRds (v : Variant) (p : List Byte) : RdsCfg :=
  let std := boolOf false (p1 p 0)
  { rbds := std, correct := enumOf [0, 1, 2] 1 (p1 p 1), regional := boolOf false (p1 p 2) && !std,
    afLanes := clampNat 0 v.fmLanes (p1 p 3), flowQuality := enumOf [0, 1, 2] 1 (p1 p 4),
    groupMask := BitVec.ofNat 32 (rd p 5 4), dbStore := boolOf true (p1 p 9) }

def rdsBytes (x : RdsCfg) : List Byte :=
  [bflag x.rbds, byte x.correct, bflag x.regional, byte x.afLanes, byte x.flowQuality] ++ le 4 x.groupMask.toNat ++ [bflag x.dbStore]

/-! ### Announcement and alert policy (Tables 8-8, 8-9) -/

def parseAnn (p : List Byte) : AnnPolicy :=
  { enable := boolOf false (p1 p 1), types := rd p 2 2 &&& 0x07FE, fmTraffic := boolOf true (p1 p 4),
    scope := enumOf [0, 1] 0 (p1 p 5), gainDb := clampInt (-12) 12 (rdS p 6 1), endDelay := clampNat 0 5000 (rd p 7 2) }

def annBytes (n : Nat) (x : AnnPolicy) : List Byte :=
  [byte n, bflag x.enable] ++ le 2 x.types ++ [bflag x.fmTraffic, byte x.scope] ++ leS 1 x.gainDb ++ le 2 x.endDelay

def parseAlert (v : Variant) (p : List Byte) : AlertPolicy :=
  { mask := rd p 0 2 % 2 ^ v.programs, sources := p1 p 2 % 4, tests := boolOf false (p1 p 3),
    gainDb := clampInt (-12) 12 (rdS p 4 1), overrideCurtain := boolOf true (p1 p 5), endDelay := clampNat 0 5000 (rd p 6 2) }

def alertBytes (x : AlertPolicy) : List Byte :=
  le 2 x.mask ++ [byte x.sources, bflag x.tests] ++ leS 1 x.gainDb ++ [bflag x.overrideCurtain] ++ le 2 x.endDelay

/-! ### Programs (Tables 9-1, 9-2, 11-9) -/

/-- The source that a `PROGRAM_SET` names (Table 9-1). Fields of the other kinds are 0. -/
def parseSource (p : List Byte) : Source :=
  let kind := enumOf [0, 1, 2] 0 (p1 p 2)
  if kind = 2 then { kind := 2, lane := 0, eid := BitVec.ofNat 16 (rd p 4 2), sid := BitVec.ofNat 32 (rd p 6 4), scids := p1 p 10 }
  else { kind := kind, lane := p1 p 3, eid := 0, sid := 0, scids := 0 }

/-- The 11-byte layout of `PROGRAM_SET`, with unused fields 0 (Table 15-1). -/
def sourceBytes (program action : Nat) (x : Source) : List Byte :=
  [byte program, byte action, byte x.kind, byte x.lane] ++ le 2 x.eid.toNat ++ le 4 x.sid.toNat ++ [byte x.scids]

def parseLink (p : List Byte) : LinkPolicy :=
  { auto := p1 p 1 % 16, prefer := enumOf [0, 1] 0 (p1 p 2), align := boolOf true (p1 p 3), entry := enumOf [0, 1] 0 (p1 p 4),
    eqLow := p1 p 5, eqHyst := clampNat 0 100 (p1 p 6), lqLow := p1 p 7, lqHyst := clampNat 0 100 (p1 p 8),
    lqMargin := clampNat 5 100 (p1 p 9), holdS := clampNat 1 60 (p1 p 10), maxMembers := clampNat 1 12 (p1 p 11) }

def linkBytes (n : Nat) (x : LinkPolicy) : List Byte :=
  [byte n, byte x.auto, byte x.prefer, bflag x.align, byte x.entry, byte x.eqLow, byte x.eqHyst, byte x.lqLow, byte x.lqHyst,
    byte x.lqMargin, byte x.holdS, byte x.maxMembers]

def curtainMs (x : Nat) : Nat := clampNat 1 500 x

def curtainBytes (n action : Nat) (c : Curtain) : List Byte := [byte n, byte action] ++ le 2 c.downMs ++ le 2 c.upMs

/-! ### Power policy (Table 10-4) -/

def parsePower (p : List Byte) : PowerSet :=
  { economy := boolOf false (p1 p 0), capMw := clampNat 800 3500 (rd p 1 2), ceiling := clampNat 600 850 (rd p 3 2) / 5 * 5,
    restore := boolOf true (p1 p 5) }

/-- The policy as last asked for: it takes effect at the next measurement (R276). -/
def powerAsked (c : Capacity) : PowerSet :=
  c.next.getD { economy := c.economy, capMw := c.capMw, ceiling := c.ceiling, restore := c.restore }

def powerBytes (x : PowerSet) : List Byte := [bflag x.economy] ++ le 2 x.capMw ++ le 2 x.ceiling ++ [bflag x.restore]

/-! ### Ports (Tables 11-1 to 11-8, R299) -/

/-- Frame rates in Hz. -/
def rateHz (r : Nat) : Nat := [32000, 44100, 48000, 88200, 96000].getD r 48000

/-- F / rate of R299. -/
def rateRatio (r : Nat) : Nat := [1536, 1024, 1024, 512, 512].getD r 1024

/-- The largest divisor of `n` that is at most `x`. -/
def largestDivisor (n x : Nat) : Nat := ((List.range (x + 1)).filter fun d => 0 < d && n % d == 0).getLastD 1

/-- `frame_bclks` as R299 makes it. -/
def frameBclks (target : Bool) (rate width offset asked : Nat) : Nat :=
  let a := min (clampNat 16 1024 asked) (49152000 / rateHz rate)
  let b := max a (offset + width)
  if target then b else largestDivisor (rateRatio rate) b

def parsePort (p : List Byte) : PortCfg :=
  let target := boolOf false (p1 p 2)
  let rate := enumOf [0, 1, 2, 3, 4] 2 (p1 p 3)
  let width := enumOf [16, 20, 24, 32] 32 (p1 p 6)
  let offset := clampNat 0 31 (p1 p 7)
  { enable := boolOf false (p1 p 1), target := target, rate := rate, bclks := frameBclks target rate width offset (rd p 4 2),
    width := width, offset := offset, fsync := enumOf [0, 1] 0 (p1 p 8), edge := enumOf [0, 1] 0 (p1 p 9) }

/-- N of R297. -/
def usableSlots (c : PortCfg) : Nat := min 32 ((c.bclks - c.offset) / c.width)

def bclkHz (c : PortCfg) : Nat := if c.target then 0 else c.bclks * rateHz c.rate

def portBytes (n : Nat) (c : PortCfg) : List Byte :=
  [byte n, bflag c.enable, bflag c.target, byte c.rate] ++ le 2 c.bclks ++ [byte c.width, byte c.offset, byte c.fsync, byte c.edge]

/-- Slot contents of Table 11-3; other codes take the default. -/
def contentField (x : Nat) : Nat := enumOf [0, 1, 0x10, 0x11, 0x12, 0x20, 0x30] 0 x

/-- A slot content that names a program, or a status slot. -/
def namesProgram (content : Nat) : Bool := content == 0x10 || content == 0x11 || content == 0x12

/-- The slots that a `SLOT_MAP` names: first slot and entries (Table 11-2). -/
def slotFirst (p : List Byte) : Nat := clampNat 0 31 (p1 p 1)

def slotCount (p : List Byte) : Nat := clampNat 1 (32 - slotFirst p) (p1 p 2)

def slotEntries (p : List Byte) : List Slot :=
  (List.range (slotCount p)).map fun i => { content := contentField (p1 p (3 + 2 * i)), source := p1 p (4 + 2 * i) }

def slotBytes (port first : Nat) (l : List Slot) : List Byte :=
  [byte port, byte first, byte l.length] ++ l.flatMap fun x => [byte x.content, byte x.source]

def parseStatusSlot (p : List Byte) : StatusSlot :=
  { programs := (List.range 8).map fun j => p1 p (1 + j), copy := enumOf [0, 1] 0 (p1 p 9), category := p1 p 10 }

def statusSlotBytes (i : Nat) (x : StatusSlot) : List Byte :=
  byte i :: x.programs.map byte ++ [byte x.copy, byte x.category]

def parseSpdif (p : List Byte) : SpdifCfg :=
  { enable := boolOf false (p1 p 0), program := p1 p 1, rate := enumOf [0, 1, 2, 3, 4] 2 (p1 p 2),
    wordLen := enumOf [16, 20, 24] 24 (p1 p 3), copy := enumOf [0, 1] 0 (p1 p 4), category := p1 p 5 }

def spdifBytes (c : SpdifCfg) : List Byte :=
  [bflag c.enable, byte c.program, byte c.rate, byte c.wordLen, byte c.copy, byte c.category]

/-! ### Flow shaping (Table 12-6) -/

def rateQps (x : Nat) : Nat := clampNat 0 80000 x
def burstField (x : Nat) : Nat := clampNat 1 256 x
def limitField (x : Nat) : Nat := clampNat 1 256 x

/-- Class of a flow: 0 to 3, anything else 0xFF. -/
def classField (x : Nat) : Nat := enumOf [0, 1, 2, 3] 0xFF x

/-! ### Calibration policy (Table 3-3) -/

def parseCal (v : Variant) (p : List Byte) : CalPolicy :=
  { mask := p1 p 0 &&& v.inputMask, mode := enumOf [0, 1, 2] 0 (p1 p 1), deltaT := clampNat 1 20 (p1 p 2),
    maxInterval := clampNat 60 3600 (rd p 3 2), store := boolOf true (p1 p 5) }

def calBytes (x : CalPolicy) : List Byte :=
  [byte x.mask, byte x.mode, byte x.deltaT] ++ le 2 x.maxInterval ++ [bflag x.store]

/-! ### Clocks (Table 15-6) -/

structure RefFields where
  refin : Bool
  hz : Nat
  s : Nat
  a : Nat
  n : Nat
deriving DecidableEq

def parseRef (p : List Byte) : RefFields :=
  let refin := boolOf false (p1 p 0)
  { refin := refin, hz := if refin then clampNat 10000000 52000000 (rd p 1 4) else 38400000, s := enumOf [0, 1, 2] 0 (p1 p 5),
    a := enumOf [0, 1, 2] 0 (p1 p 6), n := enumOf [0, 1, 2] 0 (p1 p 7) }

def refBytes (c : Clocks) : List Byte := [bflag c.refin] ++ le 4 c.refHz ++ [byte c.pathS, byte c.pathA, byte c.pathN]

/-! ### Ghost light (Table 15-9) -/

/-- A nonzero frequency is clamped, then rounded to a whole kHz, ties upward. -/
def ghostFreq (f : Nat) : Nat := if f = 0 then 0 else (clampNat 64000000 248000000 f + 500) / 1000 * 1000

def parseGhost (p : List Byte) : GhostCfg :=
  { watch := enumOf [0, 1, 2] 0 (p1 p 0), freq := ghostFreq (rd p 1 4), expectId := BitVec.ofNat 16 (rd p 5 2),
    prompts := p1 p 7 % 8, auto := boolOf true (p1 p 8) }

def ghostBytes (c : GhostCfg) (action : Nat) : List Byte :=
  [byte c.watch] ++ le 4 c.freq ++ le 2 c.expectId.toNat ++ [byte c.prompts, bflag c.auto, byte action]

end Sys2Proof.Machine
end

