-- ==== Sys2Proof/Machine/FlowOps.lean ====
section
/-! DEFINITION. Flows: packets, queues and drops, token buckets, arbitration, fragments, closing (R325 to R348). -/

namespace Sys2Proof.Machine

/-! ### Kinds (Table 12-1) -/

def flowKinds : List Nat := [0x01, 0x02, 0x10, 0x11, 0x12, 0x13, 0x14, 0x15, 0x20, 0x21]

/-- Default class of a kind: 0 urgent, 1 control, 2 stream, 3 bulk. -/
def kindClass (k : Nat) : Nat :=
  if k = 0x20 ∨ k = 0x21 then 0 else if k = 0x10 ∨ k = 0x14 then 1 else if k = 0x01 ∨ k = 0x13 then 2 else 3

def kindRate (k : Nat) : Nat :=
  match k with
  | 0x10 => 520 | 0x12 => 4 | 0x13 => 800 | 0x14 => 16 | 0x15 => 400 | 0x20 => 80 | 0x21 => 80 | _ => 48

def kindBurst (k : Nat) : Nat := if k = 0x20 ∨ k = 0x21 then 32 else 8

/-- A kind whose source is one subchannel. -/
def kindSubch (k : Nat) : Bool := k == 0x12 || k == 0x13 || k == 0x14 || k == 0x15

def tokenOne : Int := 4294967296

/-- Source of a flow for arbitration: one lane, one engine with every subchannel of it, or the device (R338). -/
def arbSource (f : Flow) : Nat :=
  if f.source / 4096 = 1 then f.source / 256 * 256 else if f.source / 4096 = 2 then 0x2000 else f.source

/-! ### Packets (R329, R330) -/

def packetBytes (p : FlowPacket) : List Byte :=
  [byte p.kind, byte p.flags] ++ le 2 p.source ++ le 4 p.dfc.toNat ++ le 2 p.payload.length ++ le 2 p.seq ++ p.payload

def packetSize (p : FlowPacket) : Nat := 12 + p.payload.length

def setFlag (p : FlowPacket) (n : Nat) : FlowPacket := { p with flags := p.flags ||| 2 ^ n }

/-- Bytes of the pool in use: of queued packets, and of those whose last fragment may still have to be sent again (R339). -/
def poolUsed (f : Flows) : Nat :=
  sumNat (f.flows.map fun x => sumNat (x.queue.map packetSize)) + sumNat ((f.resend ++ f.inFlight).map fun x => (x.ends.map packetSize).getD 0)

/-- The pool is full for a packet of a class: 2 MiB, of which 16 KiB are kept for urgent flows (R339). -/
def poolFull (f : Flows) (cls size : Nat) : Bool :=
  decide ((if cls = 0 then 2097152 else 2097152 - 16384) < poolUsed f + size)

/-- A packet takes its number as it is queued, and the mark of a gap before it (R329, R341). -/
def queuePacket (p : FlowPacket) (f : Flow) : Flow :=
  { f with queue := f.queue ++ [{ p with seq := f.pktSeq, flags := p.flags ||| (if f.dropMark then 2 else 0) }],
           pktSeq := (f.pktSeq + 1) % 65536, dropMark := false }

/-- Packets of a queue but for the closure packet, which no limit counts (R339). -/
def queueLen (f : Flow) : Nat := f.queue.length - (if f.st = .closing then 1 else 0)

/-- Held packets enter the queue while it and a room of the pool in bytes last (R339, R340). -/
def admitHeld : Nat → Nat → Flow → Flow
  | 0, _, f => f
  | n + 1, room, f =>
    match f.held with
    | [] => f
    | h :: t =>
      if f.queue.length < f.limit ∧ packetSize h ≤ room then admitHeld n (room - packetSize h) (queuePacket h { f with held := t }) else f

/-- Every flow's held packets, as far as there is room. -/
def admitAll (f : Flows) : Flows :=
  (List.range f.flows.length).foldl (fun f i =>
    match f.flows[i]? with
    | some x => if x.held.isEmpty then f else { f with flows := f.flows.set i (admitHeld x.held.length (2097152 - poolUsed f) x) }
    | none => f) f

/-- Packets of a flow that are started; they are its oldest. -/
def firstUnstarted (f : Flow) : Nat := (if f.sent.isSome then 1 else 0) + f.again

/-- Mark the packet at a position as following a gap; past the end the mark waits for the next packet (R341). -/
def markGap (i : Nat) (f : Flow) : Flow :=
  if i < f.queue.length then { f with queue := upd f.queue i (setFlag · 1) } else { f with dropMark := true }

def countDrop (pool : Bool) (f : Flow) : Flow :=
  { f with dropsQueue := if pool then f.dropsQueue else satAdd 0xFFFFFFFF f.dropsQueue 1,
           dropsPool := if pool then satAdd 0xFFFFFFFF f.dropsPool 1 else f.dropsPool, dropsNew := f.dropsNew + 1 }

/-- Drop the oldest queued packet that is not started (Table 12-7). -/
def dropOldest (pool : Bool) (f : Flow) : Flow :=
  let i := firstUnstarted f
  countDrop pool (markGap i { f with queue := f.queue.eraseIdx i })

/-- Merge an edge into its held packet, or hold it (R340). -/
def holdUrgent (p : FlowPacket) (f : Flow) : Flow :=
  match findPos f.held fun h => h.key == p.key with
  | some i =>
    let n := match f.held[i]? with | some h => rd h.payload 12 2 + 1 | none => 1
    let q := setFlag { p with payload := p.payload.take 12 ++ le 2 n ++ p.payload.drop 14 } 2
    { f with held := f.held.set i q, merged := satAdd 0xFFFFFFFF f.merged 1 }
  | none => { f with held := f.held ++ [p] }

/-- Put an arriving packet on a flow, under the drop policy of its class (R339, R340). -/
def arrive (full : Bool) (p : FlowPacket) (f : Flow) : Flow :=
  if f.cls = 0 then
    if f.queue.length < f.limit && !full && f.held.isEmpty then queuePacket p f else holdUrgent p f
  else if f.queue.length < f.limit && !full then queuePacket p f
  else
    let pool := f.queue.length < f.limit
    if f.cls = 3 || f.queue.length ≤ firstUnstarted f then
      countDrop pool { f with dropMark := true, pktSeq := (f.pktSeq + 1) % 65536 }
    else queuePacket p (dropOldest pool f)

/-- A flow of this kind and source takes the item (R327, R328). -/
def takes (kind source qual : Nat) (f : Flow) : Bool :=
  f.st == .opened && f.kind == kind && f.source == source && (kind != 0x15 || f.qual == 0xFFFF || f.qual == qual)

/-- What tells one dynamic label from the next: toggle, length and text (Table 8-6, R220). -/
def labelKey (kind : Nat) (payload : List Byte) : List Byte := if kind = 0x14 ∧ payload.headD 0 = 0 then payload.drop 2 else []

/-- A label that repeats the one that this flow last delivered is not delivered again (R220; DEDUCED, log entry 139). -/
def repeats (kind : Nat) (payload : List Byte) (f : Flow) : Bool := labelKey kind payload != [] && f.label == labelKey kind payload

def noteLabel (kind : Nat) (payload : List Byte) (f : Flow) : Flow :=
  if labelKey kind payload = [] then f else { f with label := labelKey kind payload }

/-- Queue one item on every flow open on its source and kind, with its timestamp (R327, R329). -/
def produceAt (dfc : Dfc) (kind source qual : Nat) (failed : Bool) (key : Option (Nat × Nat × Nat)) (payload : List Byte)
    (s : State) : State :=
  let pkt : FlowPacket := { kind := kind, flags := flag failed, source := source, dfc := dfc, seq := 0, payload := payload, key := key }
  (List.range s.flows.flows.length).foldl (fun s i =>
    match s.flows.flows[i]? with
    | some f =>
      if takes kind source qual f && !repeats kind payload f then
        updFlow i (fun f => noteLabel kind payload (arrive (poolFull s.flows f.cls (packetSize pkt)) pkt f)) s
      else s
    | none => s) s

def produce (kind source qual : Nat) (failed : Bool) (key : Option (Nat × Nat × Nat)) (payload : List Byte) (s : State) : State :=
  produceAt s.time.dfc kind source qual failed key payload s

/-- A flow of this kind is open on this source. -/
def flowOpenOn (s : State) (kind source : Nat) : Bool :=
  s.flows.flows.any fun f => f.st == .opened && f.kind == kind && f.source == source

/-- Split a payload into parts behind a header that carries each part's offset (Tables 8-7, 12-5). -/
def parts (size : Nat) : Nat → Nat → List Byte → List (Nat × List Byte)
  | 0, _, _ => []
  | fuel + 1, off, l => if l.isEmpty then [] else (off, l.take size) :: parts size fuel (off + size) (l.drop size)

/-! ### Closing (R330, R348) -/

def closurePacket (f : Flow) (dfc : Dfc) (reason discarded : Nat) : FlowPacket :=
  { kind := 0x7F, flags := 0, source := f.source, dfc := dfc, seq := 0, payload := [byte reason, 0] ++ le 2 discarded, key := none }

/-- Discard what is queued and not started; a gap that a discarded packet would have marked waits for the next one (R341, R348). -/
def discardQueue (f : Flow) : Flow :=
  { f with queue := f.queue.take (firstUnstarted f), held := [],
           dropMark := f.dropMark || (f.queue.drop (firstUnstarted f)).any fun p => p.flags / 2 % 2 == 1,
           discarded := f.discarded + (f.queue.length - firstUnstarted f) + f.held.length }

/-- Close an open flow: with `drain` its queue is still delivered (R348). -/
def closeFlow (dfc : Dfc) (reason : Nat) (drain : Bool) (f : Flow) : Flow :=
  let g := if drain then f.held.foldl (fun g p => queuePacket p g) { f with held := [] } else discardQueue f
  queuePacket (closurePacket g dfc reason g.discarded) { g with st := .closing, closeReason := reason }

/-- Apply `drain` 0 to what a closing flow still holds before its closure packet (R348). -/
def discardClosing (f : Flow) : Flow :=
  match f.queue.getLast? with
  | none => f
  | some c =>
    if f.queue.length ≤ 1 + firstUnstarted f then f else
    let g := discardQueue { f with queue := f.queue.dropLast, dropMark := false }
    let mark := if g.dropMark then 2 else 0
    { g with queue := g.queue ++ [{ c with payload := c.payload.take 2 ++ le 2 g.discarded, flags := c.flags ||| mark }], dropMark := false }

/-- A closure by the device (Table 12-10) raises `EV_FLOW_DROP` with its reason (R341). -/
def deviceClose (i reason : Nat) (s : State) : State :=
  match s.flows.flows[i]? with
  | some f =>
    if f.st = .opened then
      evFlowDrop i reason f.dropsNew (updFlow i (fun f => { closeFlow s.time.dfc reason false f with dropsNew := 0, dropRecAt := some s.now }) s)
    else s
  | none => s

def closeWhere (t : Flow → Bool) (reason : Nat) (s : State) : State :=
  (List.range s.flows.flows.length).foldl (fun s i =>
    match s.flows.flows[i]? with
    | some f => if t f then deviceClose i reason s else s
    | none => s) s

def closeLaneFlows (lane reason : Nat) : State → State := closeWhere (fun f => f.source == laneSource lane) reason

def closeEngineFlows (e reason : Nat) : State → State := closeWhere (fun f => f.source / 256 == 0x10 + e) reason

def closeSubchFlows (e subch reason : Nat) : State → State :=
  closeWhere (fun f => f.source == engineSource e subch && kindSubch f.kind) reason

def laneFeedsFlow (s : State) (lane : Nat) : Bool :=
  s.flows.flows.any fun f => f.st == .opened && f.source == laneSource lane

def engineFeedsFlow (s : State) (e : Nat) : Bool :=
  s.flows.flows.any fun f => f.st == .opened && f.source / 256 == 0x10 + e

/-! ### Token buckets (R336) -/

/-- One tick of refill: rate/48000 packets, in 2^-32 packet, truncated, limited to the burst. -/
def refill (rateQps burst : Nat) (tokens : Int) : Int :=
  if rateQps = 0 then tokens
  else min (burst * tokenOne) (tokens + (rateQps * 4294967296 / 192000 : Nat))

/-- `tokens` of Table 12-11: 1/64 packet, the fraction cut off, so that a debt just above -1 gives -64. -/
def tokens64 (t : Int) : Int := t / 67108864

/-- A new shape takes effect; a smaller burst limits the tokens (R336, R337). -/
def shapedFlow (f : Flow) : Flow :=
  match f.shapeNext with
  | some x => { f with rate := x.1, burst := x.2, tokens := min f.tokens (x.2 * tokenOne), shapeNext := none }
  | none => f

def shapedClass (b : ClassBucket) : ClassBucket :=
  match b.shapeNext with
  | some x => { b with rate := x.1, burst := x.2, tokens := min b.tokens (x.2 * tokenOne), shapeNext := none }
  | none => b

def tickFlow (f : Flow) : Flow :=
  if f.st = .free then f else let g := shapedFlow f; { g with tokens := refill g.rate g.burst g.tokens }

def tickClass (b : ClassBucket) : ClassBucket := let g := shapedClass b; { g with tokens := refill g.rate g.burst g.tokens }

def tickBuckets (f : Flows) : Flows := { f with flows := f.flows.map tickFlow, classes := f.classes.map tickClass }

/-! ### Arbitration and fragments (R331 to R334, R338) -/

/-- A flow may start a packet (R336); one that has a packet started finishes it first. -/
def eligible (f : Flow) : Bool := f.st != .free && !f.queue.isEmpty && f.sent.isNone && f.rate != 0 && decide (0 < f.tokens)

/-- Flows move to the class asked for; a started packet stays with the class that started it (R337). -/
def moveClasses (f : Flows) : Flows :=
  { f with flows := f.flows.map fun x => match x.clsNext with | some c => { x with cls := c, clsNext := none } | none => x }

/-- Sources that have flows in a class, ascending. -/
def classSources (f : Flows) (c : Nat) : List Nat :=
  sortBy (fun a b => decide (a ≤ b)) ((f.flows.filter fun x => x.st != .free && x.cls == c).map arbSource).dedup

def weight (f : Flows) (c src : Nat) : Nat :=
  (f.flows.filter fun x => x.cls == c && arbSource x == src && eligible x).length

def curOf (b : ClassBucket) (src : Nat) : Int := (b.cur.lookup src).getD 0

/-- The largest entry, ties to the first. -/
def bestCur : List (Nat × Int) → Option (Nat × Int)
  | [] => none
  | x :: xs => match bestCur xs with
    | none => some x
    | some y => if x.2 < y.2 then some y else some x

/-- `select_source` of R338: the source chosen and the new `cur` values; those of sources without flows in the class stay. -/
def selectSource (f : Flows) (c : Nat) (b : ClassBucket) : Option Nat × List (Nat × Int) :=
  let srcs := classSources f c
  let w := srcs.map fun x => (x, weight f c x)
  let total := sumNat (w.map (·.2))
  let cur := w.map (fun x => (x.1, if x.2 = 0 then 0 else curOf b x.1 + x.2)) ++ b.cur.filter fun x => !srcs.contains x.1
  match bestCur (cur.filter fun x => 0 < weight f c x.1) with
  | none => (none, cur)
  | some (src, _) => (some src, cur.map fun x => if x.1 = src then (x.1, x.2 - total) else x)

/-- First eligible flow of a source in a class after the one last served, wrapping. -/
def nextFlow (f : Flows) (c src last : Nat) : Option Nat :=
  let ok := (List.range f.flows.length).filter fun i =>
    match f.flows[i]? with
    | some x => x.cls == c && arbSource x == src && eligible x
    | none => false
  match ok.find? (fun i => last < i) with
  | some i => some i
  | none => ok.head?

/-- A class may be served: it has a started packet, or an eligible flow and tokens (R338). -/
def classReady (f : Flows) (c : Nat) : Bool :=
  match f.classes[c]? with
  | none => false
  | some b => !b.started.isEmpty || (decide (0 < b.tokens) && f.flows.any fun x => x.cls == c && eligible x)

/-- Start the next packet of a class: one token from the flow and one from the class (R336). -/
def startPacket (f : Flows) (c : Nat) : Flows :=
  match f.classes[c]? with
  | none => f
  | some b =>
    if !b.started.isEmpty then f else
    match selectSource f c b with
    | (none, cur) => { f with classes := f.classes.set c { b with cur := cur } }
    | (some src, cur) =>
      match nextFlow f c src ((b.lastServed.lookup src).getD f.flows.length) with
      | none => f
      | some i =>
        { f with classes := f.classes.set c { b with cur := cur, started := [i], tokens := b.tokens - tokenOne,
                                                     lastServed := (src, i) :: b.lastServed.filter (·.1 != src) },
                 flows := upd f.flows i fun x => { x with sent := some 0, tokens := x.tokens - tokenOne } }

/-- Bytes packed four to a word, the first byte least significant (R331). -/
def packWords : Nat → List Byte → List Nat
  | 0, _ => []
  | fuel + 1, l => if l.isEmpty then [] else leVal (l.take 4) :: packWords fuel (l.drop 4)

/-- Header word of a fragment. -/
def headerWord (ty flow seq n : Nat) : Nat := ty * 2 ^ 30 + flow * 2 ^ 20 + seq % 256 * 2 ^ 12 + n % 4096

/-- A fragment: header word, payload words, CRC word (R331, R332). -/
def fragmentWords (ty flow seq : Nat) (bytes : List Byte) : List Nat :=
  let h := headerWord ty flow seq bytes.length
  h :: packWords bytes.length bytes ++ [(crc16 (le 4 h ++ bytes)).toNat]

def idleWord : Nat := 0x3FF00000

/-- The last fragment of the head packet leaves: the packet goes with the fragment, and one that begins again follows. -/
def popPacket (f : Flow) : Flow :=
  { f with queue := f.queue.tail, sent := if f.again = 0 then none else some 0, again := f.again - 1 }

/-- Send one fragment of the started packet of class `c` in `r` words (R334). -/
def sendFragment (f : Flows) (c r : Nat) : Option Fragment × Flows :=
  let skip : Flows := { f with classes := upd f.classes c fun b => { b with started := b.started.tail } }
  match f.classes[c]?.bind (·.started.head?) with
  | none => (none, f)
  | some i =>
    match f.flows[i]? with
    | none => (none, skip)
    | some x =>
      match x.queue with
      | [] => (none, skip)
      | p :: _ =>
        let done := x.sent.getD 0
        let size := packetSize p
        let n := min (size - done) (4 * (r - 2))
        let last := size ≤ done + n
        let ty := if last then (if done = 0 then 0 else 3) else (if done = 0 then 1 else 2)
        let w := fragmentWords ty i x.fragSeq (((packetBytes p).drop done).take n)
        let x1 := { x with fragSeq := (x.fragSeq + 1) % 256, sent := some (done + n) }
        let frag : Fragment := { flow := i, cls := c, words := w, bytes := n, ends := if last then some p else none }
        (some frag, if last then { skip with flows := f.flows.set i (popPacket x1) } else { f with flows := f.flows.set i x1 })

/-- A fragment has been sent (R342, R345): its bytes count, with its last one the packet counts, and a closed flow is free (R348, R349). -/
def confirmFragment (f : Flows) (x : Fragment) : Flows :=
  let sent (y : Flow) : Flow := { y with bytesSent := satAdd 0xFFFFFFFF y.bytesSent x.bytes }
  match x.ends with
  | none => { f with flows := upd f.flows x.flow sent }
  | some p =>
    if p.kind = 0x7F then { f with flows := upd f.flows x.flow fun _ => Flow.free }
    else { f with flows := upd f.flows x.flow fun y => let z := sent y; { z with pktsSent := satAdd 0xFFFFFFFF z.pktsSent 1 } }

def confirmAll (l : List Fragment) (f : Flows) : Flows := admitAll (l.foldl confirmFragment f)

/-- The procedure of R338 over `r` words; each turn uses at least three. -/
def arbitrate : Nat → Nat → Flows → List Fragment × Flows
  | 0, _, f => ([], f)
  | fuel + 1, r, f =>
    if r < 3 then ([], f) else
    match (List.range 4).find? (classReady f) with
    | none => ([], f)
    | some c =>
      match sendFragment (startPacket f c) c r with
      | (none, g) => ([], g)
      | (some x, g) =>
        let rest := arbitrate fuel (r - x.words.length) g
        (x :: rest.1, rest.2)

/-- A packet whose last fragment is discarded is the oldest of its flow again, and its class has it started (R342). -/
def takeBack (x : Fragment) (p : FlowPacket) (f : Flows) : Flows :=
  { f with flows := upd f.flows x.flow fun y =>
             { y with queue := p :: y.queue, again := if y.sent.isSome then y.again + 1 else y.again, sent := some 0 },
           classes := upd f.classes x.cls fun b => { b with started := x.flow :: b.started } }

/-- Fragments that wait are discarded; the packets that they belong to begin again, with no further token charge (R342). -/
def discardPending (f : Flows) : Flows :=
  let l := f.resend
  let g := { f with resend := [], flows := mapIdx (fun i x => if l.any (·.flow == i) && x.sent.isSome then { x with sent := some 0 } else x) f.flows }
  l.reverse.foldl (fun g x => match x.ends with | some p => takeBack x p g | none => g) g

/-- Put the fragments that wait for a resend first; where they no longer fit together they are discarded (R342). -/
def placeResend (r : Nat) (f : Flows) : List Fragment × Flows :=
  if sumNat (f.resend.map (·.words.length)) ≤ r then
    (f.resend, { f with resend := [], flows := f.resend.foldl (fun l x => upd l x.flow fun y => { y with resends := satAdd 65535 y.resends 1 }) f.flows })
  else ([], discardPending f)

/-- Fill `r` words: resends first, then the arbitration (R338). -/
def fillWords (r : Nat) (f : Flows) : List Fragment × Flows :=
  let g := moveClasses f
  let (a, g1) := placeResend r g
  let used := sumNat (a.map (·.words.length))
  let (b, g2) := arbitrate r (r - used) g1
  (a ++ b, g2)

/-- Data slots of a port B frame (R301, R338). -/
def dataSlots (p : Port) : Nat :=
  if p.cfg.width = 32 then ((p.slots.take (usableSlots p.cfg)).filter fun x => x.content == 0x30).length else 0

end Sys2Proof.Machine
end

