-- ==== Sys2Proof/Machine/Scene.lean ====
section
/-! DEFINITION. The packets of a scene (Table 17-7) as the configuration in force makes them, and the mark of a changed
scene (R481 to R483). -/

namespace Sys2Proof.Machine

/-- A packet of a scene: TAG 0xFE (Table 17-6a). -/
def scenePacket (opc : Nat) (p : List Byte) : Packet := { opc := byte opc, tag := 0xFE, param := p }

/-- Feed lines of the variant (Table 2-4). -/
def feedLines (v : Variant) : Nat := if v.tier = .t24 && !v.whole then 2 else 4

/-- The full parameters of `CLOCK_OUT` in force (Table 15-6). -/
def clockOutBytes (n : Nat) (o : ClockOutput) : List Byte :=
  [byte n, bflag o.enable, byte o.source] ++ le 2 o.divider ++ [byte o.delay]

/-- The 16-byte layout of `FLOW_OPEN` as applied (Table 15-3). -/
def flowOpenBytes (n : Nat) (f : Flow) : List Byte :=
  le 2 n ++ [byte f.kind] ++ le 2 f.source ++ le 2 f.qual ++ [byte (f.clsNext.getD f.cls)] ++ le 4 f.rate ++ le 2 f.burst ++ le 2 f.limit

def classBytes (n : Nat) (c : ClassBucket) : List Byte := byte n :: le 4 c.rate ++ le 2 c.burst

/-- `LANE_ASSIGN` as applied (Table 14-5). -/
def laneAssignBytes (id freq mask : Nat) (pin start : Bool) : List Byte :=
  byte id :: le 4 freq ++ [byte mask, bflag pin, bflag start]

def engineAssignBytes (id block freq mask : Nat) (pin start : Bool) : List Byte :=
  [byte id, byte block] ++ le 4 freq ++ [byte mask, bflag pin, bflag start]

/-- A scene carries the instance: host assigned, and running or in the wings. -/
def sceneCarries (st : InstState) (o : Owner) : Bool := o == .host && (st == .running || st == .wings)

/-- Held in the wings, and not about to begin. -/
def inWings (st : InstState) (starting : Bool) : Bool := st == .wings && !starting

def sceneLane (s : State) (id : Nat) : List Packet :=
  match laneAt s id with
  | none => []
  | some l =>
    if sceneCarries l.st l.owner then
      scenePacket 0x19 (laneAssignBytes id l.freq l.mask l.pinned (inWings l.st l.starting)) ::
        (if isAm id then
          (if l.amNext.getD l.am = s.lanes.amDefault then [] else [scenePacket 0x21 (amBytes id (l.amNext.getD l.am))])
         else (if l.fmNext.getD l.fm = s.lanes.fmDefault then [] else [scenePacket 0x20 (fmBytes id (l.fmNext.getD l.fm))]))
    else []

def sceneEngine (s : State) (e : Nat) : List Packet :=
  match engineAt s e with
  | none => []
  | some x =>
    if sceneCarries x.st x.owner then
      scenePacket 0x28 (engineAssignBytes e x.block x.freq x.mask x.pinned (inWings x.st x.starting)) ::
        (if x.modeNext.getD x.exact = s.dab.defaultExact then [] else [scenePacket 0x2B [byte e, bflag (x.modeNext.getD x.exact)]])
    else []

/-- Members of a group with an origin, in slot order. -/
def memberSources (p : Program) (origin : Nat) : List Source :=
  p.members.filterMap fun m => match m with
    | some x => if x.origin = origin then some x.src else none
    | none => none

def sceneProgram (n : Nat) (p : Program) : List Packet :=
  [scenePacket 0x42 (linkBytes n (p.policyNext.getD p.policy)), scenePacket 0x43 [byte n, byte p.clsCfg],
   scenePacket 0x44 (curtainBytes n (if p.curtain.held then 0 else 2) p.curtain), scenePacket 0x32 (annBytes n p.ann)] ++
  (if p.running then
    (memberSources p 0).map (fun x => scenePacket 0x40 (sourceBytes n 1 x)) ++
    (memberSources p 1).map (fun x => scenePacket 0x40 (sourceBytes n 2 x))
   else [])

/-- The packets of Table 17-7, orders 1 to 7. -/
def sceneConfig (s : State) : List Packet :=
  let bondedIn := (List.range 6).filter (bonded s)
  [scenePacket 0x90 (powerBytes (powerAsked s.cap)), scenePacket 0x70 (calBytes s.cal.policy), scenePacket 0x81 [byte s.clocks.recorded],
   scenePacket 0x84 (leS 4 s.clocks.target ++ [0])] ++
  [scenePacket 0x22 (rdsBytes s.rds.cfg), scenePacket 0x18 (scanBytes (s.scan.next.getD s.scan.policy)),
   scenePacket 0x33 (alertBytes s.alerts.policy), scenePacket 0x20 (fmBytes 0xFF s.lanes.fmDefault),
   scenePacket 0x21 (amBytes 0xFF s.lanes.amDefault), scenePacket 0x2B [0xFF, bflag s.dab.defaultExact]] ++
  bondedIn.flatMap (fun i => [scenePacket 0x10 (bandPlanBytes i (inputAt s i).plan), scenePacket 0x13 (gainBytes i (inputAt s i).gcfg)]) ++
  (mapIdx (fun n f => scenePacket 0x14 (feedBytes n f)) s.feeds).take (feedLines s.chip.variant) ++
  mapIdx (fun n o => scenePacket 0x82 (clockOutBytes n o)) s.clocks.outs ++
  mapIdx (fun n p => scenePacket 0x50 (portBytes n (p.next.getD p.cfg))) s.ports.tdm ++
  mapIdx (fun n x => scenePacket 0x52 (statusSlotBytes n x)) s.ports.status ++
  mapIdx (fun n p => scenePacket 0x51 (slotBytes n 0 (p.slotsNext.getD p.slots))) s.ports.tdm ++
  [scenePacket 0x53 (spdifBytes (s.ports.spdif.next.getD s.ports.spdif.cfg))] ++
  mapIdx (fun n c => scenePacket 0x63 (classBytes n (shapedClass c))) s.flows.classes ++
  [scenePacket 0x64 [bflag s.flows.mailbox]] ++
  (if s.mgr.rxRunning then [scenePacket 0x11 []] else []) ++
  (laneIds s).flatMap (sceneLane s) ++
  (List.range s.dab.engines.length).flatMap (sceneEngine s) ++
  (mapIdx sceneProgram s.progs).flatten

/-- The `FLOW_OPEN` packets, in ascending flow identifier. -/
def sceneFlows (s : State) : List Packet :=
  (mapIdx (fun n f => if f.st = .opened then [scenePacket 0x60 (flowOpenBytes n (shapedFlow f))] else []) s.flows.flows).flatten

def scenePackets (s : State) : List Packet := sceneConfig s ++ sceneFlows s

/-- Bytes that a packet takes in a scene. -/
def sceneSize (l : List Packet) : Nat := sumNat (l.map fun p => p.param.length + 4)

/-- Leave out packets from the end until the rest fits (R482). -/
def fitFlows (room : Nat) (l : List Packet) : List Packet :=
  l.foldl (fun acc p => if sceneSize acc + p.param.length + 4 ≤ room then acc ++ [p] else acc) []

/-- The scene that a capture writes (R481, R482). -/
def sceneOf (s : State) : Scene :=
  let c := sceneConfig s
  let f := sceneFlows s
  let g := fitFlows (16368 - sceneSize c) f
  { ok := true, truncated := g.length < f.length, writes := 0, dfc := s.time.dfc, packets := c ++ g }

/-- The scene is marked changed when the configuration that it captures differs (R482). -/
def markScene (before after : State) : State :=
  if scenePackets before = scenePackets after then after else sceneChange after

end Sys2Proof.Machine
end

