-- ==== Sys2Proof/Machine/Flags.lean ====
section
/-! DEFINITION. Quality figures and the conditions computed from them (R140, R142, R196, R208, R224). -/

namespace Sys2Proof.Machine

/-! ### Engines -/

/-- `fic_err`: 255 x failed FIBs / 252 over the last 21 frames, rounded (R196). -/
def ficErr (e : Engine) : Nat := (roundDiv (255 * sumNat e.ficHist : Nat) 252).toNat

def lockedOrHold (e : Engine) : Bool := e.acq == .locked || e.acq == .hold

/-- EQ from a MER in 0.01 dB (R196): 0 outside the locked and hold states. -/
def eqOf (e : Engine) (mer : Rat) : Nat :=
  if lockedOrHold e then (clampInt 0 255 (roundRat (8 * (mer / 100 - 4)) - ficErr e)).toNat else 0

/-- Smoothed EQ, and EQ of the last frame. -/
def eqSmooth (e : Engine) : Nat := eqOf e e.merS

def eqRaw (e : Engine) : Nat := eqOf e (e.merRaw : Rat)

/-- `mer`: 0.25 dB steps, 0 to 63.75 dB (R195). -/
def merByte (mer : Rat) : Nat := (clampInt 0 255 (roundRat (4 * mer / 100))).toNat

/-- Some input of a set is overloaded. -/
def setOverloaded (s : State) (mask : Nat) : Bool := (List.range 6).any fun i => bitOf mask i && (inputAt s i).overloaded

/-! ### Figures of an engine that move with time or with its state (Table 7-7) -/

/-- The clock estimate is settled: 10 s at a smoothed MER of at least 10 dB. -/
def clockSettled (s : State) (x : Engine) : Bool :=
  lockedOrHold x && (match x.clockSince with | some t => elapsed s t 480000 | none => false)

/-- A searcher peak is counting under R179. -/
def peakCounting (x : Engine) : Bool := x.peaks.any fun p => decide (0 < p.strong) && p.ignore == 0

def engineFlags (s : State) (x : Engine) : Nat :=
  flag (setOverloaded s x.mask) + 2 * flag x.erasing + 4 * flag (peakCounting x) + 8 * flag x.eid.isSome +
  16 * flag x.beyondGuard + 32 * flag x.tapsReused + 64 * flag x.model.current + 128 * flag (clockSettled s x)

/-- Strongest searcher peak relative to the tracked one, 0.5 dB; 0x80 where there is none. -/
def searcherDb (x : Engine) : Int :=
  let seen := x.peaks.filter fun p => decide (0 < p.frames)
  if seen.isEmpty then -128 else clampInt (-127) 127 (maxInt (seen.map (·.relDb)))

def figuresNow (s : State) (x : Engine) : LastFigures :=
  let on := lockedOrHold x
  { flags := engineFlags s x, searcher := searcherDb x, clock := if on then x.clockPpm else 0,
    lockS := if x.lockAt = 0 then 0 else min 65535 ((s.now - x.lockAt) / 48000), eq := eqSmooth x }

/-! ### Components (R208) -/

def isComp (key : Source) (c : Component) : Bool := c.sid == key.sid && c.scids == key.scids

/-- The engine may serve a key: running, its model current, with the EId and the component (R208). -/
def offers (key : Source) (e : Engine) : Bool :=
  e.st == .running && e.model.current && e.model.eid == some key.eid && e.model.comps.any (isComp key)

/-- The best of a list of engines: highest smoothed EQ, ties to the lower identifier. -/
def bestEngine (s : State) (l : List Nat) : Option Nat :=
  l.foldl (fun best n =>
    match best with
    | none => some n
    | some b =>
      match engineAt s n, engineAt s b with
      | some x, some y => if eqSmooth y < eqSmooth x then some n else some b
      | _, _ => some b) none

/-- The engine that a component key resolves to (R208). -/
def resolve (s : State) (key : Source) : Option Nat :=
  bestEngine s ((List.range s.dab.engines.length).filter fun n => match engineAt s n with | some e => offers key e | none => false)

/-- The component record of a key on an engine. -/
def compOf (s : State) (engine : Nat) (key : Source) : Option Component :=
  (engineAt s engine).bind fun e => e.model.comps.find? (isComp key)

/-- An audio component that may be decoded: stream audio, MPEG Layer II or DAB+, not scrambled (R218, R225). -/
def isAudio (c : Component) : Bool := c.tmid == 0 && (c.ascty == 0 || c.ascty == 63)

def decodable (c : Component) : Bool := isAudio c && !c.scrambled

/-! ### Identities (R159, R168) -/

/-- Bits [11:8] of a PI in 0x4 to 0xF. -/
def regionalCode (a : Id16) : Bool := 4 ≤ a.toNat / 256 % 16

/-- Two PI codes belong to one programme (R159). -/
def oneProgramme (c : RdsCfg) (a b : Id16) : Bool :=
  a == b || (c.regional && regionalCode a && regionalCode b && (a &&& 0xF0FF) == (b &&& 0xF0FF))

/-- Running FM lanes whose identity belongs to one programme with a PI (R168). -/
def liveSet (s : State) (pi : Id16) : List Nat :=
  (List.range s.lanes.fm.length).filter fun n =>
    match s.lanes.fm[n]? with
    | some l => l.st == .running && (match l.ident.pi with | some q => oneProgramme s.rds.cfg q pi | none => false)
    | none => false

/-! ### Sources and members -/

/-- The quality of a source now: unsmoothed LQ or EQ (Table 9-10). -/
def sourceQuality (s : State) (x : Source) : Nat :=
  if x.kind = 2 then
    match (resolve s x).bind (engineAt s) with
    | some e => eqRaw e
    | none => 0
  else match laneAt s x.lane with
    | some l => if l.st = .running then l.raw.lq else 0
    | none => 0

def sameSource (a b : Source) : Bool :=
  a.kind == b.kind && (if a.kind = 2 then a.eid == b.eid && a.sid == b.sid && a.scids == b.scids else a.lane == b.lane)

def memberAt (p : Program) (slot : Nat) : Option Member := (p.members[slot]?).join

/-- Occupied slots, ascending. -/
def slotsOf (p : Program) : List Nat := (List.range 12).filter fun i => (memberAt p i).isSome

def onPath (dab : Bool) (m : Member) : Bool := (m.src.kind == 2) == dab

/-- Slots of a path, ascending. -/
def pathSlots (p : Program) (dab : Bool) : List Nat :=
  (List.range 12).filter fun i => match memberAt p i with | some m => onPath dab m | none => false

def slotOfSource (p : Program) (x : Source) : Option Nat :=
  (List.range 12).find? fun i => match memberAt p i with | some m => sameSource m.src x | none => false

/-- A program uses a source as a member. -/
def usesSource (p : Program) (x : Source) : Bool := (slotOfSource p x).isSome

def laneSrc (id : Nat) : Source := { kind := if isAm id then 1 else 0, lane := id, eid := 0, sid := 0, scids := 0 }

/-- Some running program has this lane as a member. -/
def laneFeeds (s : State) (id : Nat) : Bool := s.progs.any fun p => p.running && usesSource p (laneSrc id)

/-- The only source of a running program (R26). -/
def soleSource (s : State) (id : Nat) : Bool :=
  s.progs.any fun p => p.running && usesSource p (laneSrc id) && (slotsOf p).length == 1

/-- Decoders bound to an engine. -/
def engineDecodes (s : State) (e : Nat) : Bool := s.decoders.any fun d => d.use != .none && d.engine == some e

/-- The DAB members of a group that resolve to an engine. -/
def servedSlots (s : State) (e : Nat) (p : Program) : List Nat :=
  (pathSlots p true).filter fun i => match memberAt p i with | some m => resolve s m.src == some e | none => false

/-- An engine that a DAB member of a running program resolves to. -/
def engineFeeds (s : State) (e : Nat) : Bool :=
  engineDecodes s e || s.progs.any fun p => p.running && (servedSlots s e p != [])

/-- The engine is the only source of a running program (R26, R173): no other lane or engine serves any member. -/
def soleEngine (s : State) (e : Nat) : Bool :=
  s.progs.any fun p => p.running && (pathSlots p false).isEmpty && (servedSlots s e p != []) &&
    (pathSlots p true).all fun i => match memberAt p i with | some m => (resolve s m.src).all (· == e) | none => true

/-! ### Claims (Table 1-4) -/

/-- The lane or engine is the ghost light watch source (R490): on the watch frequency with HB0 in its set. -/
def watchOn (s : State) (kind freq mask : Nat) : Bool :=
  s.ghost.cfg.watch == kind && s.ghost.cfg.freq != 0 && freq == s.ghost.cfg.freq && bitOf mask 0 && s.mgr.rxRunning

/-- The lowest running instance serves as watch source. -/
def watchLane (s : State) : Option Nat :=
  (List.range s.lanes.fm.length).find? fun n => match s.lanes.fm[n]? with
    | some l => l.st == .running && watchOn s 1 l.freq l.mask
    | none => false

def watchEngine (s : State) : Option Nat :=
  (List.range s.dab.engines.length).find? fun n => match engineAt s n with
    | some e => e.st == .running && watchOn s 2 e.freq e.mask
    | none => false

def claimRank (source pinned : Bool) (owner : Owner) (feeds : Bool) : Nat :=
  if source ∨ owner = .watch then 1
  else if pinned ∧ owner = .host then 2
  else if feeds then 3
  else if owner = .host then 4 else 5

/-- Claim rank of a lane; 0 when free (Tables 1-4, 14-6). -/
def laneRank (s : State) (id : Nat) (l : Lane) : Nat :=
  if l.st = .free then 0
  else claimRank (laneFeeds s id || (!isAm id && watchLane s == some id)) l.pinned l.owner (laneFeedsFlow s id)

def engineRank (s : State) (n : Nat) (e : Engine) : Nat :=
  if e.st = .free then 0
  else claimRank (engineFeeds s n || watchEngine s == some n) e.pinned e.owner (engineFeedsFlow s n)

end Sys2Proof.Machine
end

