-- ==== Sys2Proof/Machine/Maps.lean ====
section
/-! DEFINITION. The occupancy map as the scan policy, calibration and the combining read it: powers, spans and floors (R110),
raster points (R107), excess (R122), image frequencies (R99) and concentration (R84). -/

namespace Sys2Proof.Machine

/-! ### Powers in 0.25 dB steps -/

/-- Ten to the power 1/40, to 30 places (log entry 119). -/
def root40 : Rat := 1059253725177288878809280373278 / 1000000000000000000000000000000

/-- The linear power of a level in 0.25 dB steps. -/
def linOf (x : Int) : Rat := (10 : Rat) ^ (x / 40) * root40 ^ (x % 40).toNat

/-- The largest level in 0.25 dB steps that a linear power reaches; -2048 for none (log entry 119). -/
def dbOf (p : Rat) : Int :=
  [1024, 512, 256, 128, 64, 32, 16, 8, 4, 2, 1].foldl (fun n k => if linOf (n + k) ≤ p then n + k else n) (-2048)

def sumRat (l : List Rat) : Rat := l.foldl (· + ·) 0

def sumPowers (l : List Int) : Rat := sumRat (l.map linOf)

/-! ### Spans (R110) -/

/-- A range joins the span before it when they overlap. -/
def joinSpan (acc : List (Nat × Nat)) (r : Nat × Nat) : List (Nat × Nat) :=
  match acc.getLast? with
  | some q => if r.1 ≤ q.2 then acc.dropLast ++ [(q.1, max q.2 r.2)] else acc ++ [r]
  | none => [r]

/-- The spans of an input's enabled ranges, ascending. -/
def spansOf (i : Nat) (b : BandPlan) : List (Nat × Nat) := (rangesOf i b).foldl joinSpan []

/-- Distance of a frequency from a span, 0 inside it. -/
def spanDistance (f : Nat) (r : Nat × Nat) : Nat := (r.1 - f) + (f - r.2)

/-- The span whose floor a frequency takes: the one that contains it, or the nearest; of two equally near the lower (DESIGN CHOICE, log
entry 146). -/
def spanAt (i : Nat) (b : BandPlan) (f : Nat) : Option (Nat × Nat) :=
  (spansOf i b).foldl (fun best r => match best with
    | none => some r
    | some q => if spanDistance f r < spanDistance f q then some r else best) none

/-! ### The fine map (R110) -/

/-- Bins that an input computes, ascending. -/
def computedList (i : Nat) (b : BandPlan) (plan : Nat) : List Nat :=
  (List.range (binCount (isLow i))).filter (binComputed i b plan)

/-- Place of a bin, or with `per` 12 of a sub-bin, in the input's maps: they hold the computed bins, ascending. -/
def mapPlace (s : State) (i per k : Nat) : Option Nat :=
  (findPos (computedList i (inputAt s i).plan s.clocks.plan) (· == k / per)).map fun n => n * per + k % per

/-- Centres of the sub-bins of the computed bins, in Δ/24 units of Hz, in the order of the map: twelve to a bin. -/
def subCentres (i : Nat) (b : BandPlan) (plan : Nat) : List Nat :=
  (computedList i b plan).flatMap fun k => (List.range 12).map fun j => 24 * k + 2 * j - 11

/-- The sub-bins of a fine map with their centres in Hz, times `24 * binDiv`. -/
def subBins (s : State) (i : Nat) : List (Nat × Int) :=
  let x := inputAt s i
  ((subCentres i x.plan s.clocks.plan).zip x.fineMap).map fun y => (y.1 * fsOf s.clocks.plan, y.2)

/-- A frequency in the unit of `subBins`. -/
def subUnit (i f : Nat) : Nat := f * 24 * binDiv (isLow i)

/-- The 20th percentile of a list: the entry at rank ceil(n/5) (log entry 119). -/
def percentile20 (l : List Int) : Int := (sortBy (fun a b => decide (a ≤ b)) l).getD ((l.length + 4) / 5 - 1) 0

/-- The floor that holds at a frequency of an input. -/
def floorAt (s : State) (i f : Nat) : Option Int :=
  (spanAt i (inputAt s i).plan f).bind fun r =>
    let l := (subBins s i).filter fun y => decide (subUnit i r.1 ≤ y.1) && decide (y.1 ≤ subUnit i r.2)
    if l.isEmpty then none else some (percentile20 (l.map (·.2)))

/-! ### Raster points and excess (R107, R122) -/

/-- The lower edge plus whole multiples of the raster, up to the upper edge. -/
def rasterOf (raster : Nat) (r : Nat × Nat) : List Nat :=
  if raster = 0 then [] else (List.range ((r.2 - r.1) / raster + 1)).map fun n => r.1 + n * raster

/-- FM ranges of a plan, without Band III. -/
def fmRangesOf (b : BandPlan) : List (Nat × Nat) := highRanges { b with dab := false }

/-- Raster points of an input's plan for a kind (0 FM, 1 AM, 2 DAB): the union over its ranges; Band III block centres for DAB. -/
def rasterPoints (i : Nat) (b : BandPlan) (kind : Nat) : List Nat :=
  if !planEnabled i b then []
  else if kind = 1 then
    if isLow i then
      ((lowRanges { b with amRanges := b.amRanges &&& 1 }).flatMap (rasterOf 9000) ++
       (lowRanges { b with amRanges := b.amRanges &&& 2 }).flatMap (rasterOf (b.amRaster * 1000)) ++
       (lowRanges { b with amRanges := b.amRanges &&& 4 }).flatMap (rasterOf 5000)).dedup
    else []
  else if isLow i then []
  else if kind = 2 then (if b.dab then (List.range 41).map blockHz else [])
  else ((fmRangesOf b).flatMap (rasterOf (b.fmRaster * 1000))).dedup

/-- Half the window about a point, Hz. -/
def windowHalf (kind : Nat) : Nat := if kind = 0 then 100000 else if kind = 1 then 2500 else 768000

/-- The powers of the window about a frequency. -/
def windowPowers (s : State) (i kind f : Nat) : List Int :=
  ((subBins s i).filter fun y =>
    decide (subUnit i (f - windowHalf kind) ≤ y.1) && decide (y.1 ≤ subUnit i (f + windowHalf kind))).map (·.2)

/-- The excess of a point on an input: the window's power over as many sub-bins at the floor. -/
def excessAt (s : State) (i kind f : Nat) : Option Int :=
  let w := windowPowers s i kind f
  if w.isEmpty then none
  else (floorAt s i f).map fun fl => dbOf (sumPowers w / (w.length * linOf fl))

/-- A raster point with its excess on every input that has it. -/
structure PointObs where
  kind : Nat
  freq : Nat
  excess : List (Nat × Int)
deriving DecidableEq, Repr

/-- Inputs that receive and hold a fine map. -/
def mappedInputs (s : State) : List Nat := (List.range 6).filter fun i => (inputAt s i).receiving && !(inputAt s i).fineMap.isEmpty

def pointsOfKind (s : State) (kind : Nat) : List PointObs :=
  let ins := (mappedInputs s).map fun i => (i, rasterPoints i (inputAt s i).plan kind)
  ((ins.flatMap (·.2)).dedup).map fun f =>
    { kind := kind, freq := f, excess := ins.filterMap fun x => if x.2.contains f then (excessAt s x.1 kind f).map fun e => (x.1, e) else none }

/-- Every raster point of the enabled inputs, as the latest fine maps have it. -/
def pointsNow (s : State) : List PointObs := [0, 1, 2].flatMap (pointsOfKind s)

/-! ### Interleave images (R98, R99) -/

/-- `f` is an image of `g`, at k·fs/16 + g or k·fs/16 - g for some whole k, within the window of its kind (log entry 119): their
difference or their sum is a multiple of fs/16 other than 0. -/
def imageOf (plan kind f g : Nat) : Bool :=
  (List.range 15).any fun k =>
    let c : Int := (k + 1) * fsOf plan
    decide ((16 * ((f : Int) - g).natAbs - c).natAbs ≤ 16 * windowHalf kind) ||
    decide ((16 * (f + g) - c).natAbs ≤ 16 * windowHalf kind)

/-- Power of a point on an input, 0.25 dB: its excess over as many sub-bins at the floor. -/
def pointPower (s : State) (i : Nat) (o : PointObs) : Option Int :=
  let w := windowPowers s i o.kind o.freq
  if w.isEmpty then none else some (dbOf (sumPowers w))

/-! ### Concentration (R84) -/

/-- The three largest powers of the bin map against all of them: more than 90 %. Without a bin map yet the test passes (DESIGN CHOICE, log
entry 150). -/
def concentrated (x : Input) : Bool :=
  let top := (sortBy (fun a b => decide (b ≤ a)) x.binMap).take 3
  decide (9 * sumPowers x.binMap < 10 * sumPowers top)

end Sys2Proof.Machine
end

