-- ==== Sys2Proof/Machine/CalOps.lean ====
section
/-! DEFINITION. Calibration: tables and temperature sets (R86 to R89, R100 to R102), runs, triggers and deferral (R85,
R90 to R95), rotation (R72 to R74) and the image bound (R97 to R99). -/

namespace Sys2Proof.Machine

def calAt (s : State) (i : Nat) : CalInput := s.cal.inputs.getD i CalInput.idle

/-! ### Tables (R86, R87, R100) -/

/-- The slots in 1/16 degC. -/
def calSlots : List Int := [-640, -240, 160, 560, 960, 1360, 1680, 2000]

/-- The slot nearest to a temperature; halfway, the lower one (R86). -/
def slotOf (t : Int) : Nat :=
  (List.range 8).foldl (fun b i => if (t - calSlots.getD i 0).natAbs < (t - calSlots.getD b 0).natAbs then i else b) 0

/-- Position of the table of an input and plan among the tables of the retained bank. -/
def tableIndex (i plan : Nat) : Nat := if isLow i then 12 + i else 4 * i + plan

def tableAt (s : State) (i plan : Nat) : CalTable := s.retained.tables.getD (tableIndex i plan) (CalTable.wiped i plan)

/-- Valid entries of a table that passes its CRC, with their slots, ascending (R87, R101). -/
def validEntries (t : CalTable) : List (Nat × CalEntry) :=
  if t.ok then (mapIdx (fun i e => (i, e)) t.entries).filter fun x => x.2.valid else []

/-- `lo` and `hi` of R87. -/
def lowerEntry (t : CalTable) (temp : Int) : Option (Nat × CalEntry) :=
  ((validEntries t).filter fun x => decide (x.2.tMeas ≤ temp)).getLast?

def upperEntry (t : CalTable) (temp : Int) : Option (Nat × CalEntry) :=
  (validEntries t).find? fun x => decide (temp < x.2.tMeas)

/-- A value between two, at `num / den` of the way, ties away from zero. -/
def lerp (num : Int) (den : Nat) (a b : Int) : Int := roundDiv (a * den + num * (b - a)) den

def lerpSub (num : Int) (den : Nat) (a b : SubLane) : SubLane :=
  { offset := lerp num den a.offset b.offset, gain := lerp num den a.gain b.gain, skew := lerp num den a.skew b.skew,
    sar := List.zipWith (lerp num den) a.sar b.sar }

/-- A step deviation not measured in one entry is taken from the other. -/
def lerpStep (num : Int) (den : Nat) (a b : Option Int) : Option Int :=
  match a, b with
  | some x, some y => some (lerp num den x y)
  | some x, none => some x
  | none, y => y

/-- The slot whose selections apply between two entries: the nearer, with 1 degC of hysteresis (R87). -/
def nearSlot (prev : Option Nat) (temp : Int) (lo hi : Nat × CalEntry) : Nat :=
  let twice := 2 * temp - (lo.2.tMeas + hi.2.tMeas)
  if 32 < twice then hi.1
  else if twice < -32 then lo.1
  else if prev = some hi.1 then hi.1
  else if prev = some lo.1 then lo.1
  else if 0 < twice then hi.1 else lo.1

/-- What R87 derives: the values, the slot of the selections, and the row of Table 3-5. -/
structure Derived where
  set : WorkSet
  sel : Option Nat
  row : Nat

/-- The derivation of R87 at a temperature. -/
def derive (t : CalTable) (temp : Int) (prev : Option Nat) : Derived :=
  match lowerEntry t temp, upperEntry t temp with
  | none, none => { set := WorkSet.nominal, sel := none, row := 2 }
  | some lo, none => { set := lo.2.set, sel := some lo.1, row := 1 }
  | none, some hi => { set := hi.2.set, sel := some hi.1, row := 1 }
  | some lo, some hi =>
    let num := temp - lo.2.tMeas
    let den := (hi.2.tMeas - lo.2.tMeas).toNat
    let near := nearSlot prev temp lo hi
    let pick := if near = hi.1 then hi.2.set else lo.2.set
    { set := { subs := List.zipWith (lerpSub num den) lo.2.set.subs hi.2.set.subs,
               stepDev := List.zipWith (lerpStep num den) lo.2.set.stepDev hi.2.set.stepDev,
               comps := pick.comps, caps := pick.caps,
               offset := lerp num den lo.2.set.offset hi.2.set.offset, gain := lerp num den lo.2.set.gain hi.2.set.gain },
      sel := some near, row := if hi.1 = lo.1 + 1 then 0 else 1 }

/-- D of R88 for an input on its plan, at a temperature. -/
def deriveFor (s : State) (i : Nat) (temp : Int) : Derived :=
  derive (tableAt s i (calAt s i).plan) temp (calAt s i).selSlot

/-- The valid entry nearest to a temperature, ties to the lower slot (R90). -/
def nearestEntry (t : CalTable) (temp : Int) : Option Int :=
  (validEntries t).foldl (fun b x =>
    match b with
    | none => some x.2.tMeas
    | some y => if (temp - x.2.tMeas).natAbs < (temp - y).natAbs then some x.2.tMeas else some y) none

/-! ### Ranges (Table 3-1) -/

def clampWord (x : Int) : Int := clampInt (-32768) 32767 x
def clampTap (x : Int) : Int := clampInt 0 127 x
def clampTrim (x : Int) : Int := clampInt 0 63 x
def clampDev (x : Int) : Int := clampInt (-127) 127 x

/-- A value moved at most one step toward a target. -/
def stepToward (x target : Int) : Int := x + clampInt (-1) 1 (target - x)

/-- A trim of the sub-lane stands at an end of its range (R78). -/
def subAtLimit (x : SubLane) : Bool := x.skew == 0 || x.skew == 127 || x.sar.any fun v => v == 0 || v == 63

/-- Bit n for each sub-lane with a trim at its limit (Table 3-8). -/
def atLimitMask (i : Nat) (w : WorkSet) : Nat :=
  if isLow i then 0 else sumNat (mapIdx (fun n x => if subAtLimit x then 2 ^ n else 0) w.subs)

/-! ### Row and image bound (R97 to R99) -/

/-- The last run settled on this plan, with the die still within `delta_t_c` of its T_meas (R97). -/
def settledNow (s : State) (i : Nat) : Bool :=
  let c := calAt s i
  c.settledRun && (match c.lastTMeas with | some t => decide ((tDie s - t).natAbs ≤ 16 * s.cal.policy.deltaT) | none => false)

/-- The row of Table 3-5 in force: that of what the working set was derived from (R97, R102). -/
def calRow (s : State) (i : Nat) : Nat := if settledNow s i then 0 else (calAt s i).row

/-- The row after a derivation: a table that has become cold leaves the working set as it is (R102). -/
def rowAfter (old new : Nat) : Nat := if new = 2 then old else new

/-! ### Validity tests (R84) -/

/-- The reason mask of a window: tests 0 to 2 of Table 3-2, with the concentration of the latest bin map. -/
def windowMask (s : State) (i clipped samples : Nat) (rms : Int) : Nat :=
  let x := inputAt s i
  (if samples < 100000 * clipped ∨ x.overloaded then 1 else 0) + (if concentrated x then 2 else 0) +
  (if rms < -6000 ∨ rms - Config.ownNoise i x.gain < 300 then 4 else 0)

/-- The image bound of R99, dBc. -/
def imageBound (s : State) (i : Nat) : Int := match calRow s i with | 0 => -80 | 1 => -70 | _ => -55

/-! ### Writing a result (R86, R95, R101) -/

def retainedItem (i plan : Nat) : Nat := if isLow i then 0x10 + (i - 4) else 4 * i + plan

/-- A table is checked before a write; one that fails is initialised first (R101). -/
def checkTable (t : CalTable) : CalTable :=
  if t.ok then t else { t with ok := true, initialised := true, writes := 0, entries := List.replicate 8 CalEntry.empty }

def writeEntry (i plan : Nat) (e : CalEntry) (s : State) : State :=
  let t := tableAt s i plan
  let s1 := if t.initialised && !t.ok then count 22 1 (retainedItem i plan) s else s
  let t1 := checkTable t
  let t2 := { t1 with writes := t1.writes + 1, entries := t1.entries.set (slotOf e.tMeas) e }
  { s1 with retained := { s1.retained with tables := s1.retained.tables.set (tableIndex i plan) t2,
                                           writing := some (tableIndex i plan, s1.now + 2) } }

/-- A completed result that waited for VMAIN is written (R95). -/
def flushWrite (i : Nat) (s : State) : State :=
  match (calAt s i).writeWaits with
  | none => s
  | some e => updCal i (fun c => { c with writeWaits := none, lastFlags := c.lastFlags ||| 4 }) (writeEntry i e.1 e.2 s)

def flushWrites : State → State := forEach (List.range 6) flushWrite

/-! ### Rotation (R72 to R74) -/

def subAt (w : WorkSet) (n : Nat) : SubLane := w.subs.getD n SubLane.nominal

/-- A rehearsal of the understudy begins. -/
def beginRehearsal (c : CalInput) : CalInput :=
  { c with subWin := 0, subFails := 0, skipWin := false, inOverlap := false, before := subAt c.work c.understudy }

/-- Rotation begins or goes on with a rehearsal of the understudy at the swap position. -/
def startRotation (i : Nat) (c : CalInput) : CalInput :=
  if isLow i then c else { beginRehearsal c with rotating := true, swapFails := 0 }

/-! ### Runs (R85, R90 to R95) -/

/-- T_ref (R90). -/
def tRef (c : CalInput) : Option Int := match c.lastTMeas with | some t => some t | none => c.tStart

def calReceiving (s : State) (i : Nat) : Bool := (inputAt s i).receiving

/-- A run may start: automatic mode, or named by `CAL_RUN` (R92). -/
def runAllowed (s : State) (c : CalInput) : Bool := c.run == .due && (s.cal.policy.mode == 0 || c.byCommand)

/-- The run starts from its beginning (R94). -/
def beginRun (s : State) (c : CalInput) : CalInput :=
  { c with run := .running, runStartT := tDie s, tSum := 0, tCount := 0, runLen := 0, runFails := 0, runFirst := true, failMask := 0,
           runQuiet := List.replicate 17 false }

/-- The run is deferred (R85): its event, and its fault of rank 8. -/
def deferRun (i mask : Nat) (s : State) : State :=
  let s1 := updCal i (fun c => { c with run := .deferred, reasons := mask, deferredSince := some s.now, retryAt := s.now + 48000 }) s
  faultBegins 0x80 i i mask false (evCalDeferred i mask s1)

/-- The reason mask of a deferred run changes (R85). -/
def changeReasons (i mask : Nat) (s : State) : State :=
  if (calAt s i).reasons = mask then s
  else updRec 0x80 i (fun r => { r with detailB := mask }) (evCalDeferred i mask (updCal i (fun c => { c with reasons := mask }) s))

/-- A deferral ends; its fault ends with a phase. -/
def endDeferral (i phase : Nat) (run : RunState) (s : State) : State :=
  faultEnds 0x80 i phase (updCal i (fun c => { c with run := run, deferredSince := none }) s)

/-- A trigger (R74, R90, R93): triggers do not stack; a stopped rotation restarts. -/
def calTrigger (i : Nat) (byCommand : Bool) (s : State) : State :=
  if !calReceiving s i || calFrozen s i then s else
  updCal i (fun c =>
    let c1 := if c.rotating then c else startRotation i c
    match c.run with
    | .idle => { c1 with run := .due, byCommand := byCommand }
    | .due => { c1 with byCommand := c.byCommand || byCommand }
    | .deferred => { c1 with retryAt := if byCommand then s.now else c.retryAt, byCommand := c.byCommand || byCommand }
    | .running => c1) s

/-- The die is more than `delta_t_c` from T_ref, or there is no T_ref (R90). -/
def farFrom (s : State) (c : CalInput) (temp : Int) : Bool :=
  match tRef c with
  | some t => decide (16 * s.cal.policy.deltaT < (temp - t).natAbs)
  | none => true

/-- The temperature trigger of one input. A run that is pending, and a stopped rotation, take it when it first holds. -/
def tempTrigger (before : Int) (i : Nat) (s : State) : State :=
  let c := calAt s i
  if farFrom s c (tDie s) && (c.run == .idle && c.suspect.isNone || !farFrom s c before) then calTrigger i false s else s

def tempTriggers (before : Int) : State → State := forEach (List.range 6) (tempTrigger before)

/-- The choices as they will be when every pending change has been applied (R83). -/
def comingSel (c : CalInput) (comp : Bool) : List Nat :=
  c.pendingSel.foldl (fun l x => if x.1 == comp then l.set x.2.1 x.2.2 else l) (if comp then c.work.comps else c.work.caps)

/-- Offset and gain as they will be when what is pending has been applied. -/
def comingOffGain (c : CalInput) : Int × Int := c.pendingOffGain.getD (c.work.offset, c.work.gain)

/-- The result of a run: the working set as it will be when every change of its last window has been applied. -/
def comingWork (c : CalInput) : WorkSet :=
  { c.work with comps := comingSel c true, caps := comingSel c false, offset := (comingOffGain c).1, gain := (comingOffGain c).2 }

/-- A run completes (R86, R94, R95, R103). T_meas is the mean of the die temperatures read at the ends of its intervals or
windows (DESIGN CHOICE, log entry 120). -/
def completeRun (i length : Nat) (settled : Bool) (s : State) : State :=
  let c := calAt s i
  let temp := roundDiv c.tSum (max 1 c.tCount)
  let lim := decide (atLimitMask i c.work ≠ 0)
  let e : CalEntry := { valid := true, settled := settled, atLimit := lim, length := length, tMeas := temp, set := comingWork c }
  let store := s.cal.policy.store
  let now := store && !s.supply.sag
  let flags := flag settled + 2 * flag lim + 4 * flag now
  let s1 := updCal i (fun c => { c with
    run := .idle, byCommand := false, lastTMeas := some temp, lastAt := s.now, lastFlags := flags, settledRun := settled,
    writeWaits := if store && s.supply.sag then some (c.plan, e) else none }) s
  let s2 := if now then writeEntry i c.plan e s1 else s1
  let s3 := evCalDone i (if isLow i then 255 else c.plan) temp length flags s2
  if 16 * s.cal.policy.deltaT < (tDie s - c.runStartT).natAbs then calTrigger i false s3 else s3

/-! ### Inputs that start, stop, freeze and hop (R72, R88 to R90, R92, R95) -/

/-- Skew targets that the taps of a working set stand for. -/
def targetsOf (w : WorkSet) : List Int := w.subs.map fun x => 50 * (x.skew - 64)

/-- The working values are derived afresh at the present temperature and plan. -/
def deriveAll (s : State) (i plan : Nat) (c : CalInput) : CalInput :=
  let d := derive (tableAt s i plan) (tDie s) c.selSlot
  { c with derived := true, plan := plan, work := d.set, row := d.row, selSlot := d.sel, targets := targetsOf d.set, tLast := List.replicate 18 (tDie s), settledRun := false,
           pendingSel := [], pendingOffGain := none }

/-- An input's ADC starts. A working set derived since the stage reset on the same plan is kept as it stands (DESIGN CHOICE, log
entry 121). T_ref outlives a wipe of the table (R102). -/
def calStart (i : Nat) (s : State) : State :=
  let c := calAt s i
  let plan := if isLow i then 0 else s.clocks.plan
  let c1 := if c.derived && c.plan == plan then c else deriveAll s i plan c
  let c2 := { c1 with startedAt := s.now,
                      tStart := (nearestEntry (tableAt s i plan) (tDie s)).or (if c.derived && c.plan == plan then c.tStart else none) }
  if calFrozen s i then updCal i (fun _ => c2) s else
  let s1 := updCal i (fun _ => startRotation i c2) s
  let s2 := if c.run = .deferred then calTrigger i false (endDeferral i 2 .due s1) else s1
  if farFrom s2 c2 (tDie s) then calTrigger i false s2 else s2

/-- An input's ADC stops: a run under way or deferred is deferred with reason bit 4 (R95). -/
def calStop (i : Nat) (s : State) : State :=
  let c := calAt s i
  let s1 := updCal i (fun c => { c with rotating := false, inOverlap := false }) s
  match c.run with
  | .running => deferRun i 16 s1
  | .deferred => changeReasons i 16 s1
  | _ => s1

/-- An input is frozen (R92): rotation and tracking stop, and its run ends. -/
def calFreeze (i : Nat) (s : State) : State :=
  let s1 := if (calAt s i).run = .deferred then endDeferral i 6 .idle s else s
  updCal i (fun c => { c with run := .idle, byCommand := false, rotating := false, inOverlap := false }) s1

/-- An input is frozen no longer: rotation restarts at the position after the last swap (R92). -/
def calThaw (i : Nat) (s : State) : State :=
  if !calReceiving s i then s else
  let s1 := updCal i (startRotation i) s
  if farFrom s1 (calAt s1 i) (tDie s1) then calTrigger i false s1 else s1

/-- The policy changes; each input freezes or thaws with it. -/
def setCalPolicy (p : CalPolicy) (s : State) : State :=
  let was := (List.range 6).filter (calFrozen s)
  let s1 := { s with cal := { s.cal with policy := p } }
  forEach (List.range 6) (fun i s =>
    if calFrozen s i && !was.contains i then calFreeze i s
    else if !calFrozen s i && was.contains i then calThaw i s else s) s1

/-- A sample-plan hop on one input (R81, R89, R90, R95). In the overlap too, after the rehearsal has ended, the understudy is
rehearsed afresh (DESIGN CHOICE, log entry 122). -/
def calHop (i : Nat) (s : State) : State :=
  if !calReceiving s i then s else
  let s1 := updCal i (fun c =>
    let c1 := { c with run := if c.run = .running then .idle else c.run, settledRun := false }
    if isLow i then c1 else
      let c2 := deriveAll s i s.clocks.plan c1
      if c2.rotating then beginRehearsal c2 else c2) s
  calTrigger i false s1

/-- The sub-window in progress of every rehearsal contains a sequencer reset (R81). -/
def calSync (s : State) : State :=
  { s with cal := { s.cal with inputs := s.cal.inputs.map fun c => if c.rotating then { c with skipWin := true } else c } }

end Sys2Proof.Machine
end

