-- ==== Sys2Proof/Machine/AnnounceOps.lean ====
section
/-! DEFINITION. Announcement and alarm edges: their records, urgent packets and the alert log (R166, R167, R222, R229,
R327, R491, R492). -/

namespace Sys2Proof.Machine

/-- Two conditions are the same: origin, unit, cluster, other network and type. -/
def sameAnn (a b : Announce) : Bool :=
  a.origin == b.origin && a.id == b.id && a.cluster == b.cluster && a.other == b.other && a.ty == b.ty && a.alarm == b.alarm && a.test == b.test

/-- Bytes 0 to 13 of the alert and announcement payload (Table 12-3). -/
def annPayload (a : Announce) (start : Bool) (merged : Nat) : List Byte :=
  [byte a.origin, bflag start, byte a.id, byte (flag a.test + 2 * flag a.alarm)] ++ le 2 a.eidPi.toNat ++ le 2 a.other.toNat ++
  le 2 a.asw ++ [byte a.cluster, byte a.subch] ++ le 2 merged

/-- A condition is an alert: an alarm, or a PTY 30 test (R167, R229). -/
def isAlert (a : Announce) : Bool := a.alarm || a.test

/-- `EV_ANNOUNCEMENT` or `EV_ALERT` (Table 14-10). -/
def evAnnounce (a : Announce) (start : Bool) : State → State :=
  raise (if isAlert a then 4 else 3) (annPayload a start 1 ++ [bflag a.new, byte a.region])

/-- The edge on the urgent flows (R327): merged by origin, unit and cluster (R340). -/
def flowEdge (a : Announce) (start : Bool) : State → State :=
  produce (if isAlert a then 0x20 else 0x21) (if isAlert a then 0x2001 else 0x2002) 0xFFFF false
    (some (a.origin, a.id, a.cluster)) (annPayload a start 1 ++ [0, 0])

/-! ### The alert log (R491 to R493) -/

/-- Kind of a logged condition: 0 traffic, 1 alarm, 2 test. -/
def logKind (a : Announce) : Nat := if a.test then 2 else if a.alarm then 1 else 0

/-- Conditions that the log records: alarms, tests and traffic, of the source's own identity. -/
def logged (a : Announce) : Bool := a.origin ≤ 1 && (isAlert a || a.ty == 1)

/-- The same condition of the log's identity, whichever receiver reports it. -/
def sameLogged (a b : Announce) : Bool := logKind a == logKind b && a.cluster == b.cluster

def inLog (l : AlertLog) (a : Announce) : Bool := l.conds.any fun c => sameLogged c.1 a

/-- An edge in the log: the condition is active since `t`, or closed. -/
def logSet (a : Announce) (on : Bool) (t : Dfc) (l : AlertLog) : AlertLog :=
  { l with conds := (l.conds.filter fun c => !sameLogged c.1 a) ++ (if on then [(a, t)] else []), changed := true }

/-- The log holds an identity; conditions of another are closed in it (R491, R492). -/
def logId (id : Id16) (l : AlertLog) : AlertLog :=
  if l.identity = some id then l else { l with identity := some id, conds := [], changed := true }

def updLog (f : AlertLog → AlertLog) (s : State) : State := { s with retained := { s.retained with alertLog := f s.retained.alertLog } }

/-- A condition comes from the watch source of R490. -/
def fromWatch (s : State) (a : Announce) : Bool :=
  if a.origin = 0 then watchEngine s == some a.id else a.origin == 1 && watchLane s == some a.id

/-- The watch source confirms an identity (R491). -/
def logIdentity (dab : Bool) (unit : Nat) (id : Id16) (s : State) : State :=
  if (if dab then watchEngine s else watchLane s) = some unit then updLog (logId id) s else s

/-- Within 60 s of the main domain's return, a condition that the log shows active is taken as active without an edge (R492). -/
def alreadyReported (s : State) (a : Announce) : Bool :=
  let l := s.retained.alertLog
  logged a && inLog l a && l.identity == some a.eidPi &&
  (match l.returnAt with | some t => !elapsed s t (60 * 48000) | none => false)

/-- Raise one edge on every path that reports it, and keep the log of the watch source. -/
def raiseEdge (a : Announce) (start : Bool) (s : State) : State :=
  let s1 := flowEdge a start (evAnnounce a start s)
  if logged a && (fromWatch s a || alreadyReported s a) then updLog (logSet a start (stampDfc s)) s1 else s1

/-- A condition starts (R222, R166, R167). -/
def startAnn (a : Announce) (s : State) : State :=
  if s.alerts.active.any (sameAnn a) then s
  else
    let s1 := { s with alerts := { s.alerts with active := s.alerts.active ++ [a] } }
    if alreadyReported s a then s1 else raiseEdge a true s1

/-- A condition ends. -/
def endAnn (a : Announce) (s : State) : State :=
  match s.alerts.active.find? (sameAnn a) with
  | none => s
  | some b => raiseEdge b false { s with alerts := { s.alerts with active := s.alerts.active.filter fun x => !sameAnn a x } }

/-- Every condition that satisfies a test ends, in the order in which they started. -/
def endAnnWhere (t : Announce → Bool) (s : State) : State :=
  (s.alerts.active.filter t).foldl (fun s a => endAnn a s) s

/-- Conditions that a lane carries, its own and EON (R166, R167). -/
def onLane (id : Nat) (a : Announce) : Bool := a.origin != 0 && a.id == id

def onEngine (e : Nat) (a : Announce) : Bool := a.origin == 0 && a.id == e

/-- An FM condition of a lane. -/
def laneAnn (lane : Nat) (pi : Id16) (alarm test : Bool) : Announce :=
  { alarm := alarm, test := test, origin := 1, id := lane, eidPi := pi, other := 0, ty := if alarm || test then 0 else 1,
    asw := if alarm || test then 1 else 2, cluster := 0, subch := 0xFF, new := false, region := 0 }

/-- An EON traffic announcement that a lane reports for another network (R166). -/
def eonAnn (lane : Nat) (pi other : Id16) : Announce := { laneAnn lane pi false false with origin := 2, other := other }

/-- A DAB condition of one type (R222, R229). -/
def dabAnn (engine : Nat) (eid : Id16) (c : Cluster) (ty : Nat) : Announce :=
  { alarm := ty == 0, test := false, origin := 0, id := engine, eidPi := eid, other := 0, ty := ty, asw := c.asw,
    cluster := c.id, subch := c.subch, new := c.new, region := c.region }

end Sys2Proof.Machine
end

