-- ==== Sys2Proof/Machine/ProgramOps.lean ====
section
/-! DEFINITION. Programs: members, anchors and selections, decoders and loans, the delay store, curtain sequences, and the
announcement or alarm that holds a program (R211 to R214, R224 to R232, R234 to R241, R247, R249, R254, R260, R263, R264). -/

namespace Sys2Proof.Machine

def progAt (s : State) (n : Nat) : Option Program := s.progs[n]?

/-! ### Decoders (R211 to R214, R218) -/

def decoderWhere (s : State) (t : Decoder → Bool) : Option Nat := findPos s.decoders t

def ownDecoder (s : State) (n : Nat) : Option Nat := decoderWhere s fun d => d.use == .own n

/-- The decoder that a component is assigned to. -/
def decoderOf (s : State) (key : Source) : Option Nat := decoderWhere s fun d => d.use != .none && d.key == some key

def loanOrder (d : Decoder) : Nat := match d.use with | .loan _ k => k + 1 | _ => 0

def nextOrder (s : State) : Nat := (s.decoders.map loanOrder).foldl max 0

def isLoanTo (n : Nat) (d : Decoder) : Bool := match d.use with | .loan m _ => m == n | _ => false

/-- The most recently granted loan (R212). -/
def newestLoan (s : State) : Option Nat :=
  let top := nextOrder s
  if top = 0 then none else decoderWhere s fun d => loanOrder d == top

/-- Loans of a program whose component satisfies a test are given back. -/
def releaseLoans (n : Nat) (t : Source → Bool) (s : State) : State :=
  { s with decoders := s.decoders.map fun d =>
      if isLoanTo n d && (match d.key with | some k => t k | none => true) then Decoder.unowned else d }

/-- An announcement or alarm whose loan is taken continues on the program's own decoder (R212). -/
def loseLoan (d : Decoder) (s : State) : State :=
  match d.use, d.key with
  | .loan m _, some k =>
    let mark (h : Holding) : Holding := if h.src = k then { h with ownRebound := true } else h
    updProgram m (fun p => { p with holding := p.holding.map mark, nextHold := p.nextHold.map mark }) s
  | _, _ => s

/-- A program takes its own decoder: an unowned one, or the newest loan (R211, R212). -/
def takeOwn (n : Nat) (s : State) : State :=
  match ownDecoder s n with
  | some _ => s
  | none =>
    match (decoderWhere s fun d => d.use == .none).or (newestLoan s) with
    | some i =>
      let s1 := updDecoder i (fun _ => { Decoder.unowned with use := .own n }) s
      match s.decoders[i]? with
      | some d => loseLoan d s1
      | none => s1
    | none => s

def releaseOwn (n : Nat) (s : State) : State :=
  match ownDecoder s n with
  | some i => updDecoder i (fun _ => Decoder.unowned) s
  | none => s

/-- A decoder is given another component, or none: it is unbound until the next CIF boundary (R214). -/
def setKey (key : Option Source) (d : Decoder) : Decoder :=
  if d.key = key then d else { d with key := key, engine := none, last := none, valid := false, concealing := false, charged := false, limited := false }

/-- A decoder of this program is rebound to an announcement, now or at the next switch (R227). -/
def reboundHold (p : Program) : Option Holding := (p.nextHold.toList ++ p.holding.toList).find? (·.ownRebound)

/-- A component that carries audio, as far as its engine's model tells (R211). -/
def audioKey (s : State) (x : Source) : Bool :=
  x.kind == 2 && (match (resolve s x).bind fun e => compOf s e x with | some c => c.tmid == 0 | none => true)

/-- A DAB audio component among the members (R211). -/
def hasDab (s : State) (p : Program) : Bool := p.members.any fun m => match m with | some x => audioKey s x.src | none => false

/-- The sources still heard while the curtain closes for a new group (R234). -/
def leavingSources (p : Program) : List Source := p.outgoing.flatMap fun x => x.terms.map (·.src)

/-- The component that a program's own decoder decodes: the announcement it is rebound to, the source that is still heard,
or the DAB selection (R211, R227, R234). -/
def wantedKey (p : Program) : Option Source :=
  match reboundHold p with
  | some h => some h.src
  | none => ((leavingSources p).find? (·.kind == 2)).or ((p.selD.bind (memberAt p)).map (·.src))

/-- The own decoder takes its component unless another decoder has it (R213). -/
def assignOwn (n : Nat) (s : State) : State :=
  match progAt s n, ownDecoder s n with
  | some p, some i =>
    let key := wantedKey p
    let taken : Bool := match key with
      | some k => (mapIdx (fun j d => j != i && d.use != .none && d.key == some k) s.decoders).any id
      | none => false
    updDecoder i (setKey (if taken then none else key)) s
  | _, _ => s

/-- A program has its own decoder while it has a DAB member, a DAB source still heard, or an announcement on it (R211). -/
def needsOwn (s : State) (p : Program) : Bool :=
  p.running && (hasDab s p || (reboundHold p).isSome || (leavingSources p).any (·.kind == 2))

/-- Take, give back and assign a program's own decoder as its group asks. -/
def fitOwn (n : Nat) (s : State) : State :=
  match progAt s n with
  | some p => if needsOwn s p then assignOwn n (takeOwn n s) else releaseOwn n s
  | none => s

/-- Lend an unowned decoder for a component, when its cost is admitted (R212, R213). -/
def lend (n : Nat) (key : Source) (s : State) : Option State :=
  match decoderWhere s fun d => d.use == .none with
  | some i =>
    if admits s decoderCost then
      some (updDecoder i (fun _ => { Decoder.unowned with use := .loan n (nextOrder s), key := some key, charged := true }) s)
    else none
  | none => none

/-! ### Alignment and pages -/

def updAlign (n : Nat) (a : AlignState) : State → State := updProgram n fun p => { p with align := a }

/-- Pages go back to the store and the reservation ends (R254). -/
def dropPages (n : Nat) : State → State :=
  updProgram n fun p => { p with pages := 0, request := none, recordSince := none, unaligned := false, store := DelayStore.none }

/-- Both paths of a group have members. -/
def bothPaths (p : Program) : Bool := !(pathSlots p false).isEmpty && !(pathSlots p true).isEmpty

/-! ### Curtain sequences -/

def setCurtain (n : Nat) (f : Curtain → Curtain) : State → State := updProgram n fun p => { p with curtain := f p.curtain }

/-- The curtain opens at the first valid sample of the source in force (R234, R260). -/
def reopen (n : Nat) : State → State := setCurtain n fun c => { c with moving := none, waitValid := true }

/-- The curtain is ordered to close or to open from where it is (R314). -/
def closeCurtain (c : Curtain) : Curtain := { c with moving := if c.pos = 0 then none else some false }

def openCurtain (c : Curtain) : Curtain :=
  if c.held || c.waitValid || !c.after.isEmpty then c else { c with moving := if c.pos = 1 then none else some true }

/-- A program stops at the closed instant: members leave, pages, loans and the own decoder are released (R234). Its
policies and its curtain's times and hold stay. -/
def leaveAll (n : Nat) (p : Program) (s : State) : State :=
  forEach (slotsOf p) (fun i s => match memberAt p i with | some m => evLink n 1 i m.src.kind (extKey m.src) 0 s | none => s) s

def endProgram (n : Nat) (s : State) : State :=
  match progAt s n with
  | none => s
  | some p =>
    let s1 := leaveAll n p s
    let s2 := releaseOwn n (releaseLoans n (fun _ => true) s1)
    updProgram n (fun _ => { Program.stopped with
      policy := p.policy, policyNext := p.policyNext, ann := p.ann, clsCfg := p.clsCfg, cls := p.cls,
      curtain := { p.curtain with pos := 0, moving := none, after := [], waitValid := false, switching := false } }) (sceneChange s2)

/-- The announcement whose source takes the output at the closed instant (R226 step 3, R231). -/
def takeHolding (n : Nat) (p : Program) (alarmOverride : Bool) (s : State) : State :=
  match p.nextHold.or p.holding with
  | none => reopen n s
  | some h =>
    let ovr := p.curtain.held && isAlert h.ann && alarmOverride
    let broken := if isAlert h.ann then p.holding.filter fun x => x.onAir && !isAlert x.ann else none
    let s1 := updProgram n (fun p => { p with holding := some { h with onAir := true, overrode := ovr }, nextHold := none,
                                              resume := broken.or (if isAlert h.ann then p.resume else none) }) s
    let s2 := releaseLoans n (fun k => k != h.src && !(p.members.any fun m => match m with | some x => x.src == k | none => false)) s1
    if ovr then setCurtain n (fun c => { c with moving := some true, waitValid := false }) s2 else reopen n s2

/-- The return to normal audio (R226 step 6, R227, R231). -/
def returnNormal (n : Nat) (p : Program) (s : State) : State :=
  let ovr : Bool := match p.holding with | some h => h.overrode | none => false
  let s1 := updProgram n (fun p => { p with holding := none, nextHold := none, resume := none }) s
  let s2 := releaseLoans n (fun k => !(p.members.any fun m => match m with | some x => x.src == k | none => false)) s1
  let s3 := fitOwn n s2
  if ovr then setCurtain n (fun c => { c with moving := none, waitValid := false }) s3 else reopen n s3

/-- Ready (R258): aligned, a reservation held, tau recorded, a loudness offset estimated. -/
def progReady (s : State) (p : Program) : Bool :=
  p.align == .aligned && decide (0 < p.pages) && p.loud.isSome &&
  (match p.recordSince with | some t => elapsed s t p.tau.ceil.toNat | none => false)

/-- A ready program on the DAB path becomes aligned at once (R264). -/
def alignIfReady (n : Nat) (s : State) : State :=
  match progAt s n with
  | some p =>
    if p.running && p.outDab && !p.alignedMode && progReady s p then
      evLink n 7 1 0 [] 0 (updProgram n (fun p => { p with alignedMode := true }) s)
    else s
  | none => s

/-- A realignment starts (R249); a program that is not aligned searches afresh (R247). -/
def realign (n : Nat) : State → State :=
  fun s => updProgram n (fun p =>
    match p.align with
    | .aligned => { p with align := .realigning s.now, badTracks := 0 }
    | .realigning _ => p
    | _ => { p with align := .off }) s

/-- The first sample offset of a rebased member: measured against the new anchor (R242). -/
def rebase (p : Program) (anchor : Nat) (m : Member) : Member :=
  match m.delta, (memberAt p anchor).bind (·.delta) with
  | some d, some a => { m with delta := if (d - a).natAbs ≤ 2400 then some (d - a) else none }
  | _, _ => { m with delta := none }

/-- A path takes a new anchor: every delay is rebased; a new DAB anchor restarts the search (R242, R247). -/
def setAnchor (n : Nat) (dab : Bool) (slot : Option Nat) (s : State) : State :=
  let s1 := updProgram n (fun p =>
    let ms := match slot with
      | none => p.members
      | some a => mapIdx (fun i m => match m with
          | some x => if onPath dab x then (if i = a then some { x with delta := some 0 } else some (rebase p a x)) else m
          | none => none) p.members
    if dab then { p with anchorD := slot, members := ms, dabValidAt := none, dabTicks := 0 } else { p with anchorA := slot, members := ms }) s
  if dab then realign n s1 else s1

/-- A member is selected on its path; it becomes the anchor of a path whose anchor has left (R241). -/
def selectMember (n : Nat) (dab : Bool) (slot : Nat) (s : State) : State :=
  let s1 := updProgram n (fun p => if dab then { p with selD := some slot } else { p with selA := some slot }) s
  match progAt s1 n with
  | some p => if (if dab then p.anchorD else p.anchorA).isNone then setAnchor n dab (some slot) s1 else s1
  | none => s1

/-- The incoming DAB member's decoder becomes the own one, and the outgoing member's the loan (R211). -/
def swapDecoders (n : Nat) (key : Source) (s : State) : State :=
  match ownDecoder s n, decoderOf s key with
  | some i, some j =>
    match s.decoders[i]?, s.decoders[j]? with
    | some a, some b =>
      if i = j ∨ !isLoanTo n b then s
      else updDecoder i (fun d => { d with use := b.use }) (updDecoder j (fun d => { d with use := a.use }) s)
    | _, _ => s
  | _, _ => s

/-- A DAB member that is switched to is decoded by the program's own decoder. -/
def ownMember (n slot : Nat) (s : State) : State :=
  match (progAt s n).bind (memberAt · slot) with
  | some m => if m.src.kind = 2 then fitOwn n (swapDecoders n m.src s) else s
  | none => s

/-- The primary member of a new group takes its paths (R234). -/
def selectPrimary (n : Nat) (s : State) : State :=
  fitOwn n (updProgram n (fun p => { p with
    outgoing := [], outDab := (pathSlots p true).contains 0,
    selA := if (pathSlots p false).contains 0 then some 0 else p.selA,
    selD := if (pathSlots p true).contains 0 then some 0 else p.selD }) s)

/-- Direct mode (R264): the record, and the pages go back (R254). -/
def exitAligned (n : Nat) (s : State) : State :=
  dropPages n (evLink n 7 0 0 [] 0 (updProgram n (fun p => { p with alignedMode := false }) s))

/-- What the closed instant makes (R234, R260, R264). A program that is no longer ready does not become aligned. -/
def atClosed (n : Nat) (a : AfterClose) (s : State) : State :=
  match progAt s n with
  | none => s
  | some p =>
    match a with
    | .stop => endProgram n s
    | .newPrimary => reopen n (selectPrimary n s)
    | .switchMember dab slot => reopen n (ownMember n slot (selectMember n dab slot s))
    | .switchPath dab => reopen n (alignIfReady n (updProgram n (fun p => { p with outDab := dab }) s))
    | .enterAligned => reopen n (if progReady s p then evLink n 7 1 0 [] 0 (updProgram n (fun p => { p with alignedMode := true }) s) else s)
    | .leaveAligned => reopen n (exitAligned n s)
    | .takeAnnouncement => takeHolding n p s.alerts.policy.overrideCurtain s
    | .returnNormal => returnNormal n p s

/-- The curtain has reached closed: everything that waits for it is made, in order. -/
def closedInstant (n : Nat) (s : State) : State :=
  match progAt s n with
  | none => s
  | some p =>
    let s1 := setCurtain n (fun c => { c with moving := none, after := [] }) s
    p.curtain.after.foldl (fun s a => atClosed n a s) s1

/-- The change is a hard switch of R260. -/
def isSwitch (a : AfterClose) : Bool := match a with | .switchMember _ _ | .switchPath _ => true | _ => false

/-- Close the curtain and then make a change; a curtain that is closed makes it at once. -/
def closeThen (n : Nat) (a : AfterClose) (s : State) : State :=
  let s1 := setCurtain n (fun c => { c with after := c.after ++ [a], moving := if c.pos = 0 then none else some false, waitValid := false,
                                            switching := c.switching || isSwitch a }) s
  match progAt s1 n with
  | some p => if p.curtain.pos = 0 then closedInstant n s1 else s1
  | none => s1

/-- Leave aligned mode (R254, R264): without audible change on the DAB path, under the curtain on the analog path; the pages go at
the instant it is left. -/
def leaveAligned (n : Nat) (s : State) : State :=
  match progAt s n with
  | none => s
  | some p =>
    if !p.alignedMode then dropPages n s
    else if p.curtain.after.contains .leaveAligned then s
    else if p.outDab || p.holding.any (·.onAir) then exitAligned n s
    else closeThen n .leaveAligned s

/-- Alignment is lost (R249): the record, and direct mode. -/
def loseAlignment (n : Nat) (s : State) : State :=
  leaveAligned n (updProgram n (fun p => { p with align := .failed s.now, wasAligned := false }) (evLink n 4 0 0 [] 0 s))

/-! ### Joining and leaving (R235 to R241) -/

def newMember (src : Source) (origin now : Nat) (first : Bool) : Member :=
  { src := src, origin := origin, delta := if first then some 0 else none, lowSince := none, goodSince := none, betterSince := none,
    underrun := false, lateFrom := 0, onTimeSince := none, concealDue := false, joinedAt := now, notAdmittedSince := none, rivals := [],
    measuredAt := none, line := [], trace := Trace.none }

/-- The lowest free slot for a member that is not the primary (R235). -/
def freeSlot (p : Program) : Option Nat := (List.range 12).find? fun i => 1 ≤ i && (memberAt p i).isNone

/-- Put a member into a slot (R235, R241): it becomes anchor and selection of a path that had no member. -/
def placeMember (n slot : Nat) (src : Source) (origin : Nat) (s : State) : State :=
  match progAt s n with
  | none => s
  | some p =>
    let dab := src.kind == 2
    let anchor := if dab then p.anchorD else p.anchorA
    let first := (pathSlots p dab).isEmpty
    let q := { p with members := p.members.set slot (some (newMember src origin s.now (first && anchor.isNone))),
                      noDabSince := if dab then none else p.noDabSince }
    let q1 := if !first then q else if dab then { q with anchorD := some (anchor.getD slot), selD := some slot }
              else { q with anchorA := some (anchor.getD slot), selA := some slot }
    let s1 := updProgram n (fun _ => { q1 with blended := decide (2 ≤ (slotsOf q1).length) }) s
    let s2 := if dab then fitOwn n s1 else s1
    evLink n 0 slot src.kind (extKey src) 0 (if origin ≤ 1 then sceneChange s2 else s2)

/-- A crossfade reverses from its present gain at the same rate (R262). -/
def reverseFade (now : Nat) (f : Fade) : Fade :=
  if f.reversed then f else
  let t := ticksOfMs f.ms
  { f with reversed := true, start := now - (t - min t (now - f.start)) }

/-- A hard switch to a source that leaves is abandoned (R262); with nothing left to make, the curtain opens again. -/
def abandonSwitch (a : AfterClose → Bool) (c : Curtain) : Curtain :=
  let l := c.after.filter fun x => !a x
  if l.length = c.after.length then c
  else if l.isEmpty then openCurtain { c with after := [], switching := false } else { c with after := l }

/-- The switches whose incoming source a slot holds. -/
def bringsSlot (p : Program) (dab : Bool) (slot : Nat) (a : AfterClose) : Bool :=
  match a with
  | .switchMember d i => d == dab && i == slot
  | .switchPath d => d == dab && (if dab then p.selD else p.selA) == some slot
  | _ => false

/-- A member leaves (R26, R240, R241, R262, R263): a path whose selection leaves has none until the next decision. -/
def removeMember (n slot : Nat) (s : State) : State :=
  match (progAt s n).bind fun p => (memberAt p slot).map fun m => (p, m) with
  | none => s
  | some (p, m) =>
    let dab := m.src.kind == 2
    let sel := if dab then p.selD else p.selA
    let mine := sel == some slot
    let ms := p.members.set slot none
    let c := abandonSwitch (bringsSlot p dab slot) p.curtain
    let q := { p with members := ms,
                      selA := if mine && !dab then none else p.selA, selD := if mine && dab then none else p.selD,
                      curtain := if mine && c.after.isEmpty then { c with switching := false } else c,
                      fade := p.fade.map fun f => if f.new = slot then reverseFade s.now f else f }
    let more := !(pathSlots q dab).isEmpty
    let q1 := { q with blended := decide (2 ≤ (slotsOf q).length),
                       noDabSince := if dab && !more then some s.now else q.noDabSince }
    let s1 := updProgram n (fun _ => q1) s
    let anchor := if dab then p.anchorD else p.anchorA
    let s2 := if anchor = some slot then
        setAnchor n dab (if sel = some slot then none else sel) s1 else s1
    let s3 := if dab then fitOwn n (releaseLoans n (fun k => k == m.src) s2) else s2
    evLink n 1 slot m.src.kind (extKey m.src) 0 (if m.origin ≤ 1 then sceneChange s3 else s3)

/-- A lane that is released leaves every group at once (R240). -/
def laneLeaves (id : Nat) (s : State) : State :=
  forEach (List.range s.progs.length) (fun n s =>
    match (progAt s n).bind fun p => slotOfSource p (laneSrc id) with
    | some slot => removeMember n slot s
    | none => s) s

/-- A DAB member whose key resolves to no engine leaves its group. -/
def dropUnserved (n slot : Nat) (s : State) : State :=
  match (progAt s n).bind fun p => memberAt p slot with
  | some m => if (resolve s m.src).isNone then removeMember n slot s else s
  | none => s

/-- An engine has been released: the members that it served leave their groups, but for those that another engine serves
(R26, DEDUCED, log entry 118). `before` is the state before the release. -/
def engineLeaves (e : Nat) (before s : State) : State :=
  forEach (List.range s.progs.length) (fun n s =>
    match progAt before n with
    | some p => forEach (servedSlots before e p) (fun i s => dropUnserved n i s) s
    | none => s) s

/-! ### Announcements and alarms (R224 to R232) -/

/-- The audio source of a condition (R225); a scrambled component carries none (R218). -/
def annSource (s : State) (a : Announce) : Option Source :=
  if a.origin = 0 then
    (engineAt s a.id).bind fun e =>
      (e.model.comps.find? fun c => c.subch == a.subch && decodable c).map fun c =>
        { kind := 2, lane := 0, eid := a.eidPi, sid := c.sid, scids := c.scids }
  else if a.origin = 1 then
    match laneAt s a.id with
    | some l => if l.st = .running then some (laneSrc a.id) else none
    | none => none
  else ((List.range s.lanes.fm.length).find? fun n => match s.lanes.fm[n]? with
      | some l => l.st == .running && l.ident.pi == some a.other
      | none => false).map laneSrc

/-- An FM member of the group has an identity of one programme with a PI. -/
def groupHasPi (s : State) (p : Program) (pi : Id16) : Bool :=
  p.members.any fun m => match m with
    | some x => x.src.kind == 0 && (match (laneAt s x.src.lane).bind (·.ident.pi) with
        | some q => oneProgramme s.rds.cfg q pi
        | none => false)
    | none => false

/-- A DAB member's service lists the cluster and supports the type (R224). -/
def groupSupports (s : State) (p : Program) (a : Announce) : Bool :=
  p.members.any fun m => match m with
    | some x => x.src.kind == 2 && x.src.eid == a.eidPi && (match engineAt s a.id with
        | some e => e.model.annSup.any fun r => r.sid == x.src.sid && bitOf r.asu a.ty && r.clusters.contains a.cluster
        | none => false)
    | none => false

/-- An announcement is eligible for a program (R224). -/
def annEligible (s : State) (p : Program) (a : Announce) : Bool :=
  !isAlert a && p.ann.enable && (annSource s a).isSome &&
  (if a.origin = 0 then bitOf p.ann.types a.ty else p.ann.fmTraffic) &&
  (p.ann.scope == 1 || (if a.origin = 0 then groupSupports s p a else groupHasPi s p a.eidPi))

/-- An alarm of an enabled source pre-empts (R230, R231). -/
def alarmEligible (s : State) (a : Announce) : Bool :=
  let c := s.alerts.policy
  isAlert a && (annSource s a).isSome &&
  (if a.test then c.tests else if a.origin = 0 then bitOf c.sources 0 else bitOf c.sources 1)

/-- Order of alarms (R232): DAB before RDS, highest quality, lower identifier. -/
def alarmKey (s : State) (a : Announce) : Nat × Nat × Nat :=
  if a.origin = 0 then (0, 255 - (match engineAt s a.id with | some e => eqSmooth e | none => 0), a.id)
  else (1, 255 - (match laneAt s a.id with | some l => l.smoothed.lq | none => 0), a.id)

/-- Order of announcements (R224): lowest type, a source in the group, DAB before FM, lower identifier. -/
def annKey (s : State) (p : Program) (a : Announce) : Nat × Nat × Nat :=
  let inGroup := match annSource s a with | some x => usesSource p x | none => false
  (a.ty, flag (!inGroup) * 2 + flag (a.origin != 0), a.id)

def keyLess (a b : Nat × Nat × Nat) : Bool :=
  decide (a.1 < b.1 ∨ (a.1 = b.1 ∧ (a.2.1 < b.2.1 ∨ (a.2.1 = b.2.1 ∧ a.2.2 < b.2.2))))

/-- The first of a list in an order; ties to the earlier element. -/
def bestBy (key : Announce → Nat × Nat × Nat) : List Announce → Option Announce
  | [] => none
  | x :: xs => match bestBy key xs with
    | none => some x
    | some y => if keyLess (key y) (key x) then some y else some x

/-- The selected alarm (R232): the one chosen while it lasts, else the best of those that stand. -/
def selectedAlarm (s : State) : Option Announce :=
  let l := s.alerts.active.filter (alarmEligible s)
  match s.alerts.chosen.bind fun c => l.find? (sameAnn c) with
  | some a => some a
  | none => bestBy (alarmKey s) l

def bestAlarm (s : State) (n : Nat) : Option Announce := if bitOf s.alerts.policy.mask n then selectedAlarm s else none

def bestAnn (s : State) (p : Program) : Option Announce := bestBy (annKey s p) (s.alerts.active.filter (annEligible s p))

/-- A selection for a program, with the decoder that its source needs (R212, R227). A source that no decoder can serve is
not switched. -/
def selectAnn (n : Nat) (p : Program) (a : Announce) (s : State) : State :=
  match annSource s a with
  | none => s
  | some src =>
    let h : Holding := { ann := a, src := src, onAir := false, endedAt := none, overrode := false, ownRebound := false,
                         delayMs := if isAlert a then s.alerts.policy.endDelay else p.ann.endDelay,
                         gainDb := if isAlert a then s.alerts.policy.gainDb else p.ann.gainDb }
    let put (h : Holding) (s : State) : State :=
      updProgram n (fun p => if (p.holding.any (·.onAir)) then { p with nextHold := some h } else { p with holding := some h }) s
    if src.kind ≠ 2 ∨ (decoderOf s src).isSome then put h s
    else match lend n src s with
      | some s1 => put h s1
      | none => if (ownDecoder s n).isSome then fitOwn n (put { h with ownRebound := true } s) else s

/-- A selection that is not on air is dropped with its loan. -/
def dropSelection (n : Nat) (p : Program) (s : State) : State :=
  let gone := (p.nextHold.toList ++ p.holding.toList).filter fun h => !h.onAir
  let s1 := updProgram n (fun p => { p with nextHold := none, holding := p.holding.filter (·.onAir) }) s
  fitOwn n (forEach gone (fun h => releaseLoans n fun k => k == h.src) s1)

/-- The latest selection of a program. -/
def selection (p : Program) : Option Holding := p.nextHold.or p.holding

/-- The condition still stands, with its source. -/
def holdAlive (s : State) (h : Holding) : Bool :=
  s.alerts.active.any (sameAnn h.ann) && annSource s h.ann == some h.src

/-- The audio source of a selection still stands: its lane runs, or its engine tracks the ensemble with the component (R228). -/
def sourceStands (s : State) (h : Holding) : Bool :=
  annSource s h.ann == some h.src &&
  (h.src.kind != 2 || (match engineAt s h.ann.id with | some e => e.st == .running && lockedOrHold e | none => false))

/-- The end of the condition or the loss of its source starts the end delay, 0 for a lost source; a new start edge within it
cancels it (R226 step 5, R228). -/
def ageHolding (s : State) (h : Holding) : Holding :=
  if holdAlive s h then { h with endedAt := none }
  else match h.endedAt with
    | some _ => if sourceStands s h then h else { h with delayMs := 0 }
    | none => { h with endedAt := some s.now, delayMs := if sourceStands s h then h.delayMs else 0 }

/-- A selection whose decoder has been taken is fed again: by a new loan, else by the own decoder (R212, R227). -/
def feedSelection (n : Nat) (s : State) : State :=
  match (progAt s n).bind selection with
  | none => s
  | some h =>
    if h.src.kind ≠ 2 || h.ownRebound || (decoderOf s h.src).isSome || !sourceStands s h then s
    else match lend n h.src s with
      | some s1 => s1
      | none =>
        if (ownDecoder s n).isNone then s
        else
          let mark (x : Holding) : Holding := if x.src = h.src then { x with ownRebound := true } else x
          fitOwn n (updProgram n (fun p => { p with holding := p.holding.map mark, nextHold := p.nextHold.map mark }) s)

/-- A new selection takes the place of the latest one (R224, R231, R232). -/
def wantsOther (s : State) (n : Nat) (p : Program) (h : Holding) : Option Announce :=
  if isAlert h.ann then (if h.endedAt.isSome then bestAlarm s n else none)
  else match bestAlarm s n with
    | some a => some a
    | none => if h.endedAt.isSome then none else
      match bestAnn s p with
      | some a => if a.ty < h.ann.ty then some a else none
      | none => none

/-- Bring a program's selection up to date with the conditions that stand. -/
def reselect (n : Nat) (s : State) : State :=
  match progAt s n with
  | none => s
  | some p0 =>
    if !p0.running then s else
    let s1 := updProgram n (fun p => { p with holding := p.holding.map (ageHolding s), nextHold := p.nextHold.map (ageHolding s) }) s
    match progAt s1 n with
    | none => s1
    | some p =>
      match selection p with
      | none => match (bestAlarm s1 n).or (bestAnn s1 p) with
        | some a => selectAnn n p a s1
        | none => s1
      | some h =>
        let s2 := if !h.onAir && h.endedAt.isSome then dropSelection n p s1 else s1
        match wantsOther s2 n p h with
        | some a => if sameAnn a h.ann then s2 else selectAnn n p a (if h.onAir then s2 else dropSelection n p s2)
        | none => s2

def reselectAll (s : State) : State :=
  let s1 := { s with alerts := { s.alerts with chosen := selectedAlarm s } }
  forEach (List.range s1.progs.length) (fun n s => feedSelection n (reselect n s)) s1

end Sys2Proof.Machine
end

