-- ==== Sys2Proof/Machine/FeedOps.lean ====
section
/-! DEFINITION. The levels of the antenna feed lines (R57 to R62). -/

namespace Sys2Proof.Machine

/-- The mode of a line asks for phantom current (Table 2-4, R59). While the main domain is off, only line 0 in follow mode
under a ghost light watch does; in blackout none does (Table 17-8, R517). -/
def feedWanted (s : State) (n : Nat) (f : Feed) : Bool :=
  match s.reset_.domain with
  | .blackout => false
  | .off => f.mode == 2 && n == 0 && s.ghost.watch != .off
  | .starting => false
  | .ready => f.mode == 1 || (f.mode == 2 && s.mgr.rxRunning && inputEnabled s f.input)

/-- ANT_ENn: high while the mode asks for it and no fault holds it low (R60). -/
def feedLevel (s : State) (n : Nat) (f : Feed) : Bool := feedWanted s n f && !f.latched && f.waitSince.isNone

/-- Every line takes the level that its mode asks for. -/
def refreshFeeds (s : State) : State := { s with feeds := mapIdx (fun n f => { f with enabled := feedLevel s n f }) s.feeds }

/-- The feed lines as the main domain stops or resets, in a hard halt too: while ghost light is configured to watch, line 0 keeps its
settings with its level, else every line takes the defaults (R62; DESIGN CHOICE, log entry 149). -/
def wipeFeeds (s : State) : List Feed :=
  mapIdx (fun n f => if n = 0 ∧ s.ghost.cfg.watch ≠ 0 ∧ s.ghost.cfg.freq ≠ 0 then f else Feed.default s.chip.variant n) s.feeds

end Sys2Proof.Machine
end

