-- ==== Sys2Proof/Machine/ResetOps.lean ====
section
/-! DEFINITION. Stopping, wiping and starting the main domain (R375, R471 to R479, R484, R514, R518). -/

namespace Sys2Proof.Machine

/-- A stage reset and a hard halt discard every queued command, every reply and the command that executes (R375). -/
def discardLink (s : State) : State :=
  { s with link := { s.link with queue := [], fifo := [], waiting := none }, mgr := { s.mgr with executing := none, cueExec := none } }

/-- Main-domain state at its reset values; the backup domain is left (R476). -/
def wipeMain (s : State) : State :=
  let v := s.chip.variant
  { s with
    time := Timeline.start s.time.dfc s.time.epoch s.time.coldLock
    clocks := Clocks.start s.clocks.refin s.clocks.refHz s.clocks.pathS s.clocks.pathA s.clocks.pathN
    cues := [], held := [], mgr := Manager.reset
    inputs := (List.range 6).map Input.default, feeds := wipeFeeds s
    cal := Cal.reset v, lanes := Lanes.reset v, rds := Rds.reset, scan := Scan.reset, dab := Dab.reset v
    decoders := List.replicate v.programs Decoder.unowned, progs := List.replicate v.programs Program.stopped
    alerts := Alerts.reset, cap := Capacity.reset s.cap.cmeas, ports := Ports.reset, flows := Flows.reset v
    integ := { s.integ with counters := stageCounters s.integ.counters } }

/-- The balls of the main domain are released and the mirror with them (Table 17-8, R374). -/
def setDomain (d : Domain) (s : State) : State := refreshMirror { s with reset_ := { s.reset_ with domain := d } }

/-- The main domain stops and its synthesizers with it; time is counted from now (R473). -/
def stopMain (cause : OffCause) (s : State) : State :=
  let s1 := wipeMain (endMainFaults s)
  let ref := if s.clocks.ref = .absent then .absent else .present
  refreshFeeds (setDomain .off { s1 with
    clocks := { s1.clocks with ref := ref, pllS := .off, pllA := .off },
    reset_ := { s1.reset_ with offCause := cause, offTicks := 0, coolSince := none, reapplying := false, blackoutCode := none } })

/-- The ghost light watch starts (R486, R466): the sentinel is powered and PLL-N begins to lock. -/
def startWatch (s : State) : State :=
  refreshFeeds { s with
    ghost := { s.ghost with watch := .acquiring, sentinel := true, identity := none, entryDue := true, clusters := [] },
    clocks := { s.clocks with pllN := .locking } }

/-- The watch ends as the main domain starts (R487): the record carries `eflags` bit 0. -/
def endWatch (s : State) : State :=
  if s.ghost.watch = .off then s else
  let s1 := evGhost 1 s
  { s1 with ghost := { s1.ghost with watch := .off, sentinel := false, entryDue := false, clusters := [] },
            clocks := { s1.clocks with pllN := .off } }

/-- The length of the chain of core failures that a reset of a cause continues (R518). -/
def chainAfter (r : Reset) (now : Nat) (cause : ResetCause) : Nat :=
  if cause = .watchdog ∨ cause = .ramError then
    if 0 < r.coreChain ∧ (!r.doneQueued ∨ now ≤ r.doneAt + 480000) then r.coreChain + 1 else 1
  else 0

/-- A stage reset begins (R375, R476, R484): the main domain is wiped and starts with a cause. -/
def startMain (cause : ResetCause) (skip : Bool) (s : State) : State :=
  let s0 := becomesRunnable 0x20 0 (becomesRunnable 0x10 0 (if s.reset_.domain = .blackout then closeBlackoutFaults s else s))
  let s1 := discardLink (wipeMain (endMainFaults (endWatch s0)))
  let r := s1.reset_
  setDomain .starting { s1 with
    reset_ := { r with offCause := .none, cause := cause, skipScene := skip, doneQueued := false,
                       sceneBarred := (cause == .watchdog || cause == .ramError) && r.reapplying,
                       coreChain := chainAfter r s1.now cause, reapplying := false, coolSince := none, blackoutCode := none },
    retained := { s1.retained with alertLog := { s1.retained.alertLog with
      returnAt := if cause == .mainReturn || cause == .thermal then some s1.now else s1.retained.alertLog.returnAt } },
    integ := { s1.integ with holding := s1.integ.holding || cause == .watchdog || cause == .ramError } }

/-- The address that the ADDR balls select (R350). -/
def addressOf (addr1 addr0 : Bool) : Nat := 0x30 + 2 * flag addr1 + flag addr0

/-- Everything that a cold reset or a life-cycle change wipes (R475, R477): both domains, the retained bank, the OEM area. -/
def coldState (addr : Nat) (s : State) : State :=
  { State.reset with
    pending := s.pending, now := s.now, draws := s.draws
    chip := { s.chip with oemWritten := false }, thermal := s.thermal
    supply := { s.supply with halts := 0, switchovers := 0, backupOn := true }
    link := { address := addr, queue := [], fifo := [], waiting := none, ignoring := false }
    feeds := (List.range 4).map (Feed.default s.chip.variant), cal := Cal.reset s.chip.variant
    lanes := Lanes.reset s.chip.variant, dab := Dab.reset s.chip.variant
    decoders := List.replicate s.chip.variant.programs Decoder.unowned
    progs := List.replicate s.chip.variant.programs Program.stopped
    flows := Flows.reset s.chip.variant, cap := Capacity.reset s.cap.cmeas
    integ := { Integrity.reset with scan := s.integ.scan } }

/-- A cold reset ends (R475, R479): the main domain starts when VMAIN is good and RESETN is high. -/
def coldStart (addr : Nat) (s : State) : State :=
  let s1 := coldState addr s
  if 2970 < s.supply.vmain ∧ !s.supply.resetnLow then s1
  else { s1 with reset_ := { s1.reset_ with domain := .off, offCause := .backupOnly },
                 clocks := { s1.clocks with pllS := .off, pllA := .off } }

/-- Raise the records of counters held during a reset (R508). -/
def releaseHeld (s : State) : State :=
  let l := s.integ.heldRecs
  let s1 := { s with integ := { s.integ with holding := false, heldRecs := [] } }
  l.foldl (fun s r =>
    evIntegrity r.1 r.2.1 r.2.2 { s with integ := { s.integ with recorded := s.integ.recorded.set r.1 (some (s.now, r.2.2)) } }) s1

/-- Blackout (R517, R518): the fault is logged, held records are raised, counter 29 moves, and the domain stops. -/
def enterBlackout (code region : Nat) (s : State) : State :=
  let s1 := faultBegins code 0 region 0 false (releaseHeld s)
  let s2 := count 29 1 code s1
  refreshFeeds (setDomain .blackout { s2 with
    clocks := { s2.clocks with pllS := .off, pllA := .off }, time := { s2.time with source := .held },
    reset_ := { s2.reset_ with blackoutCode := some code, reapplying := false } })

end Sys2Proof.Machine
end

