-- ==== Sys2Proof/Machine/Serve.lean ====
section
/-! DEFINITION. The order of the execution checks (Table 14-1), replies, audio effects, waits, and what a command row of
the host does: it executes when the stage manager is free, and is queued at receipt otherwise (R35, R359, R360, R379). -/

namespace Sys2Proof.Machine

/-- A command of the opcode map: opcode, permitted lengths, identifier check, and what it does once they pass. -/
structure Cmd where
  opc : Byte
  len : List Byte → Bool
  ids : State → List Byte → Bool
  body : Call → State → Res

def lenIn (l : List Nat) (p : List Byte) : Bool := l.contains p.length

def noIds (_ : State) (_ : List Byte) : Bool := true

/-- Commands that life cycle bars: all three in RETIRED only (Table 17-10, R411). -/
def lockedLife (s : State) (opc : Byte) : Bool :=
  s.chip.life == .retired && (opc == 0x05 || opc == 0x06 || opc == 0x95)

/-- The commands of Table 17-6. -/
def backupOpcodes : List Byte := [0x00, 0x01, 0x02, 0x03, 0x07, 0x92, 0x93, 0x94, 0xA2, 0xA0]

/-- Only the commands of Table 17-6 are executed while the main domain is off and in blackout (R489, R517). -/
def domainRefuses (s : State) (opc : Byte) : Bool :=
  (s.reset_.domain == .off || s.reset_.domain == .blackout) && !backupOpcodes.contains opc

/-- Checks 2 to 5 of Table 14-1 that every command shares, then the command's own. -/
def serve (k : Cmd) (c : Call) (s : State) : Res :=
  if lockedLife s k.opc then fail stLocked s
  else if !k.len c.p then fail stBadLength s
  else if !k.ids s c.p then fail stNotInVariant s
  else if domainRefuses s k.opc then fail stWrongState s
  else k.body c s

/-! ### Audio effects (R29) -/

/-- Put entries into the slots of a port that take effect at the next frame (R300, R303). -/
def putSlots (first : Nat) (l : List Slot) (p : Port) : Port :=
  let cur := p.slotsNext.getD p.slots
  let new := cur.take first ++ l ++ cur.drop (first + l.length)
  if p.st = .locked then { p with slotsNext := some new } else { p with slots := new, slotsNext := none }

/-- A configuration of SPDIF_OUT: all of it at once when the output is disabled; otherwise the program at once, the rest at a block
boundary (R29, R312). -/
def spdifSet (gate : Bool) (c : SpdifCfg) (x : Spdif) : Spdif :=
  if x.running then { x with cfg := { x.cfg with program := c.program }, next := some c }
  else { x with cfg := c, next := none, running := c.enable, gated := c.enable && gate, block := 0, curtain := 0,
                curtainUp := c.enable && !gate }

/-- `CURTAIN` on a program (R314): its times, and the hold or the release; a stopped one takes no movement. -/
def orderCurtain (n : Nat) (hold : Option Bool) (downMs upMs : Nat) (s : State) : State :=
  updProgram n (fun p0 =>
    let p := { p0 with curtain := { p0.curtain with downMs := downMs, upMs := upMs } }
    match hold with
    | none => p
    | some held =>
    let c := { p.curtain with held := held }
    { p with curtain := if !p.running then c else if held then closeCurtain c else openCurtain c }) s

/-- Action 3 of `PROGRAM_SET` (R234): the member leaves; one that the group rule added is not added again. -/
def dropSource (n : Nat) (src : Source) (s : State) : State :=
  match (progAt s n).bind fun p => (slotOfSource p src).map fun i => (p, i) with
  | some (p, i) =>
    let auto : Bool := match memberAt p i with | some m => m.origin == 2 | none => false
    let s1 := removeMember n i s
    if auto then updProgram n (fun p => { p with excluded := p.excluded ++ [src] }) s1 else s1
  | none => s

/-- An audio effect at its instant. -/
def applyEffect (e : AudioEffect) (s : State) : State :=
  match e with
  | .slots port first l => updPort port (putSlots first l) s
  | .spdif c => { s with ports := { s.ports with spdif := spdifSet (!pllAUp s.clocks) c s.ports.spdif } }
  | .curtain n hold down up => orderCurtain n hold down up s
  | .remove n src => dropSource n src s
  | .primary n =>
    match progAt s n with
    | some p => if p.holding.any (·.onAir) then selectPrimary n s else closeThen n .newPrimary s
    | none => s
  | .stop n => closeThen n .stop s

def applyEffects (l : List AudioEffect) (s : State) : State := l.foldl (fun s e => applyEffect e s) s

/-! ### Completion -/

/-- `action` 1 of `GHOST_LIGHT_CONFIG` gates the main domain after its reply, and the watch starts (R432, R486). -/
def gateMain (gate : Bool) (s : State) : State := if gate then startWatch (stopMain .command s) else s

/-- A command from the host ends: its audio effects apply, the scene is marked, and its reply is placed, or it waits. -/
def finishHost (k : Byte) (c : Call) (r : Res) (before : State) : State :=
  let s1 := applyEffects r.effects r.state
  let s := if mainReady s1 then markScene before s1 else s1
  gateMain r.gate (match r.wait with
  | some w =>
    { s with mgr := { s.mgr with executing := some { packet := { opc := k, tag := c.tag, param := c.p }, cue := none, late := false,
                                                     execDfc := stampDfc s, wait := w, payload := r.payload } } }
  | none => if r.silent then s else putReply { status := byte r.status, tag := c.tag, payload := r.payload } s)

/-- `EV_CUE` of a carried command (R33): the DFC at which it executed, and its reply. -/
def reportCue (cue : Nat) (late : Bool) (pkt : Packet) (status : Nat) (exec : Dfc) (payload : List Byte) : State → State :=
  evCue cue (flag late) pkt.opc pkt.tag status exec payload

/-- What a completed wait reports: a reply for a host command, `EV_CUE` for a cue (R33, R386). -/
def completeWait (e : Executing) (s : State) : State :=
  match e.cue with
  | none => putReply { status := byte stOk, tag := e.packet.tag, payload := e.payload } s
  | some n => reportCue n e.late e.packet stOk e.execDfc e.payload s

/-- Commands that wait for this complete (R282, R316, R386). -/
def finishWait (w : Wait) (s : State) : State :=
  let s1 := match s.mgr.executing with
    | some e => if e.wait = w then completeWait e { s with mgr := { s.mgr with executing := none } } else s
    | none => s
  match s1.mgr.cueExec with
    | some e => if e.wait = w then completeWait e { s1 with mgr := { s1.mgr with cueExec := none } } else s1
    | none => s1

def runHost (k : Cmd) (tag : Byte) (p : List Byte) (s : State) : State :=
  let c : Call := { tag := tag, p := p, cue := none, scene := false }
  finishHost k.opc c (serve k c s) s

/-- The audio cues: `PROGRAM_SET`, `CURTAIN`, `SLOT_MAP` and `SPDIF_CONFIG`. -/
def isAudioCue (pkt : Packet) : Bool := [0x40, 0x44, 0x51, 0x53].contains pkt.opc.toNat

/-- Ticks until a target, negative once it has passed (R15). -/
def ticksTo (s : State) (t : Dfc) : Int := toSigned 4 (t - s.time.dfc).toNat

/-- The cue fires, or is executed up to 2 ms ahead (R29). -/
def cueDue (s : State) (c : Cue) : Bool := decide (ticksTo s c.target ≤ if isAudioCue c.packet then 96 else 0)

/-- OPC is acknowledged: the device is not starting and the reply FIFO has an entry (R357, R375). -/
def acceptsOpc (s : State) : Bool := s.reset_.domain != .starting && decide (s.link.fifo.length < 4) && s.supply.backupOn

/-- A whole packet with a good CRC is received (R357 to R359); a LEN above 250 is abandoned and counted. -/
def receive (pkt : Packet) (s : State) : State :=
  if !acceptsOpc s then s
  else if 250 < pkt.param.length then count 24 1 0 s
  else if 4 ≤ s.link.queue.length then putReply { status := byte stQueueFull, tag := pkt.tag, payload := [] } s
  else { s with link := { s.link with queue := s.link.queue ++ [pkt] } }

/-- The stage manager may start a command from the queue (R35, R360, R485): a cue that is due goes first (R30). -/
def managerFree (s : State) : Bool :=
  s.reset_.domain != .starting && s.mgr.executing.isNone && s.link.waiting.isNone && !s.reset_.reapplying && !s.cues.any (cueDue s)

/-- The row of a packet from the host (log entry 21): a free stage manager whose queue holds nothing else before it executes
it at once; otherwise it is queued at receipt. -/
def packetRow (run : State → State) (pkt : Packet) (s : State) : State :=
  match s.link.queue with
  | [] => if managerFree s && acceptsOpc s && decide (pkt.param.length ≤ 250) then run s else receive pkt s
  | h :: t => if managerFree s && h == pkt then run { s with link := { s.link with queue := t } } else receive pkt s

/-- The row of a host command of the opcode map. -/
def hostRow (k : Cmd) (tag : Byte) (p : List Byte) (s : State) : Host.Outcome State Fault Refusal :=
  .next (packetRow (runHost k tag p) { opc := k.opc, tag := tag, param := p } s)

/-- The first byte after the program or subject is the row's own action. -/
def setByte (p : List Byte) (i : Nat) (x : Nat) : List Byte := if i < p.length then p.set i (byte x) else p

end Sys2Proof.Machine
end

