-- ==== Sys2Proof/Machine/Calibration.lean ====
section
/-! DEFINITION. Calibration commands 0x70 to 0x73 (R419 to R421) and the rows of the high-band rotation and the low-band
selection (R72 to R95). -/

namespace Sys2Proof.Machine

/-! ### Commands -/

/-- Inputs with a run due, running or deferred. -/
def dueMask (s : State) : Nat :=
  maskOf ((List.range 6).filter fun i => !calFrozen s i && (calAt s i).run != .idle)

def calPolicyReply (s : State) : List Byte := calBytes s.cal.policy ++ [byte (dueMask s)]

def bodyCalPolicy (c : Call) (s : State) : Res :=
  if c.p.length = 0 then okay (calPolicyReply s) s else
  let s1 := setCalPolicy (parseCal s.chip.variant c.p) s
  okay (calPolicyReply s1) s1

def cmdCalPolicy : Cmd := { opc := 0x70, len := lenIn [0, 6], ids := noIds, body := bodyCalPolicy }

/-- `CAL_POLICY` (R91, R92). -/
def execCalPolicy (tag : Byte) (p : List Byte) (s : State) : Host.Outcome State Fault Refusal := hostRow cmdCalPolicy tag p s

/-- Inputs that `CAL_RUN` names. -/
def namedInputs (s : State) (p : List Byte) : List Nat :=
  (List.range 6).filter (bitOf (p1 p 0 &&& s.chip.variant.inputMask))

def bodyCalRun (c : Call) (s : State) : Res :=
  let l := namedInputs s c.p
  if l.isEmpty || l.any (fun i => calFrozen s i || !calReceiving s i) then fail stWrongState s
  else okay [byte (maskOf l)] (forEach l (fun i s => calTrigger i true s) s)

def cmdCalRun : Cmd := { opc := 0x71, len := lenIn [1], ids := noIds, body := bodyCalRun }

/-- `CAL_RUN` (R93). -/
def execCalRun (tag : Byte) (p : List Byte) (s : State) : Host.Outcome State Fault Refusal := hostRow cmdCalRun tag p s

/-- `state` of Table 15-5. -/
def calStateCode (s : State) (i : Nat) : Nat :=
  if calFrozen s i then 4 else
  match (calAt s i).run with
  | .idle => 0
  | .due => 1
  | .running => 2
  | .deferred => 3

/-- The reply of `CAL_STATUS` (Table 15-5). -/
def calStatusBytes (s : State) (i : Nat) : List Byte :=
  let c := calAt s i
  let forS := match c.deferredSince with | some t => min 65535 ((s.now - t) / 48000) | none => 0
  let age := match c.lastTMeas with | some _ => min 0xFFFFFFFF ((s.now - c.lastAt) / 48000) | none => 0xFFFFFFFF
  [byte (calStateCode s i), byte c.reasons] ++ le 2 forS ++ leS 2 (c.lastTMeas.getD (-32768)) ++ le 4 age ++
  [byte c.lastFlags, byte (calRow s i)] ++ leS 1 (imageBound s i) ++
  [if isLow i then 0xFF else byte (c.suspect.getD 255)] ++ le 4 (atLimitMask i c.work) ++
  [if isLow i then 0xFF else byte c.plan]

def cmdCalStatus : Cmd :=
  { opc := 0x72, len := lenIn [1], ids := fun s p => bonded s (p1 p 0), body := fun c s => okay (calStatusBytes s (p1 c.p 0)) s }

/-- `CAL_STATUS` (R421). -/
def execCalStatus (tag : Byte) (p : List Byte) (s : State) : Host.Outcome State Fault Refusal := hostRow cmdCalStatus tag p s

/-- A sub-lane record of 16 bytes (Table 3-6). -/
def subLaneBytes (x : SubLane) : List Byte := leS 2 x.offset ++ leS 2 x.gain ++ leS 1 x.skew ++ (x.sar.take 11).map fun v => byte v.toNat

def stepBytes (l : List (Option Int)) : List Byte :=
  l.flatMap fun x => match x with
    | some v => leS 1 v
    | none => [0x80]

def calEntryFlags (e : CalEntry) : Nat := flag e.valid + 2 * flag e.settled + 4 * flag e.atLimit

def entryHead (e : CalEntry) : List Byte := [byte (calEntryFlags e), byte e.length] ++ leS 2 e.tMeas ++ List.replicate 8 0

/-- Packed comparator selections: level n in bits 2n and 2n + 1. -/
def compBytes (l : List Nat) : List Byte := le 13 (sumNat (mapIdx (fun n v => v % 4 * 4 ^ n) (l.take 51)))

def entryBytes (low : Bool) (e : CalEntry) : List Byte :=
  if low then
    entryHead e ++ compBytes e.set.comps ++ le 2 (sumNat (mapIdx (fun n v => v % 16 * 16 ^ n) (e.set.caps.take 3))) ++
    leS 2 e.set.offset ++ leS 2 e.set.gain ++ stepBytes (e.set.stepDev.take 24) ++ List.replicate 9 0
  else
    entryHead e ++ (e.set.subs.take 17).flatMap subLaneBytes ++ stepBytes (e.set.stepDev.take 30) ++ List.replicate 6 0

def tableSize (i : Nat) : Nat := if isLow i then 528 else 2576

/-- Bytes 4 to the end of a table (Table 3-6). -/
def tableBody (t : CalTable) : List Byte :=
  let low := isLow t.input
  [if low then 2 else 1, byte t.input, if low then 0xFF else byte t.plan, 1] ++ le 4 t.writes ++ [0, 0, 0, 0] ++
  t.entries.flatMap (entryBytes low)

/-- A stored table byte for byte (R100, R420). A wiped one holds zeros; what one that fails its CRC holds is open. -/
def tableBytes (draws : Nat) (t : CalTable) : List Byte :=
  if t.ok then leS 4 (crc32 (tableBody t)).toNat ++ tableBody t
  else if t.initialised then (List.range (tableSize t.input)).map fun j => byte (Config.freeNat (draws + j))
  else List.replicate (tableSize t.input) 0

/-- The plan that `CAL_TABLE_READ` reads (R420). -/
def readPlan (s : State) (i : Nat) (x : Nat) : Nat := if isLow i then 255 else if x ≤ 3 then x else s.clocks.plan

def bodyCalTableRead (c : Call) (s : State) : Res :=
  let i := p1 c.p 0
  let plan := readPlan s i (p1 c.p 1)
  let t := tableAt s i plan
  let off := min (rd c.p 2 2) (tableSize i - 1)
  let n := min (clampNat 1 240 (p1 c.p 4)) (tableSize i - off)
  let s1 := if t.initialised && !t.ok then { s with draws := s.draws + tableSize i } else s
  okay ([byte i, byte plan] ++ le 2 off ++ [byte n] ++ ((tableBytes s.draws t).drop off).take n) s1

def cmdCalTableRead : Cmd := { opc := 0x73, len := lenIn [5], ids := fun s p => bonded s (p1 p 0), body := bodyCalTableRead }

/-- `CAL_TABLE_READ` (R420). -/
def execCalTableRead (tag : Byte) (p : List Byte) (s : State) : Host.Outcome State Fault Refusal := hostRow cmdCalTableRead tag p s

/-! ### Validity tests (R84) -/

/-- The reason mask of a window of the sequence. -/
def validMask (s : State) (i : Nat) (o : ValidObs) : Nat := windowMask s i o.clipped o.samples o.rms

/-- The latest reason mask; a deferral keeps its own (Table 3-8). -/
def noteReasons (m : Nat) (c : CalInput) : CalInput := if c.run = .deferred then c else { c with reasons := m }

/-! ### High band: sub-windows (R76, R77, R79) -/

/-- One tap toward the target, or a hold within 12.5 fs; both in 0.5 fs. A tap at an end of its range steps back when the target
reverses (DESIGN CHOICE, log entry 123). -/
def skewStep (tap est : Int) : Int :=
  let d := est - 50 * (tap - 64)
  if d.natAbs ≤ 25 then tap else clampTap (tap + (if 0 < d then 1 else -1))

/-- One trim step toward the estimate, or a hold within 1/32 LSB; both in 1/32 LSB. -/
def sarStep (trim est : Int) : Int :=
  let d := est - 2 * (trim - 32)
  if d.natAbs ≤ 1 then trim else clampTrim (trim + (if 0 < d then 1 else -1))

/-- The estimate becomes the target of a sub-lane, and all targets move together so that their mean is at tap 64 (R76). -/
def retarget (n : Nat) (est : Int) (l : List Int) : List Int :=
  let l1 := l.set n est
  let m := roundDiv l1.sum (max 1 l1.length)
  l1.map (· - m)

def measuredStep (target : Int) (o : SubWindowObs) (x : SubLane) : SubLane :=
  { x with skew := skewStep x.skew target, sar := List.zipWith sarStep x.sar (o.sar ++ List.replicate 11 0 |>.take 11) }

/-- The shift of a working value with temperature (R88): v + D(T_now) - D(T_last). -/
def shifted (v dNow dLast : Int) : Int := v + dNow - dLast

/-- Where temperature tracking takes a sub-lane that held `x` at T_last. -/
def trackedSub (s : State) (i n : Nat) (x : SubLane) : SubLane :=
  let a := subAt (deriveFor s i (tDie s)).set n
  let b := subAt (deriveFor s i ((calAt s i).tLast.getD n 0)).set n
  { offset := clampWord (shifted x.offset a.offset b.offset), gain := clampWord (shifted x.gain a.gain b.gain),
    skew := clampTap (shifted x.skew a.skew b.skew),
    sar := List.zipWith (fun v ab => clampTrim (shifted v ab.1 ab.2)) x.sar (List.zip a.sar b.sar) }

/-- An idle rehearsal moves skew and thresholds at most one step in a sub-window (R79). -/
def idleStep (s : State) (i n : Nat) (start x : SubLane) : SubLane :=
  let y := trackedSub s i n start
  { x with skew := stepToward x.skew y.skew, sar := List.zipWith stepToward x.sar y.sar }

def putSub (n : Nat) (x : SubLane) (c : CalInput) : CalInput := { c with work := { c.work with subs := c.work.subs.set n x } }

/-- The trim steps of one sub-window. A failing window of a run, and one with a sequencer reset in it, makes none. -/
def subWindowStep (s : State) (i mask : Nat) (o : SubWindowObs) (c : CalInput) : CalInput :=
  if c.skipWin then c
  else if c.run = .running then
    if mask = 0 then
      let l := retarget c.understudy o.skew c.targets
      putSub c.understudy (measuredStep (l.getD c.understudy 0) o (subAt c.work c.understudy)) { c with targets := l }
    else c
  else putSub c.understudy (idleStep s i c.understudy c.before (subAt c.work c.understudy)) c

def subWindowEnd (i : Nat) (o : SubWindowObs) (s : State) : State :=
  let c := calAt s i
  let m := validMask s i o.valid
  let s1 := updCal i (fun c => noteReasons m { subWindowStep s i m o c with
    subWin := c.subWin + 1, subFails := c.subFails + flag (decide (m ≠ 0)), failMask := if m = 0 then c.failMask else m, skipWin := false, runFirst := false }) s
  if c.run = .running ∧ c.runFirst ∧ m ≠ 0 then deferRun i m s1 else s1

/-- `SUB_WINDOW_END` (R76, R77, R79, R85). -/
def execSubWindowEnd (input : Nat) (obs : SubWindowObs) (s : State) : Host.Outcome State Fault Refusal :=
  if !bonded s input || isLow input then .fault .absentUnit
  else
    let c := calAt s input
    if calReceiving s input && c.rotating && !c.inOverlap && decide (c.subWin < 16) then .next (subWindowEnd input obs s) else .next s

/-! ### High band: the rotation interval (R73, R76, R77, R94) -/

/-- A gain changed by at most 0.01 dB. -/
def gainQuiet (a b : Int) : Bool :=
  let x := (65536 + a).toNat
  let y := (65536 + b).toNat
  decide (x * 1000000000000 ≤ y * 1001151955538) && decide (y * 1000000000000 ≤ x * 1001151955538)

/-- The conditions of R94 on one rehearsal. -/
def rehearsalQuiet (a b : SubLane) : Bool :=
  decide ((a.skew - b.skew).natAbs ≤ 1) && (List.zipWith (fun x y => decide ((x - y).natAbs ≤ 1)) a.sar b.sar).all id &&
  decide ((a.offset - b.offset).natAbs ≤ 16) && gainQuiet a.gain b.gain

/-- The new offset and gain are loaded: measured in a run, tracked otherwise; a void rehearsal of a run loads none. -/
def loadRehearsal (s : State) (i : Nat) (o : RehearsalObs) (c : CalInput) : CalInput :=
  let n := c.understudy
  let x := subAt c.work n
  let y := trackedSub s i n c.before
  let new :=
    if c.run ≠ .running ∨ c.runFirst then { x with offset := y.offset, gain := y.gain }
    else if 8 < c.subFails then x
    else { x with offset := clampWord o.offset, gain := clampWord o.gain }
  { putSub n new c with tLast := c.tLast.set n (tDie s) }

/-- Step deviations follow the temperature once an interval (R88). -/
def trackSteps (s : State) (i : Nat) (c : CalInput) : CalInput :=
  let a := (deriveFor s i (tDie s)).set.stepDev
  let b := (deriveFor s i ((calAt s i).tLast.getD 17 0)).set.stepDev
  let new := mapIdx (fun n v => match v, (a[n]?).join, (b[n]?).join with
    | some x, some p, some q => some (clampDev (shifted x p q))
    | v, _, _ => v) c.work.stepDev
  { c with work := { c.work with stepDev := new }, tLast := c.tLast.set 17 (tDie s), selSlot := (deriveFor s i (tDie s)).sel,
           row := rowAfter c.row (deriveFor s i (tDie s)).row }

/-- One interval of a run is counted. -/
def countInterval (s : State) (c : CalInput) : CalInput :=
  let empty := decide (8 < c.subFails)
  { c with runLen := c.runLen + 1, tSum := c.tSum + tDie s, tCount := c.tCount + 1, runFails := c.runFails + flag empty,
           runQuiet := if empty then c.runQuiet else c.runQuiet.set c.understudy (rehearsalQuiet c.before (subAt c.work c.understudy)) }

/-- After an interval of a run: deferral at the eighth void rehearsal, completion at a cycle boundary (R85, R94). -/
def runBoundary (i : Nat) (s : State) : State :=
  let c := calAt s i
  let cycles := c.runLen / 17
  if 8 ≤ c.runFails then deferRun i c.failMask s
  else if c.runLen % 17 = 0 ∧ 2 ≤ cycles ∧ c.runQuiet.all id then completeRun i cycles true s
  else if 16 * 17 ≤ c.runLen then completeRun i 16 false s
  else s

/-- The interval ends: X is loaded and the overlap begins; a run ends or starts at this boundary. -/
def intervalEnd (i : Nat) (o : RehearsalObs) (s : State) : State :=
  let c := calAt s i
  let s1 := updCal i (fun c => { loadRehearsal s i o c with inOverlap := true }) s
  if c.run = .running then runBoundary i (updCal i (countInterval s) s1)
  else
    let s2 := updCal i (trackSteps s i) s1
    updCal i (fun c => if runAllowed s2 c then beginRun s2 c else c) s2

/-- `ROTATION_INTERVAL_END` (R73, R76, R77, R94). -/
def execRotationIntervalEnd (input : Nat) (obs : RehearsalObs) (s : State) : Host.Outcome State Fault Refusal :=
  if !bonded s input || isLow input then .fault .absentUnit
  else
    let c := calAt s input
    if calReceiving s input && c.rotating && !c.inOverlap && c.subWin == 16 then .next (intervalEnd input obs s) else .next s

/-! ### High band: the swap check (R73, R74) -/

/-- The swap check: RMS within 0.2 dB, mean within 2 LSB. -/
def swapPasses (rmsDiff meanDiff : Nat) : Bool := decide (rmsDiff ≤ 20) && decide (meanDiff ≤ 128)

/-- X takes position q and its occupant is withdrawn; the next rehearsal begins. -/
def swap (c : CalInput) : CalInput :=
  beginRehearsal { c with
    occ := c.occ.set c.pos c.understudy, understudy := c.occ.getD c.pos 0, pos := (c.pos + 1) % 16, swapFails := 0, suspect := none }

/-- The third failure in a row stops the rotation (R74). -/
def swapFailed (i : Nat) (s : State) : State :=
  let c := calAt s i
  if c.swapFails < 2 then updCal i (fun c => { beginRehearsal c with swapFails := c.swapFails + 1 }) s
  else
    let s1 := updCal i (fun c => { c with rotating := false, inOverlap := false, swapFails := 3, suspect := some c.understudy,
                                          reasons := 8 }) s
    match c.run with
    | .idle => s1
    | .deferred => changeReasons i 8 (updCal i (fun x => { x with reasons := c.reasons }) s1)
    | _ => deferRun i 8 s1

/-- `OVERLAP_END` (R73, R74): differences in 0.01 dB and 1/64 LSB. -/
def execOverlapEnd (input rmsDiff meanDiff : Nat) (s : State) : Host.Outcome State Fault Refusal :=
  if !bonded s input || isLow input then .fault .absentUnit
  else
    let c := calAt s input
    if calReceiving s input && c.rotating && c.inOverlap then
      .next (if swapPasses rmsDiff meanDiff then updCal input swap s else swapFailed input s)
    else .next s

/-! ### Low band (R82, R83, R88, R94) -/

/-- The smallest entry, ties to the first. -/
def smallest (l : List Nat) : Nat :=
  (List.range l.length).foldl (fun b n => if l.getD n 0 < l.getD b 0 then n else b) 0

/-- The candidate with the smallest offset, if it is smaller by at least 1/8 LSB (R82). -/
def bestCandidate (present : Nat) (offs : List Int) : Nat :=
  let l := offs.map Int.natAbs
  let b := smallest l
  if b < l.length ∧ l.getD b 0 + 8 ≤ l.getD present 0 then b else present

/-- The spare with the smallest error. -/
def bestSpare (present : Nat) (errs : List Nat) : Nat :=
  let b := smallest errs
  if b < errs.length ∧ errs.getD b 0 < errs.getD present 0 then b else present

/-- Differences between the choices to come and new ones, as changes to apply. -/
def selChanges (comp : Bool) (old new : List Nat) : List (Bool × Nat × Nat) :=
  (List.range old.length).filterMap fun n => if old.getD n 0 = new.getD n 0 then none else some (comp, n, new.getD n 0)

/-- Choices of one window. -/
def windowChanges (o : EvalObs) (c : CalInput) : List (Bool × Nat × Nat) :=
  let cs := comingSel c true
  let ks := comingSel c false
  selChanges true cs (mapIdx (fun n v => bestCandidate v (o.comps.getD n [])) cs) ++
  selChanges false ks (mapIdx (fun n v => bestSpare v (o.caps.getD n [])) ks)

/-- A passing window of a run: its changes, and whether it was quiet (R94). -/
def evalRun (o : EvalObs) (c : CalInput) : CalInput × Bool :=
  let ch := windowChanges o c
  let old := comingOffGain c
  let new := (clampWord o.offset, clampWord o.gain)
  ({ c with pendingSel := c.pendingSel ++ ch, pendingOffGain := some new },
    ch.isEmpty && decide ((new.1 - old.1).natAbs ≤ 16) && gainQuiet old.2 new.2)

/-- A passing window outside a run tracks the temperature (R88). A cold table names no selection, so the choices stay (R102). -/
def evalTrack (s : State) (i : Nat) (c : CalInput) : CalInput :=
  let a := deriveFor s i (tDie s)
  let b := deriveFor s i (c.tLast.getD 0 0)
  let old := comingOffGain c
  let sel := if a.sel.isNone then []
    else selChanges true (comingSel c true) a.set.comps ++ selChanges false (comingSel c false) a.set.caps
  let c1 := { c with
    pendingSel := c.pendingSel ++ sel,
    pendingOffGain := some (clampWord (shifted old.1 a.set.offset b.set.offset), clampWord (shifted old.2 a.set.gain b.set.gain)),
    tLast := c.tLast.set 0 (tDie s) }
  trackSteps s i c1

/-- A window of a run (R85, R94). -/
def evalWindow (i m : Nat) (o : EvalObs) (s : State) : State :=
  let c := calAt s i
  let r := if m = 0 then evalRun o c else (c, false)
  let s1 := updCal i (fun _ => { r.1 with
    runLen := c.runLen + 1, tSum := c.tSum + tDie s, tCount := c.tCount + 1, runFails := c.runFails + flag (decide (m ≠ 0)),
    runFirst := false, reasons := m, failMask := if m = 0 then c.failMask else m, tLast := if m = 0 then c.tLast.set 0 (tDie s) else c.tLast }) s
  if m ≠ 0 ∧ (c.runFirst ∨ 8 ≤ c.runFails + 1) then deferRun i m s1
  else if 4 ≤ c.runLen + 1 ∧ r.2 then completeRun i (c.runLen + 1) true s1
  else if 32 ≤ c.runLen + 1 then completeRun i 32 false s1
  else s1

def evaluationWindowEnd (i : Nat) (o : EvalObs) (s : State) : State :=
  let c := calAt s i
  let m := validMask s i o.valid
  if c.run = .running then evalWindow i m o s
  else
    let s1 := updCal i (fun c => noteReasons m (if m = 0 then evalTrack s i c else c)) s
    updCal i (fun c => if runAllowed s1 c then beginRun s1 c else c) s1

/-- `EVALUATION_WINDOW_END` (R82, R85, R88, R94). -/
def execEvaluationWindowEnd (input : Nat) (obs : EvalObs) (s : State) : Host.Outcome State Fault Refusal :=
  if !bonded s input || !isLow input then .fault .absentUnit
  else if calReceiving s input && !calFrozen s input then .next (evaluationWindowEnd input obs s) else .next s

/-- One selection change is applied; a capacitor change moves the digital gain with it, by an open amount (R83). With none
left the offset and gain of the window follow. -/
def applySelection (i : Nat) (s : State) : State :=
  match (calAt s i).pendingSel with
  | [] => updCal i (fun c =>
      let g := comingOffGain c
      { c with work := { c.work with offset := g.1, gain := g.2 }, pendingOffGain := none }) s
  | (true, n, v) :: rest => updCal i (fun c => { c with work := { c.work with comps := c.work.comps.set n v }, pendingSel := rest }) s
  | (false, n, v) :: rest =>
    let d := drawNat s
    updCal i (fun c => { c with work := { c.work with caps := c.work.caps.set n v, gain := toSigned 2 (d.1 % 65536) },
                                pendingSel := rest }) d.2

/-- `SELECTION_CHANGE` (R83): the next pending change at a step instant. -/
def execSelectionChange (input : Nat) (s : State) : Host.Outcome State Fault Refusal :=
  if !bonded s input || !isLow input then .fault .absentUnit
  else if calReceiving s input && !calFrozen s input then .next (applySelection input s) else .next s

/-! ### Retries and triggers (R85, R90) -/

/-- The tests of a deferred run are evaluated again: at a pass the run starts again, as soon as it may. -/
def retryRun (i : Nat) (o : ValidObs) (s : State) : State :=
  let c := calAt s i
  let m := validMask s i o + (if !isLow i && !c.rotating then 8 else 0)
  let s1 := becomesRunnable 0x80 i (updCal i (fun c => { c with retryAt := s.now + 48000 }) s)
  if !holdsSlot s1 0x80 i && faultOpen s1 0x80 i then s1
  else if m = 0 then endDeferral i 2 .due (updCal i (fun c => { c with reasons := 0 }) s1)
  else slotFree (updRec 0x80 i (fun r => { r with phase := .waiting, ready := false }) (changeReasons i m s1))

/-- `CAL_RETRY` (R85, R93). -/
def execCalRetry (input : Nat) (obs : ValidObs) (s : State) : Host.Outcome State Fault Refusal :=
  if !bonded s input then .fault .absentUnit
  else
    let c := calAt s input
    if c.run == .deferred && calReceiving s input && !calFrozen s input && decide (c.retryAt ≤ s.now) then .next (retryRun input obs s)
    else .next s

/-- `CAL_INTERVAL_TRIGGER` (R90): `max_interval_s` since the last completed run, or since the ADC started. -/
def execCalIntervalTrigger (input : Nat) (s : State) : Host.Outcome State Fault Refusal :=
  if !bonded s input then .fault .absentUnit
  else
    let c := calAt s input
    let since := match c.lastTMeas with | some _ => c.lastAt | none => c.startedAt
    if calReceiving s input && decides s && elapsed s since (48000 * s.cal.policy.maxInterval) then .next (calTrigger input false s) else .next s

end Sys2Proof.Machine
end

