-- ==== Sys2Proof/Machine/Signal.lean ====
section
/-! DEFINITION. Numbers of the signal path: complex arithmetic, first-order smoothing, levels in decibels, the raised cosine of
curtains and crossfades, and the block transport of bin samples (R106, R111, R112, R113, R142, R260, R314). -/

namespace Sys2Proof.Machine

/-! ### Rational functions, to 40 binary places (log entry 130) -/

def quant (x : Rat) : Rat := ((x * 1099511627776).floor : Rat) / 1099511627776

def sumOf (l : List Rat) : Rat := l.foldl (· + ·) 0

/-- Terms `x^n / n!` of a power series, with alternating signs of every second term where asked. -/
def series (step : Nat → Rat) : Nat → Nat → Rat → Rat
  | 0, _, _ => 0
  | k + 1, n, t => t + series step k (n + 1) (quant (t * step n))

/-- e to the power -x for x from 0 to 10. -/
def expNeg (x : Rat) : Rat :=
  let r := x / 16
  quant (1 / (series (fun n => r / (n + 1 : Nat)) 16 0 1) ^ 16)

/-- First-order law: the share of a step that `dt` covers at the time constant `tau` (R142). -/
def alphaOf (tau dt : Nat) : Rat := 1 - expNeg ((dt : Rat) / tau)

/-- A held value moves toward a new one (R139, R142, R195). -/
def smooth (tau dt : Nat) (x new : Rat) : Rat := if new = x then x else quant (x + alphaOf tau dt * (new - x))

def piQ : Rat := 314159265358979323846 / 100000000000000000000

/-- Cosine of a number of turns. -/
def cosTurn (t : Rat) : Rat :=
  let f := t - (t.floor : Rat)
  let y := 2 * piQ * (if 1 / 2 < f then f - 1 else f)
  let y2 := y * y
  if f = 0 then 1 else if f = 1 / 2 then -1 else if f = 1 / 4 ∨ f = 3 / 4 then 0 else
  quant (series (fun n => -y2 / ((2 * n + 1) * (2 * n + 2) : Nat)) 16 0 1)

def sinTurn (t : Rat) : Rat := cosTurn (t - 1 / 4)

/-- The gain of a curtain at position `p` (R314). -/
def curtainGain (p : Rat) : Rat := if p = 0 then 0 else if p = 1 then 1 else (1 - cosTurn (p / 2)) / 2

/-- The gain of the outgoing source of a crossfade `d` of `t` ticks after its start (R260). -/
def fadeGain (d t : Nat) : Rat := if t ≤ d then 0 else (1 + cosTurn ((d : Rat) / (2 * t : Nat))) / 2

/-- Square root, to 20 binary places. -/
def sqrtQ (x : Rat) : Rat := if x ≤ 0 then 0 else (Nat.sqrt ((x * 1099511627776).floor.toNat) : Rat) / 1048576

/-- The angle of a tangent from 0 to 1, in turns: two halvings of the angle, then the series of the arc. -/
def atanTurn (t : Rat) : Rat :=
  let h (x : Rat) : Rat := quant (x / (1 + sqrtQ (1 + x * x)))
  let x := h (h t)
  quant (4 * sumOf ((List.range 14).map fun n => (if n % 2 = 0 then 1 else -1) * x ^ (2 * n + 1) / (2 * n + 1 : Nat)) / (2 * piQ))

/-- The angle of a point in turns, from -1/2 to 1/2; 0 for the origin. -/
def argTurn (x y : Rat) : Rat :=
  let a := if x < 0 then -x else x
  let b := if y < 0 then -y else y
  let q := if a = 0 ∧ b = 0 then 0 else if b ≤ a then atanTurn (b / a) else 1 / 4 - atanTurn (a / b)
  let r := if x < 0 then 1 / 2 - q else q
  if y < 0 then -r else r

/-! ### Levels -/

/-- Ten to the power 1/200: the amplitude ratio of 0.1 dB. -/
def root200 : Rat := 1011579454259898524440932314454 / 1000000000000000000000000000000

/-- Amplitude ratio of a level in 0.1 dB. -/
def ampOf (tenths : Int) : Rat :=
  if tenths = 0 then 1 else quant ((10 : Rat) ^ (tenths / 200) * root200 ^ (tenths % 200).toNat)

/-- Fractional binary digits of log2 of `m / 2^40` for `m` from 2^40 below 2^41. -/
def logBits : Nat → Nat → Nat → Nat
  | 0, _, acc => acc
  | k + 1, m, acc =>
    let q := m * m / 1099511627776
    if 2199023255552 ≤ q then logBits k (q / 2) (2 * acc + 1) else logBits k q (2 * acc)

/-- Amplitude ratio of a level in dB, from -86 to 86 dB. -/
def ampDb (x : Rat) : Rat :=
  let c : Rat := 11512925464970 / 100000000000000
  if x = 0 then 1 else if x < 0 then expNeg (-x * c) else quant (1 / expNeg (x * c))

/-- log2 of a positive rational in units of 2^-30. -/
def log2Q (x : Rat) : Int :=
  let e : Int := (Nat.log2 x.num.toNat : Int) - Nat.log2 x.den
  let m := x * (2 : Rat) ^ (-e)
  let (e1, m1) : Int × Rat := if m < 1 then (e - 1, 2 * m) else if 2 ≤ m then (e + 1, m / 2) else (e, m)
  e1 * 1073741824 + logBits 30 (m1 * 1099511627776).floor.toNat 0

/-- A power ratio in 0.01 dB, rounded; -20000 for a power of 0. -/
def centiDb (p : Rat) : Int :=
  if p ≤ 0 then -20000 else max (-20000) (roundRat ((log2Q p : Rat) * 301029995664 / (1000000000 * 1073741824)))

/-- A power ratio is at least a number of dB, in 0.1 dB. -/
def atLeastDb (tenths : Int) (num den : Rat) : Bool := decide (den * ampOf (2 * tenths) ≤ num)

end Sys2Proof.Machine

namespace Sys2Proof

open Machine

/-! ### Complex numbers -/

def Cx.zero : Cx := { re := 0, im := 0 }

def Cx.add (a b : Cx) : Cx := { re := a.re + b.re, im := a.im + b.im }

def Cx.sub (a b : Cx) : Cx := { re := a.re - b.re, im := a.im - b.im }

def Cx.mul (a b : Cx) : Cx := { re := a.re * b.re - a.im * b.im, im := a.re * b.im + a.im * b.re }

def Cx.conj (a : Cx) : Cx := { a with im := -a.im }

def Cx.scale (k : Rat) (a : Cx) : Cx := { re := k * a.re, im := k * a.im }

def Cx.power (a : Cx) : Rat := a.re * a.re + a.im * a.im

def Cx.round (a : Cx) : Cx := { re := quant a.re, im := quant a.im }

/-- Quotient; 0 where the divisor is 0. -/
def Cx.div (a b : Cx) : Cx := if b.power = 0 then Cx.zero else ((a.mul b.conj).scale (1 / b.power)).round

end Sys2Proof

namespace Sys2Proof.Machine

def sumCx (l : List Cx) : Cx := l.foldl Cx.add Cx.zero

/-- The product with the conjugates of another list, summed. -/
def correlate (a b : List Cx) : Cx := sumCx ((a.zip b).map fun x => x.1.mul x.2.conj)

def powerOf (l : List Cx) : Rat := sumOf (l.map Cx.power)

/-- Mean of a list; 0 for none. -/
def meanOf (l : List Rat) : Rat := if l.isEmpty then 0 else sumOf l / l.length

/-- A weighted mean: one output of a filter of unity gain at 0 Hz, whose weights the tap numbers give; the plain mean where they add
up to 0. -/
def firAt (tap : Nat → Rat) (l : List Rat) : Rat :=
  let w := sumOf ((List.range l.length).map tap)
  if w = 0 then meanOf l else quant (sumOf (l.zipIdx.map fun x => tap x.2 * x.1) / w)

/-- Mixing by an offset in Hz at a sample rate (R113), from a sample number on. -/
def mixDown (offset : Int) (rate first : Nat) (l : List Cx) : List Cx :=
  l.zipIdx.map fun x =>
    let t : Rat := (offset * (first + x.2 : Nat) : Int) / (rate : Rat)
    (x.1.mul { re := cosTurn t, im := -sinTurn t }).round

/-- A list cut or padded to a length. -/
def fitList {α : Type} (n : Nat) (d : α) (l : List α) : List α := (l ++ List.replicate (n - l.length) d).take n

/-! ### The transport of bin samples (R111, R112) -/

/-- Mantissa of a component at exponent -E: units of 2^(-E - 9), ties away from zero. -/
def mantissa (e : Nat) (x : Rat) : Int := roundRat (x * (2 : Rat) ^ (e + 9))

def mantOk (m : Int) : Bool := decide (-512 ≤ m) && decide (m ≤ 511)

/-- Every component of a block fits at E. -/
def fitsAt (l : List Cx) (e : Nat) : Bool := l.all fun c => mantOk (mantissa e c.re) && mantOk (mantissa e c.im)

/-- The largest E (smallest e) up to 15 at which the block fits. -/
def blockExp (l : List Cx) : Nat := ((List.range 16).reverse.find? (fitsAt l)).getD 0

/-- A block is formed (R111). A component at bin full scale itself, one mantissa step too many at E 0, takes the largest
mantissa. -/
def encodeBlock (l : List Cx) : BinBlock :=
  let e := blockExp l
  { exp := e, mant := l.map fun c => (clampInt (-512) 511 (mantissa e c.re), clampInt (-512) 511 (mantissa e c.im)) }

/-- The values that a block carries, in bin full scale. -/
def decodeBlock (b : BinBlock) : List Cx :=
  b.mant.map fun m => { re := (m.1 : Rat) / (2 : Rat) ^ (b.exp + 9), im := (m.2 : Rat) / (2 : Rat) ^ (b.exp + 9) }

/-- The samples of a bin in blocks of 8. -/
def blocksOf : Nat → List Cx → List BinBlock
  | 0, _ => []
  | n + 1, l => if l.isEmpty then [] else encodeBlock (l.take 8) :: blocksOf n (l.drop 8)

def transport (l : List Cx) : List BinBlock := blocksOf l.length l

end Sys2Proof.Machine
end

