-- ==== Sys2Proof/Machine/Decoders.lean ====
section
/-! DEFINITION. The output of a program decoder: units, concealment, conversion to the timeline (R216 to R218). -/

namespace Sys2Proof.Machine

/-- Unbound: silence with the valid flag clear; the engine of the last binding is kept (R214). -/
def unbind (d : Decoder) : Decoder :=
  { d with engine := none, valid := false, concealing := false, limited := false, charged := false, coded := [], place := 0, audio := [],
           out := Sample.silent, spans := [] }

/-- Channels of a unit as two (R216). -/
def channelsOf (u : AudioUnit) : List (Int × Int) :=
  match u.mode with
  | .stereo => u.samples
  | .mono | .dual => u.samples.map fun x => (x.1, x.1)

def scaleSample (g : Rat) (v : Bool) (x : Int × Int) : Sample := { l := roundRat (g * x.1), r := roundRat (g * x.2), valid := v }

/-- Gain of a repeated sample so many samples after the first: 1 falling to 0 over 40 ms at a rate in kHz (R217). -/
def repeatGain (rate n : Nat) : Rat := max 0 (1 - (n : Rat) / (40 * max 1 rate : Nat))

/-- `n` samples of concealment: the last good frame repeated, falling to silence (R217). -/
def concealUnit (n : Nat) (d : Decoder) : Decoder :=
  let y := (List.range n).map fun i =>
    scaleSample (repeatGain d.rate (d.concealed + i)) false (d.lastGood.getD ((d.concealed + i) % max 1 d.lastGood.length) (0, 0))
  { d with coded := d.coded ++ y, concealed := d.concealed + n, fadeIn := true, concealing := true }

/-- A unit of another rate begins its own sample grid. -/
def takeRate (rate : Nat) (d : Decoder) : Decoder := if d.rate = rate then d else { d with rate := rate, coded := [], place := 0, lastGood := [] }

/-- One unit at its own rate (R217): a failed one repeats the last good one, fading over 40 ms; the first good one after it fades in
over 10 ms. -/
def takeUnit (u : AudioUnit) (d0 : Decoder) : Decoder :=
  let d := takeRate u.rate d0
  match u.result with
  | .failed => concealUnit u.samples.length d
  | .muted => { d with coded := d.coded ++ (channelsOf u).map (scaleSample 1 false), concealing := true }
  | .good =>
    let x := channelsOf u
    let y := x.zipIdx.map fun v => scaleSample (if d.fadeIn then min 1 ((v.2 : Rat) / (10 * max 1 d.rate : Nat)) else 1) true v.1
    { d with coded := d.coded ++ y, lastGood := x, concealed := 0, fadeIn := false, concealing := false }

/-! ### To the timeline (R216) -/

/-- Samples of a component for one tick: its rate against 48 kHz, corrected by the ratio in 0.01 ppm. -/
def stepOf (d : Decoder) : Rat := (d.rate : Rat) / 48 * (1 + d.ratio.getD 0 / 100000000)

/-- The sample at a place: one of the component's own where it falls on it, else interpolated over the 32 around it by a filter of unity
gain. `none` until they have come. -/
def sampleAt (d : Decoder) (p : Rat) : Option Sample :=
  let i := p.floor.toNat
  let f := p - i
  if f = 0 then d.coded[i]?
  else if d.coded.length ≤ i + 16 then none
  else
    let w := (d.coded.drop (i - 15)).take (i + 17 - (i - 15))
    let own := d.coded.getD i Sample.silent
    let at_ (g : Sample → Int) : Int := clampInt (-8388608) 8388607 (roundRat (firAt (Config.resampleTap f) (w.map fun x => (g x : Rat))))
    some { l := at_ (·.l), r := at_ (·.r), valid := own.valid && (d.coded.getD (i + 1) own).valid }

/-- The output samples that the coded ones give. -/
def resampleFrom : Nat → Decoder → List Sample × Decoder
  | 0, d => ([], d)
  | n + 1, d =>
    match sampleAt d d.place with
    | none => ([], d)
    | some x =>
      let r := resampleFrom n { d with place := d.place + stepOf d }
      (x :: r.1, r.2)

/-- Output waits for its ticks, at most one second of it; coded samples behind the filter go. -/
def resample (d : Decoder) : Decoder :=
  let r := resampleFrom (2 * d.coded.length + 2) d
  let gone := r.2.place.floor.toNat - 15
  let all := d.audio ++ r.1
  { r.2 with coded := r.2.coded.drop gone, place := r.2.place - gone, audio := all.drop (all.length - 48000) }

/-- CIFs that the last bits of a unit are apart from its first: a DAB+ superframe, a Layer II frame (R216). -/
def unitCifs (plus : Bool) (rate : Nat) : Nat := if plus then 5 else if rate ≤ 24 then 2 else 1

/-- Ticks from the RF input to the decoder's output (R215). -/
def decoderLatency (plus : Bool) : Nat := if plus then 30720 else 23040

/-- Ticks that a whole unit waits: what the 15 further CIFs of time interleaving and its own CIFs of 1152 ticks leave of the latency
(DEDUCED, log entry 138). -/
def decoderLead (plus : Bool) (rate : Nat) : Nat := decoderLatency plus - 1152 * (15 + unitCifs plus rate)

/-- A decoder with nothing to put out waits so long that its latency is that of R215. -/
def holdLead (plus : Bool) (rate : Nat) (d : Decoder) : Decoder :=
  if d.audio.isEmpty then { d with audio := List.replicate (decoderLead plus rate) Sample.silent } else d

/-- One unit of a quality enters at tick `now`, and what its output samples came from is noted. -/
def takeOne (plus : Bool) (now eq : Nat) (u : AudioUnit) (d0 : Decoder) : Decoder :=
  let d := holdLead plus u.rate d0
  let r := resample (takeUnit u d)
  { r with spans := (d.spans.filter fun x => decide (now < x.last + 4801)) ++
      [{ first := now + d.audio.length + 1, last := now + r.audio.length, eq := eq, conceals := u.result != .good }] }

/-- The units of one CIF. -/
def takeUnits (plus : Bool) (now eq : Nat) (l : List AudioUnit) (d : Decoder) : Decoder :=
  l.foldl (fun d u => takeOne plus now eq u d) d

/-- Quality of the frames that the sample put out at a tick came in (R257). -/
def eqAt (t : Nat) (d : Decoder) : Option Nat := (d.spans.find? fun x => decide (t ≤ x.last)).map (·.eq)

/-- Concealment falls into the ticks from `a` up to `b`. -/
def concealsIn (a b : Nat) (d : Decoder) : Bool := d.spans.any fun x => x.conceals && decide (x.first < b) && decide (a ≤ x.last)

/-- A bound component became scrambled: unbound, and its output fades as concealment does (R217, R218). -/
def fadeAway (d : Decoder) : Decoder :=
  let r := resample (concealUnit (40 * d.rate) d)
  { unbind d with audio := r.audio, out := d.out, spans := d.spans, fadeIn := false }

end Sys2Proof.Machine
end

