-- ==== Sys2Proof/Machine/Ofdm.lean ====
section
/-! DEFINITION. The OFDM receiver of a DAB engine: metrics of acquisition, taps, noise powers, the FFT window, combining, demapping,
MER and the groups of the soft-bit store (R177, R178, R182, R185 to R190, R195, R200). -/

namespace Sys2Proof.Machine

/-! ### Bins to carriers (R106, R112, R113, R178) -/

/-- Amplitude ratio of a digital factor in 1/512 dB. -/
def compAmp (c : Int) : Rat := ampDb (c / 512)

/-- Bins as they reach an instance: compensated, each sample by the factor of its tick, and carried in blocks (R48, R111, R112). -/
def carry (amp : Nat → Nat → Rat) (b : BinSamples) : List (Nat × List (List BinBlock)) :=
  b.map fun x => (x.1, x.2.map fun l => transport (l.zipIdx.map fun c => c.1.scale (amp x.1 c.2)))

/-- Sub-carrier of a place of a symbol: -768 to 768 without 0. -/
def carrierNo (n : Nat) : Int := if n < 768 then (n : Int) - 768 else (n : Int) - 767

/-- The component of samples at a frequency. -/
def toneOf (rate : Rat) (f : Rat) (l : List Cx) : Cx :=
  if l.isEmpty then Cx.zero
  else ((sumCx (l.zipIdx.map fun x =>
    let t : Rat := f * x.2 / rate
    x.1.mul { re := cosTurn t, im := -sinTurn t })).scale (1 / l.length)).round

/-- The samples of the useful part: 1 ms from the place of the window behind the guard interval (R185). -/
def usefulPart (rate : Rat) (window : Int) (l : List Cx) : List Cx :=
  (l.drop (((504 + window : Int) : Rat) * rate / 2048000).ceil.toNat).take (rate / 1000).floor.toNat

/-- The carriers of a symbol on one input, with the block centre `base` Hz above the centre bin: a carrier is taken from the bin
that is nearest to it (R113; DEDUCED, log entry 141). -/
def carriersFrom (delta : Rat) (window base : Int) (bins : List (List BinBlock)) : List Cx :=
  if bins.isEmpty then []
  else
    let parts := bins.map fun l => usefulPart (2 * delta) window (l.flatMap decodeBlock)
    (List.range 1536).map fun n =>
      let f := base + 1000 * carrierNo n
      let j := clampInt (-6) 6 ((f : Rat) / delta + 1 / 2).floor
      toneOf (2 * delta) (f - j * delta) (parts.getD (j + 6).toNat [])

/-- Bin spacing of the high band in Hz (Table 4-1). -/
def highSpacing (plan : Nat) : Rat := (fsOf plan : Rat) / binDiv false

/-- The carriers of every input of an engine, at `shift` sub-carriers from an offset. -/
def carriersAt (s : State) (x : Engine) (offset : Int) (b : List (Nat × List (List BinBlock))) : List (Nat × List Cx) :=
  (b.filter fun y => bitOf (maskMinus x.mask x.held) y.1 || x.antennas.any (·.input == y.1)).map fun y =>
    (y.1, carriersFrom (highSpacing s.clocks.plan) x.window (x.nco + offset) y.2)

/-- Compensation of a symbol that began at a tick. -/
def symbolAmp (s : State) (start : Nat) (i n : Nat) : Rat :=
  compAmp (compAt (inputAt s i) (start + n * 48000 / (2 * highSpacing s.clocks.plan).floor.toNat))

/-- Tick at which a symbol began of which `n` more have followed up to now, itself included. -/
def symbolStart (now n : Nat) : Nat := now - (n * 2552 * 48 + 2047) / 2048

/-! ### Metrics of acquisition (R177) -/

/-- A null dip ends at some window: six windows at least 6 dB below the mean of the 24 before them. -/
def nullDip (w : List Rat) : Bool :=
  (List.range (w.length - 29)).any fun n => atLeastDb 60 (meanOf ((w.drop n).take 24)) (meanOf ((w.drop (n + 24)).take 6))

/-- The correlation of a symbol with the reference is at least `x`. -/
def rhoAtLeast (x : Rat) (y p : List Cx) : Bool :=
  decide (0 < powerOf y * powerOf p) && decide (x * x * (powerOf y * powerOf p) ≤ (correlate y p).power)

/-- Peak power of a correlation. -/
def peakPower (y p : List Cx) : Rat := if powerOf p = 0 then 0 else (correlate y p).power / (powerOf p * powerOf p)

/-- The combined baseband of the correlators: the sum over the inputs (DESIGN CHOICE, log entry 133). -/
def combined (l : List (Nat × List Cx)) : List Cx :=
  let n := (l.map fun x => x.2.length).foldl max 0
  (List.range n).map fun k => sumCx (l.map fun x => x.2.getD k Cx.zero)

/-- A symbol correlated at a shift. -/
structure Match where
  shift : Int
  sym : List (Nat × List Cx)
  base : List Cx
deriving DecidableEq, Repr

def matchAt (s : State) (x : Engine) (offset : Int) (b : List (Nat × List (List BinBlock))) (shift : Int) : Match :=
  let y := carriersAt s x (offset + 1000 * shift) b
  { shift := shift, sym := y, base := combined y }

/-- Squared correlation for the comparison of shifts. -/
def rhoSquared (y p : List Cx) : Rat := if powerOf y * powerOf p = 0 then 0 else (correlate y p).power / (powerOf y * powerOf p)

/-- The best of the integer shifts from `-n` to `n`; the smallest in size of equals (R176, R179). -/
def bestMatch (s : State) (x : Engine) (offset : Int) (n : Nat) (p : List Cx) (b : List (Nat × List (List BinBlock))) : Match :=
  ((List.range n).flatMap fun k => [-(k + 1 : Int), (k + 1 : Int)]).foldl
    (fun m k => let y := matchAt s x offset b k; if rhoSquared m.base p < rhoSquared y.base p then y else m) (matchAt s x offset b 0)

/-- A searcher peak with its symbol as the correlator has it. -/
structure PeakIn where
  timing : Int
  shift : Int
  base : List Cx
  fib : Bool
  eid : Option Id16
deriving DecidableEq, Repr

/-- A transmission frame as the engine has it behind its FFT. `gap`: parts that a gap touches, 0 null, 1 PRS, then FIC; `anyGap`: any
part of it or of the MSC before it. `found`: shift of the PRS. -/
structure FrameIn where
  windows : List Rat
  ref : List Cx
  found : Int
  nulls : List (Nat × List Cx)
  prs : List (Nat × List Cx)
  base : List Cx
  fic : List (List (Nat × List Cx))
  peaks : List PeakIn
  fibs : List Fib
  levels : List Int
  fine : Int
  clockPpm : Int
  gap : List Nat
  anyGap : Bool
deriving DecidableEq, Repr

/-- The timing of a searcher peak is more than one guard interval away (R179). -/
def searcherPeak (timing : Int) : Bool := decide (504 < timing.natAbs)

/-- Parts of a frame that a gap touches: null symbol, PRS and the FIC symbols, which end now. -/
def partsGapped (s : State) (x : Engine) (o : FrameObs) : List Nat :=
  (List.range 5).filter fun k =>
    o.lost.contains k ||
    gapIn s x.mask (if k = 0 then symbolStart s.now 4 - 63 else symbolStart s.now (5 - k)) (symbolStart s.now (4 - k) + 1)

/-- Offset from which the correlators search: the assigned frequency in PRS sync, else the offset in force. -/
def searchBase (x : Engine) : Int := if x.acq = .prsSync then 0 else x.freqOffset

/-- Shifts of the tracking correlator: 32 either way in PRS sync (R176), else none. -/
def searchRange (x : Engine) : Nat := if x.acq = .prsSync then 32 else 0

/-- Power of the ensemble over 1.536 MHz at the ball of an input, 1/4 dBm (R14, Table 7-7), from the symbol as received. -/
def ensembleLevel (s : State) (i : Nat) (y : List Cx) : Int :=
  let x := inputAt s i
  clampInt (-32767) 32767 (roundRat (((centiDb (4 * powerOf y) - 1200 - 100 * x.gain : Int) : Rat) / 25 - (x.comp : Rat) * 4 / 512))

/-- The frame behind the FFT. -/
def frameIn (s : State) (x : Engine) (o : FrameObs) : FrameIn :=
  let sym (k : Nat) (b : BinSamples) := carry (symbolAmp s (symbolStart s.now (5 - k))) b
  let m := bestMatch s x (searchBase x) (searchRange x) o.ref (sym 1 o.prs)
  let off := searchBase x + 1000 * m.shift
  let gap := partsGapped s x o
  { windows := o.windows, ref := o.ref, found := m.shift, nulls := carriersAt s x off (sym 0 o.nulls), prs := m.sym, base := m.base,
    fic := o.fic.zipIdx.map fun f => carriersAt s x off (sym (f.2 + 2) f.1),
    peaks := o.peaks.map fun p =>
      let q := bestMatch s x x.freqOffset 2 o.ref (sym 1 p.prs)
      { timing := p.timing, shift := q.shift, base := q.base, fib := p.fib, eid := p.eid },
    fibs := o.fibs, levels := (List.range 4).map fun i => ensembleLevel s i (((m.sym.find? (·.1 == i)).map (·.2)).getD []),
    fine := o.fine, clockPpm := o.clockPpm, gap := gap,
    anyGap := !gap.isEmpty || x.gapSeen || gapIn s x.mask (s.now - 4608) (s.now + 1) }

/-- Power of a searcher peak over the tracked peak, 0.5 dB. -/
def peakRel (o : FrameIn) (q : PeakIn) : Int :=
  let t := peakPower o.base o.ref
  let n := peakPower q.base o.ref
  if t = 0 then (if n = 0 then 0 else 127) else clampInt (-127) 127 (roundRat ((centiDb (n / t) : Rat) / 50))

/-- A peak is so many 0.1 dB or more above the tracked peak. -/
def peakAbove (tenths : Int) (o : FrameIn) (q : PeakIn) : Bool :=
  decide (0 < peakPower q.base o.ref) && atLeastDb tenths (peakPower q.base o.ref) (peakPower o.base o.ref)

/-! ### Taps, noise and the window (R185) -/

def carriersOf (i : Nat) (l : List (Nat × List Cx)) : List Cx := ((l.find? (·.1 == i)).map (·.2)).getD []

def zipTaps (f : Nat → Cx → Cx) (l : List Cx) : List Cx := l.zipIdx.map fun x => f x.2 x.1

/-- One tap of each carrier from the PRS. -/
def prsTaps (y p : List Cx) : List Cx := zipTaps (fun k a => a.div (p.getD k Cx.zero)) y

/-- Noise powers from the null symbol, smoothed over 8 frames. -/
def nullNoise (old : List Rat) (y : List Cx) : List Rat :=
  y.zipIdx.map fun x => match old[x.2]? with | some n => smooth 8 1 n x.1.power | none => x.1.power

/-- Decision-directed refinement after a symbol, 8 symbols. -/
def refineTaps (sent : List Cx) (y taps : List Cx) : List Cx :=
  zipTaps (fun k a =>
    let e := a.div (sent.getD k Cx.zero)
    let h := taps.getD k Cx.zero
    { re := smooth 8 1 h.re e.re, im := smooth 8 1 h.im e.im }) y

/-- The taps of the antennas that have joined, added up carrier by carrier. -/
def combinedTaps (l : List Antenna) : List Cx :=
  let live := l.filter fun a => a.wait == 0
  let n := (live.map fun a => a.taps.length).foldl max 0
  (List.range n).map fun k => sumCx (live.map fun a => a.taps.getD k Cx.zero)

/-- The impulse response at a sample: the inverse transform of taps over the 2048 sub-carriers, of which those from -768 to 768
without 0 are used. -/
def impulseAt (h : List Cx) (n : Nat) : Cx :=
  sumCx (h.zipIdx.map fun x =>
    let t : Rat := ((carrierNo x.2 * n : Int) : Rat) / 2048
    x.1.mul { re := cosTurn t, im := sinTurn t })

/-- Energy of 504 samples of the response from a place on, cyclically. -/
def guardEnergy (e : List Rat) (n : Nat) : Rat := sumOf ((List.range 504).map fun j => e.getD ((n + j) % 2048) 0)

/-- The place of the window: the response energy inside the guard interval is largest; the first of equals. -/
def windowOf (h : List Cx) : Int :=
  if h.isEmpty then 0 else
  let e := (List.range 2048).map fun n => (impulseAt h n).power
  let best := (List.range 2048).foldl (fun (b : Nat × Rat) n => if b.2 < guardEnergy e n then (n, guardEnergy e n) else b) (0, guardEnergy e 0)
  if best.1 < 1024 then best.1 else (best.1 : Int) - 2048

/-- A PRS at the tracked timing gives every antenna that has joined its taps (R185); a null symbol its noise powers. -/
def takePrs (o : FrameIn) (a : Antenna) : Antenna :=
  let y := carriersOf a.input o.prs
  if y.isEmpty || a.wait != 0 then a else { a with taps := prsTaps y o.ref, gate := fitList y.length true a.gate }

def takeNull (o : FrameIn) (a : Antenna) : Antenna :=
  let y := carriersOf a.input o.nulls
  if y.isEmpty then a else { a with noise := nullNoise a.noise y }

/-- Antennas of the set: those of a first frame join at once, one that is added waits for 8 symbols (R186). -/
def fitAntennas (mask : Nat) (l : List Antenna) : List Antenna :=
  let keep := l.filter fun a => bitOf mask a.input || decide (0 < a.ramp)
  let new := (List.range 4).filter fun i => bitOf mask i && !(keep.any (·.input == i))
  keep ++ new.map fun i =>
    { input := i, taps := [], noise := [], gate := [], wait := if l.isEmpty then 0 else 8, ramp := if l.isEmpty then 1 else 0 }

/-! ### Combining and demapping (R186, R187) -/

/-- Noise power of a carrier; 1 before any null symbol. -/
def noiseK (a : Antenna) (k : Nat) : Rat := let n := a.noise.getD k 1; if n = 0 then 1 / 1099511627776 else n

def snrK (a : Antenna) (k : Nat) : Rat := (a.taps.getD k Cx.zero).power / noiseK a k

/-- The gate of one carrier: out below 20 dB under the best, in again from 17 dB. -/
def gateK (best : Rat) (a : Antenna) (k : Nat) : Bool :=
  if a.gate.getD k true then decide (best / 100 ≤ snrK a k) else decide (best * 10 / 501 ≤ snrK a k)

def stepGates (l : List Antenna) : List Antenna :=
  let n := (l.map fun a => a.taps.length).foldl max 0
  let best := (List.range n).map fun k => (l.map fun a => snrK a k).foldl max 0
  l.map fun a => { a with gate := (List.range n).map fun k => gateK (best.getD k 0) a k }

def weightK (a : Antenna) (k : Nat) : Rat := if a.gate.getD k true then a.ramp / noiseK a k else 0

/-- z of every carrier of a symbol. -/
def combineSymbol (l : List Antenna) (prev y : List (Nat × List Cx)) : List Cx :=
  let n := (y.map fun x => x.2.length).foldl max 0
  (List.range n).map fun k =>
    (sumCx (l.map fun a =>
      (((carriersOf a.input y).getD k Cx.zero).mul ((carriersOf a.input prev).getD k Cx.zero).conj).scale (weightK a k))).round

/-- Mean magnitude of a symbol's carriers. -/
def meanMag (z : List Cx) : Rat := meanOf (z.map fun c => sqrtQ c.power)

def softOf (m x : Rat) : Int := if m = 0 then 0 else clampInt (-31) 31 (roundRat (16 * x / m))

/-- The permutation of 2048 of the frequency interleaver of EN 300 401 in mode I (PRESUMED, log entry 142). -/
def permFrom : Nat → Nat → List Nat
  | 0, _ => []
  | n + 1, x => x :: permFrom n ((13 * x + 511) % 2048)

/-- Places of a symbol in the order of the interleaver: carriers -768 to 768 without 0. -/
def freqOrder : List Nat :=
  ((permFrom 2048 0).filter fun d => decide (256 ≤ d) && decide (d ≤ 1792) && d != 1024).map fun d => if d < 1024 then d - 256 else d - 257

/-- The soft values of a symbol, deinterleaved, in logical order: the I values of all carriers, then the Q values (PRESUMED, log
entry 142). -/
def demap (z : List Cx) : List Int :=
  if z.isEmpty then []
  else
    let m := meanMag z
    let y := freqOrder.map fun k => z.getD k Cx.zero
    y.map (fun c => softOf m c.re) ++ y.map (fun c => softOf m c.im)

/-- The sign point of a differential symbol. -/
def decision (c : Cx) : Cx :=
  let h : Rat := 707106781187 / 1000000000000
  { re := if 0 ≤ c.re then h else -h, im := if 0 ≤ c.im then h else -h }

/-- Sums of the MER: power of the ideal points and of the errors. -/
def merSums (z : List Cx) : Rat × Rat :=
  let m := meanMag z
  (sumOf (z.map fun c => ((decision c).scale m).power), sumOf (z.map fun c => (c.sub ((decision c).scale m)).power))

/-- An antenna after a symbol: taps refined where the decisions are known, the count of one that joins, the ramp of one that
leaves. -/
def stepAntenna (mask : Nat) (sent : List Cx) (y : List (Nat × List Cx)) (a : Antenna) : Antenna :=
  let c := carriersOf a.input y
  let a1 := if c.isEmpty || sent.isEmpty then a else { a with taps := refineTaps sent c a.taps }
  if !bitOf mask a.input then { a1 with ramp := max 0 (a1.ramp - 1 / 2) }
  else if a1.wait ≤ 1 then { a1 with wait := 0, ramp := 1 } else { a1 with wait := a1.wait - 1 }

/-- A symbol reaches the engine: its soft values, none where a gap touches it, and the engine after it. Taps are refined while the
decisions of the frame go back to its PRS without a gap, and not in hold (R183, R185, R200). -/
def symbolStep (gap : Bool) (y : List (Nat × List Cx)) (x : Engine) : Option (List Int) × Engine :=
  if gap then (none, { x with prevSym := y, sent := [] })
  else
    let ants := stepGates x.antennas
    let z := combineSymbol ants x.prevSym y
    let sent := zipTaps (fun k a => ((x.sent.getD k Cx.zero).mul (decision a)).round) z
    let known := if x.sent.isEmpty || x.acq == .hold then [] else sent
    let mer := merSums z
    (some (demap z), { x with antennas := ants.map (stepAntenna (maskMinus x.mask x.held) known y), sent := if x.sent.isEmpty then [] else sent, prevSym := y,
                              merNum := x.merNum + mer.1, merDen := x.merDen + mer.2 })

/-- MER of the symbols so far, 0.01 dB. -/
def merOf (x : Engine) : Int := if x.merDen = 0 then (if x.merNum = 0 then 0 else 20000) else centiDb (x.merNum / x.merDen)

/-! ### The soft-bit store (R189, R190) -/

/-- Magnitude code of Table 7-5. -/
def magCode (a : Nat) : Nat := if a ≤ 3 then 0 else if a ≤ 8 then 1 else if a ≤ 17 then 2 else 3

/-- The value that a compressed code reads back as (Table 7-5). -/
def compressed (q : Int) : Int :=
  let r : Int := [2, 6, 12, 24].getD (magCode q.natAbs) 24
  if q < 0 then -r else r

/-- The 24 bits of a group: eight codes of 3 bits or four of 6. -/
def groupBits (exact : Bool) (l : List Int) : Nat :=
  l.foldl (fun acc q =>
    if exact then acc * 64 + (q % 64).toNat else acc * 8 + (if q < 0 then 4 else 0) + magCode q.natAbs) 0

/-- Even parity of a group (Table 18-1). -/
def parityOf (exact : Bool) (l : List Int) : Bool :=
  ((List.range 24).filter fun i => (groupBits exact l).testBit i).length % 2 == 1

/-- Values of a group as they read: zeros where it is erased, else what the coding keeps. -/
def readGroup (g : Group) : List Int := if g.erased then g.vals.map fun _ => 0 else g.vals

def putGroup (exact erased : Bool) (l : List Int) : Group :=
  { vals := if exact then l else l.map compressed, parity := parityOf exact l, erased := erased }

def groupSize (exact : Bool) : Nat := if exact then 4 else 8

/-- The values of one symbol in groups. -/
def putGroups (exact erased : Bool) : Nat → List Int → List Group
  | 0, _ => []
  | n + 1, l =>
    if l.isEmpty then [] else
    putGroup exact erased (l.take (groupSize exact)) :: putGroups exact erased n (l.drop (groupSize exact))

/-- The values of an MSC symbol as they are stored: 3072 of them, zeros where they are erased. -/
def storeSymbol (exact : Bool) (v : Option (List Int)) : List Group :=
  match v with
  | some l => putGroups exact false 3072 (fitList 3072 0 l)
  | none => putGroups exact true 3072 (List.replicate 3072 0)

def regroupFrom (exact : Bool) : Nat → List (Int × Bool) → List Group
  | 0, _ => []
  | n + 1, l =>
    if l.isEmpty then [] else
    let h := l.take (groupSize exact)
    putGroup exact (h.all (·.2)) (h.map (·.1)) :: regroupFrom exact n (l.drop (groupSize exact))

/-- Values of a CIF with their erasures. -/
def readCif (c : List Group) : List (Int × Bool) := c.flatMap fun g => (readGroup g).map fun q => (q, g.erased)

/-- Conversion in place (R191): groups of the new size over the same values. Nothing is erased by it: a group of which a part alone
was erased is stored with zeros in that part (DEDUCED, log entry 143). -/
def regroup (exact : Bool) (cif : List Group) : List Group :=
  let vals := readCif cif
  regroupFrom exact vals.length vals

/-- A group whose parity fails on reading is erased (R192). -/
def eraseGroup (store : List (List Group)) (p : Nat × Nat) : List (List Group) :=
  upd store p.1 fun c => upd c p.2 fun g => { g with erased := true }

/-- Delays in CIFs of the time interleaver of EN 300 401, by a bit's number modulo 16 (PRESUMED, log entry 142). -/
def cifDelay (j : Nat) : Nat := [0, 8, 4, 12, 2, 10, 6, 14, 1, 9, 5, 13, 3, 11, 7, 15].getD (j % 16) 0

/-- The values of a subchannel after time deinterleaving (R188): the value of a bit of its 64 per capacity unit was received as many
CIFs ago as its delay lacks to 15, at the place that the subchannel had then; erased where it had none (R205). -/
def subchValues (store : List (List Group)) (c : Subch) : List (Int × Bool) :=
  let cifs := (store.map readCif).reverse
  (List.range (c.size * 64)).map fun j =>
    let age := 15 - cifDelay j
    match c.places.getD age (some (c.start, c.size)) with
    | none => (0, true)
    | some (start, size) => if size * 64 ≤ j then (0, true) else (cifs.getD age []).getD (start * 64 + j) (0, true)

/-- Channel bit errors (R198): hard decisions of non-erased values against the re-encoded output, and the bits compared. -/
def bitErrors (vals : List (Int × Bool)) (code : List Bool) : Nat × Nat :=
  let seen := (vals.zip code).filter fun x => !x.1.2
  (seen.countP (fun x => x.2 != decide (x.1.1 < 0)), seen.length)

end Sys2Proof.Machine
end

