-- ==== Sys2Proof/Machine/UnitOps.lean ====
section
/-! DEFINITION. The states of lanes and engines: assignment, the wings, starting, draining, freeing and antenna sets
(R20 to R26, R109, R114, R116, R119, R120, R157, R173, R174, R282). -/

namespace Sys2Proof.Machine

/-! ### Antenna sets (R116) -/

/-- Ramp to zero weight: 2 ms for a lane, 2 symbols for an engine (R116, R186), in ticks. -/
def laneRamp : Nat := 96
def engineRamp : Nat := 120

/-- Entries of the restore list for an instance leave it; with another entry the most recent, its headroom counts afresh (R290). -/
def forgetShed (engine : Bool) (id : Nat) (s : State) : State :=
  let l := s.cap.restoreList.filter fun x => !(x.engine == engine && x.id == id)
  { s with cap := { s.cap with restoreList := l, restoreSince := if l.getLast? = s.cap.restoreList.getLast? then s.cap.restoreSince else none } }

/-- Antennas on their ramp, each to its own end, with those that the new set leaves out (R116). -/
def rampSet (now ticks mask : Nat) (ramps : List (Nat × Nat)) (new : Nat) : List (Nat × Nat) :=
  (ramps.filter fun r => decide (now < r.2) && !bitOf new r.1) ++
  ((List.range 8).filter fun i => bitOf mask i && !bitOf new i).map fun i => (i, now + ticks)

/-- Antennas that a running set gains wait while the capacity does not carry the demand (R282). -/
def heldSet (met : Bool) (st : InstState) (mask held new : Nat) : Nat :=
  if met || st != .running then 0 else maskMinus new (maskMinus mask held)

/-- The antenna set of a lane changes without a gap (R116). -/
def setLaneMask (id new : Nat) (s : State) : State :=
  let s1 := updLane id (fun l => { l with mask := new, ramps := rampSet s.now laneRamp l.mask l.ramps new }) s
  match laneAt s id with
  | some old => updLane id (fun l => { l with held := heldSet (capacityMet s1) old.st old.mask old.held new }) s1
  | none => s1

/-- The antennas of an engine that it processes. -/
def fitEngine (x : Engine) : Engine := { x with antennas := if x.antennas.isEmpty then [] else fitAntennas (maskMinus x.mask x.held) x.antennas }

/-- The same of an engine; an antenna that is added begins the estimate of its taps at the next symbol (R186). -/
def setEngineMask (e new : Nat) (s : State) : State :=
  let s1 := updEngine e (fun x => { x with mask := new, ramps := rampSet s.now engineRamp x.mask x.ramps new }) s
  match engineAt s e with
  | some old => updEngine e (fun x => fitEngine { x with held := heldSet (capacityMet s1) old.st old.mask old.held new }) s1
  | none => s1

/-- The increase of cost that a set of a lane would bring. -/
def laneRaise (s : State) (id mask : Nat) : Nat :=
  match laneAt s id with
  | some l => laneCost (isAm id) (antennas mask) - laneDemand s (isAm id) l
  | none => 0

def engineRaise (s : State) (e mask : Nat) : Nat :=
  match engineAt s e with
  | some x => engineCost (antennas mask) - engineDemand s x
  | none => 0

/-! ### Leaving the running state -/

/-- A command that waits for an instance completes when the instance is taken from it. -/
def dropWait (w : Wait) : State → State := finishWait w

/-- The PI of a lane that is in a traffic announcement: as that ends, so do the EON announcements of the PI (R166). -/
def ownTraffic (s : State) (id : Nat) : List Id16 :=
  match laneAt s id with
  | some l => if l.traffic then l.ident.pi.toList else []
  | none => []

/-- A lane leaves the wings or the running state: its flows close, its conditions end, its identity is cleared
(R157, R166, R167, Table 12-10). -/
def quietLane (id : Nat) (s : State) : State :=
  let own := ownTraffic s id
  let s1 := closeLaneFlows id 1 (endAnnWhere (fun a => onLane id a || (a.origin == 2 && own.contains a.other)) s)
  let s2 := updLane id (fun l => { l with
    starting := false, valid := false, concealing := false, ident := Identity.none, rds := RdsDecoder.none,
    fields := RdsFields.none, traffic := false, alarm := false, test := false, alarmOffAt := none, testOffAt := none }) s1
  dropWait (.lane id) { s2 with rds := { s2.rds with eon := s2.rds.eon.filter fun x => x.lane != id && !own.contains x.pi } }

/-- A lane drains (Table 1-3). -/
def drainLane (id : Nat) (s : State) : State :=
  updLane id (fun l => { l with st := .draining, pend := none, doneTag := none }) (forgetShed false id (quietLane id s))

/-- A lane becomes free. -/
def freeLane (id : Nat) (s : State) : State := updLane id (fun _ => Lane.free) (forgetShed false id s)

/-- A running lane drains, a lane in the wings is free at once; a draining lane loses what waits for it (R120). -/
def releaseLane (id : Nat) (s : State) : State :=
  match laneAt s id with
  | none => s
  | some l =>
    match l.st with
    | .free => s
    | .wings => freeLane id (laneLeaves id (quietLane id s))
    | .running => drainLane id (laneLeaves id s)
    | .draining => updLane id (fun l => { l with pend := none }) (laneLeaves id s)

/-- Decoders bound to an engine stop (R174, R181, R214). -/
def stopDecoders (e : Nat) (s : State) : State :=
  { s with decoders := s.decoders.map fun d =>
      if d.engine = some e then unbind d else d }

/-- An engine leaves the wings or the running state (R174, Table 12-10). -/
def quietEngine (e : Nat) (s : State) : State :=
  let s1 := stopDecoders e (closeEngineFlows e 2 (endAnnWhere (onEngine e) s))
  dropWait (.engine e) (updEngine e (fun x => { x with
    lastFigs := if x.st = .running then some (figuresNow s x) else none,
    starting := false, acq := .idle, erasing := false, converting := false, modeNext := none,
    peaks := [], otherEid := none, otherCount := 0, failed := 0, model := { x.model with current := false } }) s1)

def drainEngine (e : Nat) (s : State) : State :=
  updEngine e (fun x => { x with st := .draining, pend := none, doneTag := none }) (forgetShed true e (quietEngine e s))

/-- A service list changes when a current model goes (R209). -/
def bumpServices (s : State) : State := { s with dab := { s.dab with generation := (s.dab.generation + 1) % 65536 } }

def freeEngine (e : Nat) (s : State) : State :=
  let had := match engineAt s e with | some x => x.model.everCurrent | none => false
  let s1 := updEngine e (fun _ => Engine.free) (forgetShed true e s)
  if had then bumpServices s1 else s1

/-- Shares of a coding (R190). -/
def sharesOf (exact : Bool) : Nat := if exact then 2 else 1

/-- A running engine drains, and the members that it alone served leave their groups (R26, R174). -/
def releaseEngine (e : Nat) (s : State) : State :=
  match engineAt s e with
  | none => s
  | some x =>
    match x.st with
    | .free => s
    | .wings => freeEngine e (quietEngine e s)
    | .running => engineLeaves e s (drainEngine e s)
    | .draining => updEngine e (fun x => { x with pend := none, shares := sharesOf x.exact }) s

/-! ### Assignment (R21, R119, R132, R173) -/

/-- Centre bin and offset of an instance under the plan and trim in force (R113, R114, R201). -/
def tuneLane (c : Clocks) (am : Bool) (l : Lane) : Lane :=
  { l with bin := centreBin am c.plan c.trim l.freq, nco := ncoOffset am c.plan c.trim l.freq }

def tuneEngine (c : Clocks) (x : Engine) : Engine :=
  { x with bin := centreBin false c.plan c.trim x.freq, nco := ncoOffset false c.plan c.trim x.freq }

/-- The bins and offsets of every assigned instance are loaded again. -/
def retune (s : State) : State :=
  { s with lanes := { s.lanes with fm := s.lanes.fm.map fun l => if l.st = .free then l else tuneLane s.clocks false l,
                                   am := s.lanes.am.map fun l => if l.st = .free then l else tuneLane s.clocks true l },
           dab := { s.dab with engines := s.dab.engines.map fun x => if x.st = .free then x else tuneEngine s.clocks x } }

/-- A step of the trim: offsets follow, and the clock estimates settle afresh (R197, R449). -/
def afterTrim (s : State) : State :=
  retune { s with dab := { s.dab with engines := s.dab.engines.map fun x => { x with clockSince := x.clockSince.map fun _ => s.now } } }

/-- A lane as an assignment makes it: fresh, with the default set of its kind, in the wings or starting (R132). -/
def assignedLane (s : State) (am : Bool) (o : Owner) (freq mask : Nat) (pin start : Bool) (af : Option Id16) : Lane :=
  tuneLane s.clocks am { Lane.free with
    st := .wings, owner := o, pinned := pin, starting := !start, freq := freq, mask := mask, afFor := af,
    fm := s.lanes.fmDefault, am := s.lanes.amDefault }

/-- An assignment is put on a free lane. -/
def putLane (id : Nat) (o : Owner) (freq mask : Nat) (pin start : Bool) (af : Option Id16) (s : State) : State :=
  updLane id (fun _ => assignedLane s (isAm id) o freq mask pin start af) s

/-- A lane is reassigned in place: it drains, and the assignment waits (R21, R119). -/
def redirectLane (id : Nat) (p : Pend) (s : State) : State :=
  match laneAt s id with
  | none => s
  | some l =>
    let s1 := if l.st = .draining then s else drainLane id s
    updLane id (fun l => { l with pend := some p }) s1

def assignedEngine (s : State) (exact : Bool) (o : Owner) (block freq mask : Nat) (pin start : Bool) : Engine :=
  tuneEngine s.clocks { Engine.free with
    st := .wings, owner := o, pinned := pin, starting := !start, block := block, freq := freq, mask := mask,
    exact := exact, shares := sharesOf exact }

def putEngine (e : Nat) (o : Owner) (block freq mask : Nat) (pin start : Bool) (s : State) : State :=
  updEngine e (fun _ => assignedEngine s s.dab.defaultExact o block freq mask pin start) s

def redirectEngine (e : Nat) (p : Pend) (s : State) : State :=
  match engineAt s e with
  | none => s
  | some x =>
    let s1 := if x.st = .draining then s else drainEngine e s
    updEngine e (fun x => { x with pend := some p, shares := max (sharesOf x.exact) (sharesOf p.exact) }) s1

/-! ### The device's choice (R24, R25, R120, R173) -/

/-- Identifiers of the lanes of a kind. -/
def lanesOf (s : State) (am : Bool) : List Nat :=
  if am then (List.range s.lanes.am.length).map (· + 0x80) else List.range s.lanes.fm.length

def laneFree (s : State) (id : Nat) : Bool := match laneAt s id with | some l => l.st == .free | none => false

def freeLaneOf (s : State) (am : Bool) : Option Nat := (lanesOf s am).find? (laneFree s)

def liveState (st : InstState) : Bool := st == .wings || st == .running

/-- Lowest quality first, ties to the highest identifier. -/
def worst (q : Nat → Nat) : List Nat → Option Nat
  | [] => none
  | x :: xs => match worst q xs with
    | none => some x
    | some y => if q x < q y then some x else some y

def laneQ (s : State) (id : Nat) : Nat := match laneAt s id with | some l => l.smoothed.lq | none => 0

def engineQ (s : State) (e : Nat) : Nat := match engineAt s e with | some x => eqSmooth x | none => 0

/-- The rank 5 lane that R25 selects; with `scanOnly` never an AF lane (R169). -/
def spareLane (s : State) (am scanOnly : Bool) : Option Nat :=
  worst (laneQ s) ((lanesOf s am).filter fun id => match laneAt s id with
    | some l => liveState l.st && laneRank s id l == 5 && (!scanOnly || l.owner == .scan)
    | none => false)

def spareEngine (s : State) : Option Nat :=
  worst (engineQ s) ((List.range s.dab.engines.length).filter fun e => match engineAt s e with
    | some x => liveState x.st && engineRank s e x == 5
    | none => false)

def engineFree (s : State) (e : Nat) : Bool := match engineAt s e with | some x => x.st == .free | none => false

def freeEngineOf (s : State) : Option Nat := (List.range s.dab.engines.length).find? (engineFree s)

/-! ### Starting (R20, R282) -/

/-- A lane begins processing: smoothing starts at its first update (R142), with no identity (R157). -/
def startLane (id : Nat) (s : State) : State :=
  match laneAt s id with
  | none => s
  | some l =>
    if !(l.st == .wings && l.starting) then s else
    let s1 := updLane id (fun l => { l with st := .running, starting := false, first := true, startedAt := s.now, doneTag := none }) s
    let s2 := match l.doneTag with | some (o, t) => evCmdDone o t stOk s1 | none => s1
    finishWait (.lane id) s2

/-- An engine begins with the null search (Table 7-4). -/
def startEngine (e : Nat) (s : State) : State :=
  match engineAt s e with
  | none => s
  | some x =>
    if !(x.st == .wings && x.starting) then s else
    let s1 := updEngine e (fun x => { x with st := .running, starting := false, acq := .nullSearch, startedAt := s.now, doneTag := none }) s
    let s2 := match x.doneTag with | some (o, t) => evCmdDone o t stOk s1 | none => s1
    finishWait (.engine e) s2

/-- Order a lane in the wings to start. -/
def orderLane (id : Nat) (s : State) : State := updLane id (fun l => if l.st = .wings then { l with starting := true } else l) s

def orderEngine (e : Nat) (s : State) : State := updEngine e (fun x => if x.st = .wings then { x with starting := true } else x) s

/-- Antennas that waited begin (R282). -/
def startAntennas (s : State) : State :=
  { s with lanes := { s.lanes with fm := s.lanes.fm.map fun l => { l with held := 0 }, am := s.lanes.am.map fun l => { l with held := 0 } },
           dab := { s.dab with engines := s.dab.engines.map fun x => fitEngine { x with held := 0 } } }

/-- Every instance and antenna that has been admitted begins processing (R282). -/
def startAll (s : State) : State :=
  let s1 := forEach (laneIds s) startLane (startAntennas s)
  let s2 := forEach (List.range s1.dab.engines.length) startEngine s1
  finishWait .reception s2

/-! ### The end of draining (R21) -/

/-- The pending assignment of a lane takes effect, with its set formed again from the inputs that it named: in the wings with
`start` 1; with `start` 0 it begins once the capacity carries it (R282), and its command is done then; with no input left the lane is free. It loads the default set in force now
(DESIGN CHOICE, log entry 117). -/
def endLaneDrain (id : Nat) (s : State) : State :=
  match laneAt s id with
  | none => s
  | some l =>
    match l.pend with
    | none => freeLane id s
    | some p =>
      let m := laneMask s s.clocks.plan id p.freq p.asked
      if m = 0 then
        let s1 := laneLeaves id (freeLane id s)
        if p.owner = .host then evCmdDone p.opc p.tag stWrongState s1 else s1
      else
        let s1 := putLane id p.owner p.freq m p.pin p.start p.af s
        if p.start then (if p.owner = .host then evCmdDone p.opc p.tag stOk s1 else s1)
        else
          let s2 := updLane id (fun l => { l with doneTag := if p.owner = .host then some (p.opc, p.tag) else none }) s1
          if capacityMet s2 then startLane id s2 else s2

def endEngineDrain (e : Nat) (s : State) : State :=
  match engineAt s e with
  | none => s
  | some x =>
    match x.pend with
    | none => freeEngine e s
    | some p =>
      let m := engineMask s s.clocks.plan p.freq p.asked
      if m = 0 then
        let s1 := freeEngine e s
        if p.owner = .host then evCmdDone p.opc p.tag stWrongState s1 else s1
      else
        let s0 := freeEngine e s
        let s1 := updEngine e (fun _ => assignedEngine s p.exact p.owner p.block p.freq m p.pin p.start) s0
        if p.start then (if p.owner = .host then evCmdDone p.opc p.tag stOk s1 else s1)
        else
          let s2 := updEngine e (fun x => { x with doneTag := if p.owner = .host then some (p.opc, p.tag) else none }) s1
          if capacityMet s2 then startEngine e s2 else s2

/-! ### Inputs that leave a set (R109, R114) -/

/-- An instance still has every bin it needs on some input. -/
def laneKeeps (s : State) (plan id : Nat) (l : Lane) : Nat := if l.mask = 0 then 0 else laneMask s plan id l.freq l.mask

def engineKeeps (s : State) (plan : Nat) (x : Engine) : Nat := if x.mask = 0 then 0 else engineMask s plan x.freq x.mask

def engineRef (e : Nat) : Nat := engineSource e 0xFF

/-- A lane that has lost bins to a band plan is released to draining (R109). -/
def bandPlanLane (id : Nat) (s : State) : State := releaseLane id (evLane (laneSource id) 2 0 0 0 0 s)

def bandPlanEngine (e : Nat) (s : State) : State := releaseEngine e (evLane (engineRef e) 2 0 0 0 0 s)

end Sys2Proof.Machine
end

