-- ==== Sys2Proof/Machine/InputOps.lean ====
section
/-! DEFINITION. Inputs as they start and stop, their gain controllers (R44 to R46, R55, R67, R80), and sets that lose inputs to
a plan (R114). -/

namespace Sys2Proof.Machine

/-! ### Gain (R44 to R47, R80) -/

/-- Gain that automatic mode may use. -/
def limitGain (g : GainCfg) (x : Int) : Nat := (clampInt g.floor g.ceiling x).toNat

/-- A step is measured when the two 1 ms windows before it agree within 0.1 dB and the latest passes the tests (R80). -/
def stepMeasured (s : State) (i : Nat) (x : Input) (new : Nat) : Option (Nat × Nat × Int) :=
  if x.windows = 2 ∧ (x.rms - x.rmsPrev).natAbs ≤ 10 ∧ windowMask s i x.clipLast.1 x.clipLast.2 x.rms = 0 then
    some (x.gain, new, x.rms)
  else none

/-- The size of the step from gain `g` to `g + 1` in 1/512 dB: as measured, else the nominal 1 dB (R48, R80). -/
def stepSize (s : State) (i g : Nat) : Int := 512 + ((calAt s i).work.stepDev.getD g none).getD 0

/-- The size of the change between two gains in 1/512 dB, step by step. -/
def gainChange (s : State) (i a b : Nat) : Int :=
  if a ≤ b then ((List.range (b - a)).map fun k => stepSize s i (a + k)).sum
  else -((List.range (a - b)).map fun k => stepSize s i (b + k)).sum

/-- A gain is applied at the step instant: the digital factor takes the inverse of the change, and the windows restart (R44, R46
to R48). -/
def setGain (i new : Nat) (s : State) : State :=
  updInput i (fun x =>
    if x.gain = new then x
    else { x with gain := new, comp := x.comp - gainChange s i x.gain new,
                  compLog := (s.now, x.comp) :: x.compLog.filter fun e => decide (s.now < e.1 + 9600), quietMs := 0, clipSeen := false, clipMs := (0, 0),
                  windows := 0, stepPending := stepMeasured s i x new }) s

/-- One measured step joins the working set with weight 1/4 (R80). -/
def averageStep (old : Option Int) (m : Int) : Int :=
  match old with
  | some v => clampDev (v + roundDiv (m - v) 4)
  | none => clampDev m

/-- The deviation from 1 dB per step of a change from gain `a` to `b`, 1/512 dB, between two RMS values in 0.01 dB: each of its
1 dB steps takes the same share (log entry 124). -/
def stepDeviation (a b : Nat) (before after : Int) : Int :=
  let n := max a b - min a b
  roundDiv (((if a ≤ b then after - before else before - after) - 100 * n) * 512) (100 * n)

/-- The first whole window after a measured step gives its size; a frozen working set stays as it is (R80, R92). -/
def measureStep (i : Nat) (rms : Int) (s : State) : State :=
  let x := inputAt s i
  match x.stepPending with
  | none => s
  | some (a, b, before) =>
    let s1 := updInput i (fun x => { x with stepPending := none }) s
    if windowMask s i x.clipMs.1 x.clipMs.2 rms = 0 && !calFrozen s i then
      updCal i (fun c => { c with work := { c.work with
        stepDev := (List.range (max a b - min a b)).foldl
          (fun l k => upd l (min a b + k) fun v => some (averageStep v (stepDeviation a b before rms))) c.work.stepDev } }) s1
    else s1

/-! ### Overload (R55) -/

def evInput (i reason a : Nat) : State → State := evLane (inputSource i) reason 0 a 0 0

/-- The windows that ended in the last 100 ms. -/
def recentClips (now : Nat) (x : Input) : List (Nat × Nat × Nat) := x.clipHist.filter fun w => decide (now < w.1 + 4800)

/-- At least 1 in 10^4 samples of the last 100 ms clipped, at the floor or in fixed mode. -/
def overloadHolds (now : Nat) (x : Input) : Bool :=
  let clipped := sumNat ((recentClips now x).map (·.2.1))
  let all := sumNat ((recentClips now x).map (·.2.2))
  x.receiving && (x.gcfg.fixedMode || x.gain == x.gcfg.floor) && decide (0 < clipped) && decide (all ≤ 10000 * clipped)

/-- Overload begins or is cleared. Only a window or a gain setting judges it, so without samples it stays as it is (DESIGN CHOICE, log
entry 148). -/
def judgeOverload (i : Nat) (s : State) : State :=
  let x := inputAt s i
  let h := overloadHolds s.now x
  if h = x.overloaded then s else evInput i (if h then 0 else 1) 0 (updInput i (fun x => { x with overloaded := h }) s)

/-! ### Starting and stopping (R44, R55, R59, R67, R95) -/

/-- The gain at which an input starts (R44). -/
def startGain (x : Input) : Nat :=
  if x.gcfg.fixedMode then x.gcfg.fixed
  else if x.receivedSinceReset then limitGain x.gcfg x.gain else x.gcfg.ceiling

/-- An input starts, at its start gain with a digital factor of 1, whatever gain it had before (DESIGN CHOICE, log entry 147). -/
def inputStarts (i : Nat) (s : State) : State :=
  calStart i (updInput i (fun x => { x with
    receiving := true, waiting := false, receivedSinceReset := true, gain := startGain x, quietMs := 0, clipSeen := false, clipHist := [],
    clipMs := (0, 0), clipLast := (0, 0), windows := 0, comp := 0, compLog := [], gaps := [], gainDue := false, overloaded := false, stepPending := none, binMap := [], fineMap := [] }) s)

def inputStops (i : Nat) (s : State) : State :=
  let was := (inputAt s i).overloaded
  let s1 := updInput i (fun x => { x with
    receiving := false, waiting := false, quietMs := 0, clipSeen := false, clipHist := [], clipMs := (0, 0), clipLast := (0, 0),
    windows := 0, gainDue := false, overloaded := false, stepPending := none, binMap := [], fineMap := [] }) s
  calStop i (if was then evInput i 1 0 s1 else s1)

/-- Inputs that wait start once the capacity carries their channelizers (R282). -/
def startInputs (s : State) : State :=
  if capacityMet s then forEach (List.range 6) (fun i s => if (inputAt s i).waiting then inputStarts i s else s) s else s

/-- Inputs receive when they are enabled and reception runs (R108, R109). -/
def matchInputs (s : State) : State :=
  startInputs (forEach (List.range 6) (fun i s =>
    let want := s.mgr.rxRunning && inputEnabled s i
    let x := inputAt s i
    if want && !x.receiving then updInput i (fun x => { x with waiting := true }) s
    else if !want && (x.receiving || x.waiting) then inputStops i s else s) s)

/-! ### Inputs that leave a set with a plan (R114) -/

/-- Inputs of a set that had every bin under the old plan and lack one under the new. -/
def leavesPlan (s : State) (old new half f mask : Nat) : List Nat :=
  (List.range 6).filter fun i =>
    bitOf mask i && carriesBins i (inputAt s i).plan old s.clocks.trim half f && !carriesBins i (inputAt s i).plan new s.clocks.trim half f

/-- One record for each input that leaves. -/
def planRecords (source : Nat) (l : List Nat) (s : State) : State :=
  forEach l (fun i s => evLane source 3 0 i 0 0 s) s

def planLane (old new id : Nat) (s : State) : State :=
  match laneAt s id with
  | none => s
  | some l =>
    if !liveState l.st then s else
    let out := leavesPlan s old new (halfBins false (isAm id)) l.freq l.mask
    if out.isEmpty then s else
    let m := maskMinus l.mask (maskOf out)
    let s1 := planRecords (laneSource id) out s
    if m = 0 then releaseLane id s1 else updLane id (fun l => { l with mask := m, branches := l.branches.filter fun b => bitOf m b.input }) s1

def planEngine (old new e : Nat) (s : State) : State :=
  match engineAt s e with
  | none => s
  | some x =>
    if !liveState x.st then s else
    let out := leavesPlan s old new 6 x.freq x.mask
    if out.isEmpty then s else
    let m := maskMinus x.mask (maskOf out)
    let s1 := planRecords (engineRef e) out s
    if m = 0 then releaseEngine e s1 else updEngine e (fun x => { x with mask := m, antennas := x.antennas.filter fun a => bitOf m a.input }) s1

/-- Every set under a new plan. -/
def planSets (old new : Nat) (s : State) : State :=
  let s1 := forEach (laneIds s) (planLane old new) s
  forEach (List.range s1.dab.engines.length) (planEngine old new) s1

end Sys2Proof.Machine
end

