-- ==== Sys2Proof/Machine/Lanes.lean ====
section
/-! DEFINITION. Lane and engine commands 0x15, 0x19 to 0x1C, 0x20, 0x21, 0x28, 0x29 and 0x2B (R118 to R120, R132, R150,
R172, R173, R191, R401, R402), and the rows that start and free an instance (R20, R21, R282). -/

namespace Sys2Proof.Machine

/-- State codes of Table 1-3, as Table 5-10 gives them. -/
def instCode : InstState → Nat
  | .free => 0
  | .wings => 1
  | .running => 2
  | .draining => 3

def laneStateOf (s : State) (id : Nat) : Nat := match laneAt s id with | some l => instCode l.st | none => 0

def engineStateOf (s : State) (e : Nat) : Nat := match engineAt s e with | some x => instCode x.st | none => 0

/-! ### LANE_ASSIGN -/

/-- The fields of an assignment (Tables 4-4 and 7-3) with the mask as named and the effective one. -/
structure Ask where
  freq : Nat
  block : Nat
  asked : Nat
  mask : Nat
  pin : Bool
  start : Bool

def laneReply (id : Nat) (a : Ask) (st : Nat) : List Byte := laneAssignBytes id a.freq a.mask a.pin a.start ++ [byte st]

def pendOf (s : State) (a : Ask) (opc : Nat) (tag : Byte) : Pend :=
  { owner := .host, exact := s.dab.defaultExact, af := none, freq := a.freq, block := a.block, mask := a.mask, asked := a.asked,
    pin := a.pin, start := a.start, opc := byte opc, tag := tag }

/-- A free lane takes an admitted assignment; it completes when processing begins, or in the wings (R282). -/
def assignFreeLane (id : Nat) (a : Ask) (s : State) : Res :=
  if !admits s (laneRaise s id a.mask) then fail stNoResource s
  else
    let s1 := putLane id .host a.freq a.mask a.pin a.start none s
    if a.start then okay (laneReply id a 1) s1
    else { status := stOk, payload := laneReply id a 2, state := s1, wait := some (.lane id) }

/-- Reassignment through draining (R21): a difference in cost is admitted. -/
def reassignLane (id : Nat) (a : Ask) (tag : Byte) (s : State) : Res :=
  if !admits s (laneRaise s id a.mask) then fail stNoResource s
  else { status := stPending, payload := laneReply id a 3, state := redirectLane id (pendOf s a 0x19 tag) s }

/-- A change without draining: pin, start and, on an FM lane, the antenna set (R119). The lane becomes host-assigned. -/
def adjustLane (id : Nat) (a : Ask) (l : Lane) (s : State) : Res :=
  if a.mask ≠ l.mask ∧ !admits s (laneRaise s id a.mask) then fail stNoResource s
  else
    let s1 := if a.mask = l.mask then s else setLaneMask id a.mask (forgetShed false id s)
    let s2 := updLane id (fun l => { l with owner := .host, afFor := none, pinned := a.pin }) s1
    if l.st = .running then okay (laneReply id a 2) s2
    else if a.start then okay (laneReply id a 1) s2
    else { status := stOk, payload := laneReply id a 2, state := orderLane id s2, wait := some (.lane id) }

/-- `LANE_ASSIGN` on a lane, named or chosen (R119, R120). -/
def assignLane (id : Nat) (a : Ask) (tag : Byte) (s : State) : Res :=
  match laneAt s id with
  | none => fail stNotInVariant s
  | some l =>
    match l.st with
    | .free => assignFreeLane id a s
    | .draining => reassignLane id a tag s
    | .wings | .running =>
      if l.freq = a.freq ∧ (l.mask = a.mask ∨ !isAm id) then adjustLane id a l s
      else if soleSource s id then fail stWrongState s
      else reassignLane id a tag s

/-- The kind that the device's choice takes (R120). -/
def choiceAm (p : List Byte) : Bool := decide (rd p 1 4 < 47000000)

def askLane (s : State) (id : Nat) (p : List Byte) : Ask :=
  let f := laneFreq (isAm id) (rd p 1 4)
  { freq := f, block := 0xFF, asked := p1 p 5 % 64, mask := laneMask s s.clocks.plan id f (p1 p 5 % 64), pin := boolOf false (p1 p 6),
    start := boolOf false (p1 p 7) }

def bodyLaneAssign (c : Call) (s : State) : Res :=
  let n := p1 c.p 0
  if n ≠ 0xFF then
    let a := askLane s n c.p
    if a.mask = 0 then fail stWrongState s else assignLane n a c.tag s
  else
    let am := choiceAm c.p
    let a := askLane s (if am then 0x80 else 0) c.p
    if a.mask = 0 then fail stWrongState s
    else match freeLaneOf s am with
      | some id => assignLane id a c.tag s
      | none => match spareLane s am false with
        | some id => reassignLane id a c.tag s
        | none => fail stNoResource s

def laneExists (s : State) (id : Nat) : Bool := (laneAt s id).isSome

def laneAssignIds (s : State) (p : List Byte) : Bool :=
  if p1 p 0 = 0xFF then !choiceAm p || !s.lanes.am.isEmpty else laneExists s (p1 p 0)

def cmdLaneAssign : Cmd := { opc := 0x19, len := lenIn [8], ids := laneAssignIds, body := bodyLaneAssign }

/-- `LANE_ASSIGN` (R118 to R120). -/
def execLaneAssign (tag : Byte) (p : List Byte) (s : State) : Host.Outcome State Fault Refusal := hostRow cmdLaneAssign tag p s

/-! ### LANE_RELEASE -/

def bodyLaneRelease (c : Call) (s : State) : Res :=
  let n := p1 c.p 0
  match laneAt s n with
  | none => fail stNotInVariant s
  | some l =>
    if liveState l.st && soleSource s n then fail stWrongState s
    else
      let s1 := reselectAll (releaseLane n s)
      okay [byte n, byte (laneStateOf s1 n)] s1

def cmdLaneRelease : Cmd := { opc := 0x1A, len := lenIn [1], ids := fun s p => laneExists s (p1 p 0), body := bodyLaneRelease }

/-- `LANE_RELEASE` (R26, R120). -/
def execLaneRelease (tag : Byte) (p : List Byte) (s : State) : Host.Outcome State Fault Refusal := hostRow cmdLaneRelease tag p s

/-! ### LANE_LIST -/

/-- Bit 0 pinned, bit 1 assigned by the scan policy, bit 2 AF lane (Table 14-6). -/
def laneFlags (l : Lane) : Nat := flag l.pinned + 2 * flag (l.owner == .scan) + 4 * flag (l.owner == .af)

def laneEntry (s : State) (id : Nat) : List Byte :=
  match laneAt s id with
  | some l =>
    [byte id, byte (instCode l.st), byte (laneFlags l), byte (laneRank s id l)] ++ le 4 l.freq ++ [byte l.mask]
  | none => []

def bodyLaneList (c : Call) (s : State) : Res :=
  let l := (laneIds s).filter fun id => p1 c.p 0 ≤ id
  let page := l.take 27
  let next := match (l.drop 27).head? with | some n => n | none => 0xFF
  okay ([byte page.length, byte next] ++ page.flatMap (laneEntry s)) s

def cmdLaneList : Cmd := { opc := 0x1B, len := lenIn [1], ids := noIds, body := bodyLaneList }

/-- `LANE_LIST` (R120, R402). -/
def execLaneList (tag : Byte) (p : List Byte) (s : State) : Host.Outcome State Fault Refusal := hostRow cmdLaneList tag p s

/-! ### LANE_STATUS (Table 5-10) -/

/-- Synchronous detection is in use (R147). -/
def syncInUse (l : Lane) : Bool := l.am.detector == 2 || (l.am.detector == 0 && l.loop)

def laneStatusFlags (s : State) (am : Bool) (l : Lane) : Nat :=
  flag (setOverloaded s l.mask) + 2 * flag l.concealing + 4 * flag l.valid + 8 * flag (!am && l.pilot) +
  16 * flag (!am && l.gate == 1) + 32 * flag l.ident.pi.isSome + 64 * flag (am && l.loop) + 128 * flag (am && syncInUse l)

/-- Level at the inputs of a set: 0x8000 outside it (Table 5-4). -/
def levelBytes (inputs : List Nat) (mask : Nat) (levels : List Int) : List Byte :=
  (List.range 4).flatMap fun j => match inputs[j]? with
    | some i => if bitOf mask i then leS 2 (levels.getD j (-32768)) else leS 2 (-32768)
    | none => leS 2 (-32768)

def laneInputs (am : Bool) : List Nat := if am then [4, 5] else [0, 1, 2, 3]

/-- A rational figure as one byte. -/
def ratByte (x : Rat) : Byte := byte (clampInt 0 255 (roundRat x)).toNat

/-- The items from `flags` to `silence_s` (R150, R151). -/
def laneFigureBytes (s : State) (am : Bool) (l : Lane) : List Byte :=
  le 2 (laneStatusFlags s am l) ++ [byte l.smoothed.cnr, byte l.smoothed.lq, byte l.smoothed.adj, byte l.smoothed.mpImp] ++
  levelBytes (laneInputs am) l.mask l.levels ++ leS 2 l.freqOffset ++
  [byte l.peak, byte (if am then 0 else l.pilotDev), if am then 0 else ratByte (l.gate * l.blendS * 255),
   (match l.corner with | some c => ratByte (c * 10) | none => 0), ratByte (l.mute * 2),
   byte (if am then l.am.bandwidth / 500 else l.filter)] ++
  le 2 (match l.ident.pi with | some x => x.toNat | none => 0) ++ [byte l.audioRms] ++ le 2 (min 65535 (l.silenceMs / 1000))

/-- The same items for a lane in the wings (R150): `flags`, the overload bit too, and the filter width count as figures and read 0
(DEDUCED, log entry 132). -/
def wingsFigures : List Byte := List.replicate 6 0 ++ levelBytes [] 0 [] ++ List.replicate 13 0

def laneParamByte (am : Bool) (l : Lane) : Byte :=
  if am then byte (l.am.detector + 4 * l.am.sideband + 16 * l.am.blanker + 32 * l.am.profile)
  else byte (l.fm.deemph + 4 * l.fm.stereo + 8 * l.fm.profile)

/-- Who assigned an instance: the host, or the device, whose AF lanes and watch sources count as its scan policy's (DESIGN CHOICE, log
entry 152). -/
def assignedBy (o : Owner) : Nat := if o = .host then 0 else 1

def laneStatusBytes (s : State) (id : Nat) (l : Lane) : List Byte :=
  if l.st = .free then List.replicate 37 0
  else
    [byte (instCode l.st), bflag (isAm id), byte (assignedBy l.owner), bflag l.pinned] ++ le 4 l.freq ++ [byte l.mask] ++
    (if l.st = .wings then wingsFigures else laneFigureBytes s (isAm id) l) ++ [laneParamByte (isAm id) l]

def bodyLaneStatus (c : Call) (s : State) : Res :=
  match laneAt s (p1 c.p 0) with
  | some l => okay (laneStatusBytes s (p1 c.p 0) l) s
  | none => fail stNotInVariant s

def cmdLaneStatus : Cmd := { opc := 0x1C, len := lenIn [1], ids := fun s p => laneExists s (p1 p 0), body := bodyLaneStatus }

/-- `LANE_STATUS` (R150). -/
def execLaneStatus (tag : Byte) (p : List Byte) (s : State) : Host.Outcome State Fault Refusal := hostRow cmdLaneStatus tag p s

/-! ### FM_PARAMS, AM_PARAMS (R132) -/

/-- A lane may take parameters: running or in the wings. -/
def takesParams (s : State) (id : Nat) : Bool := match laneAt s id with | some l => liveState l.st | none => false

def bodyFmParams (c : Call) (s : State) : Res :=
  let n := p1 c.p 0
  if n = 0xFF then
    if c.p.length = 1 then okay (fmBytes n s.lanes.fmDefault) s
    else okay (fmBytes n (parseFm c.p)) { s with lanes := { s.lanes with fmDefault := parseFm c.p } }
  else match laneAt s n with
    | none => fail stNotInVariant s
    | some l =>
      if !liveState l.st then fail stWrongState s
      else if c.p.length = 1 then okay (fmBytes n (l.fmNext.getD l.fm)) s
      else okay (fmBytes n (parseFm c.p)) (updLane n (fun l => { l with fmNext := some (parseFm c.p) }) s)

def cmdFmParams : Cmd :=
  { opc := 0x20, len := lenIn [1, 5], ids := fun s p => p1 p 0 == 0xFF || (!isAm (p1 p 0) && laneExists s (p1 p 0)), body := bodyFmParams }

/-- `FM_PARAMS` (R132, R133). -/
def execFmParams (tag : Byte) (p : List Byte) (s : State) : Host.Outcome State Fault Refusal := hostRow cmdFmParams tag p s

def bodyAmParams (c : Call) (s : State) : Res :=
  let n := p1 c.p 0
  if n = 0xFF then
    if c.p.length = 1 then okay (amBytes n s.lanes.amDefault) s
    else okay (amBytes n (parseAm c.p)) { s with lanes := { s.lanes with amDefault := parseAm c.p } }
  else match laneAt s n with
    | none => fail stNotInVariant s
    | some l =>
      if !liveState l.st then fail stWrongState s
      else if c.p.length = 1 then okay (amBytes n (l.amNext.getD l.am)) s
      else okay (amBytes n (parseAm c.p)) (updLane n (fun l => { l with amNext := some (parseAm c.p) }) s)

def cmdAmParams : Cmd :=
  { opc := 0x21, len := lenIn [1, 7], ids := fun s p => p1 p 0 == 0xFF || (isAm (p1 p 0) && laneExists s (p1 p 0)), body := bodyAmParams }

/-- `AM_PARAMS` (R132, R146). -/
def execAmParams (tag : Byte) (p : List Byte) (s : State) : Host.Outcome State Fault Refusal := hostRow cmdAmParams tag p s

/-! ### DIVERSITY_SET (R116, R401) -/

def diversityTarget (p : List Byte) : Nat := enumOf [0, 1] 0 (p1 p 0)

def diversityReply (t id mask cost : Nat) : List Byte := [byte t, byte id, byte mask] ++ le 2 cost

def diversityLane (id : Nat) (c : Call) (s : State) : Res :=
  match laneAt s id with
  | none => fail stNotInVariant s
  | some l =>
    if isAm id ∨ !liveState l.st then fail stWrongState s
    else if c.p.length = 2 then okay (diversityReply 0 id l.mask (laneCost false (antennas l.mask))) s
    else
      let m := highMask s s.clocks.plan 1 l.freq (p1 c.p 2)
      if m = 0 then fail stWrongState s
      else if m = l.mask then okay (diversityReply 0 id m (laneCost false (antennas m))) s
      else if !admits s (laneRaise s id m) then fail stNoResource s
      else okay (diversityReply 0 id m (laneCost false (antennas m))) (setLaneMask id m (forgetShed false id s))

def diversityEngine (e : Nat) (c : Call) (s : State) : Res :=
  match engineAt s e with
  | none => fail stNotInVariant s
  | some x =>
    if !liveState x.st then fail stWrongState s
    else if c.p.length = 2 then okay (diversityReply 1 e x.mask (engineCost (antennas x.mask))) s
    else
      let m := highMask s s.clocks.plan 6 x.freq (p1 c.p 2)
      if m = 0 then fail stWrongState s
      else if m = x.mask then okay (diversityReply 1 e m (engineCost (antennas m))) s
      else if !admits s (engineRaise s e m) then fail stNoResource s
      else okay (diversityReply 1 e m (engineCost (antennas m))) (setEngineMask e m (forgetShed true e s))

def bodyDiversitySet (c : Call) (s : State) : Res :=
  if diversityTarget c.p = 1 then diversityEngine (p1 c.p 1) c s else diversityLane (p1 c.p 1) c s

def engineExists (s : State) (e : Nat) : Bool := (engineAt s e).isSome

def cmdDiversitySet : Cmd :=
  { opc := 0x15, len := lenIn [2, 3],
    ids := fun s p => if diversityTarget p = 1 then engineExists s (p1 p 1) else laneExists s (p1 p 1), body := bodyDiversitySet }

/-- `DIVERSITY_SET` (R401). -/
def execDiversitySet (tag : Byte) (p : List Byte) (s : State) : Host.Outcome State Fault Refusal := hostRow cmdDiversitySet tag p s

/-! ### DAB_ENGINE_ASSIGN, DAB_ENGINE_RELEASE (R172, R173) -/

def engineReply (e : Nat) (a : Ask) (exact : Bool) (st : Nat) : List Byte :=
  engineAssignBytes e a.block a.freq a.mask a.pin a.start ++ [bflag exact, byte st]

/-- The shares that an assignment would add. -/
def sharesRaise (s : State) (x : Engine) : Nat := sharesOf s.dab.defaultExact - x.shares

/-- Admission to the fabric and to the soft-bit store (R173). -/
def engineAdmits (s : State) (e : Nat) (x : Engine) (mask : Nat) : Bool :=
  admits s (engineRaise s e mask) && decide (sharesRaise s x ≤ sharesFree s)

def assignFreeEngine (e : Nat) (a : Ask) (x : Engine) (s : State) : Res :=
  if !engineAdmits s e x a.mask then fail stNoResource s
  else
    let s1 := putEngine e .host a.block a.freq a.mask a.pin a.start s
    if a.start then okay (engineReply e a s.dab.defaultExact 1) s1
    else { status := stOk, payload := engineReply e a s.dab.defaultExact 2, state := s1, wait := some (.engine e) }

def reassignEngine (e : Nat) (a : Ask) (x : Engine) (tag : Byte) (s : State) : Res :=
  if !engineAdmits s e x a.mask then fail stNoResource s
  else { status := stPending, payload := engineReply e a s.dab.defaultExact 3, state := redirectEngine e (pendOf s a 0x28 tag) s }

def adjustEngine (e : Nat) (a : Ask) (x : Engine) (s : State) : Res :=
  if a.mask ≠ x.mask ∧ !admits s (engineRaise s e a.mask) then fail stNoResource s
  else
    let s1 := if a.mask = x.mask then s else setEngineMask e a.mask (forgetShed true e s)
    let s2 := updEngine e (fun x => { x with owner := .host, pinned := a.pin, block := a.block }) s1
    let exact := x.modeNext.getD x.exact
    if x.st = .running then okay (engineReply e a exact 2) s2
    else if a.start then okay (engineReply e a exact 1) s2
    else { status := stOk, payload := engineReply e a exact 2, state := orderEngine e s2, wait := some (.engine e) }

def assignEngine (e : Nat) (a : Ask) (tag : Byte) (s : State) : Res :=
  match engineAt s e with
  | none => fail stNotInVariant s
  | some x =>
    match x.st with
    | .free => assignFreeEngine e a x s
    | .draining => reassignEngine e a x tag s
    | .wings | .running =>
      if x.freq = a.freq then adjustEngine e a x s
      else if soleEngine s e then fail stWrongState s
      else reassignEngine e a x tag s

def askEngine (s : State) (p : List Byte) : Ask :=
  let b := blockField (p1 p 1)
  let f := engineFreq b (rd p 2 4)
  { freq := f, block := b, asked := p1 p 6 % 16, mask := engineMask s s.clocks.plan f (p1 p 6 % 16), pin := boolOf false (p1 p 7),
    start := boolOf false (p1 p 8) }

def bodyDabEngineAssign (c : Call) (s : State) : Res :=
  let a := askEngine s c.p
  if a.mask = 0 then fail stWrongState s
  else if p1 c.p 0 ≠ 0xFF then assignEngine (p1 c.p 0) a c.tag s
  else match freeEngineOf s with
    | some e => assignEngine e a c.tag s
    | none => match (spareEngine s).bind fun e => (engineAt s e).map fun x => (e, x) with
      | some (e, x) => reassignEngine e a x c.tag s
      | none => fail stNoResource s

def cmdDabEngineAssign : Cmd :=
  { opc := 0x28, len := lenIn [9], ids := fun s p => p1 p 0 == 0xFF || engineExists s (p1 p 0), body := bodyDabEngineAssign }

/-- `DAB_ENGINE_ASSIGN` (R172, R173). -/
def execDabEngineAssign (tag : Byte) (p : List Byte) (s : State) : Host.Outcome State Fault Refusal := hostRow cmdDabEngineAssign tag p s

def bodyDabEngineRelease (c : Call) (s : State) : Res :=
  let e := p1 c.p 0
  match engineAt s e with
  | none => fail stNotInVariant s
  | some x =>
    if liveState x.st && soleEngine s e then fail stWrongState s
    else
      let s1 := reselectAll (releaseEngine e s)
      okay [byte e, byte (engineStateOf s1 e)] s1

def cmdDabEngineRelease : Cmd :=
  { opc := 0x29, len := lenIn [1], ids := fun s p => engineExists s (p1 p 0), body := bodyDabEngineRelease }

/-- `DAB_ENGINE_RELEASE` (R26, R173, R174). -/
def execDabEngineRelease (tag : Byte) (p : List Byte) (s : State) : Host.Outcome State Fault Refusal := hostRow cmdDabEngineRelease tag p s

/-! ### SOFTBIT_MODE (R191) -/

def softbitReply (e : Nat) (exact : Bool) (shares total : Nat) : List Byte := [byte e, bflag exact, byte shares, byte total]

/-- A change to exact takes its share at once; one to compressed gives it back when the conversion ends. In the wings
nothing is stored and the change is made at once. -/
def setSoftbit (exact : Bool) (x : Engine) : Engine :=
  if x.st = .wings then { x with exact := exact, shares := sharesOf exact, modeNext := none }
  else if exact = x.exact then { x with modeNext := none, shares := if x.converting then x.shares else sharesOf exact }
  else { x with modeNext := some exact, shares := max x.shares (sharesOf exact) }

def bodySoftbitMode (c : Call) (s : State) : Res :=
  let e := p1 c.p 0
  let exact := boolOf false (p1 c.p 1)
  if e = 0xFF then
    if c.p.length = 1 then okay (softbitReply e s.dab.defaultExact (sharesHeld s) (sharesFree s)) s
    else okay (softbitReply e exact (sharesHeld s) (sharesFree s)) { s with dab := { s.dab with defaultExact := exact } }
  else match engineAt s e with
    | none => fail stNotInVariant s
    | some x =>
      if !liveState x.st then fail stWrongState s
      else if c.p.length = 1 then okay (softbitReply e (x.modeNext.getD x.exact) x.shares (sharesFree s)) s
      else if sharesFree s < sharesOf exact - x.shares then fail stNoResource s
      else
        let s1 := updEngine e (setSoftbit exact) s
        okay (softbitReply e exact (match engineAt s1 e with | some y => y.shares | none => 0) (sharesFree s1)) s1

def cmdSoftbitMode : Cmd :=
  { opc := 0x2B, len := lenIn [1, 2], ids := fun s p => p1 p 0 == 0xFF || engineExists s (p1 p 0), body := bodySoftbitMode }

/-- `SOFTBIT_MODE` (R191). -/
def execSoftbitMode (tag : Byte) (p : List Byte) (s : State) : Host.Outcome State Fault Refusal := hostRow cmdSoftbitMode tag p s

/-! ### PROCESSING_START, DRAINING_END -/

/-- Inputs, instances and antennas that wait begin. -/
def beginAll (s : State) : State := startAll (startInputs s)

/-- `PROCESSING_START` (R20, R282): admitted work begins once the measured capacity carries the demand. -/
def execProcessingStart (s : State) : Host.Outcome State Fault Refusal :=
  if mainReady s && capacityMet s then .next (beginAll s) else .next s

/-- `DRAINING_END` (R20, R21) of a lane or an engine. -/
def execDrainingEnd (engine : Bool) (id : Nat) (s : State) : Host.Outcome State Fault Refusal :=
  if engine then match engineAt s id with
    | none => .fault .absentUnit
    | some x => if x.st = .draining then .next (endEngineDrain id s) else .next s
  else match laneAt s id with
    | none => .fault .absentUnit
    | some l => if l.st = .draining then .next (endLaneDrain id s) else .next s

end Sys2Proof.Machine
end

