-- ==== Sys2Proof/Machine/ModelOps.lean ====
section
/-! DEFINITION. The service model of an engine: the use of each interpreted FIG (R202 to R205), the edges of DAB
announcements and alarms (R222, R229), and the removal of objects (R204). -/

namespace Sys2Proof.Machine

/-! ### Objects within their limits (Table 8-1, R203) -/

/-- Update the object that a test finds, or create one where the limit allows it; else one overflow. -/
def upsert {α : Type} (limit : Nat) (same : α → Bool) (fresh : α) (f : α → α) (l : List α) : List α × Nat :=
  match findPos l same with
  | some i => (upd l i f, 0)
  | none => if l.length < limit then (l ++ [f fresh], 0) else (l, 1)

/-- Entries that no limit of Table 8-1 bounds: what FIGs say of components before all of one is known. -/
def noteEntry {α : Type} (same : α → Bool) (x : α) (l : List α) : List α := x :: l.filter fun y => !same y

def updWhere {α : Type} (same : α → Bool) (f : α → α) (l : List α) : List α := l.map fun x => if same x then f x else x

def Subch.fresh (id : Nat) : Subch := { id := id, start := 0, size := 0, prot := 0, fec := 0, audio := 0, ber := [], rs := [], late := false, places := [], seen := 0 }

def Service.fresh (sid : Id32) : Service :=
  { sid := sid, label := none, labelMask := 0, charset := 0, pty := none, caid := 0, listed := [], seen := 0 }

def Component.fresh (sid : Id32) (scids : Nat) : Component :=
  { sid := sid, scids := scids, subch := 0, tmid := 0, ascty := 0, scid := 0, primary := false, scrambled := false, scrFlag := false, caid := 0,
    addr := 0, lang := 0, apps := [], label := none, labelMask := 0, charset := 0, seen := 0 }

def Linkage.fresh (lsn : Nat) (pd ils : Bool) : Linkage :=
  { lsn := lsn, pd := pd, ils := ils, hard := false, active := false, sids := [], pis := [], eids := [], seen := 0 }

/-- FIG 0/8 gives an entry its SCIdS by SubChId, or in the long form by SCId. -/
def namesEntry (sid : Id32) (scid subch : Nat) (y : Id32 × Nat × Bool × Nat) : Bool :=
  y.1 == sid && y.2.2.2 == (if y.2.2.1 then scid else subch)

/-- The component that an entry of FIG 0/2 names, once its SCIdS and, in packet mode, its subchannel are known. -/
def listedComp (m : Model) (v : Service) (x : FigComp) : Option Component :=
  let pk := m.packets.find? (·.scid == x.scid)
  let place : Option (Nat × Nat × Nat) :=
    if x.tmid = 3 then pk.map fun p => (p.subch, p.addr, p.dscty) else some (x.subch, 0, x.ascty)
  place.bind fun q =>
    let scids := if x.primary then some 0 else (m.secondaries.find? (namesEntry v.sid x.scid q.1)).map (·.2.1)
    scids.map fun n =>
      { Component.fresh v.sid n with
        subch := q.1, addr := q.2.1, ascty := q.2.2, tmid := x.tmid, scid := if x.tmid = 3 then x.scid else 0,
        primary := x.primary, scrambled := x.scrambled || v.caid != 0, scrFlag := x.scrambled, caid := v.caid, seen := v.seen }

/-- Put a component into the model: what later FIGs gave stays. -/
def putComp (c : Component) (m : Model) : Model × Nat :=
  let r := upsert 96 (fun x => x.sid == c.sid && x.scids == c.scids) c (fun x =>
    { c with lang := x.lang, apps := x.apps, label := x.label, labelMask := x.labelMask, charset := x.charset }) m.comps
  ({ m with comps := r.1 }, r.2)

/-- The components of one service, with one overflow at most for one use (R203). -/
def syncService (m : Model) (v : Service) : Model × Nat :=
  v.listed.foldl (fun acc x =>
    match listedComp acc.1 v x with
    | some c => let r := putComp c acc.1; (r.1, max acc.2 r.2)
    | none => acc) (m, 0)

/-- The components of the services that satisfy a test. -/
def syncWhere (t : Service → Bool) (m : Model) : Model × Nat :=
  (m.services.filter t).foldl (fun acc v => let r := syncService acc.1 v; (r.1, max acc.2 r.2)) (m, 0)

/-- A linkage set takes the identifiers of the kinds that the FIG carries, twelve in all. -/
def linkIds (sids : List Id32) (pis eids : List Id16) (x : Linkage) : Linkage :=
  let a := (if sids.isEmpty then x.sids else sids).take 12
  let b := (if pis.isEmpty then x.pis else pis).take (12 - a.length)
  { x with sids := a, pis := b, eids := (if eids.isEmpty then x.eids else eids).take (12 - a.length - b.length) }

/-- One use of a FIG (R203): the model after it, and whether a limit was met. FIG 0/19 has its effect on the clusters. -/
def useFig (seen : Nat) (f : Fig) (m : Model) : Model × Nat :=
  match f with
  | .ensemble eid cif change occ => ({ m with eid := some (m.eid.getD eid), cif := cif % 5000, change := change, occurrence := occ }, 0)
  | .subchannel next id start size prot =>
    let set (x : Subch) : Subch := { x with start := start, size := size, prot := prot, late := false, seen := seen }
    if next then
      let r := upsert 64 (fun x : Subch => x.id == id) (Subch.fresh id) set m.nextSubchs
      ({ m with nextSubchs := r.1 }, r.2)
    else
      let r := upsert 64 (fun x : Subch => x.id == id) (Subch.fresh id) set m.subchs
      ({ m with subchs := r.1 }, r.2)
  | .service next sid caid comps =>
    if next then
      let r := upsert 64 (fun x : Id32 × Nat × List FigComp => x.1 == sid) (sid, caid, comps) (fun _ => (sid, caid, comps)) m.nextServices
      ({ m with nextServices := r.1 }, r.2)
    else
      let r := upsert 64 (fun x : Service => x.sid == sid) (Service.fresh sid)
        (fun x => { x with caid := caid, listed := comps, seen := seen }) m.services
      let q := syncWhere (fun v => v.sid == sid) { m with services := r.1 }
      (q.1, max r.2 q.2)
  | .packetComp scid subch addr dscty =>
    let p : PacketComp := { scid := scid, subch := subch, addr := addr, dscty := dscty }
    syncWhere (fun v => v.listed.any fun x => x.tmid == 3 && x.scid == scid)
      { m with packets := noteEntry (fun x => x.scid == scid) p m.packets }
  | .scids sid scids long value =>
    syncWhere (fun v => v.sid == sid)
      { m with secondaries := noteEntry (fun x => x.1 == sid && x.2.1 == scids) (sid, scids, long, value) m.secondaries }
  | .language sid scids lang =>
    ({ m with comps := updWhere (fun c => c.sid == sid && c.scids == scids) (fun c => { c with lang := lang }) m.comps }, 0)
  | .userApps sid scids types =>
    ({ m with comps := updWhere (fun c => c.sid == sid && c.scids == scids) (fun c => { c with apps := types.take 6 }) m.comps }, 0)
  | .componentLabel sid scids label mask cs =>
    let l := updWhere (fun c => c.sid == sid && c.scids == scids)
      (fun c => { c with label := some (label.take 16), labelMask := mask, charset := cs }) m.comps
    ({ m with comps := l }, 0)
  | .serviceLabel sid label mask cs =>
    let l := updWhere (fun v => v.sid == sid)
      (fun v => { v with label := some (label.take 16), labelMask := mask, charset := cs }) m.services
    ({ m with services := l }, 0)
  | .pty sid pty => ({ m with services := updWhere (fun v => v.sid == sid) (fun v => { v with pty := some (pty % 32) }) m.services }, 0)
  | .packetFec subch fec => ({ m with subchs := updWhere (fun x => x.id == subch) (fun x => { x with fec := fec }) m.subchs }, 0)
  | .linkage lsn pd ils hard active sids pis eids =>
    let r := upsert 32 (fun x : Linkage => x.lsn == lsn && x.pd == pd && x.ils == ils) (Linkage.fresh lsn pd ils)
      (fun x => linkIds sids pis eids { x with hard := hard, active := active, seen := seen }) m.linkage
    ({ m with linkage := r.1 }, r.2)
  | .annSupport sid asu clusters =>
    let a : AnnSupport := { sid := sid, asu := asu, clusters := clusters.take 8, seen := seen }
    let r := upsert 64 (fun x : AnnSupport => x.sid == sid) a (fun _ => a) m.annSup
    ({ m with annSup := r.1 }, r.2)
  | .ecc ecc lto => ({ m with ecc := ecc, lto := lto }, 0)
  | .dateTime mjd ms => ({ m with mjd := mjd, ms := ms }, 0)
  | .ensembleLabel label mask cs => ({ m with label := some (label.take 16), labelMask := mask, charset := cs }, 0)
  | .annSwitch _ _ _ _ _ => (m, 0)
  | .other => (m, 0)

/-! ### Kinds (Tables 7-8, 8-3) -/

/-- 1 DAB+ audio, 2 Layer II audio, 3 packet data, 4 stream data. -/
def compKind (c : Component) : Nat :=
  if c.tmid = 0 then (if c.ascty = 63 then 1 else 2) else if c.tmid = 3 then 3 else 4

/-- The bit rates of the UEP table of EN 300 401 by index. -/
def uepKbps (i : Nat) : Nat :=
  if i < 5 then 32 else if i < 10 then 48 else if i < 14 then 56 else if i < 19 then 64 else if i < 24 then 80
  else if i < 29 then 96 else if i < 33 then 112 else if i < 38 then 128 else if i < 43 then 160 else if i < 48 then 192
  else if i < 53 then 224 else if i < 58 then 256 else if i < 61 then 320 else 384

/-- Capacity units for 8 kbit/s (profile A) or 32 kbit/s (profile B) at a protection level of EN 300 401. -/
def eepUnits (profileB : Bool) (level : Nat) : Nat :=
  if profileB then [27, 21, 18, 15].getD (level - 1) 15 else [12, 8, 6, 4].getD (level - 1) 4

def bitrateKbps (c : Subch) : Nat :=
  if bitOf c.prot 7 then
    if bitOf c.prot 6 then c.size * 32 / eepUnits true (c.prot % 8) else c.size * 8 / eepUnits false (c.prot % 8)
  else uepKbps (c.prot % 64)

def subchKind (m : Model) (id : Nat) : Nat := match m.comps.find? (·.subch == id) with | some c => compKind c | none => 0

def subchScrambled (m : Model) (id : Nat) : Bool := m.comps.any fun c => c.subch == id && c.scrambled

/-! ### Events of the model (Table 8-2) -/

def compKey (c : Component) : Id32 × Nat := (c.sid, c.scids)

def eidOf (x : Engine) : Id16 := x.model.eid.getD (x.eid.getD 0)

/-- Raise what the change from one model of an engine to the next asks for, and count the generation (R207, R209). -/
def modelEvents (e : Nat) (before after : Model) (s : State) : State :=
  let eid := after.eid.getD (before.eid.getD 0)
  let added := after.comps.filter fun c => !(before.comps.any fun x => compKey x == compKey c)
  let removed := before.comps.filter fun c => !(after.comps.any fun x => compKey x == compKey c)
  let scr := after.comps.filter fun c => before.comps.any fun x =>
    compKey x == compKey c && ((c.scrFlag && !x.scrFlag) || (c.caid != 0 && x.caid == 0))
  let s1 := forEach added (fun c => evService e 4 eid c.sid c.scids 0) s
  let s2 := forEach removed (fun c => evService e 5 eid c.sid c.scids 0) s1
  let s3 := forEach scr (fun c => evService e 7 eid c.sid c.scids 0) s2
  if added.isEmpty && removed.isEmpty then s3 else bumpServices s3

/-- Put a changed model into an engine with its events. -/
def setModel (e : Nat) (m : Model) (s : State) : State :=
  match engineAt s e with
  | some x => modelEvents e x.model m (updEngine e (fun x => { x with model := m }) s)
  | none => s

/-! ### Announcement switching (R222, R229) -/

/-- Types of announcement: the bits of ASw. -/
def annTypes : List Nat := List.range 16

def Cluster.fresh (id : Nat) : Cluster :=
  { id := id, asw := 0, subch := 0, new := false, region := 0, active := 0, clearOnce := 0, usedAt := 0 }

/-- One use of FIG 0/19 for a cluster: the cluster after it, the types that start and the types that end. -/
def clusterUse (c : Cluster) (asw subch : Nat) (new : Bool) (region now : Nat) : Cluster × List Nat × List Nat :=
  let starts := annTypes.filter fun t => bitOf asw t && !bitOf c.active t
  let ends := annTypes.filter fun t => !bitOf asw t && bitOf c.active t && bitOf c.clearOnce t
  let active := maskOf (annTypes.filter fun t => (bitOf c.active t || starts.contains t) && !ends.contains t)
  let once := maskOf (annTypes.filter fun t => bitOf active t && !bitOf asw t)
  ({ c with asw := asw, subch := subch, new := new, region := region, active := active, clearOnce := once, usedAt := now }, starts, ends)

/-- Conditions of a cluster that stand carry its latest flags. -/
def refreshAnn (e : Nat) (eid : Id16) (c : Cluster) (s : State) : State :=
  let l := s.alerts.active.map fun a => if onEngine e a && a.cluster == c.id then dabAnn e eid c a.ty else a
  { s with alerts := { s.alerts with active := l } }

def putCluster (e : Nat) (c : Cluster) : State → State :=
  updEngine e fun x =>
    let old := x.model.clusters
    let l := if old.any (·.id == c.id) then updWhere (·.id == c.id) (fun _ => c) old else old ++ [c]
    { x with model := { x.model with clusters := l } }

/-- FIG 0/19 is used (R222). -/
def useSwitch (e cluster asw subch : Nat) (new : Bool) (region : Nat) (s : State) : State :=
  match engineAt s e with
  | none => s
  | some x =>
    let old := x.model.clusters.find? (·.id == cluster)
    if old.isNone && decide (16 ≤ x.model.clusters.length) then count 26 1 e s
    else
      let (c, starts, ends) := clusterUse (old.getD (Cluster.fresh cluster)) asw subch new region s.now
      let s1 := refreshAnn e (eidOf x) c (putCluster e c s)
      let s2 := forEach starts (fun t => startAnn (dabAnn e (eidOf x) c t)) s1
      forEach ends (fun t => endAnn (dabAnn e (eidOf x) c t)) s2

/-- A cluster is no longer signalled: its announcements end (R222). -/
def dropCluster (e cluster : Nat) (s : State) : State :=
  updEngine e (fun x => { x with model := { x.model with clusters := x.model.clusters.filter (·.id != cluster) } })
    (endAnnWhere (fun a => onEngine e a && a.cluster == cluster) s)

/-- The engine leaves the locked and hold states: every announcement of its ensemble ends (R222). -/
def dropClusters (e : Nat) (s : State) : State :=
  updEngine e (fun x => { x with model := { x.model with clusters := [] } }) (endAnnWhere (onEngine e) s)

/-- One FIG of a passing FIB is used (R203). -/
def applyFig (e : Nat) (f : Fig) (s : State) : State :=
  match f with
  | .annSwitch cluster asw subch new region => useSwitch e cluster asw subch new region s
  | _ =>
    match engineAt s e with
    | none => s
    | some x =>
      let r := useFig x.lockedFrames f x.model
      setModel e r.1 (count 26 r.2 e s)

/-! ### Removal (R204, R205) -/

/-- Frames of 96 ms in 10 s of locked reception. -/
def objectFrames : Nat := 105

def stale (x : Engine) (seen : Nat) : Bool := decide (seen + objectFrames ≤ x.lockedFrames)

/-- The model without the objects that nothing has defined for 10 s (R204). -/
def prune (x : Engine) : Model :=
  let m := x.model
  let kept := m.services.filter fun v => !stale x v.seen
  { m with services := kept, comps := m.comps.filter (fun c => !stale x c.seen),
           packets := m.packets.filter (fun q => kept.any fun v => v.listed.any fun y => y.tmid == 3 && y.scid == q.scid),
           secondaries := m.secondaries.filter (fun q => kept.any (·.sid == q.1)),
           subchs := m.subchs.filter (fun c => !stale x c.seen), linkage := m.linkage.filter (fun c => !stale x c.seen),
           annSup := m.annSup.filter fun c => !stale x c.seen }

/-- Flows of subchannels that are gone close (Table 12-10). -/
def closeGone (e : Nat) (before after : Model) (s : State) : State :=
  forEach ((before.subchs.filter fun x => !(after.subchs.any (·.id == x.id))).map (·.id)) (fun id => closeSubchFlows e id 4) s

/-- Subchannel of an entry of FIG 0/2, where it is known. -/
def entrySubch (m : Model) (x : FigComp) : Option Nat :=
  if x.tmid = 3 then (m.packets.find? (·.scid == x.scid)).map (·.subch) else some x.subch

/-- A component is one that an entry of FIG 0/2 lists. -/
def listsComp (m : Model) (c : Component) (x : FigComp) : Bool :=
  if x.tmid = 3 then c.tmid == 3 && c.scid == x.scid else c.tmid != 3 && entrySubch m x == some c.subch

/-- Places of the last 16 CIFs of a subchannel, those of its present organisation filled in. -/
def heldPlaces (c : Subch) : List (Option (Nat × Nat)) := fitList 16 (some (c.start, c.size)) c.places

/-- Subchannels after a reconfiguration (R205): those whose next organisation was received, and those that the next FIG 0/2 names
without it, which wait; all others are removed (DEDUCED, log entry 140). -/
def nextOrganisation (seen : Nat) (m : Model) : List Subch :=
  let got := m.nextSubchs.map fun n =>
    match m.subchs.find? (·.id == n.id) with
    | some o => { o with start := n.start, size := n.size, prot := n.prot, late := false, places := heldPlaces o, seen := seen }
    | none => { n with places := List.replicate 16 none, seen := seen }
  let named := (m.nextServices.flatMap fun v => v.2.2.filterMap (entrySubch m)).dedup
  got ++ ((named.filter fun id => !(got.any (·.id == id))).map fun id =>
    { (m.subchs.find? (·.id == id)).getD (Subch.fresh id) with late := true, places := List.replicate 16 none, seen := seen })

/-- A component stays: its subchannel does, and the next FIG 0/2 of its service, where received, lists it. -/
def staysListed (m : Model) (subs : List Subch) (c : Component) : Bool :=
  subs.any (·.id == c.subch) &&
  match m.nextServices.find? (·.1 == c.sid) with
  | some n => n.2.2.any (listsComp m c)
  | none => true

/-- Next configurations of subchannels and services take the place of the present ones (R205). -/
def reconfigured (seen : Nat) (m : Model) : Model :=
  let subs := (nextOrganisation seen m).take 64
  let next := m.nextServices
  let serv := m.services.map fun v =>
    match next.find? (·.1 == v.sid) with
    | some n => { v with caid := n.2.1, listed := n.2.2, seen := seen }
    | none => v
  let more := (next.filter fun n => !(m.services.any (·.sid == n.1))).map fun n =>
    { Service.fresh n.1 with caid := n.2.1, listed := n.2.2, seen := seen }
  let m1 := { m with subchs := subs, services := (serv ++ more).take 64, nextSubchs := [], nextServices := [], change := 0,
                     comps := m.comps.filter (staysListed m subs) }
  (syncWhere (fun v => next.any (·.1 == v.sid)) m1).1

end Sys2Proof.Machine
end

