-- ==== Sys2Proof/Machine/DabStatus.lean ====
section
/-! DEFINITION. `DAB_ENGINE_STATUS` and the figures of engines and subchannels (R195 to R199). -/

namespace Sys2Proof.Machine

/-- Table 7-4 codes. -/
def acqCode : Acq → Nat
  | .idle => 0
  | .nullSearch => 1
  | .prsSync => 2
  | .candidate => 3
  | .locked => 4
  | .hold => 5

/-- The items from `flags` to `lock_s` (R197, R199); those of a draining engine are the last measured (R150). -/
def engineFigureBytes (s : State) (x : Engine) : List Byte :=
  let f := x.lastFigs.getD (figuresNow s x)
  le 2 f.flags ++ le 2 (match x.eid with | some i => i.toNat | none => 0) ++ le 2 x.model.cif ++
  [byte (merByte x.merS), byte f.eq, byte (ficErr x)] ++ levelBytes [0, 1, 2, 3] x.mask x.levels ++
  leS 2 x.freqOffset ++ leS 2 f.clock ++ leS 1 f.searcher ++ [byte x.model.subchs.length] ++ le 2 f.lockS

/-- The same items in the wings (R150, R197). -/
def wingsEngineFigures : List Byte := List.replicate 9 0 ++ levelBytes [] 0 [] ++ List.replicate 8 0

def engineStatusBytes (s : State) (x : Engine) : List Byte :=
  if x.st = .free then List.replicate 37 0
  else
    [byte (instCode x.st), byte (acqCode x.acq), byte (assignedBy x.owner), bflag x.pinned, byte x.block] ++ le 4 x.freq ++
    [byte x.mask, bflag x.exact, byte x.shares] ++
    (if x.st = .wings then wingsEngineFigures else engineFigureBytes s x)

/-! ### Subchannels (Table 7-8) -/

def sat16 (n : Nat) : Nat := min 65535 n

/-- Channel bit errors per 65 536 bits over the last 84 CIFs. -/
def berOf (c : Subch) : Nat :=
  let bits := sumNat (c.ber.map (·.2))
  if bits = 0 then 0 else sat16 (sumNat (c.ber.map (·.1)) * 65536 / bits)

/-- A bound decoder decodes a component of this subchannel. -/
def subchDecoded (s : State) (e : Nat) (m : Model) (id : Nat) : Bool :=
  s.decoders.any fun d => d.engine == some e && (match d.key with
    | some k => m.comps.any fun c => isComp k c && c.subch == id
    | none => false)

def subchFlow (s : State) (e id : Nat) : Bool :=
  s.flows.flows.any fun f => f.st == .opened && f.source == engineSource e id && kindSubch f.kind

def subchBytes (s : State) (e : Nat) (m : Model) (id : Nat) : List Byte :=
  match m.subchs.find? (·.id == id) with
  | none => List.replicate 16 0
  | some c =>
    [byte id] ++ le 2 c.start ++ le 2 c.size ++
    [byte c.prot, byte (subchKind m id), byte (flag (subchScrambled m id) + 2 * flag (subchDecoded s e m id) + 4 * flag (subchFlow s e id))] ++
    le 2 (berOf c) ++ le 2 (sat16 (sumNat (c.rs.map (·.1)))) ++ le 2 (sat16 (sumNat (c.rs.map (·.2.1)))) ++
    le 2 (sat16 (sumNat (c.rs.map (·.2.2))))

/-! ### DAB_ENGINE_STATUS -/

def bodyDabEngineStatus (c : Call) (s : State) : Res :=
  let e := p1 c.p 0
  match engineAt s e with
  | none => fail stNotInVariant s
  | some x =>
    let n := p1 c.p 1
    if n = 0xFF then okay (engineStatusBytes s x) s else okay (subchBytes s e x.model n) s

/-- A `subch` from 64 to 0xFE names no subchannel (R382). -/
def cmdDabEngineStatus : Cmd :=
  { opc := 0x2A, len := lenIn [2], ids := fun s p => engineExists s (p1 p 0) && (decide (p1 p 1 < 64) || p1 p 1 == 255), body := bodyDabEngineStatus }

/-- `DAB_ENGINE_STATUS` (R197, R198). -/
def execDabEngineStatus (tag : Byte) (p : List Byte) (s : State) : Host.Outcome State Fault Refusal := hostRow cmdDabEngineStatus tag p s

/-! ### Statistics flows (R199) -/

/-- Statistics of an engine after a frame, and of its subchannels after every 105th. -/
def frameStats (e : Nat) (s : State) : State :=
  match engineAt s e with
  | none => s
  | some x =>
    let s1 := produce 0x11 (engineRef e) 0xFFFF false none (engineFigureBytes s x) s
    if x.statsFrames + 1 < 105 then updEngine e (fun x => { x with statsFrames := x.statsFrames + 1 }) s1
    else
      let s2 := forEach (List.range 64) (fun id s =>
        if flowOpenOn s 0x12 (engineSource e id) && x.model.subchs.any (·.id == id) then produce 0x12 (engineSource e id) 0xFFFF false none (subchBytes s e x.model id) s else s) s1
      updEngine e (fun x => { x with statsFrames := 0 }) s2

end Sys2Proof.Machine
end

