-- ==== Sys2Proof/Machine/DabFrame.lean ====
section
/-! DEFINITION. A transmission frame reaches an engine: acquisition, the searcher, the FIC, replacement and path handover
(R176 to R184, R195, R196, R200, R203, R206, R222), and the binding of program decoders (R208, R213, R214, R218). -/

namespace Sys2Proof.Machine

/-! ### Binding (R213, R214, R218) -/

/-- A component of a decoder's key as its engine lists it while it is locked or holding. -/
def listedBound (s : State) (d : Decoder) : Option Component :=
  match d.key, d.engine with
  | some k, some e => match engineAt s e with
    | some x => if x.st == .running && lockedOrHold x && x.model.eid == some k.eid then x.model.comps.find? (isComp k) else none
    | none => none
  | _, _ => none

/-- A decoder stays bound while its engine is locked or holding and lists its component unscrambled; a scrambled one fades (R218). -/
def keepBound (s : State) (d : Decoder) : Decoder :=
  match listedBound s d with
  | some c => if decodable c then d else fadeAway d
  | none => unbind d

/-- The engine that a decoder would be bound to now: its key resolves to a component that may be decoded. -/
def bindTarget (s : State) (d : Decoder) : Option Nat :=
  d.key.bind fun k => (resolve s k).bind fun e =>
    match compOf s e k with
    | some c => if decodable c then some e else none
    | none => none

/-- A rebinding to another engine starts a realignment of the program whose DAB anchor it carries (R249). -/
def anchorMoved (key : Source) (s : State) : State :=
  forEach (List.range s.progs.length) (fun n s =>
    match progAt s n with
    | some p =>
      if p.running && (match p.anchorD.bind (memberAt p) with | some m => m.src == key | none => false) then realign n s else s
    | none => s) s

/-- Bind one decoder, with its 5 EU admitted (R213): it decodes once the capacity carries the demand with them (R282). -/
def bindDecoder (i e : Nat) (d : Decoder) (s0 : State) : State :=
  let s := updDecoder i (fun d => { d with charged := true }) s0
  if !d.charged && !admits s0 decoderCost then s0
  else if !capacityMet s then s
  else
    let s1 := updDecoder i (fun d => { d with engine := some e, last := some e, charged := true, valid := false, coded := [], place := 0, audio := [], spans := [], ratio := none }) s
    match d.last, d.key with
    | some old, some k => if old = e then s1 else anchorMoved k s1
    | _, _ => s1

/-- The binding pass of a CIF boundary, and of a frame boundary for decoders that have been bound before (R208, R214). -/
def bindPass (frame : Bool) (s : State) : State :=
  let s0 := forEach (List.range s.progs.length) fitOwn s
  forEach (List.range s0.decoders.length) (fun i s =>
    match s.decoders[i]? with
    | none => s
    | some d =>
      if d.engine.isSome then updDecoder i (keepBound s) s
      else if d.use == .none || d.last.isSome != frame then s
      else match bindTarget s d with
        | some e => bindDecoder i e d s
        | none => s) s0

/-! ### The searcher (R179) -/

def near (a b : Int) : Bool := decide ((a - b).natAbs ≤ 8)

/-- A peak of this frame continues one of the frames before: it is ignored for 21 frames once it has given no passing FIB by the
seventh qualifying frame. -/
def stepPeak (f : FrameIn) (old : List Peak) (o : PeakIn) : Peak :=
  let qual := peakAbove 60 f o
  let rel := peakRel f o
  match old.find? (fun p => near p.timing o.timing) with
  | none => { timing := o.timing, shift := o.shift, relDb := rel, frames := 1, strong := flag qual, fib := false, eid := none, ignore := 0 }
  | some p =>
    if 0 < p.ignore then
      { timing := o.timing, shift := o.shift, relDb := rel, frames := p.frames + 1, strong := 0, fib := false, eid := none, ignore := p.ignore - 1 }
    else
      let strong := if qual then p.strong + 1 else 0
      let fib := decide (2 ≤ strong) && (o.fib || p.fib)
      let eid := if 2 ≤ strong then o.eid.or p.eid else none
      let out : Bool := decide (7 ≤ strong) && !fib
      { timing := o.timing, shift := o.shift, relDb := rel, frames := p.frames + 1, strong := if out then 0 else strong, fib := fib, eid := eid,
        ignore := if out then 21 else 0 }

def stepPeaks (f : FrameIn) (old : List Peak) : List Peak :=
  let far := f.peaks.filter fun o => searcherPeak o.timing
  let gone := old.filter fun p => decide (1 < p.ignore) && !(far.any fun o => near p.timing o.timing)
  far.map (stepPeak f old) ++ gone.map fun p => { p with ignore := p.ignore - 1, frames := 0 }

/-- The strongest of the peaks that satisfy a test. -/
def strongest (t : Peak → Bool) : List Peak → Option Peak
  | [] => none
  | p :: ps => match strongest t ps with
    | none => if t p then some p else none
    | some q => if t p && decide (q.relDb ≤ p.relDb) then some p else some q

/-! ### Frames -/

def goodFibs (o : FrameIn) : List Fib := o.fibs.filter (·.ok)

/-- A frame fails (R177). -/
def frameFails (o : FrameIn) : Bool := !rhoAtLeast (15 / 100) o.base o.ref || (goodFibs o).isEmpty

def figEid : Fig → Option Id16
  | .ensemble eid _ _ _ => some eid
  | _ => none

/-- The EId that FIG 0/0 of a passing FIB gives. -/
def frameEid (o : FrameIn) : Option Id16 := ((goodFibs o).flatMap (·.figs)).findSome? figEid

/-- The model of an engine is discarded, with its announcements (R181, R222). -/
def discardModel (e : Nat) (s : State) : State :=
  let s1 := dropClusters e s
  let had : Bool := match engineAt s e with | some x => !x.model.comps.isEmpty | none => false
  let s2 := updEngine e (fun x => { x with model := Model.empty }) s1
  if had then bumpServices s2 else s2

/-- Programs whose DAB anchor is a component of the ensemble realign (R249). -/
def realignEid (eid : Id16) (s : State) : State :=
  forEach (List.range s.progs.length) (fun n s =>
    match progAt s n with
    | some p => if p.running && (match p.anchorD.bind (memberAt p) with | some m => m.src.eid == eid | none => false) then realign n s else s
    | none => s) s

/-- Steps 2 to 4 of R181. -/
def replaceEnsemble (e : Nat) (old new : Id16) (s : State) : State :=
  let s1 := realignEid old (stopDecoders e (closeEngineFlows e 3 s))
  let s2 := evLane (engineRef e) 8 0 old.toNat new.toNat 0 (evService e 3 old 0 0 (toSigned 2 new.toNat) s1)
  logIdentity true e new (updEngine e (fun x => { x with
    store := [], cifsStored := 0, lastCif := none, ficHist := [], merFirst := true, eid := some new, lastEid := some new, peaks := [],
    otherEid := none, otherCount := 0, failed := 0, model := { Model.empty with eid := some new } }) (discardModel e s2))

/-- An entry to the locked state from the candidate state whose EId is known (R183, R184). -/
def noteLock (e : Nat) (eid : Id16) (s : State) : State :=
  match engineAt s e with
  | none => s
  | some x =>
    let s1 := evLane (engineRef e) 7 (flag (x.lastEid == some eid)) eid.toNat 0 0 s
    match x.model.eid with
    | some old =>
      if old = eid then
        logIdentity true e eid (updEngine e (fun x => { x with eid := some eid, lastEid := some eid })
          (evLane (engineRef e) 11 0 eid.toNat 0 0 s1))
      else replaceEnsemble e old eid s1
    | none => logIdentity true e eid (updEngine e (fun x => { x with eid := some eid, lastEid := some eid, model := { x.model with eid := some eid } }) s1)

/-- The receiver starts afresh on a frame: antennas of the set with the taps and noise powers of its symbols. -/
def freshReceiver (x : Engine) : Engine := { x with antennas := [], sent := [], prevSym := [], merNum := 0, merDen := 0, cut := 0 }

/-- The candidate becomes the tracked frame. -/
def enterLocked (e : Nat) (o : FrameIn) (s : State) : State :=
  let s1 := updEngine e (fun x => { freshReceiver x with
    acq := .locked, acqFrames := 0, failed := 0, lockAt := s.now, merFirst := true, clockSince := none, store := [], cifsStored := 0, lastCif := none,
    ficHist := [], peaks := [], otherEid := none, otherCount := 0, eid := none }) s
  match frameEid o with
  | some eid => noteLock e eid s1
  | none => s1

def enterAcq (e : Nat) (a : Acq) (frames : Nat) : State → State :=
  updEngine e fun x => { x with acq := a, acqFrames := frames }

/-- The null search begins at the assigned frequency. -/
def nullSearch (e : Nat) (s : State) : State :=
  updEngine e (fun x => { x with acq := .nullSearch, acqFrames := 0, freqOffset := 0 }) s

/-- The frequency offset moves with the tracking context, by whole sub-carriers (R178, R181). -/
def pullBy (shift : Int) (e : Nat) : State → State := updEngine e fun x => { x with freqOffset := x.freqOffset + 1000 * shift }

/-- A candidate's window, which counts its own frame as the first (R176, R180). -/
def candidateFrame (e : Nat) (o : FrameIn) (x : Engine) (s : State) : State :=
  if !(goodFibs o).isEmpty then enterLocked e o s
  else match o.peaks.find? fun p => searcherPeak p.timing && peakAbove 30 o p with
  | some p => pullBy p.shift e (enterAcq e .candidate 1 s)
  | none =>
  if 3 ≤ x.acqFrames + 1 then nullSearch e s
  else updEngine e (fun x => { x with acqFrames := x.acqFrames + 1 }) s

/-- A candidate begins in this frame at an offset; a FIB of the frame may lock it at once. -/
def beginCandidate (e : Nat) (o : FrameIn) (offset : Int) (s : State) : State :=
  let s1 := updEngine e (fun x => { x with acq := .candidate, acqFrames := 0, freqOffset := offset }) s
  match engineAt s1 e with
  | some x => candidateFrame e o x s1
  | none => s1

/-- An offset within the capture range of 32 kHz (R178). -/
def captured (offset : Int) : Bool := decide (offset.natAbs ≤ 32000)

/-- Offset of a searcher peak that makes a candidate at once (R180). -/
def peakSeen (o : FrameIn) (x : Engine) : Option Int :=
  ((o.peaks.filter fun p => rhoAtLeast (30 / 100) p.base o.ref).map fun p => x.freqOffset + 1000 * p.shift + o.fine).find? captured

/-- The ensemble is lost after 21 frames in hold (R183, R206, R214, R222). -/
def loseEnsemble (e : Nat) (s : State) : State :=
  match engineAt s e with
  | none => s
  | some x =>
    let s1 := evLane (engineRef e) 10 0 (eidOf x).toNat 0 0 (stopDecoders e (dropClusters e s))
    updEngine e (fun x => { x with
      acq := .nullSearch, acqFrames := 0, freqOffset := 0, eid := none, startedAt := s.now, peaks := [], otherEid := none, otherCount := 0, failed := 0,
      model := { x.model with current := false } }) s1

/-- MSC symbols of the next frame that begin before the engine follows an earlier path: the null symbol, the PRS and three FIC
symbols, 12 864 samples, go before them, and a symbol has 2552. -/
def symbolsCut (timing : Int) : Nat := if 0 ≤ timing then 0 else min 72 ((timing.natAbs - 12864 + 2551) / 2552)

/-- The tracking context moves to a path of the same ensemble (R182): soft values of a CIF that is not received whole across the
move are erased. -/
def pathMoved (e : Nat) (p : Peak) (s : State) : State :=
  evLane (engineRef e) 9 0 0 0 p.timing (pullBy p.shift e (updEngine e (fun x => { x with peaks := [], cut := symbolsCut p.timing }) s))

def regain (e : Nat) (s : State) : State :=
  updEngine e (fun x => { x with acq := .locked, acqFrames := 0, failed := 0, lockAt := s.now, clockSince := none }) s

/-- Hold (R183): a passing frame with the tracked EId, here or at a searcher peak, returns to lock. -/
def holdFrame (e : Nat) (o : FrameIn) (x : Engine) (s : State) : State :=
  let n := x.acqFrames + 1
  let s1 := updEngine e (fun x => { x with acqFrames := n }) s
  if o.anyGap then s1
  else if !frameFails o && x.eid.isSome && frameEid o == x.eid then regain e s1
  else match o.peaks.find? fun p => searcherPeak p.timing && rhoAtLeast (15 / 100) p.base o.ref && p.eid.isSome && p.eid == x.eid with
    | some p => pathMoved e { timing := p.timing, shift := p.shift, relDb := 0, frames := 0, strong := 0, fib := true, eid := p.eid, ignore := 0 } (regain e s1)
    | none => if 21 ≤ n then loseEnsemble e s1 else s1

/-- An ensemble that changes at the engine's own timing (R181): frames in a row whose FIG 0/0 gives another EId. -/
def ownTiming (o : FrameIn) (x : Engine) : Option Id16 × Nat :=
  match frameEid o, x.eid with
  | some k, some t => if k = t then (none, 0) else (some k, x.otherCount + 1)
  | _, _ => (none, 0)

/-- A stronger ensemble takes the engine over (R181): timing and offset move to its peak. -/
def takeOver (e : Nat) (old : Id16) (p : Peak) (s : State) : State :=
  match p.eid with
  | some new => replaceEnsemble e old new (pullBy p.shift e s)
  | none => s

/-- The frame boundary of the locked state: replacement, takeover, path handover, or hold (R181 to R183). -/
def lockedBoundary (e : Nat) (o : FrameIn) (s : State) : State :=
  match engineAt s e with
  | none => s
  | some x =>
    if x.acq != .locked then s else
    let own := ownTiming o x
    let other := strongest (fun p => decide (4 ≤ p.strong) && p.eid.isSome && p.eid != x.eid) x.peaks
    let same := strongest (fun p => decide (4 ≤ p.strong) && p.eid.isSome && p.eid == x.eid) x.peaks
    match own, x.eid, other, same with
    | (some k, n), some old, p, q =>
      if 2 ≤ n then replaceEnsemble e old k s
      else
        let s1 := updEngine e (fun x => { x with otherEid := some k, otherCount := n }) s
        match p, q with
        | some p, _ => takeOver e old p s1
        | none, some q => pathMoved e q s1
        | none, none => s1
    | _, some old, some p, _ => takeOver e old p s
    | _, some _, none, some q => pathMoved e q (updEngine e (fun x => { x with otherEid := none, otherCount := 0 }) s)
    | _, _, _, _ => updEngine e (fun x => { x with otherEid := none, otherCount := 0 }) s

/-- Passed and failed frames while locked; a frame with a gap counts as neither (R183, R200). -/
def lockedCount (e : Nat) (o : FrameIn) (x : Engine) (s : State) : State :=
  if o.anyGap then s
  else
    let n := if frameFails o then x.failed + 1 else 0
    let s1 := updEngine e (fun x => { x with failed := n, lockedFrames := x.lockedFrames + 1 }) s
    if 3 ≤ n then updEngine e (fun x => { x with acq := .hold, acqFrames := 0 }) s1 else s1

/-- FIBs of the frame that failed; FIBs of a gap count as failed (R196). -/
def countFibs (o : FrameIn) (x : Engine) : Engine := { x with ficHist := ((o.fibs.length - (goodFibs o).length) :: x.ficHist).take 21 }

/-- MER of the frame (R195), and how long the clock estimate has had its 10 dB (Table 7-7). -/
def measureFrame (now : Nat) (x : Engine) : Engine :=
  let mer := merOf x
  let held : Rat := if x.merFirst then (mer : Rat) else if x.acq = .locked then smooth 480 96 x.merS (mer : Rat) else x.merS
  { x with merRaw := mer, merS := held, merFirst := false,
           clockSince := if held < 1000 then none else if x.acq = .locked then some (x.clockSince.getD now) else x.clockSince }

/-- The frequency loop pulls at most 500 Hz in a frame (R178). -/
def pulled (o : FrameIn) (x : Engine) : Int :=
  if lockedOrHold x || x.acq = .candidate then x.freqOffset + clampInt (-500) 500 o.fine else x.freqOffset

/-- What every running engine reports of a frame. -/
def noteFrame (o : FrameIn) (x : Engine) : Engine :=
  { x with levels := o.levels, freqOffset := pulled o x, clockPpm := o.clockPpm,
           beyondGuard := o.peaks.any fun p => searcherPeak p.timing, erasing := o.anyGap,
           tapsReused := lockedOrHold x && (o.gap.contains 1 || x.acq == .hold), gapSeen := false, cifOfFrame := 0 }

/-- The receiver takes the symbols of the frame (R185, R200): noise powers from the null symbol, taps and the window from the PRS
unless they are reused, then the FIC symbols; the sums of the MER begin. -/
def receiveFrame (o : FrameIn) (x : Engine) : Engine :=
  let ants := fitAntennas (maskMinus x.mask x.held) x.antennas
  let a1 := if o.gap.contains 0 then ants else ants.map (takeNull o)
  let fresh : Bool := !o.gap.contains 1 && x.acq != .hold
  let a2 := if fresh then a1.map (takePrs o) else a1
  let y := { x with antennas := a2, sent := if o.gap.contains 1 then [] else o.ref, prevSym := o.prs, merNum := 0, merDen := 0,
                    window := if fresh then windowOf (combinedTaps a2) else x.window }
  o.fic.zipIdx.foldl (fun x f => (symbolStep (o.gap.contains (2 + f.2)) f.1 x).2) y

/-- FIBs that pass are delivered (R325, Table 12-4). -/
def fibFlows (e : Nat) (o : FrameIn) (s : State) : State :=
  match engineAt s e with
  | none => s
  | some x =>
    forEach (o.fibs.zipIdx.filter fun f => f.1.ok) (fun f =>
      produce 0x10 (engineRef e) 0xFFFF false none (le 2 x.model.cif ++ [byte f.2, 0] ++ f.1.raw)) s

/-- The FIC of the frame is used: nothing of it while FIG 0/0 gives another EId than the tracked one (R181, R203). -/
def useFic (e : Nat) (o : FrameIn) (s : State) : State :=
  match engineAt s e with
  | none => s
  | some x =>
    if !lockedOrHold x || (goodFibs o).isEmpty then s
    else
      let s0 := match x.eid, frameEid o with
        | none, some eid => noteLock e eid s
        | _, _ => s
      let alien : Bool := match x.eid, frameEid o with
        | some t, some k => t != k
        | _, _ => false
      let s1 := if alien then s0 else forEach ((goodFibs o).flatMap (·.figs)) (applyFig e) s0
      fibFlows e o (if alien then s1 else updEngine e (fun x => { x with model := { x.model with lastFibAt := some s.now } }) s1)

/-- The model is current, or not; it is announced the first time (R206, R207). -/
def refreshCurrent (e : Nat) (s : State) : State :=
  match engineAt s e with
  | none => s
  | some x =>
    let m := x.model
    let fresh : Bool := match m.lastFibAt with | some t => !elapsed s t 96001 | none => false
    let cur := lockedOrHold x && m.eid.isSome && fresh
    let s1 := updEngine e (fun x => { x with model := { x.model with current := cur, everCurrent := x.model.everCurrent || cur } }) s
    if cur && !m.everCurrent then evService e 2 (eidOf x) 0 0 0 s1 else s1

/-- Acquisition of one frame (Table 7-4). -/
def acquire (e : Nat) (o : FrameIn) (x : Engine) (s : State) : State :=
  match x.acq with
  | .idle => s
  | .nullSearch =>
    if o.anyGap then s
    else match peakSeen o x with
      | some f => beginCandidate e o f s
      | none => if nullDip o.windows then enterAcq e .prsSync 0 s else s
  | .prsSync =>
    if o.anyGap then s
    else if rhoAtLeast (30 / 100) o.base o.ref && captured (1000 * o.found + o.fine) then beginCandidate e o (1000 * o.found + o.fine) s
    else match peakSeen o x with
      | some f => beginCandidate e o f s
      | none => nullSearch e s
  | .candidate => if o.anyGap then s else candidateFrame e o x s
  | .hold => holdFrame e o x s
  | .locked => lockedCount e o x s

/-- One whole frame. -/
def frameStep (e : Nat) (o : FrameIn) (x : Engine) (s : State) : State :=
  let s0 := updEngine e (noteFrame o) s
  let s1 := if o.anyGap || x.acq == .idle then s0 else updEngine e (fun x => { x with peaks := stepPeaks o x.peaks }) s0
  let s2 := acquire e o x s1
  let tracked : Bool := match engineAt s2 e with | some y => lockedOrHold y | none => false
  let s3 := if tracked then updEngine e (fun y => receiveFrame o (countFibs o y)) s2 else s2
  let s4 := useFic e o s3
  let s5 := if x.acq == .locked && !o.anyGap then lockedBoundary e o s4 else s4
  bindPass true (refreshCurrent e s5)

/-- `DAB_FRAME` (R176). -/
def execDabFrame (e : Nat) (o : FrameObs) (s : State) : Host.Outcome State Fault Refusal :=
  match engineAt s e with
  | none => .fault .absentUnit
  | some x => if x.st = .running && s.mgr.rxRunning then .next (reselectAll (count 15 o.lost.length 0 (frameStep e (frameIn s x o) x s))) else .next s

/-! ### Timers of engines -/

/-- `ENGINE_ABANDON` (R175): a scan engine that has not locked within 5 s is released, and its block barred for 30 s (R123). -/
def execEngineAbandon (e : Nat) (s : State) : Host.Outcome State Fault Refusal :=
  match engineAt s e with
  | none => .fault .absentUnit
  | some x =>
    if x.st = .running && x.owner == .scan && engineRank s e x == 5 && !lockedOrHold x && elapsed s x.startedAt 240000 then
      let s1 := { s with scan := { s.scan with barred := s.scan.barred.filter (·.1 != x.freq) ++ [(x.freq, s.now + 1440000)] } }
      .next (reselectAll (releaseEngine e s1))
    else .next s

/-- `ANNOUNCEMENT_TIMEOUT` (R222): a cluster has not been signalled for 2.0 s. -/
def execAnnouncementTimeout (e cluster : Nat) (s : State) : Host.Outcome State Fault Refusal :=
  match engineAt s e with
  | none => .fault .absentUnit
  | some x =>
    match x.model.clusters.find? (·.id == cluster) with
    | some c => if elapsed s c.usedAt 96000 then .next (reselectAll (dropCluster e cluster s)) else .next s
    | none => .next s

/-- `MODEL_OBJECT_TIMEOUT` (R204). -/
def execModelObjectTimeout (e : Nat) (s : State) : Host.Outcome State Fault Refusal :=
  match engineAt s e with
  | none => .fault .absentUnit
  | some x => if x.acq = .locked then .next (reselectAll (setModel e (prune x) (closeGone e x.model (prune x) s))) else .next s

/-- `DECODER_FIRST_VALID_SAMPLE` (R215): the output of a bound decoder becomes valid. -/
def execDecoderFirstValidSample (i : Nat) (s : State) : Host.Outcome State Fault Refusal :=
  match s.decoders[i]? with
  | none => .fault .absentUnit
  | some d =>
    if d.engine.isSome && !d.valid then
      let s1 := updDecoder i (fun d => { d with valid := true }) s
      .next (forEach (List.range s.progs.length) (fun n s =>
        updProgram n (fun p =>
          let mine : Bool := match p.anchorD.bind (memberAt p) with | some m => d.key == some m.src | none => false
          if p.running && mine && p.dabValidAt.isNone then { p with dabValidAt := some s.now } else p) s) s1)
    else .next s

end Sys2Proof.Machine
end

