-- ==== Sys2Proof/Machine/Cif.lean ====
section
/-! DEFINITION. A CIF reaches the soft-bit store: its coding, subchannel output, reconfigurations, counts and the binding of
decoders (R187 to R194, R205, R207, R214, R216 to R219, R328), and the end of a conversion (R191). -/

namespace Sys2Proof.Machine

/-! ### The soft-bit store (R189 to R192) -/

/-- A mode change takes effect at the boundary: the store is converted in place. -/
def changeMode (x : Engine) : Engine :=
  match x.modeNext with
  | some m => { x with exact := m, modeNext := none, converting := true, store := x.store.map (regroup m) }
  | none => x

/-- A symbol that did not arrive. -/
def SymbolObs.missing : SymbolObs := { bins := [], lost := true, bad := false }

/-- One MSC symbol, of which and of whose successors in the CIF `n` end up to now, reaches the store: erased where a gap marker touches
it or its soft values are lost. -/
def takeSymbol (s : State) (n : Nat) (x : Engine) (o : SymbolObs) : Engine × List Group :=
  let start := symbolStart s.now n
  let gap : Bool := o.lost || gapIn s x.mask start (symbolStart s.now (n - 1) + 1)
  let r := symbolStep (gap || x.cut != 0) (carriersAt s x x.freqOffset (carry (symbolAmp s start) o.bins)) x
  ({ r.2 with cut := r.2.cut - 1 }, storeSymbol x.exact (if o.bad then none else r.1))

/-- The 18 symbols of a CIF, which end now. -/
def takeSymbols (s : State) : Engine → List SymbolObs → Engine × List Group
  | x, [] => (x, [])
  | x, o :: os =>
    let r := takeSymbol s (os.length + 1) x o
    let q := takeSymbols s r.1 os
    (q.1, r.2 ++ q.2)

def erasedCif (exact : Bool) : List Group := (List.range 18).flatMap fun _ => storeSymbol exact none

/-- CIFs that the counter skips before the present one: they take their places erased (R182). At most 16 of them matter. -/
def skipped (x : Engine) : Nat :=
  match x.lastCif with
  | some n => let d := (x.model.cif + 4999 - n) % 5000; if d < 2500 then min 16 d else 0
  | none => 0

/-- Where the latest CIFs of a subchannel were received (R205): `n` skipped ones and the present one. -/
def pushPlaces (n : Nat) (c : Subch) : Subch :=
  { c with places := ((if c.late then none else some (c.start, c.size)) :: (List.replicate n none ++ c.places)).take 16 }

/-- The CIF enters the store, which holds 16, at the place that its counter gives; a CIF that a path handover cuts is erased whole
(R182), and groups whose parity fails are erased. -/
def addCif (s : State) (o : CifObs) (x : Engine) : Engine :=
  let r := takeSymbols s x (fitList 18 SymbolObs.missing o.symbols)
  let n := skipped x
  let l := x.store ++ List.replicate n (erasedCif x.exact) ++ [if x.cut = 0 then r.2 else erasedCif x.exact]
  { r.1 with store := o.parityErrors.foldl eraseGroup (l.drop (l.length - 16)), cifsStored := min 16 (x.cifsStored + n + 1),
             lastCif := some x.model.cif, model := { r.1.model with subchs := r.1.model.subchs.map (pushPlaces n) } }

/-- Every deinterleaver input has been received since the start of output (R188). -/
def outputOpen (x : Engine) : Bool := x.cifsStored == 16

/-! ### Counts (R194, R198) -/

/-- A subchannel is decoded: its organisation is in force (R205) and lies within the 864 capacity units of a CIF (R193). -/
def inCif (c : Subch) : Bool := !c.late && decide (c.start + c.size ≤ 864)

/-- Bytes of a subchannel in a CIF of 24 ms. -/
def cifBytes (c : Subch) : Nat := 3 * bitrateKbps c

/-- Bytes of a subchannel behind the Viterbi decoder, of a store of 16 CIFs, as many as its rate gives (R193). -/
def viterbiBytes (store : List (List Group)) (c : Subch) : List Byte :=
  if inCif c then
    let l := Config.viterbi ((subchValues store c).map (·.1)) c.prot
    (List.range (cifBytes c)).map fun i => l.getD i 0
  else []

/-- A step of the pseudo-random sequence of EN 300 401, of the polynomial x^9 + x^5 + 1: its bit, and the register after it (PRESUMED,
log entry 142). -/
def prbsStep (r : Nat) : Bool × Nat :=
  let b := bitOf r 8 != bitOf r 4
  (b, (2 * r + flag b) % 512)

/-- The next byte of the sequence, most significant bit first, and the register after it. -/
def prbsByte (r : Nat) : Nat × Nat :=
  (List.range 8).foldl (fun x _ => let y := prbsStep x.2; (2 * x.1 + flag y.1, y.2)) (0, r)

/-- Energy dispersal is removed, from a register of ones (R194). -/
def undisperse : Nat → List Byte → List Byte
  | _, [] => []
  | r, b :: bs => let x := prbsByte r; (b ^^^ byte x.1) :: undisperse x.2 bs

/-- Decoded bytes of a subchannel (R193, R194). -/
def decodedBytes (store : List (List Group)) (c : Subch) : List Byte := undisperse 511 (viterbiBytes store c)

def subchErrors (store : List (List Group)) (c : Subch) : Nat × Nat :=
  if inCif c && !store.isEmpty then bitErrors (subchValues store c) (Config.encodeBits c.prot (viterbiBytes store c)) else (0, 0)

/-- Channel bits of 84 CIFs (21 frames), layers above of 420 (105 frames). -/
def countCif (store : List (List Group)) (l : List SubchObs) (c : Subch) : Subch :=
  let b := subchErrors store c
  match l.find? (·.subch == c.id) with
  | some o => { c with audio := o.audio, ber := (b :: c.ber).take 84, rs := ((o.rsCorr, o.rsFail, o.frameFail) :: c.rs).take 420 }
  | none => { c with ber := (b :: c.ber).take 84, rs := ((0, 0, 0) :: c.rs).take 420 }

/-! ### Subchannel output (R188, R328, Table 12-5) -/

/-- Counter of the CIF whose last input is the present one. -/
def outputCif (cif : Nat) : Nat := (cif + 4985) % 5000

def rawFlows (e : Nat) (s : State) : State :=
  match engineAt s e with
  | none => s
  | some x =>
    if !outputOpen x then s else
    forEach x.model.subchs (fun c s =>
      if !flowOpenOn s 0x13 (engineSource e c.id) || !inCif c then s else
      let bytes := decodedBytes x.store c
      let sflags := flag ((subchValues x.store c).any (·.2)) + 2 * flag (subchScrambled x.model c.id)
      forEach (parts 1016 bytes.length 0 bytes) (fun p =>
        produce 0x13 (engineSource e c.id) 0xFFFF false none
          (le 2 (outputCif x.model.cif) ++ le 2 bytes.length ++ le 2 p.1 ++ [byte sflags, 0] ++ p.2)) s) s

/-! ### Reconfiguration (R205, R219, R249) -/

/-- The announced occurrence: the low part of the CIF counter equals the occurrence change. -/
def occurs (m : Model) : Bool := m.change != 0 && m.cif % 250 == m.occurrence

def applyReconfig (e : Nat) (x : Engine) (s : State) : State :=
  let m := reconfigured x.lockedFrames x.model
  let s1 := evService e 6 (eidOf x) 0 0 x.model.cif (closeGone e x.model m s)
  realignEid (eidOf x) (bumpServices (setModel e m s1))

/-! ### Program decoders (R216, R217) -/

/-- Units of a subchannel as its component's decoder takes them: a superframe whose Fire code fails takes all of them with it. -/
def audioUnits (m : Model) (l : List SubchObs) (key : Source) : List AudioUnit :=
  match m.comps.find? (isComp key) with
  | none => []
  | some c =>
    match l.find? (·.subch == c.subch) with
    | none => []
    | some o => if (compKind c = 1 ∧ 0 < o.frameFail) ∨ m.subchs.any (fun x => x.id == c.subch && x.late) = true then o.units.map fun u => { u with result := .failed } else o.units

/-- Audio of this CIF in a decoder that is bound to the engine. -/
def decodeAudio (e now : Nat) (x : Engine) (l : List SubchObs) (d : Decoder) : Decoder :=
  if d.engine = some e then
    match d.key with
    | some k => takeUnits ((x.model.comps.find? (isComp k)).any fun c => compKind c == 1) now (eqRaw x) (audioUnits x.model l k) d
    | none => d
  else d

/-- Offset of the ensemble's audio clock against the timeline, 0.01 ppm (R216; DEDUCED, log entry 136). -/
def clockTarget (s : State) (x : Engine) : Int := s.clocks.trim - x.clockPpm

/-- The ratio follows with 10 s, held at 500 ppm. -/
def nextRatio (d : Decoder) (target : Int) : Rat :=
  let t : Rat := clampInt (-50000) 50000 target
  match d.ratio with
  | none => t
  | some r => smooth 10000 24 r t

/-- An adapter beyond 500 ppm holds its limit, and says so once (R216). -/
def adapter (e i : Nat) (s : State) : State :=
  match s.decoders[i]?, engineAt s e with
  | some d, some x =>
    if d.engine ≠ some e then s
    else
      let t := clockTarget s x
      let out := decide (50000 < t.natAbs)
      let s1 := updDecoder i (fun d => { d with limited := out, ratio := some (nextRatio d t) }) s
      if out && !d.limited then evService e 8 (eidOf x) 0 0 (clampInt (-32768) 32767 (roundDiv t 100)) s1 else s1
  | _, _ => s

/-- Subchannel output of a CIF, once every deinterleaver input has been received (R188). -/
def subchOutput (e : Nat) (o : CifObs) (s : State) : State :=
  match engineAt s e with
  | none => s
  | some x =>
    if !outputOpen x then s
    else
      let s1 := updEngine e (fun x => { x with model := { x.model with subchs := x.model.subchs.map (countCif x.store o.counts) } }) s
      rawFlows e { s1 with decoders := s1.decoders.map (decodeAudio e s1.now x o.counts) }

/-- One CIF of a tracked frame. -/
def trackedCif (e : Nat) (o : CifObs) (s : State) : State :=
  match engineAt s e with
  | none => s
  | some x =>
    let s1 := if occurs x.model then applyReconfig e x s else s
    let s2 := subchOutput e o (updEngine e (addCif s o) s1)
    let s3 := forEach (List.range s2.decoders.length) (adapter e) s2
    let s4 := count 15 (o.symbols.countP (·.bad) + o.symbols.countP (·.lost)) 0 (count 13 o.parityErrors.length e s3)
    updEngine e (fun x => { x with gapSeen := x.gapSeen || o.symbols.any (·.lost), model := { x.model with cif := (x.model.cif + 1) % 5000 } }) s4

/-- After the fourth CIF of a frame: its MER, while the engine tracks, and its statistics (R195, R199). -/
def endFrame (e : Nat) (s : State) : State :=
  match engineAt s e with
  | none => s
  | some x =>
    if x.cifOfFrame + 1 < 4 then updEngine e (fun x => { x with cifOfFrame := x.cifOfFrame + 1 }) s
    else frameStats e (updEngine e (fun x => let y := { x with cifOfFrame := 0 }; if lockedOrHold x then measureFrame s.now y else y) s)

/-- `CIF_BOUNDARY` (R188, R191, R205, R214). -/
def execCifBoundary (e : Nat) (o : CifObs) (s : State) : Host.Outcome State Fault Refusal :=
  match engineAt s e with
  | none => .fault .absentUnit
  | some x =>
    if x.st = .running && s.mgr.rxRunning then
      let s1 := updEngine e changeMode s
      .next (reselectAll (bindPass false (endFrame e (if lockedOrHold x then trackedCif e o s1 else s1))))
    else .next s

/-- `SOFTBIT_CONVERSION_END` (R191): a share that is freed returns to the pool. -/
def execSoftbitConversionEnd (e : Nat) (s : State) : Host.Outcome State Fault Refusal :=
  match engineAt s e with
  | none => .fault .absentUnit
  | some x =>
    if x.converting then
      .next (updEngine e (fun x => { x with converting := false, shares := max (sharesOf x.exact) (sharesOf (x.modeNext.getD x.exact)) }) s)
    else .next s

end Sys2Proof.Machine
end

