-- ==== Sys2Proof/Machine/PortOps.lean ====
section
/-! DEFINITION. Audio ports: sample words, channel status, starting, gating, loss and frames (R296 to R324). -/

namespace Sys2Proof.Machine

/-! ### What a program puts out -/

/-- The audio of a source is valid: a running lane that is valid and conceals nothing, or a decoder that puts valid samples out. -/
def sourceValid (s : State) (x : Source) : Bool :=
  if x.kind = 2 then s.decoders.any fun d => d.use != .none && d.key == some x && d.valid && d.out.valid
  else match laneAt s x.lane with
    | some l => l.st == .running && l.valid && !l.concealing
    | none => false

/-- The valid flag of a program's sample (Table 11-6, R226, R265, R314). -/
def programValid (s : State) (n : Nat) : Bool :=
  match s.progs[n]? with
  | none => false
  | some p => p.running && decide (0 < p.curtain.pos) && p.out.valid

/-- The sample that a program sent `k` ticks ago, and its curtain gain. -/
def sentAt (s : State) (n k : Nat) : Rat × Sample :=
  match s.progs[n]? with
  | some p => p.sent.getD k (0, Sample.silent)
  | none => (0, Sample.silent)

/-- A sample for a place between ticks, 48 ticks before it, over 96 ticks (R305). -/
def throughAsrc (rate : Nat) (ppm place : Rat) (l : List (Rat × Sample)) (g : Sample → Int) : Rat :=
  firAt (Config.asrcTap rate ppm place) (l.map fun x => x.1 * g x.2)

/-- The samples of a program as a port takes them, the curtain of the program in them (R304, R305, R314). -/
def programSamples (s : State) (c : Carriage) (n : Nat) : Rat × Rat :=
  match c with
  | .direct lag => let x := sentAt s n lag; (x.1 * x.2.l, x.1 * x.2.r)
  | .asrc rate ppm place =>
    let l := (List.range 96).map fun j => sentAt s n (95 - j)
    (throughAsrc rate ppm place l (·.l), throughAsrc rate ppm place l (·.r))

/-- The valid flag of the sample that a port takes: behind the ASRC every one within 0.5 ms of its instant must be valid (R305, R308). -/
def validAt (s : State) (c : Carriage) (n : Nat) : Bool :=
  match c with
  | .direct lag => (sentAt s n lag).2.valid
  | .asrc _ _ place => ((List.range (if place = 0 then 49 else 48)).all fun k => (sentAt s n (24 + k)).2.valid)

/-- A port converts rates: every one but a controller-mode port at 48 kHz. -/
def portConverts (c : PortCfg) : Bool := c.target || c.rate != 2

/-- A 24-bit sample in a slot word of width W (R298). -/
def sampleWord (w : Nat) (x : Int) : Nat :=
  let v : Int :=
    if w = 32 then x * 256
    else if w = 24 then x
    else clampInt (-(2 ^ (w - 1) : Nat)) ((2 ^ (w - 1) : Nat) - 1) (roundDiv x (2 ^ (24 - w)))
  (v % (2 ^ w : Nat)).toNat

/-- Channel-status sampling frequency codes (Table 11-7). -/
def rateCode (r : Nat) : Nat := [3, 0, 2, 8, 0xA].getD r 2

/-- Word-length codes (Table 11-7). -/
def lengthCode (w : Nat) : Nat := if w = 16 then 2 else if w = 20 then 0xA else 0xB

/-- The nominal rate nearest a measured rate (Table 11-7): rates times 10^8 are compared. -/
def nearestRate (rate : Nat) (ppm : Int) : Nat :=
  let m : Int := rateHz rate * (100000000 + ppm)
  (List.range 5).foldl (fun best r =>
    if ((rateHz r * 100000000 : Nat) - m : Int).natAbs < ((rateHz best * 100000000 : Nat) - m : Int).natAbs then r else best) rate

/-- Bit i of the channel status (Table 11-7). -/
def statusBit (copy category rate len i : Nat) : Bool :=
  let bytes := [if copy = 0 then 4 else 0, category, 0, rateCode rate, lengthCode len]
  bitOf (bytes.getD (i / 8) 0) (i % 8)

/-- The nibble of a program (Table 11-6). -/
def statusNibble (s : State) (conv : Carriage) (x : StatusSlot) (rate len block n : Nat) : Nat :=
  if n = 255 then 0
  else flag (!validAt s conv n) + 4 * flag (statusBit x.copy x.category rate len block) + 8 * flag (block == 0)

/-- A status slot word of width W (R308). -/
def statusWord (s : State) (conv : Carriage) (x : StatusSlot) (w rate block : Nat) : Nat :=
  sumNat ((List.range (w / 4)).map fun j => statusNibble s conv x rate w block (x.programs.getD j 255) * 16 ^ j)

/-! ### Starting, gating and losing a port -/

/-- Both synthesizers have locked since the start (R467). -/
def synthsReady (s : State) : Bool := s.clocks.startLocked

def pllSUp (c : Clocks) : Bool := c.pllS == .locked || c.pllS == .coasting

def refUp (c : Clocks) : Bool := c.ref != .absent

/-- A port starts under R316 with a configuration, gated while PLL-A is out of lock. -/
def startPort (gate : Bool) (c : PortCfg) (p : Port) : Port :=
  { p with cfg := c, st := .starting, before := .disabled, next := none, curtain := 0, curtainUp := false, gated := gate, block := 0, ppm := 0,
           lockPpm := 0, tracked := 0, okFrames := 0, glitchRun := 0, slots := p.slotsNext.getD p.slots, slotsNext := none, words := [] }

def stopPort (c : PortCfg) (p : Port) : Port :=
  { p with cfg := c, st := .disabled, before := .disabled, next := none, curtain := 0, curtainUp := false, gated := false, block := 0, ppm := 0,
           lockPpm := 0, tracked := 0, okFrames := 0, slots := p.slotsNext.getD p.slots, slotsNext := none, words := [] }

def gateSpdif (x : Spdif) : Spdif := if x.running then { x with gated := true, curtain := 0, curtainUp := false, frame := none } else x

def ungateSpdif (x : Spdif) : Spdif := if x.running then { x with gated := false, curtainUp := true, block := 0 } else x

/-- PLL-A is lost: both TDM ports and SPDIF_OUT are gated (Table 16-6). -/
def gatePorts (s : State) : State :=
  { s with ports := { s.ports with tdm := s.ports.tdm.map gatePort, spdif := gateSpdif s.ports.spdif } }

def ungatePorts (s : State) : State :=
  { s with ports := { s.ports with tdm := s.ports.tdm.map (fun p => { p with gated := false }), spdif := ungateSpdif s.ports.spdif } }

/-- The port locks (R316 step 3): the curtain opens, the record is raised, and the command that waits completes. Its recovery goes on
until the curtain is open. -/
def lockPort (n : Nat) (ppm : Int) (s : State) : State :=
  match s.ports.tdm[n]? with
  | none => s
  | some p =>
    let v := if p.cfg.target then ppm else 0
    let s1 := evPort n 0 0 (updPort n (fun p => { p with st := .locked, curtainUp := true, glitchRun := 0, okFrames := 0,
                                                         ppm := v, lockPpm := v, tracked := v, pendTag := none }) s)
    finishWait (.port n) (match p.pendTag with
      | some t => evCmdDone 0x50 t stOk s1
      | none => s1)

/-- The port loses its host clocks (Table 11-10): a rate step that stood gives way to the loss. -/
def losePort (n : Nat) (s : State) : State :=
  match s.ports.tdm[n]? with
  | none => s
  | some p =>
    faultBegins 0x60 n n p.ppm false (faultEnds 0x61 n 6 (evPort n 1 0 (updPort n (fun p =>
      { p with st := if p.st = .stopping then .stopping else .lost, before := .lost, curtain := 0, curtainUp := false, block := 0,
               losses := satAdd 0xFFFFFFFF p.losses 1, glitchRun := 0, okFrames := 0, words := [] }) s)))

/-- A rate step of a locked port (Table 11-10): the curtain closes, and the ASRC holds its ratio. -/
def stepRate (n : Nat) (ppm : Int) (s : State) : State :=
  faultBegins 0x61 n n ppm false (evPort n 2 ppm (updPort n (fun p => { p with curtainUp := false, ppm := ppm }) s))

/-- The port stops at the frame boundary, or restarts with its new fields (R317). -/
def endStop (n : Nat) (s : State) : State :=
  match s.ports.tdm[n]? with
  | none => s
  | some p =>
    let c := p.next.getD p.cfg
    if c.enable then updPort n (startPort (!pllAUp s.clocks) c) s
    else
      finishWait (.port n) (faultEnds 0x60 n 6 (faultEnds 0x61 n 6 (updPort n (stopPort c) s)))

/-! ### Frames -/

/-- A port at a frame that begins a fraction of a tick after the tick. -/
def portCarriage (p : Port) (place : Rat) : Carriage :=
  if portConverts p.cfg then .asrc p.cfg.rate p.tracked place else .direct 0

/-- What BCLK and FSYNC of a port do (Table 11-11). -/
def clockPins (p : Port) : PinDrive :=
  if p.st = .disabled then .highZ else if p.cfg.target then .input else if p.gated then .highZ else .driven

/-- DOUT is driven in mapped slots (Table 11-11): in controller mode while the clocks run, in target mode once locked. -/
def drivesData (p : Port) : Bool :=
  !p.gated && (match p.st with
    | .locked => true
    | .starting => !p.cfg.target
    | .stopping => p.before == .locked || (p.before == .starting && !p.cfg.target)
    | _ => false)

/-- One slot's word, and the data words left (R297 to R308, R315). `none` is high-impedance. -/
def slotWord (s : State) (p : Port) (place : Rat) (x : Slot) (data : List Nat) : Option Nat × List Nat :=
  let c := portCarriage p place
  let lr := programSamples s c x.source
  let w := p.cfg.width
  let put (v : Rat) : Option Nat := some (sampleWord w (clampInt (-8388608) 8388607 (roundRat (curtainGain p.curtain * v))))
  if x.content = 0 then (none, data)
  else if x.content = 0x10 then (put lr.1, data)
  else if x.content = 0x11 then (put lr.2, data)
  else if x.content = 0x12 then (put ((lr.1 + lr.2) / 2), data)
  else if x.content = 0x20 then
    (some (statusWord s c (s.ports.status.getD x.source StatusSlot.default) w (nearestRate p.cfg.rate p.ppm) p.block), data)
  else if x.content = 0x30 then (some (data.headD idleWord), data.tail)
  else (some 0, data)

/-- The words of the usable slots, in ascending order. -/
def frameWords (s : State) (p : Port) (place : Rat) : List Slot → List Nat → List (Option Nat)
  | [], _ => []
  | x :: xs, data =>
    let r := slotWord s p place x data
    r.1 :: frameWords s p place xs r.2

/-- One TDM frame, which begins a fraction of a tick after the tick: the slot map takes effect, data slots carry fragments, and what a
frame that is not completed carried is resent (R303, R309, R338, R342). -/
def tdmFrame (n : Nat) (place : Rat) (completed : Bool) (s : State) : State :=
  match s.ports.tdm[n]? with
  | none => s
  | some p0 =>
    let p := { p0 with slots := p0.slotsNext.getD p0.slots, slotsNext := none }
    let r := dataSlots p
    let (frags, fl) := if n = 1 && !s.flows.mailbox && 0 < r then fillWords r s.flows else ([], s.flows)
    let words := frameWords s p place (p.slots.take (usableSlots p.cfg)) (frags.flatMap (·.words))
    let fl1 := if completed then confirmAll frags fl else { fl with resend := fl.resend ++ frags }
    updPort n (fun _ => { p with words := words, block := (p.block + 1) % 192, frameAt := some s.now, glitchRun := if completed then 0 else p.glitchRun })
      { s with flows := fl1 }

/-- A frame without rate conversion begins at a tick, one in each (R304, R312). -/
def onTick (now : Nat) (at_ : Option Nat) (place : Rat) : Bool := decide (place = 0) && at_ != some now

/-- A new SPDIF configuration takes effect at a block boundary; `enable` 0 at the next frame boundary (R312). -/
def spdifApply (x : Spdif) : Spdif :=
  match x.next with
  | none => x
  | some c => if !c.enable ∨ x.block = 0 then { x with cfg := { c with program := x.cfg.program }, next := none } else x

/-- SPDIF_OUT at a frame: at 48 kHz the sample of the tick before, else through the ASRC at the exact ratio (R312). -/
def spdifCarriage (c : SpdifCfg) (place : Rat) : Carriage := if c.rate = 2 then .direct 1 else .asrc c.rate 0 place

/-- The sum of the bits of a word is odd. -/
def oddBits (w : Nat) : Bool := (List.range 24).countP (fun i => bitOf w i) % 2 == 1

/-- A subframe, with U 0 and even parity over time slots 4 to 31 (R312). -/
def subframe (pre : Preamble) (w : Nat) (v c : Bool) : Subframe :=
  { preamble := pre, word := w, v := v, u := false, c := c, p := (oddBits w ^^ v) ^^ c }

/-- One IEC 60958 frame, which begins a fraction of a tick after the tick (R312). -/
def spdifFrame (place : Rat) (s : State) : State :=
  let x := spdifApply s.ports.spdif
  if !x.cfg.enable then
    { s with ports := { s.ports with spdif := { x with running := false, frame := none, frameAt := none, block := 0, curtain := 0, curtainUp := false } } }
  else
    let n := x.cfg.program
    let k := spdifCarriage x.cfg place
    let lr := programSamples s k n
    let word (v : Rat) : Nat :=
      sampleWord x.cfg.wordLen (clampInt (-8388608) 8388607 (roundRat (curtainGain x.curtain * v))) * 2 ^ (24 - x.cfg.wordLen)
    let c := statusBit x.cfg.copy x.cfg.category x.cfg.rate x.cfg.wordLen x.block
    let v := !validAt s k n
    { s with ports := { s.ports with spdif :=
      { x with frame := some (subframe (if x.block = 0 then .z else .x) (word lr.1) v c, subframe .y (word lr.2) v c),
               block := (x.block + 1) % 192, frameAt := some s.now } } }

/-- Curtains of ports move one tick: 20 ms up, 8 ms down (R315). -/
def tickPort (p : Port) : Port :=
  { p with curtain := if p.curtainUp then min 1 (p.curtain + 1 / 960) else max 0 (p.curtain - 1 / 384) }

def tickSpdif (x : Spdif) : Spdif :=
  { x with curtain := if x.curtainUp then min 1 (x.curtain + 1 / 960) else max 0 (x.curtain - 1 / 384) }

/-- Every enabled port has restarted with its curtain open, or waits for its host (R316). -/
def portsOpen (s : State) : Bool :=
  s.ports.tdm.all fun p => p.st == .disabled || p.cfg.target || (p.st == .locked && p.curtain == 1)

end Sys2Proof.Machine
end

