-- ==== Sys2Proof/Machine/System.lean ====
section
/-! DEFINITION. System commands 0x00 to 0x0A (R387 to R397). -/

namespace Sys2Proof.Machine

/-! ### NOP, IDENTIFY, TIME_READ -/

def cmdNop : Cmd := { opc := 0x00, len := lenIn [0], ids := noIds, body := fun _ s => okay [] s }

/-- `NOP` (R387). -/
def execNop (tag : Byte) (p : List Byte) (s : State) : Host.Outcome State Fault Refusal := hostRow cmdNop tag p s

def lifeCode : LifeCycle → Nat
  | .foundry => 0
  | .oem => 1
  | .field => 2
  | .retired => 3

/-- `domain` of `IDENTIFY` (Table 14-3, Table 17-6). -/
def domainCode (s : State) : Nat :=
  match s.reset_.domain with
  | .ready => 0
  | .blackout => 0
  | .starting => 2
  | .off => if s.ghost.watch = .off then 3 else 1

def tierCode : Tier → Nat
  | .t96 => 96
  | .t48 => 48
  | .t24 => 24

/-- The reply of `IDENTIFY` (Table 14-3). -/
def identifyBytes (s : State) : List Byte :=
  let v := s.chip.variant
  [byte (tierCode v.tier), bflag (!v.whole), bflag v.gradeC, Config.silicon] ++ le 2 Config.romVersion.toNat ++
  le 2 s.mgr.patchVersion.toNat ++
  [byte (lifeCode s.chip.life), byte (domainCode s), byte s.link.address, byte v.fmLanes, byte v.amLanes, byte v.engines,
   byte v.programs] ++ le 2 v.flows ++ [byte v.inputMask, 0, 0] ++ le 8 Config.deviceUid.toNat

def cmdIdentify : Cmd := { opc := 0x01, len := lenIn [0], ids := noIds, body := fun _ s => okay (identifyBytes s) s }

/-- `IDENTIFY` (R388). -/
def execIdentify (tag : Byte) (p : List Byte) (s : State) : Host.Outcome State Fault Refusal := hostRow cmdIdentify tag p s

/-- The timeline runs (R452). -/
def timelineRuns (s : State) : Bool := s.time.started && s.time.source != .held && mainReady s

/-- `tflags` of `TIME_READ`. -/
def tflags (s : State) : Nat :=
  flag (timelineRuns s) + 2 * flag s.time.armed + 4 * flag (s.clocks.pllA == .locked)

def timeBytes (s : State) : List Byte := le 4 (stampDfc s).toNat ++ [s.time.epoch, byte (tflags s), 0, 0]

def cmdTimeRead : Cmd := { opc := 0x07, len := lenIn [0], ids := noIds, body := fun _ s => okay (timeBytes s) s }

/-- `TIME_READ` (R387, R473). -/
def execTimeRead (tag : Byte) (p : List Byte) (s : State) : Host.Outcome State Fault Refusal := hostRow cmdTimeRead tag p s

/-! ### EVENT_READ and EVENT_MASK -/

/-- A record of the queue, or the overflow record (R390). -/
inductive Unread where
  | ordinary (e : Event)
  | overflow (o : Overflow)

/-- Unread records in the order in which they are returned (R390). -/
def unreadList (e : Events) : List Unread :=
  match e.overflow with
  | none => e.queue.map .ordinary
  | some o => (e.queue.take o.before).map .ordinary ++ [.overflow o] ++ (e.queue.drop o.before).map .ordinary

def recordBytes (bit : Nat) (epoch eflags : Byte) (dfc : Dfc) (body : List Byte) : List Byte :=
  [byte bit, byte body.length, epoch, eflags] ++ le 4 dfc.toNat ++ body

/-- A record as `EVENT_READ` returns it (R406). -/
def unreadBytes : Unread → List Byte
  | .ordinary e => recordBytes e.bit e.epoch e.eflags e.dfc e.body
  | .overflow o => recordBytes 31 o.epoch o.eflags o.dfc (le 2 o.lost ++ [0, 0])

/-- Whole records, oldest first, that fit in `room` bytes, at most `n`; and the rest (R391). -/
def takeRecords : Nat → Nat → List Unread → List Unread × List Unread
  | 0, _, l => ([], l)
  | _ + 1, _, [] => ([], [])
  | n + 1, room, x :: xs =>
    if (unreadBytes x).length ≤ room then
      let r := takeRecords n (room - (unreadBytes x).length) xs
      (x :: r.1, r.2)
    else ([], x :: xs)

def ordinaryOnly (l : List Unread) : List Event :=
  l.filterMap fun x => match x with | .ordinary e => some e | .overflow _ => none

/-- The overflow record of a list, with the records that stand before it. -/
def overflowOf : Nat → List Unread → Option Overflow
  | _, [] => none
  | n, .ordinary _ :: xs => overflowOf (n + 1) xs
  | n, .overflow o :: _ => some { o with before := n }

/-- The queue that holds these unread records. -/
def withUnread (e : Events) (l : List Unread) : Events := { e with queue := ordinaryOnly l, overflow := overflowOf 0 l }

def unreadCount (e : Events) : Nat := e.queue.length + flag e.overflow.isSome

/-- Bit n set when an unread record of event bit n remains (R391). -/
def summaryOf (e : Events) : Nat := maskOf (e.queue.map (·.bit)) ||| (if e.overflow.isSome then 2 ^ 31 else 0)

def bodyEventRead (c : Call) (s : State) : Res :=
  let n := if c.p.length = 0 then 31 else clampNat 1 31 (p1 c.p 0)
  let r := takeRecords n 244 (unreadList s.events)
  let e := withUnread s.events r.2
  let s1 := refreshMirror { s with events := { e with promptBase := s.now, promptDue := e.promptDue && anyPrompt e } }
  okay (le 2 (unreadCount e) ++ le 4 (summaryOf e) ++ r.1.flatMap unreadBytes) s1

def cmdEventRead : Cmd := { opc := 0x02, len := lenIn [0, 1], ids := noIds, body := bodyEventRead }

/-- `EVENT_READ` (R391). -/
def execEventRead (tag : Byte) (p : List Byte) (s : State) : Host.Outcome State Fault Refusal := hostRow cmdEventRead tag p s

/-- A prompt can be made now (R371). -/
def canPrompt (e : Events) : Bool := e.promptEnable && anyPrompt e

/-- New prompt fields take effect: a due prompt stays due while one can be made, and a passage makes one due (R371, R392). -/
def changeMask (old new : Events) : Events :=
  { new with promptDue := canPrompt new && (old.promptDue || !canPrompt old) }

def eventMaskBytes (e : Events) : List Byte :=
  le 4 e.mask.toNat ++ [bflag e.promptEnable, byte e.mirrorGpio] ++ le 2 (unreadCount e)

def bodyEventMask (c : Call) (s : State) : Res :=
  if c.p.length = 0 then okay (eventMaskBytes s.events) s else
  let new := { s.events with mask := maskField c.p, promptEnable := boolOf true (p1 c.p 4), mirrorGpio := mirrorField c.p }
  let s1 := refreshMirror { s with events := changeMask s.events new }
  okay (eventMaskBytes s1.events) s1

def cmdEventMask : Cmd := { opc := 0x03, len := lenIn [0, 6], ids := noIds, body := bodyEventMask }

/-- `EVENT_MASK` (R392, Table 13-3). -/
def execEventMask (tag : Byte) (p : List Byte) (s : State) : Host.Outcome State Fault Refusal := hostRow cmdEventMask tag p s

/-! ### STAGE_RESET, PATCH_LOAD, PATCH_COMMIT -/

def bodyStageReset (c : Call) (s : State) : Res :=
  { status := stOk, payload := [], state := startMain .command (p1 c.p 0 == 1 && c.p.length == 1) s, silent := true }

def cmdStageReset : Cmd := { opc := 0x04, len := lenIn [0, 1], ids := noIds, body := bodyStageReset }

/-- `STAGE_RESET` (R393, R375): no reply; the outcome is reported by `EV_RESET_DONE`. -/
def execStageReset (tag : Byte) (p : List Byte) (s : State) : Host.Outcome State Fault Refusal := hostRow cmdStageReset tag p s

/-- The image after a load: restarted at 0, appended at its end, or corrected in place after a failed commit (R394). -/
def loadImage (image data : List Byte) (off : Nat) : List Byte :=
  if off = 0 then data else image.take off ++ data ++ image.drop (off + data.length)

/-- `offset` is the count loaded so far, or 0; after a failed commit any offset up to the end (R394). -/
def offsetLegal (m : Manager) (off : Nat) : Bool :=
  off == 0 || off == m.patch.length || (m.commitFailed && decide (off ≤ m.patch.length))

def bodyPatchLoad (c : Call) (s : State) : Res :=
  let off := rd c.p 0 4
  let data := c.p.drop 4
  let m := s.mgr
  if m.rxStartedSinceReset || !offsetLegal m off then fail stWrongState s
  else if 65536 < off + data.length then fail stNoResource s
  else
    let image := loadImage m.patch data off
    okay (le 4 image.length) { s with mgr := { m with patch := image, commitFailed := m.commitFailed && off != 0 } }

def cmdPatchLoad : Cmd :=
  { opc := 0x05, len := fun p => decide (5 ≤ p.length) && decide (p.length ≤ 248), ids := noIds, body := bodyPatchLoad }

/-- `PATCH_LOAD` (R394). -/
def execPatchLoad (tag : Byte) (p : List Byte) (s : State) : Host.Outcome State Fault Refusal := hostRow cmdPatchLoad tag p s

/-- The image passes: its length, its CRC-32, its ROM version and its signature (R394). -/
def patchPasses (image : List Byte) (p : List Byte) : Bool :=
  rd p 0 4 == image.length && rd p 4 4 == (crc32 image).toNat && Config.patchVerifies image

def bodyPatchCommit (c : Call) (s : State) : Res :=
  if s.mgr.rxStartedSinceReset then fail stWrongState s
  else if patchPasses s.mgr.patch c.p then
    let v := Config.patchVersion s.mgr.patch
    okay (le 2 v.toNat ++ le 2 Config.romVersion.toNat)
      { s with mgr := { s.mgr with committed := true, patchVersion := v, commitFailed := false } }
  else fail stWrongState { s with mgr := { s.mgr with commitFailed := true } }

def cmdPatchCommit : Cmd := { opc := 0x06, len := lenIn [8], ids := noIds, body := bodyPatchCommit }

/-- `PATCH_COMMIT` (R394). -/
def execPatchCommit (tag : Byte) (p : List Byte) (s : State) : Host.Outcome State Fault Refusal := hostRow cmdPatchCommit tag p s

/-! ### Cues (R395 to R397) -/

/-- Opcodes of Tables 14-2, 14-5, 14-8 and of the tables of chapter 15. -/
def definedOpcodes : List Byte :=
  [0x00, 0x01, 0x02, 0x03, 0x04, 0x05, 0x06, 0x07, 0x08, 0x09, 0x0A, 0x10, 0x11, 0x12, 0x13, 0x14, 0x15, 0x18, 0x19, 0x1A] ++
  [0x1B, 0x1C, 0x20, 0x21, 0x22, 0x28, 0x29, 0x2A, 0x2B, 0x30, 0x31, 0x32, 0x33, 0x40, 0x41, 0x42, 0x43, 0x44] ++
  [0x50, 0x51, 0x52, 0x53, 0x54, 0x60, 0x61, 0x62, 0x63, 0x64, 0x65, 0x66, 0x70, 0x71, 0x72, 0x73] ++
  [0x80, 0x81, 0x82, 0x83, 0x84, 0x85, 0x90, 0x91, 0x92, 0x93, 0x94, 0x95, 0x96, 0xA0, 0xA1, 0xA2, 0xA3, 0xA4]

/-- A vendor test opcode, defined only outside FIELD (R379, Table 17-10). -/
def vendorOpcode (s : State) (opc : Byte) : Bool := decide (0xF0 ≤ opc.toNat) && s.chip.life != .field

def opcodeDefined (s : State) (opc : Byte) : Bool := definedOpcodes.contains opc || vendorOpcode s opc

/-- Commands that a cue may not carry (R32). -/
def barredFromCue : List Byte := [0x08, 0x09, 0x0A, 0x02, 0x04, 0x05, 0x06, 0x95, 0x96, 0x66, 0x83]

def cuePending (s : State) (n : Nat) : Bool := s.cues.any fun c => c.id == n

/-- The lowest identifier that is not pending (R395). -/
def freeCue (s : State) : Option Nat := (List.range 64).find? fun n => !cuePending s n

/-- Insert a cue in identifier order. -/
def insertCue (c : Cue) (l : List Cue) : List Cue := l.filter (fun x => x.id < c.id) ++ [c] ++ l.filter (fun x => c.id < x.id)

/-- The target is in the future (R15, R29). -/
def inFuture (s : State) (t : Dfc) : Bool := dfcAfter t s.time.dfc

/-- The packet that a `CUE_SET` carries. -/
def carried (p : List Byte) : List Byte := p.drop 5

/-- The checks of R395 on the carried packet, in order; 0 when all pass. -/
def carriedCheck (s : State) (p : List Byte) : Nat :=
  let q := carried p
  let cue := p1 p 0
  if p1 q 2 + 4 ≠ q.length then stBadLength
  else if crc8 q ≠ 0 then stBadCrc
  else if !opcodeDefined s (q.getD 0 0) then stUnknown
  else if barredFromCue.contains (q.getD 0 0) || (cue != 0xFF && cuePending s cue) then stWrongState
  else if cue = 0xFF ∧ freeCue s = none then stNoResource
  else stOk

/-- The cue is late as it is set: its target is not in the future (R31), or an audio cue is less than 2 ms ahead (R29). -/
def cueSetLate (s : State) (t : Dfc) (pkt : Packet) : Bool :=
  !inFuture s t || (isAudioCue pkt && decide (ticksTo s t < 96))

def bodyCueSet (c : Call) (s : State) : Res :=
  let st := carriedCheck s c.p
  if st ≠ stOk then fail st s else
  let q := carried c.p
  let id := if p1 c.p 0 = 0xFF then (freeCue s).getD 0 else p1 c.p 0
  let t : Dfc := BitVec.ofNat 32 (rd c.p 1 4)
  let cue : Cue := { id := id, target := t,
                     packet := { opc := q.getD 0 0, tag := q.getD 1 0, param := (q.drop 3).take (p1 q 2) },
                     late := cueSetLate s t { opc := q.getD 0 0, tag := q.getD 1 0, param := (q.drop 3).take (p1 q 2) } }
  okay (byte id :: le 4 t.toNat ++ le 4 s.time.dfc.toNat ++ [bflag (!inFuture s t)]) { s with cues := insertCue cue s.cues }

def cueId (x : Nat) : Bool := x < 64 || x == 0xFF

def cmdCueSet : Cmd :=
  { opc := 0x08, len := fun p => decide (9 ≤ p.length) && decide (p.length ≤ 250), ids := fun _ p => cueId (p1 p 0), body := bodyCueSet }

/-- `CUE_SET` (R395). -/
def execCueSet (tag : Byte) (p : List Byte) (s : State) : Host.Outcome State Fault Refusal := hostRow cmdCueSet tag p s

def bodyCueCancel (c : Call) (s : State) : Res :=
  let x := p1 c.p 0
  let keep := if x = 0xFF then [] else s.cues.filter fun q => q.id != x
  okay [byte x, byte (s.cues.length - keep.length)] { s with cues := keep }

def cmdCueCancel : Cmd := { opc := 0x09, len := lenIn [1], ids := fun _ p => cueId (p1 p 0), body := bodyCueCancel }

/-- `CUE_CANCEL` (R396). -/
def execCueCancel (tag : Byte) (p : List Byte) (s : State) : Host.Outcome State Fault Refusal := hostRow cmdCueCancel tag p s

def cueEntry (c : Cue) : List Byte := [byte c.id, c.packet.opc, c.packet.tag] ++ le 4 c.target.toNat

def bodyCueList (c : Call) (s : State) : Res :=
  let l := s.cues.filter fun q => clampNat 0 63 (p1 c.p 0) ≤ q.id
  let page := l.take 34
  let next := match (l.drop 34).head? with | some q => q.id | none => 0xFF
  okay ([byte page.length, byte next] ++ page.flatMap cueEntry) s

def cmdCueList : Cmd := { opc := 0x0A, len := lenIn [1], ids := noIds, body := bodyCueList }

/-- `CUE_LIST` (R397). -/
def execCueList (tag : Byte) (p : List Byte) (s : State) : Host.Outcome State Fault Refusal := hostRow cmdCueList tag p s

end Sys2Proof.Machine
end

