-- ==== Sys2Proof/Machine/Clocks.lean ====
section
/-! DEFINITION. Clock commands 0x80, 0x82 to 0x85 (R422 to R428) and the rows of the clocks (R441 to R467). -/

namespace Sys2Proof.Machine

def setClocks (f : Clocks → Clocks) (s : State) : State := { s with clocks := f s.clocks }

/-- The source of an output is available (Table 16-6). -/
def sourceUp (c : Clocks) (src : Nat) : Bool := if src ≤ 1 then pllAUp c else if src = 2 then pllSUp c else refUp c

/-- Enabled outputs are gated while their source is not available (Table 16-6). -/
def gateOutputs (c : Clocks) : Clocks :=
  { c with outs := c.outs.map fun o => { o with gated := o.enable && !sourceUp c o.source } }

/-- The timeline's source (R452); before PLL-A has first locked, and in a relock of `REF_CONFIG`, it holds. -/
def timeSource (s : State) : TimeSource :=
  if !s.time.started || !s.clocks.startLocked then (if s.time.started && pllAUp s.clocks then .pllA else .held)
  else if pllAUp s.clocks then .pllA
  else if pllSUp s.clocks then .flywheel
  else .held

/-- Outputs and the timeline follow the synthesizers. -/
def refreshClocks (s : State) : State :=
  let s1 := setClocks gateOutputs s
  { s1 with time := { s1.time with source := timeSource s1 } }

/-! ### REF_CONFIG -/

def refState (c : Clocks) : Nat := flag (refUp c)

def refReply (c : Clocks) : List Byte := refBytes c ++ [byte (refState c)]

def sameRef (c : Clocks) (f : RefFields) : Bool :=
  c.refin == f.refin && c.refHz == f.hz && c.pathS == f.s && c.pathA == f.a && c.pathN == f.n

/-- Reception is stopped and every port and clock output is disabled (R423). -/
def clocksIdle (s : State) : Bool :=
  !s.mgr.rxRunning && s.ports.tdm.all (fun p => p.st == .disabled) && !s.ports.spdif.running &&
  s.clocks.outs.all (fun o => !o.enable)

/-- New reference fields: every running synthesizer relocks and the build-out offsets end (R423, R452, R463). -/
def changeRef (f : RefFields) (s : State) : State :=
  refreshClocks (setClocks (fun c => { c with
    refin := f.refin, refHz := f.hz, pathS := f.s, pathA := f.a, pathN := f.n,
    pllS := .locking, pllA := .locking, startLocked := false, offS := 0, offA := 0,
    ref := if c.ref = .buildOut then .present else c.ref }) s)

def bodyRefConfig (c : Call) (s : State) : Res :=
  if c.p.length = 0 then okay (refReply s.clocks) s else
  let f := parseRef c.p
  if sameRef s.clocks f then okay (refReply s.clocks) s
  else if !clocksIdle s || !mainReady s then fail stWrongState s
  else
    let s1 := faultEnds 0x50 0 6 (faultEnds 0x41 0 6 (faultEnds 0x40 0 6 (changeRef f s)))
    if refUp s1.clocks then { status := stOk, payload := refReply s1.clocks, state := s1, wait := some .relock }
    else okay (refReply s1.clocks) s1

def cmdRefConfig : Cmd := { opc := 0x80, len := lenIn [0, 8], ids := noIds, body := bodyRefConfig }

/-- `REF_CONFIG` (R423). -/
def execRefConfig (tag : Byte) (p : List Byte) (s : State) : Host.Outcome State Fault Refusal := hostRow cmdRefConfig tag p s

/-! ### CLOCK_OUT -/

/-- Frequency that enters an output's divider, in 10^-8 Hz (Table 16-5). -/
def sourceFreq (c : Clocks) (src : Nat) : Nat :=
  if src = 0 then 49152000 * 100000000 else if src = 1 then 45158400 * 100000000
  else if src = 2 then fsTrimmed c.plan c.trim else c.refHz * 100000000

/-- The smallest divider that puts an output at or below 100 MHz; at least 7 with source 2 (R425, Table 16-5). -/
def leastDivider (c : Clocks) (src : Nat) : Nat :=
  let d := (sourceFreq c src + 10000000000000000 - 1) / 10000000000000000
  if src = 2 then max 7 d else max 1 d

/-- The fields of `CLOCK_OUT` as applied (R425). -/
def parseClockOut (c : Clocks) (p : List Byte) : ClockOutput :=
  if p1 p 0 = 0 then
    { enable := boolOf false (p1 p 1), source := enumOf [0, 1] 0 (p1 p 2), divider := 2, delay := 0, gated := false }
  else
    let src := enumOf [0, 1, 2, 3] 0 (p1 p 2)
    { enable := boolOf false (p1 p 1), source := src, divider := max (leastDivider c src) (clampNat 1 1024 (rd p 3 2)),
      delay := clampNat 0 63 (p1 p 5), gated := false }

/-- `freq_hz`, rounded to the nearest (log entry 24). -/
def outputHz (c : Clocks) (o : ClockOutput) : Nat := (roundDiv (sourceFreq c o.source) (o.divider * 100000000)).toNat

def clockOutReply (c : Clocks) (n : Nat) (o : ClockOutput) : List Byte := clockOutBytes n o ++ le 4 (outputHz c o)

def bodyClockOut (c : Call) (s : State) : Res :=
  let n := p1 c.p 0
  if c.p.length = 1 then okay (clockOutReply s.clocks n (s.clocks.outs.getD n (ClockOutput.default n))) s else
  let o := parseClockOut s.clocks c.p
  okay (clockOutReply s.clocks n o) (setClocks gateOutputs (updOut n (fun _ => o) s))

def cmdClockOut : Cmd := { opc := 0x82, len := lenIn [1, 6], ids := fun _ p => decide (p1 p 0 ≤ 3), body := bodyClockOut }

/-- `CLOCK_OUT` (R425). -/
def execClockOut (tag : Byte) (p : List Byte) (s : State) : Host.Outcome State Fault Refusal := hostRow cmdClockOut tag p s

/-! ### SYNC_ARM -/

def syncReply (t : Timeline) : List Byte := [bflag t.armed] ++ le 2 t.edges

def bodySyncArm (c : Call) (s : State) : Res :=
  if c.p.length = 0 then okay (syncReply s.time) s else
  let on := boolOf false (p1 c.p 0)
  if on && s.clocks.pllA != .locked then fail stWrongState s
  else
    let t := { s.time with armed := on, lostSinceArm := if on && !s.time.armed then false else s.time.lostSinceArm }
    okay (syncReply t) { s with time := t }

def cmdSyncArm : Cmd := { opc := 0x83, len := lenIn [0, 1], ids := noIds, body := bodySyncArm }

/-- `SYNC_ARM` (R426). -/
def execSyncArm (tag : Byte) (p : List Byte) (s : State) : Host.Outcome State Fault Refusal := hostRow cmdSyncArm tag p s

/-! ### FREQ_TRIM and TRIM_STEP -/

def trimReply (c : Clocks) : List Byte := leS 4 c.target ++ [0] ++ leS 4 c.trim

/-- One step of at most 2 ppm toward the target (R427). -/
def trimStep (target trim : Int) : Int := trim + clampInt (-200) 200 (target - trim)

def trimmedIf (b : Bool) (s : State) : State := if b then afterTrim s else s

def bodyFreqTrim (c : Call) (s : State) : Res :=
  if c.p.length = 0 then okay (trimReply s.clocks) s else
  let x := clampInt (-20000) 20000 (rdS c.p 0 4)
  let rel := boolOf false (p1 c.p 4)
  let sum := if rel then s.clocks.target + x else x
  let t := clampInt (-20000) 20000 sum
  let s1 := if sum = t then s else evClock 1 5 t s
  if (t - s.clocks.trim).natAbs ≤ 200 then
    let now := if s.clocks.pllS = .locked then t else s.clocks.trim
    let s2 := trimmedIf (decide (now ≠ s.clocks.trim)) (setClocks (fun k => { k with target := t, trim := now, trimTag := none, stepAt := s.now }) s1)
    okay (trimReply s2.clocks) s2
  else
    let s2 := setClocks (fun k => { k with target := t, trimTag := some c.tag }) s1
    { status := stPending, payload := trimReply s2.clocks, state := s2 }

def cmdFreqTrim : Cmd := { opc := 0x84, len := lenIn [0, 5], ids := noIds, body := bodyFreqTrim }

/-- `FREQ_TRIM` (R427). -/
def execFreqTrim (tag : Byte) (p : List Byte) (s : State) : Host.Outcome State Fault Refusal := hostRow cmdFreqTrim tag p s

/-- `TRIM_STEP` (R427): a step each millisecond while PLL-S is locked; at the target a pending command completes. -/
def execTrimStep (s : State) : Host.Outcome State Fault Refusal :=
  if s.clocks.pllS = .locked ∧ s.clocks.trim ≠ s.clocks.target ∧ elapsed s s.clocks.stepAt 48 then
    let t := trimStep s.clocks.target s.clocks.trim
    let s1 := afterTrim (setClocks (fun c => { c with trim := t, stepAt := s.now, trimTag := if t = c.target then none else c.trimTag }) s)
    match s.clocks.trimTag with
    | some tag => if t = s.clocks.target then .next (evCmdDone 0x84 tag stOk s1) else .next s1
    | none => .next s1
  else .next s

/-! ### CLOCK_STATUS -/

def refCode : RefState → Nat
  | .absent => 0
  | .present => 1
  | .buildOut => 2

def pllSCode : PllSState → Nat
  | .off => 0
  | .locking => 1
  | .locked => 2
  | .coasting => 3
  | .hopping => 4

def pllACode : PllAState → Nat
  | .off => 0
  | .locking => 1
  | .locked => 2
  | .gated => 3
  | .coasting => 4

def pllNCode : PllNState → Nat
  | .off => 0
  | .locking => 1
  | .locked => 2

/-- The reply of `CLOCK_STATUS` (Table 15-7). -/
def clockStatusBytes (s : State) : List Byte :=
  let c := s.clocks
  [bflag c.refin, byte (refCode c.ref), byte (pllSCode c.pllS), byte (pllACode c.pllA), byte (pllNCode c.pllN), byte c.plan] ++
  leS 4 c.trim ++ leS 4 c.target ++
  [byte (sumNat (mapIdx (fun n o => flag o.enable * 2 ^ n + flag o.gated * 2 ^ (n + 4)) c.outs)),
   byte (flag s.time.armed + 2 * flag (decide (0 < s.time.edges)) + 4 * flag s.time.lostSinceArm)] ++
  le 4 s.time.dfc.toNat ++ [s.time.epoch] ++ le 2 c.hops ++ [0]

def cmdClockStatus : Cmd := { opc := 0x85, len := lenIn [0], ids := noIds, body := fun _ s => okay (clockStatusBytes s) s }

/-- `CLOCK_STATUS` (R428). -/
def execClockStatus (tag : Byte) (p : List Byte) (s : State) : Host.Outcome State Fault Refusal := hostRow cmdClockStatus tag p s

/-! ### The reference -/

/-- The reference detector runs: in the main domain, and in ghost light (R441, R486). -/
def refWatched (s : State) : Bool := !mainOff s || s.ghost.watch != .off

/-- Lost alignment (R464). -/
def loseSync (reason : Nat) (s : State) : State :=
  evSyncLost reason { s with time := { s.time with inUse := false, lostSinceArm := true } }

/-- A locked synthesizer coasts (R462). -/
def coastS (s : State) : State :=
  if s.clocks.pllS = .locked ∨ s.clocks.pllS = .hopping then evClock 1 2 0 (setClocks (fun c => { c with pllS := .coasting }) s) else s

def coastA (s : State) : State :=
  if s.clocks.pllA = .locked then evClock 2 2 0 (setClocks (fun c => { c with pllA := .coasting }) s) else s

/-- A `REF_CONFIG` that waits for a relock completes with `ref_state` 0 (R423). -/
def refConfigGivesUp (s : State) : State :=
  let fix (e : Executing) : Executing := if e.wait = .relock then { e with payload := refReply s.clocks } else e
  finishWait .relock { s with mgr := { s.mgr with executing := s.mgr.executing.map fix, cueExec := s.mgr.cueExec.map fix } }

/-- The reference is lost while it was present (R444, R461, R462, R464). -/
def loseRef (s : State) : State :=
  let used := s.time.inUse
  let s1 := evClock 0 1 0 (setClocks (fun c => { c with ref := .absent, stepMax := 0 }) s)
  let s2 := coastA (coastS s1)
  let s3 := if used then loseSync 0 s2 else s2
  let s4 := { s3 with time := { s3.time with usedAtLoss := used || (s.clocks.ref == .buildOut && s.time.usedAtLoss), edgeInReturn := false } }
  refreshClocks (refConfigGivesUp (if mainOff s then s4 else faultBegins 0x40 0 0 0 false s4))

/-- `REFERENCE_ABSENT` (R444, Table 16-6). -/
def execReferenceAbsent (s : State) : Host.Outcome State Fault Refusal :=
  if s.clocks.ref = .absent ∨ !refWatched s then .next s else .next (loseRef s)

/-- A synthesizer coasts and has to return to the reference (R463). -/
def anyCoasting (c : Clocks) : Bool := c.pllS == .coasting || c.pllA == .coasting

/-- The reference returns (R444, R463): coasting synthesizers pull in; with none, the fault ends. -/
def returnRef (s : State) : State :=
  let s0 := if s.reset_.domain = .starting then s else evClock 0 0 0 s
  if anyCoasting s.clocks then
    becomesRunnable 0x40 0 (refreshClocks (setClocks (fun c => { c with ref := .buildOut, stepMax := 0 }) s0))
  else faultEnds 0x40 0 2 (becomesRunnable 0x40 0 (refreshClocks (setClocks (fun c => { c with ref := .present }) s0)))

/-- `REFERENCE_PRESENT` (R444, R463, R467). -/
def execReferencePresent (s : State) : Host.Outcome State Fault Refusal :=
  if s.clocks.ref = .absent ∧ refWatched s then .next (returnRef s) else .next s

/-- The last synthesizer has completed step 3 of R463: the fault ends, and a phase step ends the alignment (R464). -/
def endReturn (s : State) : State :=
  let t := s.time
  let s1 := faultEnds 0x40 0 2 (setClocks (fun c => { c with ref := .present }) s)
  if 100 < s.clocks.stepMax ∧ (t.usedAtLoss ∨ t.edgeInReturn) then
    let s2 := loseSync 1 s1
    { s2 with time := { s2.time with usedAtLoss := false, edgeInReturn := false } }
  else { s1 with time := { s1.time with inUse := s1.time.inUse || t.edgeInReturn, usedAtLoss := false, edgeInReturn := false } }

/-- A synthesizer has locked with its build-out offset (R463 step 3). -/
def builtOut (clock : Nat) (stepPs : Nat) (coastErr : Int) (f : Clocks → Clocks) (s : State) : State :=
  let s1 := evClock clock 3 coastErr (setClocks (fun c => { f c with stepMax := max c.stepMax stepPs }) s)
  let s2 := refreshClocks (updRec 0x40 0 (fun r => { r with detailB := coastErr }) s1)
  if anyCoasting s2.clocks then s2 else endReturn s2

/-- `BUILD_OUT_COMPLETE` (R463): PLL-S or PLL-A. -/
def execBuildOutComplete (synth : Synth) (stepPs : Nat) (coastErr : Int) (s : State) : Host.Outcome State Fault Refusal :=
  if s.clocks.ref ≠ .buildOut then .next s else
  match synth with
  | .s => if s.clocks.pllS = .coasting then
      .next (builtOut 1 stepPs coastErr (fun c => { c with pllS := .locked, offS := stepPs }) s) else .next s
  | .a => if s.clocks.pllA = .coasting then
      .next (builtOut 2 stepPs coastErr (fun c => { c with pllA := .locked, offA := stepPs }) s) else .next s
  | .n => .next s

/-! ### Loss and lock -/

/-- PLL-S loses lock: the ADC clocks and outputs of source 2 are gated (Table 16-6). -/
def losePllS (s : State) : State :=
  refreshClocks (faultBegins 0x41 0 0 0 true (evClock 1 1 0 (setClocks (fun c => { c with pllS := .locking }) s)))

/-- PLL-A loses lock: MCLK, its outputs and every port are gated; the timeline runs on the flywheel (Table 16-6). A
PLL-A that was returning to the reference leaves the return. -/
def losePllA (s : State) : State :=
  let s1 := refreshClocks (gatePorts (faultBegins 0x50 0 0 0 true (evClock 2 1 0 (setClocks (fun c => { c with pllA := .gated }) s))))
  if s.clocks.ref = .buildOut ∧ !anyCoasting s1.clocks then endReturn s1 else s1

/-- PLL-N loses lock, and the sentinel receiver is gated (Table 16-6). -/
def losePllN (s : State) : State :=
  if s.clocks.pllN = .locked then evClock 3 1 0 (setClocks (fun c => { c with pllN := .locking }) s) else s

/-- PLL-N locks on its reference; its first lock of a watch raises the entry record (R466, R486). -/
def lockPllN (s : State) : State :=
  if s.clocks.pllN = .locking ∧ refUp s.clocks then
    let s1 := evClock 3 0 0 (setClocks (fun c => { c with pllN := .locked }) s)
    if s.ghost.entryDue then evGhost 0 { s1 with ghost := { s1.ghost with entryDue := false } } else s1
  else s

/-- `PLL_LOSS_OF_LOCK` (R460, R461). An absent reference is not a loss of lock. -/
def execPllLossOfLock (synth : Synth) (s : State) : Host.Outcome State Fault Refusal :=
  match synth with
  | .s => if s.clocks.pllS = .locked ∧ s.clocks.ref ≠ .absent then .next (losePllS s) else .next s
  | .a => if (s.clocks.pllA = .locked ∧ s.clocks.ref ≠ .absent) ∨ (s.clocks.pllA = .coasting ∧ s.clocks.ref = .buildOut) then
      .next (losePllA s) else .next s
  | .n => .next (losePllN s)

/-- The sub-band of the plan in force is held, and its retained copy is written while VMAIN allows (R447, R471). -/
def rememberBand (s : State) : State :=
  let n := s.clocks.plan
  { s with clocks := { s.clocks with band := s.clocks.band.set n true },
           retained := if s.supply.sag then s.retained else { s.retained with band := s.retained.band.set n (some true) } }

/-- Lock events of a start-up raise no record; each relock does (R423, R461, R467). -/
def lockRecord (clock : Nat) (s : State) : State := if s.reset_.domain = .starting then s else evClock clock 0 0 s

/-- Both synthesizers of the main domain have locked: `REF_CONFIG` completes (R423). -/
def bothLocked (s : State) : State :=
  if s.clocks.pllS = .locked ∧ s.clocks.pllA = .locked then
    finishWait .relock (refreshClocks (setClocks (fun c => { c with startLocked := true }) s))
  else refreshClocks s

/-- PLL-S locks; a plan whose band memory was missing has been searched by then (R467). -/
def lockPllS (s : State) : State :=
  faultEnds 0x41 0 2 (bothLocked (rememberBand (lockRecord 1
    (setClocks (fun c => { c with pllS := .locked, band := List.replicate 4 true }) s))))

/-- PLL-A first locks after a reset: the DFC is 0, and the epoch moves but for the first lock after a cold reset (R27). -/
def startTimeline (t : Timeline) : Timeline :=
  if t.started then t
  else { t with started := true, dfc := 0, epoch := if t.coldLock then t.epoch else t.epoch + 1, coldLock := false }

def lockPllA (s : State) : State :=
  let s1 := setClocks (fun c => { c with pllA := .locked }) { s with time := startTimeline s.time }
  let s2 := ungatePorts (bothLocked (lockRecord 2 s1))
  if portsOpen s2 then faultEnds 0x50 0 2 s2 else s2

/-- The recovery of a fault may run, or there is no such fault (R513). -/
def recoveryTurn (code : Nat) (s : State) : State × Bool :=
  let s1 := becomesRunnable code 0 s
  (s1, !faultOpen s1 code 0 || holdsSlot s1 code 0)

/-- `PLL_LOCK` (R460, R461, R467). A locking synthesizer needs its reference; a relock after a loss, its recovery's turn. -/
def execPllLock (synth : Synth) (s : State) : Host.Outcome State Fault Refusal :=
  match synth with
  | .s =>
    if s.clocks.pllS = .locking ∧ refUp s.clocks then
      let r := recoveryTurn 0x41 s
      .next (if r.2 then lockPllS r.1 else r.1)
    else .next s
  | .a =>
    if (s.clocks.pllA = .locking ∨ s.clocks.pllA = .gated) ∧ refUp s.clocks ∧ (s.clocks.ref = .buildOut → s.clocks.pllS ≠ .coasting) then
      let r := recoveryTurn 0x50 s
      .next (if r.2 then lockPllA r.1 else r.1)
    else .next s
  | .n => .next (lockPllN s)

/-- `PLL_S_RELOCK_RETRY` (R461): tried from band memory every 10 ms until it succeeds. -/
def execPllSRelockRetry (locked : Bool) (s : State) : Host.Outcome State Fault Refusal :=
  if s.clocks.pllS = .locking ∧ faultOpen s 0x41 0 ∧ refUp s.clocks then
    let r := recoveryTurn 0x41 s
    .next (if r.2 && locked then lockPllS r.1 else r.1)
  else .next s

/-! ### SYNC -/

/-- `SYNC_CAPTURE` (R457): an armed edge is captured while reference edges arrive, and SYNC disarms. -/
def execSyncCapture (s : State) : Host.Outcome State Fault Refusal :=
  if s.time.armed ∧ refUp s.clocks then .next { s with time := { s.time with armed := false, captured := true } } else .next s

/-- Every pending cue is cancelled with its record (R34, R407). -/
def cancelCues (s : State) : State :=
  s.cues.foldl (fun s c => evCue c.id 2 c.packet.opc c.packet.tag 0 0 [] s) { s with cues := [] }

/-- Held audio effects apply at once, in the order held (R29). -/
def releaseEffects (s : State) : State := s.held.foldl (fun s h => applyEffect h.effect s) { s with held := [] }

/-- A controller-mode port begins a new frame and block; a target-mode port sees a rate step, reported by its own row (R321). -/
def syncPort (p : Port) : Port := if p.cfg.target then p else { p with block := 0, words := [] }

/-- A target-mode port takes the step of the timeline as a rate step (R321). -/
def syncTargets (s : State) : State :=
  forEach (List.range s.ports.tdm.length) (fun n s =>
    match s.ports.tdm[n]? with
    | some p => if p.cfg.target && p.st == .locked && !p.gated then stepRate n p.ppm s else s
    | none => s) s

/-- The sync instant (R27, R34, R309, R312, R458, R464). -/
def syncInstant (s : State) : State :=
  let ret := s.clocks.ref = .buildOut
  let s := calSync s
  let t := { s.time with captured := false, dfc := 0, epoch := s.time.epoch + 1, edges := satAdd 65535 s.time.edges 1,
                         inUse := !decide ret, edgeInReturn := decide ret || s.time.edgeInReturn }
  let s1 := setClocks (fun c => { c with offS := 0, offA := 0 })
    { s with time := t, ports := { s.ports with tdm := s.ports.tdm.map syncPort, spdif := { s.ports.spdif with block := 0 } } }
  syncTargets (cancelCues (releaseEffects s1))

/-- `SYNC_INSTANT` (R458): 256 reference periods after the capture. -/
def execSyncInstant (s : State) : Host.Outcome State Fault Refusal :=
  if s.time.captured then .next (syncInstant s) else .next s

end Sys2Proof.Machine
end

