-- ==== Sys2Proof/Machine/LaneAudio.lean ====
section
/-! DEFINITION. The signal path of a lane over one 10 ms update: transport of its bins, mixing, combining, demodulation, the
impulse blanker, de-emphasis, high cut and soft mute (R105, R106, R111 to R117, R128, R129, R132, R135 to R140, R147 to R149). -/

namespace Sys2Proof.Machine

/-! ### Bins to baseband (R105, R106, R111 to R114, R129) -/

/-- Latency of a lane in ticks from its antenna to its output (R129). -/
def laneLatency (am : Bool) : Nat := if am then 960 else 300

/-- Ticks that the blanker of an AM lane holds its samples. -/
def blankerTicks (am : Bool) : Nat := if am then 192 else 0

/-- First tick at the antenna of the samples that an update brings: those whose audio is due from the update on (log entry 138). -/
def windowStart (am : Bool) (now : Nat) : Nat := now - (laneLatency am - blankerTicks am)

/-- Bin spacing of a band in Hz (Table 4-1). -/
def binSpacing (low : Bool) (plan : Nat) : Rat := (fsOf plan : Rat) / binDiv low

/-- Samples that a bin gives up to a tick, at 2Δ samples/s (Table 4-1). -/
def binSamplesTo (am : Bool) (plan t : Nat) : Nat := (2 * binSpacing am plan * t / 48000).floor.toNat

/-- Every bin gives the samples of the 10 ms. -/
def fitBins (am : Bool) (plan now : Nat) (b : BinSamples) : BinSamples :=
  let n := binSamplesTo am plan now - binSamplesTo am plan (now - 480)
  b.map fun x => (x.1, x.2.map (fitList n Cx.zero))

/-- Compensation of an input at a sample of the update (R48). -/
def laneAmp (s : State) (am : Bool) (i n : Nat) : Rat :=
  compAmp (compAt (inputAt s i) (windowStart am s.now + (n * 48000 / (2 * binSpacing am s.clocks.plan)).floor.toNat))

/-- The bins of an update as transported: the compensated samples in blocks. -/
def carryBins (s : State) (am : Bool) (b : BinSamples) : List (Nat × List (List BinBlock)) :=
  carry (laneAmp s am) (fitBins am s.clocks.plan s.now b)

def laneRate (am : Bool) : Nat := if am then 24000 else 384000

/-- Number of the first baseband sample of an update. -/
def firstSample (am : Bool) (now : Nat) : Nat := if am then now / 2 else now * 8

/-- Baseband of one input over the 10 ms; nothing where there is no bin. -/
def baseband (s : State) (am : Bool) (nco : Int) (bins : List (List BinBlock)) : List Cx :=
  if bins.isEmpty then []
  else mixDown nco (laneRate am) (firstSample am s.now)
    (fitList (laneRate am / 100) Cx.zero (Config.assemble am s.clocks.plan (bins.map fun l => l.flatMap decodeBlock)))

/-- Bins of one input of a lane. -/
def binsOf (i : Nat) (l : Lane) : List (List BinBlock) := ((l.bins.find? (·.1 == i)).map (·.2)).getD []

/-- Power of a lane's carrier at the ball of an input, 1/4 dBm: that of its centre bin, of which 1/4 is ADC full scale (R14, R106,
Table 5-4), before the compensation. -/
def inputLevel (s : State) (am : Bool) (i : Nat) (l : Lane) : Int :=
  let x := inputAt s i
  let c := ((binsOf i l).getD (if am then 2 else 1) []).flatMap decodeBlock
  clampInt (-32767) 32767 (roundRat (((centiDb (4 * meanOf (c.map Cx.power)) - 1200 - 100 * x.gain : Int) : Rat) / 25 -
    (compAt x (windowStart am s.now) : Rat) * 4 / 512))

/-! ### Combining (R115 to R117) -/

/-- Noise power of an input at a frequency, from its fine-map floor; equal on inputs without a floor. -/
def noiseAt (s : State) (i f : Nat) : Rat := match floorAt s i f with | some x => linOf x | none => 1

/-- Carrier-to-noise ratio of a branch. -/
def branchCnr (sig : Nat → Rat) (b : Branch) : Rat := b.h.power / sig b.input

def bestCnr (sig : Nat → Rat) (l : List Branch) : Rat := (l.map (branchCnr sig)).foldl max 0

/-- The gate: out more than 20 dB below the best antenna, in again within 17 dB. -/
def gateBranch (sig : Nat → Rat) (best : Rat) (b : Branch) : Branch :=
  if b.live then { b with live := decide (best ≤ 100 * branchCnr sig b) }
  else { b with live := atLeastDb (-170) (branchCnr sig b) best }

/-- Weight factor of a branch: 1 in its steady state. -/
def factorOf (b : Branch) : Rat := if b.live then b.ramp else 0

/-- Combined samples of one 250 us, of the carrier magnitude of the strongest antenna. -/
def combine (sig : Nat → Rat) (l : List Branch) (x : Nat → List Cx) : List Cx :=
  let norm := sumOf (l.map fun b => factorOf b * b.h.power / sig b.input)
  let top := (l.map fun b => b.h.power).foldl max 0
  if norm = 0 then []
  else
    let n := (l.map fun b => (x b.input).length).foldl max 0
    (List.range n).map fun k =>
      ((sumCx (l.map fun b => (b.h.conj.mul ((x b.input).getD k Cx.zero)).scale (factorOf b / sig b.input))).scale (sqrtQ top / norm)).round

/-- The samples of the strongest antenna, against which the first estimates are made. -/
def strongestOf (l : List Branch) (x : Nat → List Cx) : List Cx :=
  l.foldl (fun acc b => if powerOf acc < powerOf (x b.input) then x b.input else acc) []

/-- One 250 us: the output, then the estimates of the channels, smoothed over 2 ms, and the ramps of entry and leaving. -/
def combineStep (sig : Nat → Rat) (mask : Nat) (l : List Branch) (x : Nat → List Cx) : List Cx × List Branch :=
  let y0 := combine sig l x
  let y := if powerOf y0 = 0 then strongestOf l x else y0
  let est := l.map fun b =>
    let e := (correlate (x b.input) y).scale (if powerOf y = 0 then 0 else 1 / powerOf y)
    { b with h := { re := smooth 8 1 b.h.re e.re, im := smooth 8 1 b.h.im e.im },
             ramp := if bitOf mask b.input then min 1 (b.ramp + 1 / 40) else max 0 (b.ramp - 1 / 8) }
  (y, est.map (gateBranch sig (bestCnr sig est)))

/-- The update's samples, 96 to a step. -/
def combineAll (sig : Nat → Rat) (mask : Nat) : Nat → List Branch → (Nat → List Cx) → List Cx × List Branch
  | 0, l, _ => ([], l)
  | n + 1, l, x =>
    let r := combineStep sig mask l fun i => (x i).take 96
    let q := combineAll sig mask n r.2 fun i => (x i).drop 96
    (r.1 ++ q.1, q.2)

/-- The branches of an antenna set: those of a lane's first update have their weight at once, a later one enters with none. -/
def fitBranches (first : Bool) (mask : Nat) (l : List Branch) : List Branch :=
  let keep := l.filter fun b => bitOf mask b.input || decide (0 < b.ramp)
  let new := (List.range 4).filter fun i => bitOf mask i && !(keep.any (·.input == i))
  keep ++ new.map fun i => { input := i, h := Cx.zero, live := true, ramp := if first then 1 else 0 }

/-! ### Networks (R138, R140, R148, R149) -/

/-- Share of a step of a first-order low-pass of a time constant in us at 48 kS/s. -/
def deemAlpha (code : Nat) : Rat := if code = 0 then 1 else 1 - expNeg ((1000000 : Rat) / 48000 / (if code = 1 then 50 else 75))

/-- The same for a corner in kHz; a bypass passes all. -/
def cutAlpha : Option Rat → Rat
  | none => 1
  | some f => 1 - expNeg (2 * piQ * f / 48)

def lowPass (a y x : Rat) : Rat := if a = 1 then x else quant (y + a * (x - y))

/-- Soft mute in dB as a gain. -/
def muteGain (m : Rat) : Rat := ampDb (-m)

/-- Left and right of one sample after the matrix (R137), de-emphasis and high cut. -/
def fmSample (c : ChainSet) (b : Rat) (n : Networks) (ms : Rat × Rat) : (Rat × Rat) × Networks :=
  let d := deemAlpha c.deemph
  let k := cutAlpha c.corner
  let dl := lowPass d n.deemL (ms.1 + b * ms.2)
  let dr := lowPass d n.deemR (ms.1 - b * ms.2)
  let n1 := { n with deemL := dl, deemR := dr, cutL := lowPass k n.cutL dl, cutR := lowPass k n.cutR dr }
  ((n1.cutL, n1.cutR), n1)

/-- Main and side signal of the update with the side factor of each sample. -/
def runFm (c : ChainSet) : Networks → List (Rat × (Rat × Rat)) → List (Rat × Rat) × Networks
  | n, [] => ([], n)
  | n, x :: xs =>
    let r := fmSample c x.1 n x.2
    let q := runFm c r.2 xs
    (r.1 :: q.1, q.2)

/-- Frequencies between samples in Hz: the turns from each to the next at the rate (R128, R139). -/
def discriminate (rate : Nat) (last : Cx) (x : List Cx) : List Rat :=
  ((last :: x).zip x).map fun p => let d := p.2.mul p.1.conj; rate * argTurn d.re d.im

/-- The channel filter of a width of Table 5-2, and the multiplex behind it: 75 kHz of deviation is 1/2 (R128). -/
def channelFm (width : Nat) (x : List Cx) : List Cx := if x.isEmpty then [] else fitList x.length Cx.zero (Config.fmChannel width x)

def multiplex (width : Nat) (last : Cx) (x : List Cx) : List Rat := (discriminate 384000 last (channelFm width x)).map fun f => f / 150000

/-- The pilot of a multiplex: its component at 19 kHz (R136). -/
def pilotTone (first : Nat) (m : List Rat) : Cx :=
  if m.isEmpty then Cx.zero
  else ((sumCx (m.zipIdx.map fun x =>
    let t : Rat := (19000 * (first + x.2) : Nat) / (384000 : Rat)
    { re := x.1 * cosTurn t, im := -(x.1 * sinTurn t) })).scale (1 / m.length)).round

/-- The 38 kHz reference at a value of the multiplex: the pilot is a sine, and so is its reference (R136). -/
def reference38 (p : Cx) (n : Nat) : Rat :=
  if p.power = 0 then 0
  else
    let t : Rat := (38000 * n : Nat) / (384000 : Rat)
    0 - ((p.mul p).mul { re := cosTurn t, im := sinTurn t }).im / p.power

/-- A list filled up in front. -/
def fillFront {α : Type} (n : Nat) (d : α) (l : List α) : List α := List.replicate (n - l.length) d ++ l

/-- Audio of a multiplex at 48 kHz: each sample filters the 64 values up to it, with unity gain at 0 Hz. `old`: the 63 values before. -/
def audioOf (old m : List Rat) : List Rat :=
  let all := fillFront 63 0 old ++ m
  (List.range (m.length / 8)).map fun k => firAt Config.audioTap ((all.drop (8 * k + 7)).take 64)

/-- Main and side signal (R137): half the sum and half the difference of left and right. -/
def mainSide (first : Nat) (old m : List Rat) : List (Rat × Rat) :=
  let p := pilotTone first m
  let side (from_ : Nat) (l : List Rat) : List Rat := l.zipIdx.map fun x => 2 * x.1 * reference38 p (from_ + x.2)
  (audioOf old m).zip (audioOf (side (first - old.length) old) (side first m))

/-- Widths of Table 5-2 in kHz. -/
def widthKHz (w : Nat) : Nat := [84, 84, 114, 142, 184, 236].getD w 236

/-! ### AM (R147, R148) -/

def medianOf (l : List Rat) : Rat := (sortBy (fun a b => decide (a ≤ b)) l).getD ((l.length - 1) / 2) 0

/-- Samples that the blanker replaces: above 4 times the median envelope of the 10 ms that `block` is, with 8 on each side. The median of
an even number is its lower middle value (DESIGN CHOICE, log entry 144). -/
def blankMarks (block x : List Cx) : List Bool :=
  let m := medianOf (block.map Cx.power)
  let hit := x.map fun c => decide (16 * m < c.power)
  (List.range x.length).map fun n => (List.range 17).any fun j => 8 ≤ n + j && (hit.getD (n + j - 8) false)

/-- The nearest kept sample from a position on, downward or upward. -/
def keptBelow (marks : List Bool) : Nat → Option Nat
  | 0 => if marks.getD 0 true then none else some 0
  | n + 1 => if marks.getD (n + 1) true then keptBelow marks n else some (n + 1)

def keptAbove (marks : List Bool) (n : Nat) : Option Nat :=
  (List.range (marks.length - n)).findSome? fun j => if marks.getD (n + j) true then none else some (n + j)

/-- Linear interpolation across marked samples; the nearest kept one at an end. -/
def interpolate (x : List Cx) (marks : List Bool) : List Cx :=
  (List.range x.length).map fun n =>
    if !(marks.getD n false) then x.getD n Cx.zero
    else match keptBelow marks n, keptAbove marks n with
      | some a, some b =>
        let t : Rat := ((n - a : Nat) : Rat) / (b - a : Nat)
        ((x.getD a Cx.zero).scale (1 - t)).add ((x.getD b Cx.zero).scale t)
      | some a, none => x.getD a Cx.zero
      | none, some b => x.getD b Cx.zero
      | none, none => Cx.zero

/-- Blanked fraction in 10^-6. -/
def blankShare (x : List Cx) : Nat :=
  if x.isEmpty then 0 else (blankMarks x x).countP id * 1000000 / x.length

/-- The carrier of an AM baseband over the update. -/
def carrierOf (x : List Cx) : Cx := if x.isEmpty then Cx.zero else (sumCx x).scale (1 / x.length)

/-- The synchronous product (R147): the part of a baseband in phase with the carrier. -/
def inPhase (c : Cx) (x : List Cx) : List Rat :=
  let m := sqrtQ c.power
  x.map fun a => if m = 0 then 0 else quant ((a.mul c.conj).re / m)

/-- The detected signal (R147). -/
def detect (c : ChainSet) (x : List Cx) : List Rat :=
  if !c.sync then x.map fun a => sqrtQ a.power
  else if c.sideband = 0 then inPhase (carrierOf x) x
  else inPhase (carrierOf x) (fitList x.length Cx.zero (Config.sideband c.sideband x))

/-- The level control over the update, 200 ms, on the mean envelope. -/
def nextLevel (level : Rat) (x : List Cx) : Rat :=
  let e := meanOf (x.map fun a => sqrtQ a.power)
  if level = 0 then e else smooth 200 10 level e

/-- One AM sample at 24 kS/s: normalised so that 100 % modulation is 1/2 of full scale, high-passed at 40 Hz, high-cut. -/
def amSample (c : ChainSet) (n : Networks) (x : Rat) : Rat × Networks :=
  let u := if n.level = 0 then 0 else x / (2 * n.level)
  let y := quant (expNeg (2 * piQ * 40 / 24000) * (n.hpOut + u - n.hpIn))
  let k := match c.corner with | none => 1 | some f => 1 - expNeg (2 * piQ * f / 24)
  let n1 := { n with hpIn := u, hpOut := y, cutL := lowPass k n.cutL y }
  (n1.cutL, n1)

def runAm (c : ChainSet) : Networks → List Rat → List Rat × Networks
  | n, [] => ([], n)
  | n, x :: xs =>
    let r := amSample c n x
    let q := runAm c r.2 xs
    (r.1 :: q.1, q.2)

/-! ### The audio of one update -/

/-- Side factors of the 480 samples of an update: b moves on a line to its new value (R137). -/
def sideFactors (old new : Rat) : List Rat := (List.range 480).map fun n => old + (new - old) * (n + 1 : Nat) / 480

/-- Left and right in fractions of full scale under one setting, with the memories after it. -/
def chainFm (c : ChainSet) (l : Lane) (now : Nat) (b : Rat) (x : List Cx) : List (Rat × Rat) × Networks :=
  if x.isEmpty then ([], l.nets)
  else runFm c l.nets ((sideFactors l.sideGain b).zip (mainSide (firstSample false now) l.mpx (multiplex (widthKHz c.width) (l.wide.headD Cx.zero) x)))

/-- AM audio on the timeline: its own samples at every other tick, and between them an interpolation of unity gain over eight. -/
def toTimeline (y : List Rat) : List Rat :=
  (List.range (2 * y.length)).map fun n =>
    if n % 2 = 0 then y.getD (n / 2) 0 else firAt Config.timelineTap ((y.drop (n / 2 - 3)).take 8)

def chainAm (c : ChainSet) (n : Networks) (x : List Cx) : List (Rat × Rat) × Networks :=
  if x.isEmpty then ([], n)
  else
    let y := fitList x.length Cx.zero (Config.amChannel (c.width * 500) x)
    let r := runAm c { n with level := nextLevel n.level y } (detect c y)
    ((toTimeline r.1).map fun v => (v, v), r.2)

/-- A setting other than the automatic width has changed that is crossfaded over 10 ms (R132, R140, R147, R149); a high-cut corner
that moves is not, its bypass is. -/
def chainChanged (old new : ChainSet) : Bool :=
  old.deemph != new.deemph || old.sync != new.sync || old.sideband != new.sideband || old.corner.isSome != new.corner.isSome ||
  (old.width != new.width && !(old.auto && new.auto))

/-- The automatic width alone is crossfaded over 2 ms (R135). -/
def widthMoves (old new : ChainSet) : Bool := old.width != new.width && old.auto && new.auto

def blendAt (len : Nat) (old new : List (Rat × Rat)) : List (Rat × Rat) :=
  new.zipIdx.map fun y =>
    let w : Rat := if len ≤ y.2 then 1 else (y.2 : Rat) / len
    let o := old.getD y.2 (0, 0)
    (o.1 + w * (y.1.1 - o.1), o.2 + w * (y.1.2 - o.2))

/-- The audio of an update from what each setting gives: the widths faded first, then the other settings. The old settings take the
corner in force while both have one. -/
def crossfaded (run : ChainSet → List (Rat × Rat)) (old new : ChainSet) : List (Rat × Rat) :=
  let widths (c : ChainSet) : List (Rat × Rat) :=
    if widthMoves old new then blendAt 96 (run { c with width := old.width }) (run { c with width := new.width }) else run c
  if chainChanged old new then
    blendAt 480 (widths (if old.corner.isSome && new.corner.isSome then { old with corner := new.corner } else old)) (widths new)
  else widths new

/-- Audio full scale as 24 bits, saturating (R128). -/
def pcm24 (x : Rat) : Int := clampInt (-8388608) 8388607 (roundRat (x * 8388608))

/-! ### The whole update -/

/-- The settings in force. -/
def chainOf (am : Bool) (l : Lane) : ChainSet :=
  if am then { deemph := 0, width := l.am.bandwidth / 500, sync := l.syncDet, sideband := if l.syncDet then l.am.sideband else 0, corner := l.corner, auto := false }
  else { deemph := l.fm.deemph, width := l.filter, sync := false, sideband := 0, corner := l.corner, auto := l.fm.filter == 0 }

def profileOf (am : Bool) (l : Lane) : Nat := if am then l.am.profile else l.fm.profile

/-- Mean power of output samples over both channels, `p` the sum of their powers, against that of a full-scale sine (DESIGN CHOICE, log
entry 151). -/
def meanPower (n : Nat) (p : Rat) : Rat := if n = 0 then 0 else p / (n * 8388608 * 8388608)

/-- The baseband of a lane over the update and its branches after it: combined for FM, of the one input for AM. -/
def laneBaseband (s : State) (am : Bool) (l : Lane) : List Cx × List Branch :=
  let x (i : Nat) : List Cx := baseband s am l.nco (binsOf i l)
  if am then (((List.range 6).find? (bitOf l.mask)).elim [] x, [])
  else
    let ins := (List.range 4).map x
    combineAll (fun i => noiseAt s i l.freq) l.mask 40 (fitBranches l.first (maskMinus l.mask l.held) l.branches) fun i => ins.getD i []

/-- Samples that an AM lane keeps back on their way through the blanker (DESIGN CHOICE, log entry 144), and those before them that it
still sees. -/
def blankerHold : Nat := 96
def blankerPast : Nat := 32

/-- The samples of an AM update that leave the blanker (R148): marks and lines reach over the bounds of updates. -/
def blanked (l : Lane) (x : List Cx) : List Cx :=
  let all := l.wide ++ x
  let y := if l.am.blanker = 1 then interpolate all (blankMarks x all) else all
  (y.take (all.length - blankerHold)).drop (l.wide.length - blankerHold)

/-- The audio of one update: the chain in force, crossfaded from the one before where a setting has changed, behind the soft mute
(R142). Its samples wait for their ticks. -/
def laneAudioStep (s : State) (am : Bool) (bb : List Cx × List Branch) (l : Lane) : Lane :=
  let x := if am then blanked l bb.1 else bb.1
  let new := chainOf am l
  let b := l.gate * l.blendS
  let run (c : ChainSet) : List (Rat × Rat) × Networks := if am then chainAm c l.nets x else chainFm c l s.now b x
  let y := match l.chain with
    | some old => crossfaded (fun c => (run c).1) old new
    | none => (run new).1
  let g := muteGain l.mute
  let heard := profileOf am l == 2 || decide (l.mute < 59 / 2)
  let out := ((fillFront 480 (0, 0) y).take 480).map fun v => ({ l := pcm24 (g * v.1), r := pcm24 (g * v.2), valid := heard && !x.isEmpty } : Sample)
  { l with branches := bb.2, nets := (run new).2, chain := some new, sideGain := b,
           mpx := if am then [] else let m := l.mpx ++ multiplex (widthKHz new.width) (l.wide.headD Cx.zero) x; m.drop (m.length - 63),
           wide := if am then let all := l.wide ++ bb.1; all.drop (all.length - (blankerHold + blankerPast)) else (channelFm (widthKHz new.width) x).getLast?.toList,
           audio := (l.audio ++ out).drop (l.audio.length - 480) }

/-- `audio_rms`: the level of the last 1 s in -0.5 dB (Table 5-4). -/
def audioRmsOf (l : Lane) : Nat := (clampInt 0 255 (roundRat (-(centiDb (meanOf l.powers) : Rat) / 50))).toNat

end Sys2Proof.Machine
end

