-- ==== Sys2Proof/Machine/Mixer.lean ====
section
/-! DEFINITION. The audio of a program in one tick: its members through their trim stages, the two paths, crossfades, the delay
store, alignment histories and their correlation, and the output before the curtain (R216, R226, R231, R241 to R246, R248 to R251,
R256, R257, R260, R265 to R267, R503). -/

namespace Sys2Proof.Machine

/-! ### Samples -/

def addSamples (g : Rat) (a b : Sample) : Sample :=
  { l := clampInt (-8388608) 8388607 (roundRat (g * a.l + (1 - g) * b.l)),
    r := clampInt (-8388608) 8388607 (roundRat (g * a.r + (1 - g) * b.r)),
    valid := if 1 / 2 < g then a.valid else b.valid }

def amplify (g : Rat) (x : Sample) : Sample :=
  if g = 1 then x
  else { x with l := clampInt (-8388608) 8388607 (roundRat (g * x.l)), r := clampInt (-8388608) 8388607 (roundRat (g * x.r)) }

def monoOf (x : Sample) : Int := roundDiv (x.l + x.r) 2

/-- Margin of the span that a gap affects: 0.5 ms (FM), 2 ms (AM) (R293). -/
def gapMargin (am : Bool) : Nat := if am then 96 else 24

/-- Ticks from `n` to the end of the affected span that covers it; 0 outside every span. -/
def spanRest (m n : Nat) (gaps : List (Nat × Nat)) : Nat :=
  (gaps.map fun g => if g.1 ≤ n + m ∧ n < g.1 + g.2 + m then g.1 + g.2 + m - n else 0).foldl max 0

/-- One sample of a lane behind concealment (R293): in a span the repetition of what went before it, joined by 1 ms crossfades, fading
over 20 ms where the span is longer; after such a span a fade-in of 10 ms. `rest`: ticks of the span still to come from this one. -/
def concealSample (rest : Nat) (l : Lane) (x : Sample) : Lane × Sample :=
  let left := max l.spanLeft rest
  if left = 0 then
    let g : Rat := if l.fadeIn = 0 then 1 else 1 - (l.fadeIn : Rat) / 480
    ({ l with spanDone := 0, fadeIn := l.fadeIn - 1 }, { x with l := roundRat (g * x.l), r := roundRat (g * x.r) })
  else
    let long := (l.spanDone != 0 && l.spanLong) || decide (960 < l.spanDone + left)
    let size := min 960 (l.spanDone + left)
    let rep := l.past.getD (size - 1 - l.spanDone % size + l.spanDone) Sample.silent
    let g : Rat := if long then max 0 (1 - (l.spanDone : Rat) / 960) else 1
    let w : Rat := min (min 1 ((l.spanDone : Rat) / 48)) (if long then 1 else min 1 ((left : Rat) / 48))
    ({ l with spanDone := l.spanDone + 1, spanLeft := left - 1, spanLong := long, fadeIn := if long then 480 else 0 },
     { l := roundRat (w * g * rep.l + (1 - w) * x.l), r := roundRat (w * g * rep.r + (1 - w) * x.r), valid := false })

/-- A running lane puts one sample out in a tick: that of the antenna a latency ago, concealed where a gap affects it (R129, R293). -/
def popLane (s : State) (am : Bool) (l : Lane) : Lane :=
  if l.st ≠ .running then { l with out := Sample.silent }
  else
    let a := s.now - laneLatency am
    let r := concealSample (spanRest (gapMargin am) a (gapsAfter s l.mask (a - gapMargin am) ++ l.gaps)) l (l.audio.headD Sample.silent)
    { r.1 with out := r.2, audio := l.audio.tail, past := (r.2 :: l.past).take 1920,
               outPower := l.outPower + ((r.2.l * r.2.l + r.2.r * r.2.r : Int) : Rat) }

def popDecoder (d : Decoder) : Decoder := { d with out := d.audio.headD Sample.silent, audio := d.audio.tail }

/-- The sample of a source in this tick; silence with the flag clear where it delivers none (R214, R216). -/
def sourceSample (s : State) (x : Source) : Sample :=
  if x.kind = 2 then
    match s.decoders.find? fun d => d.use != .none && d.key == some x with
    | some d => if d.engine.isNone || d.valid then d.out else Sample.silent
    | none => Sample.silent
  else match laneAt s x.lane with
    | some l => if l.st = .running then l.out else Sample.silent
    | none => Sample.silent

/-! ### Alignment histories (R244) -/

/-- The A-law of ITU-T G.711 (R244; PRESUMED, log entry 134): the code of a 24-bit sample. -/
def alaw (x : Int) : Nat :=
  let m := min 4095 ((if 0 ≤ x then x.toNat else (-x - 1).toNat) / 2048)
  let seg := if m < 32 then 0 else Nat.log2 m - 4
  (seg * 16 + m / 2 ^ max 1 seg % 16) ^^^ (if 0 ≤ x then 0xD5 else 0x55)

/-- The value of an A-law code, in 13 bits. -/
def alawValue (code : Nat) : Int :=
  let c := code ^^^ 0x55
  let seg := c / 16 % 8
  let m := if seg = 0 then 2 * (c % 16) + 1 else (2 * (c % 16) + 33) * 2 ^ (seg - 1)
  if 128 ≤ c then (m : Int) else -(m : Int)

def isqrtMean (l : List Int) : Nat := if l.isEmpty then 0 else Nat.sqrt ((l.map fun x => x.natAbs * x.natAbs).foldl (· + ·) 0 / l.length)

/-- One sample of tick `now` enters a history, with its gap mark; every whole ms of the timeline gives one envelope value, in 16 bits,
and eight samples at 8 kHz. -/
def pushTrace (now ms : Nat) (x : Sample) (hit : Bool) (t : Trace) : Trace :=
  let acc := (monoOf x, x.valid) :: t.acc
  let marks := if t.acc.isEmpty then hit :: t.hit else upd t.hit 0 (· || hit)
  if now % 48 ≠ 47 then { t with acc := acc, hit := marks }
  else if acc.length < 48 then { t with acc := [], hit := marks.tail }
  else
    let l := acc.reverse.map (·.1)
    let e := min 65535 (isqrtMean ((Config.envelopeBand l).map fun v => roundDiv v 256))
    { acc := [], env := ((e, acc.all (·.2)) :: t.env).take ms, hit := marks.take ms,
      aud := ((Config.decimate l).reverse.map alaw ++ t.aud).take (8 * ms) }

/-- Ticks from the RF input to the output of a source (R129, R215, R243). -/
def deviceLatency (s : State) (x : Source) : Nat :=
  if x.kind = 2 then decoderLatency (((resolve s x).bind fun e => compOf s e x).any fun c => compKind c == 1)
  else laneLatency (isAm x.lane)

/-- The sample that a source put out `ago` ticks ago comes from a gap of its inputs (R267). -/
def gapHit (s : State) (ago : Nat) (x : Source) : Bool :=
  let a := s.now - deviceLatency s x - ago
  if x.kind = 2 then match (resolve s x).bind (engineAt s) with
    | some e => gapIn s e.mask a (a + 1)
    | none => false
  else match laneAt s x.lane with
    | some l => let m := gapMargin (isAm x.lane); spanRest m a (gapsAfter s l.mask (a - m) ++ l.gaps) != 0
    | none => false

/-! ### The delay store (R251, R503) -/

def to16 (x : Int) : Int := clampInt (-32768) 32767 (roundDiv x 256)

/-- Mantissa of class C at a shift. -/
def storeMant (s : Nat) (x : Int) : Int := (x + (if s = 0 then 0 else 2 ^ (s - 1))) / (2 ^ s : Nat)

/-- The smallest shift at which every mantissa fits 10 bits. -/
def shiftFor (l : List Int) : Nat :=
  ((List.range 10).find? fun s => l.all fun x => decide (-512 ≤ storeMant s x) && decide (storeMant s x ≤ 511)).getD 9

/-- Values of a block as they read back. -/
def blockValues (b : StoreBlock) : List Int := b.vals.map fun m => m * (2 ^ b.shift : Nat)

/-- CRC-8 over the values as 16-bit words, low byte first, and the metadata of a right block. -/
def blockCrc (vals : List Int) (meta_ : List Byte) : Byte :=
  crc8 ((vals.flatMap fun v => [byte ((v % 65536).toNat % 256), byte ((v % 65536).toNat / 256)]) ++ meta_)

def encodeStore (cls : Nat) (meta_ : List Byte) (l : List Int) : StoreBlock :=
  let b : StoreBlock := if cls = 1 then { shift := 0, vals := l, crc := 0 }
    else { shift := shiftFor l, vals := l.map (storeMant (shiftFor l)), crc := 0 }
  { b with crc := blockCrc (blockValues b) meta_ }

def metaBytes (lq : Nat) (valid : Bool) (slot : Nat) : List Byte := [byte lq, bflag valid, byte slot]

/-- A pair from 32 samples, oldest first. -/
def encodePair (cls lq slot : Nat) (l : List Sample) : BlockPair :=
  let v := l.all (·.valid)
  { left := encodeStore cls [] (l.map fun x => to16 x.l), right := encodeStore cls (metaBytes lq v slot) (l.map fun x => to16 x.r),
    lq := lq, valid := v, slot := slot }

/-- Block pairs of a page (Table 9-3). -/
def pairsPerPage (cls : Nat) : Nat := if cls = 0 then 375 else 240

/-- One sample of the analog path enters the store; pairs beyond the reservation go. -/
def recordSample (cls pages lq slot : Nat) (x : Sample) (d : DelayStore) : DelayStore :=
  let acc := x :: d.acc
  if acc.length < 32 then { d with acc := acc, recorded := d.recorded + 1 }
  else { acc := [], pairs := (encodePair cls lq slot acc.reverse :: d.pairs).take (pages * pairsPerPage cls), recorded := d.recorded + 1 }

def leftOk (p : BlockPair) : Bool := blockCrc (blockValues p.left) [] == p.left.crc

def rightOk (p : BlockPair) : Bool := blockCrc (blockValues p.right) (metaBytes p.lq p.valid p.slot) == p.right.crc

/-- The pair at a place, newest first. -/
def pairAt (d : DelayStore) (i : Nat) : Option BlockPair := d.pairs[i]?

/-- A value of one channel of a pair: its own, or on a line between the neighbouring samples where its CRC fails (R256). -/
def channelValue (right : Bool) (before p after : Option BlockPair) (k : Nat) : Int × Bool :=
  let vals (q : BlockPair) : List Int := blockValues (if right then q.right else q.left)
  match p with
  | none => (0, false)
  | some q =>
    if (if right then rightOk q else leftOk q) then ((vals q).getD k 0, true)
    else
      let a := before.map fun b => (vals b).getD 31 0
      let c := after.map fun b => (vals b).getD 0 0
      let a1 := a.getD (c.getD 0)
      let c1 := c.getD a1
      (roundDiv (a1 * (32 - k : Nat) + c1 * (k + 1 : Nat)) 33, false)

/-- The place of the sample that entered `tau` ticks ago: the pair, newest first, and the position in it; `none` for the block in
progress. -/
def placeOf (d : DelayStore) (tau : Nat) : Option (Nat × Nat) :=
  if tau < d.acc.length then none
  else some ((tau - d.acc.length) / 32, 31 - (tau - d.acc.length) % 32)

/-- The sample that entered so many ticks ago. -/
def storedAt (d : DelayStore) (tau : Nat) : Sample :=
  match placeOf d tau with
  | none => d.acc.getD tau Sample.silent
  | some (i, k) =>
    let at_ := pairAt d i
    let l := channelValue false (pairAt d (i + 1)) at_ (if i = 0 then none else pairAt d (i - 1)) k
    let r := channelValue true (pairAt d (i + 1)) at_ (if i = 0 then none else pairAt d (i - 1)) k
    { l := l.1 * 256, r := r.1 * 256, valid := l.2 && r.2 && (at_.map (·.valid)).getD false }

/-- The delayed analog sample: one that was stored, or between two of them what the resampler makes of the 32 about it (R248). -/
def storedSample (d : DelayStore) (tau : Rat) : Sample :=
  let i := tau.floor.toNat
  let f := tau - i
  let own := storedAt d i
  if f = 0 then own
  else
    let w := (List.range 32).map fun j => storedAt d (i + 16 - j)
    let at_ (g : Sample → Int) : Int := clampInt (-8388608) 8388607 (roundRat (firAt (Config.resampleTap (1 - f)) (w.map fun x => (g x : Rat))))
    { l := at_ (·.l), r := at_ (·.r), valid := own.valid && (storedAt d (i + 1)).valid }

/-- Blocks whose reading begins in this tick with a failing CRC (R256). -/
def failedReads (d : DelayStore) (tau : Nat) : Nat :=
  match placeOf d tau with
  | some (i, 0) => match pairAt d i with
    | some p => flag (!leftOk p) + flag (!rightOk p)
    | none => 0
  | _ => 0

/-- A bit of a stored block changes on its own. -/
def flipBit (x : Int) (bit : Nat) : Int := let v := (x % 65536).toNat ^^^ 2 ^ (bit % 16); if v < 32768 then (v : Int) else (v : Int) - 65536

def flipBlock (k bit : Nat) (b : StoreBlock) : StoreBlock := { b with vals := upd b.vals k fun x => flipBit x bit }

def upset (d : DelayStore) (u : Nat × Bool × Nat × Nat) : DelayStore :=
  { d with pairs := upd d.pairs u.1 fun p =>
      if u.2.1 then { p with right := flipBlock u.2.2.1 u.2.2.2 p.right } else { p with left := flipBlock u.2.2.1 u.2.2.2 p.left } }

/-! ### Paths (R241, R260) -/

/-- Delay of a member in its trim stage, in ticks: 2400 - delta (R241). -/
def trimDelay (m : Member) : Nat := (2400 - m.delta.getD 0).toNat

def trimmedSample (m : Member) : Sample := m.line.getD (trimDelay m) Sample.silent

def tickMember (s : State) (m : Member) : Member :=
  let x := sourceSample s m.src
  { m with line := (x :: m.line).take 4801, trace := pushTrace s.now 1100 x (gapHit s 0 m.src) m.trace }

/-- The member's samples come late now (R265). -/
def memberLate (now : Nat) (m : Member) : Bool := m.underrun && (match m.onTimeSince with | some t => decide (now < t) | none => true)

/-- Concealment of an underrun `n` ticks old (R265): the program's last 10 ms again and again, fading over 40 ms, then silence
(DESIGN CHOICE, log entry 138). -/
def repeatSample (past : List Sample) (n : Nat) : Sample :=
  let x := past.getD (n + (479 - n % 480)) Sample.silent
  { amplify (max 0 (1 - (n : Rat) / 1920)) x with valid := false }

def slotSample (now : Nat) (p : Program) (i : Option Nat) : Sample :=
  match i.bind (memberAt p) with
  | some m => if memberLate now m then repeatSample p.past (now - m.lateFrom) else trimmedSample m
  | none => Sample.silent

/-- Gain of the outgoing source of a crossfade (R260, R262). -/
def fadeOut (now : Nat) (f : Fade) : Rat :=
  let t := ticksOfMs f.ms
  let d := min t (now - f.start)
  if f.reversed then 1 - fadeGain d t else fadeGain d t

/-- The output of a path: its selection, or a crossfade between two of its members. -/
def pathSample (now : Nat) (p : Program) (dab : Bool) : Sample :=
  let own := slotSample now p (if dab then p.selD else p.selA)
  match p.fade with
  | some f =>
    if !f.output && (match memberAt p f.new with | some m => onPath dab m | none => false) then
      addSamples (fadeOut now f) own (slotSample now p (some f.new))
    else own
  | none => own

/-- Gain of the analog path: the negative of the loudness offset (R250). -/
def analogGain (p : Program) : Rat := match p.loudNow with | some v => ampOf (-v) | none => 1

/-- The analog path as it is put out: delayed in aligned mode (R243), at its gain. -/
def analogOut (now : Nat) (p : Program) : Sample :=
  amplify (analogGain p) (if p.alignedMode then storedSample p.store p.tau else pathSample now p false)

/-! ### What a new group leaves behind (R234, R267) -/

def termOf (p : Program) (slot : Nat) (gain : Rat) : List OutTerm :=
  match memberAt p slot with
  | some m => [{ src := m.src, gain := gain, delay := trimDelay m, line := m.line }]
  | none => []

/-- The sources of a path at their present gains. -/
def pathTerms (now : Nat) (p : Program) (dab : Bool) : List OutTerm :=
  let own := (if dab then p.selD else p.selA).toList
  match p.fade with
  | some f =>
    if !f.output && (match memberAt p f.new with | some m => onPath dab m | none => false) then
      own.flatMap (fun i => termOf p i (fadeOut now f)) ++ termOf p f.new (1 - fadeOut now f)
    else own.flatMap fun i => termOf p i 1
  | none => own.flatMap fun i => termOf p i 1

def outPathOf (now : Nat) (p : Program) (gain : Rat) (dab : Bool) : OutPath :=
  { gain := if dab then gain else gain * analogGain p, terms := pathTerms now p dab,
    store := if dab || !p.alignedMode then none else some (p.store, p.tau), cls := p.cls, pages := p.pages }

/-- What a program's group puts out, at its present gains. -/
def heardPaths (now : Nat) (p : Program) : List OutPath :=
  if !p.outgoing.isEmpty then p.outgoing
  else match p.fade with
    | some f => if f.output then [outPathOf now p (fadeOut now f) p.outDab, outPathOf now p (1 - fadeOut now f) (!p.outDab)]
                else [outPathOf now p 1 p.outDab]
    | none => [outPathOf now p 1 p.outDab]

/-- Samples at their gains, added; the flag is that of the largest gain, the first of equals. -/
def sumSamples (l : List (Rat × Sample)) : Sample :=
  let total (g : Sample → Int) : Int := clampInt (-8388608) 8388607 (roundRat (sumOf (l.map fun x => x.1 * g x.2)))
  let top := l.foldl (fun b x => if b.1 < x.1 then x else b) (0, Sample.silent)
  { l := total (·.l), r := total (·.r), valid := top.2.valid }

def tickTerm (s : State) (t : OutTerm) : OutTerm := { t with line := (sourceSample s t.src :: t.line).take 4801 }

def termsSample (l : List OutTerm) : Sample := sumSamples (l.map fun t => (t.gain, t.line.getD t.delay Sample.silent))

def tickOutPath (s : State) (p : OutPath) : OutPath :=
  let l := p.terms.map (tickTerm s)
  { p with terms := l, store := p.store.map fun d => (recordSample p.cls p.pages 0 0xFF (termsSample l) d.1, d.2) }

def outPathSample (p : OutPath) : Sample := match p.store with | some d => storedSample d.1 d.2 | none => termsSample p.terms

/-- What the group of a program puts out. -/
def groupSample (now : Nat) (p : Program) : Sample :=
  if !p.outgoing.isEmpty then sumSamples (p.outgoing.map fun x => (x.gain, outPathSample x))
  else
    let own := if p.outDab then pathSample now p true else analogOut now p
    match p.fade with
    | some f => if f.output then addSamples (fadeOut now f) own (if p.outDab then analogOut now p else pathSample now p true) else own
    | none => own

/-- The sample before the curtain: the announcement or alarm on air with its gain (R226, R231), or the group. -/
def outSample (s : State) (p : Program) : Sample :=
  match p.holding.filter (·.onAir) with
  | some h => amplify (ampOf (10 * h.gainDb)) (sourceSample s h.src)
  | none => if p.noSource then Sample.silent else groupSample s.now p

/-! ### One tick -/

/-- The unsmoothed LQ that is stored with the analog path. -/
def analogLq (s : State) (p : Program) : Nat :=
  match (p.selA.bind (memberAt p)).bind fun m => laneAt s m.src.lane with
  | some l => l.raw.lq
  | none => 0

/-- The loudness in force follows the offset by 0.1 dB every 200 ms; a first value holds at once (R250). -/
def slewLoud (now : Nat) (p : Program) : Option Int :=
  match p.loud, p.loudNow with
  | none, _ => none
  | some v, none => some v
  | some v, some x => if now % 9600 = 0 then some (x + clampInt (-1) 1 (v - x)) else some x

/-- A path's history is kept while it aligns and has a DAB member (R244). -/
def keepsHistory (p : Program) : Bool := p.policy.align && !(pathSlots p true).isEmpty

/-- The output of a path comes from a gap of its selection's inputs. -/
def pathHit (s : State) (p : Program) (dab : Bool) : Bool :=
  ((if dab then p.selD else p.selA).bind (memberAt p)).any fun m => gapHit s (trimDelay m) m.src

/-- The audio of a running program in one tick. -/
def mixProgram (s : State) (p0 : Program) : Program :=
  if !p0.running then p0 else
  let p := { p0 with members := p0.members.map fun m => m.map (tickMember s), outgoing := p0.outgoing.map (tickOutPath s),
                     loudNow := slewLoud s.now p0 }
  let a := pathSample s.now p false
  let d := pathSample s.now p true
  let q := if keepsHistory p then { p with traceA := pushTrace s.now 8100 a (pathHit s p false) p.traceA,
                                           traceD := pushTrace s.now 8100 d (pathHit s p true) p.traceD }
           else { p with traceA := Trace.none, traceD := Trace.none }
  let r := { q with store := if q.recordSince.isSome then recordSample q.cls q.pages (analogLq s q) (q.selA.getD 0xFF) a q.store else q.store,
                    dabTicks := if q.dabValidAt.isSome && d.valid then q.dabTicks + 1 else q.dabTicks }
  let x := outSample s r
  { r with out := x, past := (x :: r.past).take 2400 }

/-- Blocks of a program's store that fail on reading in this tick; the store is read while the analog path is delayed. -/
def readErrors (p : Program) : Nat := if p.running && p.alignedMode then failedReads p.store p.tau.floor.toNat else 0

/-- One tick of all audio: lanes and decoders deliver, programs mix, failing blocks are counted. -/
def mixAll (s : State) : State :=
  let s1 := { s with lanes := { s.lanes with fm := s.lanes.fm.map (popLane s false), am := s.lanes.am.map (popLane s true) }, decoders := s.decoders.map popDecoder }
  let s2 := { s1 with progs := s1.progs.map (mixProgram s1) }
  forEach (List.range s2.progs.length) (fun n s => match s2.progs[n]? with | some p => count 14 (readErrors p) n s | none => s) s2

/-! ### Correlation (R245, R246, R248, R250) -/

/-- Sums of pairs, times the number of pairs: covariance and the two variances. -/
def covariance (l : List (Int × Int)) : Int × Int × Int :=
  let n : Int := l.length
  let sx := (l.map (·.1)).foldl (· + ·) 0
  let sy := (l.map (·.2)).foldl (· + ·) 0
  let sum (f : Int × Int → Int) : Int := (l.map f).foldl (· + ·) 0
  (n * sum (fun x => x.1 * x.2) - sx * sy, n * sum (fun x => x.1 * x.1) - sx * sx, n * sum (fun x => x.2 * x.2) - sy * sy)

/-- The normalised correlation, squared and with its sign. -/
def corrSq (l : List (Int × Int)) : Rat :=
  let c := covariance l
  let d := c.2.1 * c.2.2
  if d ≤ 0 then 0 else if c.1 < 0 then -((c.1 * c.1 : Int) : Rat) / d else ((c.1 * c.1 : Int) : Rat) / d

/-- A gap mark in a window: the latest `ms` of `d`, or what lags from `lo` to `hi` ms take of `a` (R267). -/
def windowHit (ms lo hi : Nat) (a d : Trace) : Bool := (d.hit.take ms).any id || ((a.hit.drop lo).take (ms + hi + 1 - lo)).any id

/-- Envelope values of two histories at a lag, where both are valid. -/
def envPairs (window lag : Nat) (a d : Trace) : List (Int × Int) :=
  (((d.env.take window).zip (a.env.drop lag)).filter fun x => x.1.2 && x.2.2).map fun x => ((x.2.1 : Int), (x.1.1 : Int))

/-- The lag of the largest value of a list of lags, the first of equals. -/
def peakOf (f : Nat → Rat) (lags : List Nat) : Nat × Rat :=
  lags.foldl (fun b n => if b.2 < f n then (n, f n) else b) (0, 0)

/-- The largest value more than 50 ms from a lag. -/
def awayFrom (f : Nat → Rat) (lag : Nat) (lags : List Nat) : Rat :=
  ((lags.filter fun (n : Nat) => decide (50 < ((n : Int) - (lag : Int)).natAbs)).map f).foldl max 0

/-- A variance of at least -50 dB of the mean square: sums over pairs. -/
def varies (l : List Int) : Bool :=
  let n : Int := l.length
  let s := l.foldl (· + ·) 0
  let q := (l.map fun x => x * x).foldl (· + ·) 0
  decide (0 < q) && decide (n * q ≤ 100000 * (n * q - s * s))

/-- The coarse lag in ms of a confident search (R245). -/
def coarseLag (p : Program) : Option Nat :=
  let f (lag : Nat) : Rat := if windowHit 1000 lag lag p.traceA p.traceD then 0 else corrSq (envPairs 1000 lag p.traceA p.traceD)
  let lags := List.range 6001
  let top := peakOf f lags
  let pairs := envPairs 1000 top.1 p.traceA p.traceD
  if decide (36 / 100 ≤ top.2) && decide (9 * awayFrom f top.1 lags ≤ 4 * top.2) && decide (700 ≤ pairs.length) &&
     varies (pairs.map (·.1)) && varies (pairs.map (·.2)) then some top.1 else none

/-- Samples at 8 kHz of two histories at a lag in samples, where the ms of both is valid. -/
def audPairs (window lag : Nat) (a d : Trace) : List (Int × Int) :=
  ((List.range (min window d.aud.length)).filter fun n =>
      decide (n + lag < a.aud.length) && ((d.env[n / 8]?).map (·.2)).getD false && ((a.env[(n + lag) / 8]?).map (·.2)).getD false).map
    fun n => (alawValue (a.aud.getD (n + lag) 0), alawValue (d.aud.getD n 0))

/-- An estimate of tau or of a member delay (R246): ticks, and whether its peak reaches 0.80. -/
structure TauObs where
  ticks : Int
  ok : Bool
deriving DecidableEq, Repr

/-- Mean power of an envelope is at least -50 dBFS. -/
def audible (l : List Int) : Bool :=
  let q := (l.map fun x => x * x).foldl (· + ·) 0
  decide ((32768 * 32768 : Int) * l.length ≤ 200000 * q)

/-- Loudness of the analog path against the DAB path over a window, 0.1 dB (R250). -/
def loudnessOf (l : List (Int × Int)) : Option Int :=
  let q (x : List Int) : Int := (x.map fun v => v * v).foldl (· + ·) 0
  let a := l.map (·.1)
  let d := l.map (·.2)
  if l.isEmpty || !audible a || !audible d then none else some (roundRat ((centiDb ((q a : Rat) / q d) : Rat) / 10))

/-- The correlation of the audio of two histories at a lag in samples at 8 kHz; a negative one is of `d` behind `a`. -/
def audCorr (windowMs : Nat) (a d : Trace) (lag : Int) : Rat :=
  if 0 ≤ lag then corrSq (audPairs (8 * windowMs) lag.toNat a d) else corrSq (audPairs (8 * windowMs) (-lag).toNat d a)

/-- The peak over lags from `lo` to `hi` samples at 8 kHz; the interpolation puts it `frac` ticks from its sample, at most half a
sample (DESIGN CHOICE: the row brings `frac`, log entry 137). -/
def refine (windowMs : Nat) (lo hi : Int) (frac : Int) (a d : Trace) : TauObs :=
  let top := peakOf (fun n => audCorr windowMs a d (lo + n)) (List.range (hi + 1 - lo).toNat)
  { ticks := 6 * (lo + top.1) + clampInt (-3) 3 frac, ok := decide (64 / 100 ≤ top.2) }

end Sys2Proof.Machine
end

