-- ==== Sys2Proof/Machine/Stations.lean ====
section
/-! DEFINITION. The group identity of a program (R236) and the station database (R160 to R165). -/

namespace Sys2Proof.Machine

/-! ### Linkage and group identity (R236) -/

/-- Linkage sets of every current model, of one kind. -/
def linkSets (s : State) (hard : Bool) : List Linkage :=
  s.dab.engines.flatMap fun e => if e.model.current then e.model.linkage.filter fun l => l.hard == hard else []

/-- A SId of 16 bits. -/
def shortSid (x : Id32) : Bool := decide (x.toNat < 65536)

def sidPi (x : Id32) : Id16 := BitVec.ofNat 16 x.toNat

def piSid (x : Id16) : Id32 := BitVec.ofNat 32 x.toNat

/-- A set lists a programme by its SId or its PI. -/
def setLists (l : Linkage) (pi : Id16) : Bool := l.pis.contains pi || l.sids.contains (piSid pi)

/-- PIs that sets of a kind list together with a SId. -/
def pisWith (s : State) (hard : Bool) (sid : Id32) : List Id16 :=
  (linkSets s hard).flatMap fun l => if l.sids.contains sid then l.pis else []

/-- The group identity (R236). -/
def groupIdentity (s : State) (p : Program) : List Id16 :=
  match memberAt p 0 with
  | none => []
  | some m =>
    if m.src.kind = 0 then
      match laneAt s m.src.lane with
      | some l => if l.st = .running then l.ident.pi.toList else []
      | none => []
    else if m.src.kind = 2 then
      (if shortSid m.src.sid then [sidPi m.src.sid] else []) ++ pisWith s true m.src.sid
    else []

/-- PIs that the linkage sets of a program's DAB members list (R164, R238). -/
def memberPis (s : State) (p : Program) : List Id16 :=
  p.members.flatMap fun m => match m with
    | some x => if x.src.kind = 2 then pisWith s true x.src.sid ++ pisWith s false x.src.sid else []
    | none => []

/-! ### Records (R163, R164) -/

def stationOf (s : State) (pi : Id16) : Option Nat := findPos s.rds.stations fun r => r.valid && r.pi == pi

def updStation (i : Nat) (f : Station → Station) (s : State) : State :=
  { s with rds := { s.rds with stations := upd s.rds.stations i f } }

/-- Change a record; a change is marked for writing (R165). -/
def changeStation (i : Nat) (f : Station → Station) (s : State) : State :=
  updStation i (fun r => let q := f r; if q = r then r else { q with changedAt := some (r.changedAt.getD s.now) }) s

/-- The PI of a record is protected from replacement (R164). -/
def protectedPi (s : State) (pi : Id16) : Bool :=
  s.lanes.fm.any (fun l => l.st == .running && l.ident.pi == some pi) ||
  s.progs.any (fun p => p.running && (groupIdentity s p).contains pi) ||
  s.progs.any (fun p => p.members.any fun m => match m with
    | some x => x.src.kind == 0 && (match laneAt s x.src.lane with | some l => l.ident.pi == some pi | none => false)
    | none => false) ||
  s.progs.any fun p => (memberPis s p).contains pi

/-- The unprotected record of greatest age; ties to the first. -/
def oldestStation (s : State) : Option Nat :=
  ((List.range s.rds.stations.length).filter fun i => match s.rds.stations[i]? with
    | some r => r.valid && !protectedPi s r.pi
    | none => false).foldl (fun best i =>
      match best with
      | none => some i
      | some b => if (s.rds.stations.getD i Station.invalid).seenAt < (s.rds.stations.getD b Station.invalid).seenAt then some i else some b) none

def evStation (reason : Nat) (pi : Id16) (value : Nat) : State → State := evService 0xFF reason pi 0 0 value

def bumpStations (s : State) : State := { s with rds := { s.rds with generation := (s.rds.generation + 1) % 65536 } }

def newStation (s : State) (pi : Id16) (eon : Bool) : Station :=
  { Station.invalid with valid := true, pi := pi, rbds := s.rds.cfg.rbds, eonOnly := eon, seenAt := s.now, changedAt := some s.now }

/-- A record for a PI: the one it has, a new one, or one that replaces another (R162, R164). -/
def ensureStation (pi : Id16) (eon : Bool) (s : State) : State :=
  match stationOf s pi with
  | some _ => s
  | none =>
    match findPos s.rds.stations fun r => !r.valid with
    | some i => evStation 0 pi 0 (bumpStations (updStation i (fun _ => newStation s pi eon) s))
    | none => match oldestStation s with
      | some i =>
        let old := (s.rds.stations.getD i Station.invalid).pi.toNat
        evStation 1 pi old (bumpStations (updStation i (fun _ => newStation s pi eon) s))
      | none => count 27 1 0 s

/-- A lane confirms a PI: its record is made, and is no longer one created by EON only. -/
def confirmStation (pi : Id16) (s : State) : State :=
  let s1 := ensureStation pi false s
  match stationOf s1 pi with
  | some i => changeStation i (fun r => { r with eonOnly := false, seenAt := s.now }) s1
  | none => s1

/-- The lane that gives a record's fields: highest smoothed LQ, ties to the lower identifier (R164). -/
def bestLane (s : State) (pi : Id16) : Option Nat :=
  (List.range s.lanes.fm.length).foldl (fun best n =>
    match s.lanes.fm[n]? with
    | some l =>
      if l.st = .running ∧ l.ident.pi = some pi then
        match best.bind fun b => s.lanes.fm[b]? with
        | some k => if k.smoothed.lq < l.smoothed.lq then some n else best
        | none => some n
      else best
    | none => best) none

/-- At each update of a lane with a confirmed PI the record takes the highest LQ among the lanes that confirm it (R163). -/
def noteLq (id : Nat) (s : State) : State :=
  match ((laneAt s id).bind (·.ident.pi)).bind fun pi => (stationOf s pi).map fun i => (pi, i) with
  | some (pi, i) =>
    match bestLane s pi with
    | some n => changeStation i (fun r => { r with lastLq := (match s.lanes.fm[n]? with | some l => l.smoothed.lq | none => 0), lastLane := n }) s
    | none => s
  | none => s

/-! ### Alternative frequencies (R160, R161) -/

def afFm (code : Nat) : Bool := decide (1 ≤ code ∧ code ≤ 204)

def afLow (code : Nat) : Bool := decide (1 ≤ code ∧ code ≤ 135)

def isCount (code : Nat) : Bool := decide (224 ≤ code ∧ code ≤ 249)

/-- Frequency of an FM code in Hz. -/
def afHz (code : Nat) : Nat := 87500000 + 100000 * code

def afEntry (now code : Nat) (regional lfMf methodB eon : Bool) : AfEntry :=
  { code := code, regional := regional, lfMf := lfMf, methodB := methodB, eon := eon, seenAt := now }

/-- The entries of a code sequence under method A: code 250 marks the next as LF or MF. -/
def methodA (now : Nat) (eon : Bool) : Bool → List Nat → List AfEntry
  | _, [] => []
  | true, c :: r => (if afLow c then [afEntry now c false true false eon] else []) ++ methodA now eon false r
  | false, c :: r =>
    if c = 250 then methodA now eon true r
    else (if afFm c then [afEntry now c false false false eon] else []) ++ methodA now eon false r

/-- Codes as FM frequencies: 0 in place of a code that code 250 marks as LF or MF. -/
def fmOnly : Bool → List Nat → List Nat
  | _, [] => []
  | true, _ :: r => 0 :: fmOnly false r
  | false, c :: r => c :: fmOnly (c == 250) r

/-- The codes after the head in pairs; a last one alone has 0 beside it. -/
def pairsOf : List Nat → List (Nat × Nat)
  | [] => []
  | [a] => [(a, 0)]
  | a :: b :: r => (a, b) :: pairsOf r

/-- Method B (R160): at least two pairs, the head frequency in every one. -/
def isMethodB (head : Nat) (pairs : List (Nat × Nat)) : Bool :=
  afFm head && decide (2 ≤ pairs.length) && pairs.all fun p => p.1 == head || p.2 == head

def pairEntry (now head : Nat) (p : Nat × Nat) : List AfEntry :=
  let c := if p.1 = head then p.2 else p.1
  if afFm c then [afEntry now c (decide (p.2 < p.1)) false true false] else []

/-- The entries of a list, from the codes after its count code. -/
def listEntries (now : Nat) (codes : List Nat) : List AfEntry :=
  match codes with
  | [] => []
  | head :: r =>
    let pairs := pairsOf (fmOnly (head == 250) r)
    if isMethodB head pairs then pairs.flatMap (pairEntry now head) else methodA now false false codes

/-- Position of the entry with the greatest age. -/
def oldestAf : List AfEntry → Nat → Nat → Nat → Nat
  | [], _, _, b => b
  | e :: r, i, t, b => if e.seenAt < t then oldestAf r (i + 1) e.seenAt i else oldestAf r (i + 1) t b

/-- Merge one entry into a record's 32 (R161). A frequency that EON brings again keeps its regional and method B marks, which only a
list gives (DESIGN CHOICE, log entry 155). -/
def mergeAf (l : List AfEntry) (e : AfEntry) : List AfEntry :=
  match findPos l fun x => x.code == e.code && x.lfMf == e.lfMf with
  | some i => upd l i fun x => if e.eon then { e with regional := x.regional, methodB := x.methodB } else e
  | none =>
    if l.length < 32 then l ++ [e]
    else match l with
      | [] => [e]
      | h :: _ => l.set (oldestAf l 0 h.seenAt 0) e

def mergeEntries (pi : Id16) (es : List AfEntry) (s : State) : State :=
  match stationOf s pi with
  | some i => changeStation i (fun r => { r with af := es.foldl mergeAf r.af }) s
  | none => s

/-! ### The record's bytes (Table 6-3) -/

def hours (now t : Nat) : Nat := min 255 ((now - t) / 172800000)

def minutes (now t : Nat) : Nat := min 65535 ((now - t) / 2880000)

/-- A running lane confirms the PI now. -/
def confirmedNow (s : State) (pi : Id16) : Bool := s.lanes.fm.any fun l => l.st == .running && l.ident.pi == some pi

def stationFlags (r : Station) : Nat :=
  flag r.valid + 2 * flag r.tp + 4 * flag r.ta + 8 * flag r.ms + 16 * flag (r.ps.all Option.isSome) + 32 * flag r.ecc.isSome +
  64 * flag r.lang.isSome + 128 * flag r.pin.isSome + 256 * flag r.rbds + 512 * flag r.eonOnly

/-- Two characters of a PS segment; the first is the higher byte of block 4. -/
def psBytes (x : Option Nat) : List Byte := match x with | some v => [byte (v / 256), byte v] | none => [0x20, 0x20]

def afBytes (now : Nat) (e : AfEntry) : List Byte :=
  [byte e.code, byte (flag e.regional + 2 * flag e.lfMf + 4 * flag e.methodB + 8 * flag e.eon), byte (hours now e.seenAt)]

def padTo (n : Nat) (l : List Byte) : List Byte := l.take n ++ List.replicate (n - l.length) 0

def stationHead (s : State) (r : Station) : List Byte :=
  le 2 r.pi.toNat ++ le 2 (stationFlags r) ++ [byte r.pty, byte r.di, byte (r.ecc.getD 0), byte (r.lang.getD 0)] ++
  le 2 (r.pin.getD 0) ++ r.ps.flatMap psBytes ++
  le 2 (if confirmedNow s r.pi then 0 else minutes s.now r.seenAt) ++ [byte r.lastLq, byte r.lastLane, byte r.af.length, byte r.eonPi.length]

def stationBytes (s : State) (r : Station) : List Byte :=
  let b := stationHead s r ++ padTo 96 (r.af.flatMap (afBytes s.now)) ++ padTo 16 (r.eonPi.flatMap fun x => le 2 x.toNat) ++ List.replicate 52 0
  b ++ le 4 (crc32 b).toNat

end Sys2Proof.Machine
end

