-- ==== Sys2Proof/Machine/Conditions.lean ====
section
/-! DEFINITION. Members and paths as the switching decisions see them (R241, R251 to R258), and reservations of the delay
store (R253, R254). -/

namespace Sys2Proof.Machine

/-! ### Conditions (Table 9-5) -/

/-- A condition has held since an instant for a time in ms. -/
def heldFor (s : State) (since : Option Nat) (ms : Nat) : Bool :=
  match since with
  | some t => elapsed s t (ticksOfMs ms)
  | none => false

/-- Its decoder, if it has one. -/
def memberDecoder (s : State) (x : Source) : Option Decoder := (decoderOf s x).bind fun i => s.decoders[i]?

/-- Its decoder is bound. -/
def memberBound (s : State) (x : Source) : Bool := (memberDecoder s x).any (·.engine.isSome)

/-- Its decoder is unbound: a member that no decoder has yet does not fail on that ground (R260). -/
def memberUnbound (s : State) (x : Source) : Bool := (memberDecoder s x).any (·.engine.isNone)

/-- Concealment is due within 210 ms at the output of a DAB member, or is under way (R258). -/
def concealsSoon (s : State) (m : Member) : Bool :=
  (memberDecoder s m.src).any (concealsIn (s.now - trimDelay m + 1) (s.now - trimDelay m + 10081))

/-- The pair of the delay store that the analog path is about to put out, in aligned mode. -/
def storedPair (p : Program) : Option BlockPair :=
  if p.alignedMode then (placeOf p.store p.tau.floor.toNat).bind fun x => pairAt p.store x.1 else none

/-- The quality that belongs to the audio about to be output (R257): that of a DAB member's frames; for the selected analog member
that stored with it. -/
def qualityOf (s : State) (p : Program) (i : Nat) (m : Member) : Nat :=
  if m.src.kind = 2 then ((memberDecoder s m.src).bind (eqAt (s.now - trimDelay m + 1))).getD (sourceQuality s m.src)
  else match storedPair p with
    | some b => if b.slot = i then b.lq else sourceQuality s m.src
    | none => sourceQuality s m.src

/-- The audio of a lane member is valid. -/
def laneAudio (s : State) (x : Source) : Bool :=
  match laneAt s x.lane with
  | some l => l.st == .running && l.valid && !l.concealing
  | none => false

/-- The valid flag of an analog member: for the selected one in aligned mode, that stored with the audio about to be output (R257). -/
def analogValid (s : State) (p : Program) (i : Nat) (m : Member) : Bool :=
  match storedPair p with
  | some b => if p.selA = some i then b.valid else laneAudio s m.src
  | none => laneAudio s m.src

def laneRuns (s : State) (x : Source) : Bool := match laneAt s x.lane with | some l => l.st == .running | none => false

/-- Failing (R258, R266). -/
def memberFailing (s : State) (p : Program) (i : Nat) (m : Member) : Bool :=
  m.underrun || heldFor s m.lowSince 1000 ||
  (if m.src.kind = 2 then (resolve s m.src).isNone || memberUnbound s m.src || m.concealDue
   else !laneRuns s m.src || !analogValid s p i m)

/-- Good for `hold_s`. -/
def memberGood (s : State) (p : Program) (i : Nat) (m : Member) : Bool :=
  !memberFailing s p i m && heldFor s m.goodSince (1000 * p.policy.holdS)

def slotFailing (s : State) (p : Program) (slot : Nat) : Bool :=
  match memberAt p slot with
  | some m => memberFailing s p slot m
  | none => true

/-- A member that can be selected: a component that resolves, a lane that runs (R263). -/
def slotSelectable (s : State) (p : Program) (slot : Nat) : Bool :=
  (memberAt p slot).any fun m => if m.src.kind = 2 then (resolve s m.src).isSome else laneRuns s m.src

/-- A path follows its selected member; one left with no member is failing (R258, R263). -/
def pathSel (p : Program) (dab : Bool) : Option Nat := if dab then p.selD else p.selA

def pathFailing (s : State) (p : Program) (dab : Bool) : Bool :=
  match pathSel p dab with
  | some i => slotFailing s p i
  | none => true

def pathGood (s : State) (p : Program) (dab : Bool) : Bool :=
  match (pathSel p dab).bind fun i => (memberAt p i).map fun m => (i, m) with
  | some x => memberGood s p x.1 x.2
  | none => false

/-- A member that takes part in a crossfade or is selected (R238, R413). -/
def inUse (p : Program) (slot : Nat) : Bool :=
  p.selA == some slot || p.selD == some slot || p.fade.any fun f => f.old == slot || f.new == slot

/-! ### A new group (R234) -/

/-- What waits for the closed instant and does not belong to a group that has ended. -/
def keptAfter (l : List AfterClose) : List AfterClose := l.filter fun a => a == .takeAnnouncement || a == .returnNormal

/-- A new group with its primary member (R234 action 1). The policies and the curtain stay; the new source is selected
at the closed instant. -/
def formGroup (n : Nat) (src : Source) (s : State) : State :=
  match progAt s n with
  | none => s
  | some p =>
    let old := if p.running then heardPaths s.now p else []
    let s1 := if p.running then leaveAll n p s else s
    let s2 := releaseLoans n (fun k => !(p.holding.any (·.src == k)) && !(p.nextHold.any (·.src == k)) && !(old.any fun x => x.terms.any (·.src == k))) s1
    let s3 := updProgram n (fun _ => { Program.stopped with
      running := true, policy := p.policy, policyNext := p.policyNext, ann := p.ann, clsCfg := p.clsCfg, cls := p.cls,
      curtain := { p.curtain with after := keptAfter p.curtain.after },
      holding := p.holding, nextHold := p.nextHold, resume := p.resume, outDab := p.outDab, outgoing := old, past := p.past, sent := p.sent }) s2
    fitOwn n (updProgram n (fun p => { p with selA := none, selD := none }) (placeMember n 0 src 0 s3))

/-! ### The delay store (R252 to R254) -/

/-- Page duration in ms (Table 9-3). -/
def pageMs (cls : Nat) : Nat := if cls = 0 then 250 else 160

/-- Pages for a coarse lag: ceil((lag + 0.25 s) / page duration). -/
def pagesFor (cls lagMs : Nat) : Nat := (lagMs + 250 + pageMs cls - 1) / pageMs cls

/-- The reservation holds tau + 0.05 s. -/
def holdsTau (p : Program) (tau : Int) : Bool := decide (tau + 2400 ≤ (p.pages * pageMs p.cls * 48 : Nat))

/-- Grow a reservation by one page at a time; false where the store is exhausted. -/
def growPages : Nat → Nat → Program → Int → Option Program
  | 0, _, p, tau => if holdsTau p tau then some p else none
  | n + 1, free, p, tau =>
    if holdsTau p tau then some p
    else if free = 0 then none
    else growPages n (free - 1) { p with pages := p.pages + 1 } tau

/-- A program waits for pages with the instant of its request. -/
def waitsForPages (p : Program) : Bool := p.running && p.request.isSome

/-- Grant a reservation: the store records from now (R253). -/
def grantPages (n pages : Nat) (s : State) : State :=
  updProgram n (fun p => { p with pages := max p.pages pages, request := none, unaligned := false,
                                  recordSince := some (p.recordSince.getD s.now) }) s

/-- Requests that arose before. -/
def earlierRequest (s : State) : Bool := s.progs.any waitsForPages

/-- Request pages for a coarse lag (R253): a program that holds enough keeps them. -/
def requestPages (n lagMs : Nat) (s : State) : State :=
  match progAt s n with
  | none => s
  | some p =>
    let cls := if p.pages = 0 then p.clsCfg else p.cls
    let want := pagesFor cls lagMs
    let s1 := updProgram n (fun p => { p with cls := cls }) s
    if p.request.isSome then s1
    else if want - p.pages ≤ pagesFree s && (decide (want ≤ p.pages) || !earlierRequest s) then grantPages n want s1
    else evLink n 5 want (pagesFree s) [] 0 (updProgram n (fun p => { p with request := some (want, s.now), unaligned := true }) s1)

/-- The first of the waiting programs in the order of their requests. -/
def firstWaiting (s : State) : Option Nat :=
  ((List.range s.progs.length).filter fun n => match progAt s n with | some p => waitsForPages p | none => false).foldl (fun best n =>
    match best with
    | none => some n
    | some b =>
      match (progAt s n).bind (·.request), (progAt s b).bind (·.request) with
      | some x, some y => if x.2 < y.2 then some n else some b
      | _, _ => some b) none

/-- `PAGE_REQUEST_GRANT` (R253): the request that has waited longest is granted when its pages are free. -/
def execPageRequestGrant (s : State) : Host.Outcome State Fault Refusal :=
  match firstWaiting s with
  | none => .next s
  | some n =>
    match progAt s n with
    | some p =>
      match p.request with
      | some r => if r.1 - p.pages ≤ pagesFree s then .next (grantPages n r.1 s) else .next s
      | none => .next s
    | none => .next s

end Sys2Proof.Machine
end

