-- ==== Sys2Proof/Machine/FrontEnd.lean ====
section
/-! DEFINITION. Reception commands 0x10 to 0x14 (R43, R58, R107, R109, R398 to R400), and the rows of the gain controllers
(R44, R45, R55), the feed lines (R60) and the bin map (R110). -/

namespace Sys2Proof.Machine

/-! ### BAND_PLAN -/

def bandReply (s : State) (i : Nat) : List Byte :=
  bandPlanBytes i (inputAt s i).plan ++ le 2 (computedBins i (inputAt s i).plan s.clocks.plan)

/-- A set draws a bin of the input that leaves its computed set (R109). -/
def losesBins (s : State) (i : Nat) (b : BandPlan) (half f mask : Nat) : Bool :=
  bitOf mask i && carriesBins i (inputAt s i).plan s.clocks.plan s.clocks.trim half f && !carriesBins i b s.clocks.plan s.clocks.trim half f

def lanesHit (s : State) (i : Nat) (b : BandPlan) : List Nat :=
  (laneIds s).filter fun id => match laneAt s id with
    | some l => liveState l.st && losesBins s i b (halfBins false (isAm id)) l.freq l.mask
    | none => false

def enginesHit (s : State) (i : Nat) (b : BandPlan) : List Nat :=
  (List.range s.dab.engines.length).filter fun e => match engineAt s e with
    | some x => liveState x.st && losesBins s i b 6 x.freq x.mask
    | none => false

/-- The plan is set, and the inputs and feed lines follow. -/
def setBandPlan (i : Nat) (b : BandPlan) (s : State) : State :=
  refreshFeeds (matchInputs (updInput i (fun x => if x.plan = b then x else { x with plan := b, binMap := [], fineMap := [] }) s))

/-- A change while reception runs (R109): checks, releases, then the plan. -/
def liveBandPlan (i : Nat) (b : BandPlan) (s : State) : Res :=
  let ls := lanesHit s i b
  let es := enginesHit s i b
  if ls.any (soleSource s) || es.any (soleEngine s) then fail stWrongState s
  else
    let after := setBandPlan i b s
    let cost := demand after - demand s
    if !admits s cost then fail stNoResource s
    else
      let s1 := reselectAll (forEach es bandPlanEngine (forEach ls bandPlanLane s))
      let s2 := setBandPlan i b s1
      { status := stOk, payload := bandReply s2 i, state := s2,
        wait := if 0 < cost ∧ !capacityMet s2 then some .reception else none }

def bodyBandPlan (c : Call) (s : State) : Res :=
  let i := p1 c.p 0
  if c.p.length = 1 then okay (bandReply s i) s else
  let b := parseBandPlan c.p
  if s.mgr.rxRunning then liveBandPlan i b s
  else
    -- DESIGN CHOICE (log entry 126): instances that lose bins while reception is stopped stay as they are.
    let s1 := setBandPlan i b s
    okay (bandReply s1 i) s1

def cmdBandPlan : Cmd := { opc := 0x10, len := lenIn [1, 7], ids := fun s p => bonded s (p1 p 0), body := bodyBandPlan }

/-- `BAND_PLAN` (R107 to R109). -/
def execBandPlan (tag : Byte) (p : List Byte) (s : State) : Host.Outcome State Fault Refusal := hostRow cmdBandPlan tag p s

/-! ### RX_START and RX_STOP -/

/-- Inputs that receive. -/
def startedMask (s : State) : Nat := maskOf ((List.range 6).filter fun i => (inputAt s i).receiving || (inputAt s i).waiting)

def startReply (s : State) : List Byte := [byte (startedMask s)] ++ le 2 (min 65535 (demand s))

/-- The plan recorded while reception was stopped comes into force (R424). -/
def takePlan (s : State) : State :=
  if s.clocks.plan = s.clocks.recorded then s
  else retune <| planSets s.clocks.plan s.clocks.recorded (rememberBand (setClocks (fun c => { c with plan := c.recorded, pauseUs := 0 }) s))

def startReception (s : State) : State :=
  let s1 := takePlan s
  refreshFeeds (matchInputs { s1 with mgr := { s1.mgr with rxRunning := true, rxStartedSinceReset := true } })

def bodyRxStart (_ : Call) (s : State) : Res :=
  if s.mgr.rxRunning then okay (startReply s) s
  else if !synthsReady s then fail stWrongState s
  else if !(List.range 6).any (inputEnabled s) then fail stWrongState s
  else
    let s1 := startReception s
    if !admits s (demand s1 - demand s) then fail stNoResource s
    else { status := stOk, payload := startReply s1, state := s1, wait := if capacityMet s1 then none else some .reception }

def cmdRxStart : Cmd := { opc := 0x11, len := lenIn [0], ids := noIds, body := bodyRxStart }

/-- `RX_START` (R399). -/
def execRxStart (tag : Byte) (p : List Byte) (s : State) : Host.Outcome State Fault Refusal := hostRow cmdRxStart tag p s

/-- Everything that runs is released, and the channelizers stop (R400). -/
def stopReception (s : State) : State :=
  let s1 := forEach (laneIds s) releaseLane s
  let s2 := forEach (List.range s1.dab.engines.length) releaseEngine s1
  refreshFeeds (matchInputs { s2 with mgr := { s2.mgr with rxRunning := false }, scan := { s2.scan with points := [], rivals := [] } })

def bodyRxStop (_ : Call) (s : State) : Res :=
  if s.progs.any (·.running) then fail stWrongState s
  else if !s.mgr.rxRunning then okay [] s
  else okay [] (finishWait .reception (stopReception s))

def cmdRxStop : Cmd := { opc := 0x12, len := lenIn [0], ids := noIds, body := bodyRxStop }

/-- `RX_STOP` (R400). -/
def execRxStop (tag : Byte) (p : List Byte) (s : State) : Host.Outcome State Fault Refusal := hostRow cmdRxStop tag p s

/-! ### FRONTEND_GAIN -/

def gainReply (s : State) (i : Nat) : List Byte :=
  let x := inputAt s i
  gainBytes i x.gcfg ++ [byte x.gain] ++ leS 2 (roundDiv x.rms 25) ++ le 4 (s.integ.counters.getD i 0) ++
  [byte (flag x.overloaded + 2 * flag (inputEnabled s i))]

/-- Samples arrive: the input receives and PLL-S gives the sample clock. -/
def sampling (s : State) (i : Nat) : Bool := (inputAt s i).receiving && pllSUp s.clocks

/-- The setting in force is applied at a step instant, and the 100 ms history restarts (R46, R47). -/
def applyGainCfg (i : Nat) (s : State) : State :=
  let s1 := updInput i (fun x => { x with quietMs := 0, clipSeen := false, gainDue := false }) s
  let x := inputAt s1 i
  judgeOverload i (setGain i (if x.gcfg.fixedMode then x.gcfg.fixed else limitGain x.gcfg x.gain) s1)

/-- A new setting takes effect at the first step instant: at once while samples arrive, and with the first of them when PLL-S is
out of lock (R46, R47). -/
def setGainCfg (i : Nat) (g : GainCfg) (s : State) : State :=
  let s1 := updInput i (fun x => { x with gcfg := g }) s
  if sampling s1 i then applyGainCfg i s1
  else if (inputAt s1 i).receiving then updInput i (fun x => { x with gainDue := true }) s1
  else s1

/-- The step instant that a waiting setting takes: the first after samples arrive again. -/
def firstStep (i : Nat) (s : State) : State := if (inputAt s i).gainDue then applyGainCfg i s else s

def bodyFrontendGain (c : Call) (s : State) : Res :=
  let i := p1 c.p 0
  if c.p.length = 1 then okay (gainReply s i) s else
  let s1 := setGainCfg i (parseGain i c.p) s
  okay (gainReply s1 i) s1

def cmdFrontendGain : Cmd := { opc := 0x13, len := lenIn [1, 6], ids := fun s p => bonded s (p1 p 0), body := bodyFrontendGain }

/-- `FRONTEND_GAIN` (R43, R46). -/
def execFrontendGain (tag : Byte) (p : List Byte) (s : State) : Host.Outcome State Fault Refusal := hostRow cmdFrontendGain tag p s

/-! ### ANTENNA_FEED -/

/-- `feed_state`: 0 off, 1 on, 2 waiting to retry, 3 latched. -/
def feedStateCode (f : Feed) : Nat := if f.latched then 3 else if f.waitSince.isSome then 2 else if f.enabled then 1 else 0

def feedReply (s : State) (n : Nat) : List Byte :=
  let f := s.feeds.getD n (Feed.default s.chip.variant n)
  feedBytes n f ++ [byte (feedStateCode f), byte f.retries, bflag f.faultLow]

/-- A new setting clears the latch and the retry count, and the line follows its mode at once (R60). No row gives ANT_FLTn rising:
here, at a retry and at latching the noted level is taken as high again (DESIGN CHOICE, log entry 125). -/
def setFeed (n : Nat) (f : FeedFields) (s : State) : State :=
  let new : Feed :=
    { input := f.input, mode := f.mode, retryMs := f.retryMs, retryMax := f.retryMax, enabled := false, faultLow := false,
      latched := false, retries := 0, waitSince := none, enabledAt := none }
  refreshFeeds (updFeed n (fun _ => new) (faultEnds 0x91 n 6 (faultEnds 0x90 n 6 s)))

def bodyAntennaFeed (c : Call) (s : State) : Res :=
  let n := p1 c.p 0
  if c.p.length = 1 then okay (feedReply s n) s else
  let s1 := setFeed n (parseFeed c.p) s
  okay (feedReply s1 n) s1

/-- Lines of the variant; line 0 with HB0 only, the others with a bonded input (Table 2-4). -/
def feedIds (s : State) (p : List Byte) : Bool :=
  decide (p1 p 0 < feedLines s.chip.variant) &&
  (p.length == 1 || (if p1 p 0 = 0 then p1 p 1 == 0 else bonded s (p1 p 1)))

def cmdAntennaFeed : Cmd := { opc := 0x14, len := lenIn [1, 6], ids := feedIds, body := bodyAntennaFeed }

/-- `ANTENNA_FEED` (R58). -/
def execAntennaFeed (tag : Byte) (p : List Byte) (s : State) : Host.Outcome State Fault Refusal := hostRow cmdAntennaFeed tag p s

/-- A line has failed (R60): low at once, and its recovery of rank 9 waits for `retry_ms`. -/
def feedFault (n : Nat) (s : State) : State :=
  let f := s.feeds.getD n (Feed.default s.chip.variant n)
  let again := match f.enabledAt with | some t => decide (s.now ≤ t + 48000) | none => false
  let r := if again then min 255 (f.retries + 1) else f.retries
  let s1 := updFeed n (fun f => { f with enabled := false, faultLow := true, retries := r, waitSince := some s.now, enabledAt := none }) s
  faultBegins 0x90 n n r false (evAntFault n 0 r s1)

/-- A line that is off and neither waits nor is latched has nothing to contain: the record is raised, and its level is noted. -/
def idleFeedFault (n : Nat) (s : State) : State :=
  let f := s.feeds.getD n (Feed.default s.chip.variant n)
  let s1 := updFeed n (fun f => { f with faultLow := true }) s
  if f.latched || f.waitSince.isSome then s1 else evAntFault n 0 f.retries s1

/-- `FEED_FAULT` (R60). -/
def execFeedFault (line : Nat) (s : State) : Host.Outcome State Fault Refusal :=
  if feedLines s.chip.variant ≤ line then .fault .absentUnit
  else if (s.feeds.getD line (Feed.default s.chip.variant line)).enabled then .next (feedFault line s)
  else .next (idleFeedFault line s)

/-- The wait is over: the line is enabled again if its mode asks for it, or latches off (R60). -/
def feedRetry (n : Nat) (s : State) : State :=
  let f := s.feeds.getD n (Feed.default s.chip.variant n)
  if f.retryMax ≤ f.retries then
    let s1 := updFeed n (fun f => { f with latched := true, waitSince := none, faultLow := false }) s
    faultBegins 0x91 n n f.retries false (evAntFault n 1 f.retries (faultEnds 0x90 n 6 s1))
  else
    let want := feedWanted s n f
    faultEnds 0x90 n (if want then 2 else 6) (updFeed n (fun f =>
      { f with waitSince := none, faultLow := false, enabled := want, enabledAt := if want then some s.now else none }) s)

/-- `FEED_RETRY` (R60, R512): in the recovery's turn; a line whose recovery a stage reset ended needs none (R62, R514). -/
def execFeedRetry (line : Nat) (s : State) : Host.Outcome State Fault Refusal :=
  if feedLines s.chip.variant ≤ line then .fault .absentUnit
  else
    let f := s.feeds.getD line (Feed.default s.chip.variant line)
    match f.waitSince with
    | none => .next s
    | some t =>
      if elapsed s t (ticksOfMs f.retryMs) then
        let s1 := becomesRunnable 0x90 line s
        .next (if holdsSlot s1 0x90 line || !faultOpen s1 0x90 line then feedRetry line s1 else s1)
      else .next s

/-! ### Gain windows -/

/-- Windows of 64 us in 100 ms. -/
def clipWindows : Nat := 1563

/-- A 64 us window: its clipped samples, and the fast down-step (R44, R54, R55). -/
def gainWindow64 (i clipped samples : Nat) (s : State) : State :=
  let s1 := updInput i (fun x => { x with
    clipHist := ((s.now, clipped, samples) :: x.clipHist).take clipWindows,
    clipMs := (x.clipMs.1 + clipped, x.clipMs.2 + samples), clipSeen := x.clipSeen || decide (0 < clipped) }) (count i clipped i s)
  let x := inputAt s1 i
  judgeOverload i (if !x.gcfg.fixedMode && decide (4 ≤ clipped) then setGain i (limitGain x.gcfg ((x.gain : Int) - 3)) s1 else s1)

/-- `GAIN_WINDOW_64US` (R44, R45). -/
def execGainWindow64us (input clipped samples : Nat) (s : State) : Host.Outcome State Fault Refusal :=
  if !bonded s input then .fault .absentUnit
  else if sampling s input then .next (gainWindow64 input clipped samples (firstStep input s)) else .next s

/-- The decision at the end of a 1 ms window: down by the whole excess, up by 1 dB after 100 quiet windows, or a hold. -/
def gainDecision (x : Input) : Nat :=
  if x.gcfg.fixedMode then x.gain
  else if 100 * (x.gcfg.target + 1) < x.rms then limitGain x.gcfg ((x.gain : Int) - (x.rms - 100 * x.gcfg.target + 99) / 100)
  else if 100 ≤ x.quietMs then limitGain x.gcfg ((x.gain : Int) + 1)
  else x.gain

def gainWindow1 (i : Nat) (rms : Int) (s : State) : State :=
  let s1 := measureStep i rms s
  let s2 := updInput i (fun x => { x with
    rmsPrev := x.rms, rms := rms, clipSeen := false, clipLast := x.clipMs, clipMs := (0, 0), windows := min 2 (x.windows + 1),
    quietMs := if rms ≤ 100 * (x.gcfg.target - 2) ∧ !x.clipSeen then min 100 (x.quietMs + 1) else 0 }) s1
  judgeOverload i (setGain i (gainDecision (inputAt s2 i)) s2)

/-- `GAIN_WINDOW_1MS` (R44, R45, R80): composite RMS in 0.01 dBFS. -/
def execGainWindow1ms (input : Nat) (rms : Int) (s : State) : Host.Outcome State Fault Refusal :=
  if !bonded s input then .fault .absentUnit
  else if sampling s input then .next (gainWindow1 input rms (firstStep input s)) else .next s

/-! ### The bin map -/

/-- A power ahead of the digital factor, in 0.25 dB, as the channelizer sees it (R48). -/
def compensated (x : Input) (p : Int) : Int := p + roundDiv x.comp 128

/-- `BIN_MAP_UPDATE` (R48, R110): mean powers of the computed bins over 10 ms, in 0.25 dB, at the gain in force. -/
def execBinMapUpdate (input : Nat) (powers : List Int) (s : State) : Host.Outcome State Fault Refusal :=
  if !bonded s input then .fault .absentUnit
  else if sampling s input then .next (updInput input (fun x => { x with binMap := powers.map (compensated x), binDfc := s.time.dfc }) s) else .next s

end Sys2Proof.Machine
end

