-- ==== Sys2Proof/Machine/LaneUpdate.lean ====
section
/-! DEFINITION. The 10 ms update of a lane: quality figures, filter width, blend, high cut, soft mute and the valid flag
(R126 to R151), the pilot and the synchronous loop (R136, R147). -/

namespace Sys2Proof.Machine

/-! ### Encoding (Table 5-4) -/

def clampByte (x : Int) : Nat := (clampInt 0 255 x).toNat

/-- `cnr` from a CNR in 0.01 dB. -/
def cnrByte (c : Rat) : Nat := clampByte (roundRat ((c + 1000) / 25))

/-- `mp` from a relative deviation in 10^-6. -/
def mpByte (x : Rat) : Nat := clampByte (roundRat (1024 * x / 1000000))

/-- `imp` from a fraction in 10^-6. -/
def impByte (x : Rat) : Nat := clampByte (roundRat (2560 * x / 1000000))

/-- `adj` from Padj - Pc in 0.01 dB. -/
def adjByte (x : Rat) : Nat := clampByte (roundRat ((x + 3000) / 25))

/-- LQ from the encoded figures: the CNR is the decoded value of `cnr` (Table 5-4). -/
def lqByte (cnr mpImp adj : Nat) : Nat :=
  clampByte (roundRat (6 * ((cnr : Rat) / 4 - 16) - (mpImp : Rat) / 2 - (adj : Rat) / 2))

def quality (am : Bool) (cnr mpImp adj : Rat) : Quality :=
  let c := cnrByte cnr
  let m := if am then impByte mpImp else mpByte mpImp
  let a := adjByte adj
  { cnr := c, mpImp := m, adj := a, lq := lqByte c m a }

/-! ### Curves (Tables 5-5, 5-6, 5-8) -/

/-- Linear between breakpoints, the end values held beyond them. -/
def curve : List (Rat × Rat) → Rat → Rat
  | [], _ => 0
  | [a], _ => a.2
  | a :: b :: r, x =>
    if x ≤ a.1 then a.2
    else if x ≤ b.1 then a.2 + (b.2 - a.2) * (x - a.1) / (b.1 - a.1)
    else curve (b :: r) x

def lowerBy (d : Rat) (l : List (Rat × Rat)) : List (Rat × Rat) := l.map fun p => (p.1 - d, p.2)

def blendCurve : List (Rat × Rat) := [(60, 0), (90, 3 / 10), (120, 7 / 10), (150, 1)]

def fmCornerCurve : List (Rat × Rat) := [(20, 2), (40, 3), (70, 6), (100, 10), (130, 20)]

def amCornerCurve : List (Rat × Rat) := [(0, 3 / 2), (24, 2), (84, 3)]

/-- Attenuation in dB over the CNR in dB. -/
def fmMuteCurve : List (Rat × Rat) := [(0, 30), (2, 20), (4, 12), (6, 6), (8, 3), (10, 0)]

def amMuteCurve : List (Rat × Rat) := [(0, 30), (4, 15), (8, 6), (12, 0)]

/-- Profile gentle lowers the breakpoints by 30 of LQ and 3 dB of CNR (R141, R149). -/
def lqShift (profile : Nat) : Rat := if profile = 1 then 30 else 0

def cnrShift (profile : Nat) : Rat := if profile = 1 then 3 else 0

/-- Target of the blend factor s. -/
def blendTarget (l : Lane) (lq : Nat) : Rat :=
  if l.fm.profile = 2 then 1 else curve (lowerBy (lqShift l.fm.profile) blendCurve) lq

/-- High cut is bypassed: above LQ 130 (FM), from LQ 144 (AM). -/
def cutBypassed (am : Bool) (profile lq : Nat) : Bool :=
  profile == 2 || (if am then decide ((144 : Rat) - lqShift profile ≤ lq) else decide ((130 : Rat) - lqShift profile < lq))

def cornerTarget (am : Bool) (profile lq : Nat) : Rat :=
  curve (lowerBy (lqShift profile) (if am then amCornerCurve else fmCornerCurve)) lq

/-- The corner that a filter returning from bypass starts at. -/
def cornerTop (am : Bool) : Rat := if am then 3 else 20

def muteTarget (am : Bool) (profile : Nat) (cnr : Rat) : Rat :=
  if profile = 2 then 0 else curve (lowerBy (cnrShift profile) (if am then amMuteCurve else fmMuteCurve)) (cnr / 100)

/-- First-order smoothing with a time constant for each direction (R142). -/
def glide (down up : Nat) (x target : Rat) : Rat :=
  if target < x then smooth down 10 x target else smooth up 10 x target

/-- Bypass at once above its LQ; on return smoothing starts at the top corner (DESIGN CHOICE, log entry 131). -/
def nextCorner (am : Bool) (profile lq : Nat) (first : Bool) (c : Option Rat) : Option Rat :=
  if cutBypassed am profile lq then none
  else
    let t := cornerTarget am profile lq
    if first then some t else some (glide 30 1000 (c.getD (cornerTop am)) t)

/-! ### Filter width (R135) -/

/-- The width whose ADJ range holds a value (Table 5-2). -/
def widthOf (adj : Nat) : Nat := if adj < 32 then 5 else if adj < 64 then 4 else if adj < 96 then 3 else if adj < 128 then 2 else 1

/-- Lower bound of the ADJ range of a width. -/
def widthLow (w : Nat) : Nat := (5 - w) * 32

/-- Width in force and the count toward widening. -/
def nextWidth (auto : Bool) (fixed adj : Nat) (w ms : Nat) : Nat × Nat :=
  if !auto then (fixed, 0)
  else if widthOf adj < w then (widthOf adj, 0)
  else if w < 5 ∧ adj + 8 ≤ widthLow w then (if 500 ≤ ms + 10 then (w + 1, 0) else (w, ms + 10))
  else (w, 0)

/-! ### The update -/

/-- Parameters that were changed take effect at an update boundary (R132). -/
def takeParams (l : Lane) : Lane := { l with fm := l.fmNext.getD l.fm, am := l.amNext.getD l.am, fmNext := none, amNext := none }

/-- The pilot gate: 500 ms up, 20 ms down (R137). -/
def nextGate (l : Lane) : Rat :=
  if l.fm.stereo = 0 ∧ l.pilot = true then min 1 (l.gate + 10 / 500) else max 0 (l.gate - 10 / 20)

/-- The valid flag (R130, R141, R142). -/
def laneValid (am : Bool) (l : Lane) : Bool := !l.concealing && (profileOf am l == 2 || decide (l.mute < 59 / 2))

/-- Mean of whole numbers, rounded. -/
def meanInt (l : List Int) : Int := if l.isEmpty then 0 else roundDiv (l.foldl (· + ·) 0) l.length

/-- Blanked fraction of the last 100 ms. -/
def impOf (l : Lane) : Nat := if l.blanked.isEmpty then 0 else sumNat l.blanked / l.blanked.length

/-- The power that the lane put out since its last update joins those of the last 1 s; `audio_rms` and `silence_s` follow. -/
def noteAudio (l0 : Lane) : Lane :=
  let l := { l0 with powers := (meanPower 480 l0.outPower :: l0.powers).take 100, outPower := 0 }
  let a := audioRmsOf l
  { l with audioRms := a, silenceMs := if 120 < a then min 65535000 (l.silenceMs + 10) else 0 }

/-! ### The measurements of Table 5-4 (DEDUCED where the table leaves a method open, log entry 145) -/

/-- Relative standard deviation of the envelope in 10^-6, less the share of noise at a CNR in 0.01 dB: 1/(2c) of the power. -/
def mpOf (cnr : Int) (x : List Cx) : Nat :=
  let e := x.map fun c => sqrtQ c.power
  let m := meanOf e
  if m = 0 then 0
  else
    let v := meanOf (e.map fun y => (y - m) * (y - m)) / (m * m) - ampDb (-(cnr : Rat) / 50) / 2
    (sqrtQ (max 0 v) * 1000000).floor.toNat

/-- Sum of the powers of the tones at multiples of 100 Hz between two frequencies, the resolution of 10 ms. -/
def tonesPower (rate : Nat) (up : Bool) (lo hi : Nat) (x : List Cx) : Rat :=
  sumOf ((List.range ((hi - lo) / 100 + 1)).map fun n =>
    (toneOf rate (if up then ((lo + 100 * n : Nat) : Rat) else -((lo + 100 * n : Nat) : Rat)) x).power)

/-- A tone of an AM carrier's bins at an offset: from the bin nearest to it. -/
def binTone (s : State) (l : Lane) (f : Int) : Cx :=
  let d := binSpacing true s.clocks.plan
  let j := clampInt (-2) 2 (((l.nco + f : Int) : Rat) / d + 1 / 2).floor
  toneOf (2 * d) ((l.nco + f : Int) - j * d)
    (((binsOf (((List.range 6).find? (bitOf l.mask)).getD 4) l).getD (j + 2).toNat []).flatMap decodeBlock)

/-- Padj - Pc in 0.01 dB, on the stronger side; the floor without a carrier. -/
def adjOf (s : State) (am : Bool) (l : Lane) (x y : List Cx) : Int :=
  let side (up : Bool) : Rat :=
    if am then
      let lo := l.am.bandwidth + 500
      sumOf ((List.range ((15000 - lo) / 100 + 1)).map fun n => (binTone s l (if up then (lo + 100 * n : Nat) else -((lo + 100 * n : Nat) : Int))).power)
    else tonesPower 384000 up 100000 150000 x
  let pc := if am then (binTone s l 0).power else meanOf (y.map Cx.power)
  if x.isEmpty || pc = 0 then -20000 else centiDb (max (side true) (side false) / pc)

/-- Carrier offset over the update in Hz (R139). -/
def offsetOf (rate : Nat) (x : List Cx) : Int :=
  let c := correlate x.tail x
  if x.isEmpty then 0 else roundRat (rate * argTurn c.re c.im)

/-- Peak deviation in kHz (FM), or peak negative modulation in percent (AM). -/
def peakIn (am : Bool) (level : Rat) (x y : List Cx) (m : List Rat) : Nat :=
  if x.isEmpty then 0
  else if am then
    let e := y.map fun c => sqrtQ c.power
    if level = 0 then 0 else (clampInt 0 100 (roundRat (100 * (1 - e.foldl min level / level)))).toNat
  else (clampInt 0 255 (roundRat (150 * (m.map fun v => if v < 0 then -v else v).foldl max 0))).toNat

/-- The figures of one update. -/
def measureLane (s : State) (am : Bool) (f : LaneFigures) (x : List Cx) (l : Lane) : Lane :=
  let y := if am then fitList x.length Cx.zero (Config.amChannel l.am.bandwidth x) else channelFm (widthKHz l.filter) x
  let m := if am then [] else multiplex (widthKHz l.filter) (l.wide.headD Cx.zero) x
  let blank := if am then (blankShare x :: l.blanked).take 10 else []
  let offsets := (offsetOf (laneRate am) (if am then y else x) :: l.offsets).take 10
  let peaks := (peakIn am (nextLevel l.nets.level y) x y m :: l.peaks).take 100
  let mp := if am then impOf { l with blanked := blank } else mpOf f.cnr y
  let adjNow := adjOf s am l x y
  let raw := quality am f.cnr mp adjNow
  let c := if l.first then (f.cnr : Rat) else smooth 100 10 l.cnrS f.cnr
  let mpS := if l.first then (mp : Rat) else smooth 100 10 l.mpS mp
  let a := if l.first then (adjNow : Rat) else smooth 100 10 l.adjS adjNow
  let prof := profileOf am l
  let mt := muteTarget am prof f.cnr
  let w := if am then (l.filter, 0) else nextWidth (l.fm.filter == 0) l.fm.filter raw.adj l.filter l.widenMs
  let l1 := { l with
    raw := raw, cnrS := c, mpS := mpS, adjS := a, smoothed := quality am c mpS a, blanked := blank, offsets := offsets, peaks := peaks,
    levels := (if am then [4, 5] else [0, 1, 2, 3]).map fun i => inputLevel s am i l,
    freqOffset := meanInt offsets, peak := peaks.foldl max 0,
    pilotDev := (clampInt 0 255 (roundRat (3000 * sqrtQ (pilotTone (firstSample am s.now) m).power))).toNat,
    gate := nextGate l, blendS := if l.first then blendTarget l raw.lq else glide 30 2000 l.blendS (blendTarget l raw.lq),
    corner := nextCorner am prof raw.lq l.first l.corner,
    mute := if l.first then mt else glide 200 10 l.mute mt,
    filter := w.1, widenMs := w.2, syncDet := am && (l.am.detector == 2 || (l.am.detector == 0 && l.loop)), concealing := false }
  { l1 with valid := laneValid am l1 }

/-- A lane that conceals a gap, or has no samples yet, holds its figures and clears its valid flag (R108, R131, R293). -/
def concealLane (l : Lane) : Lane := { l with concealing := true, valid := false }

/-- Runs that fail fabric parity become gap markers of the lane (R504). -/
def takeLost (am : Bool) (now : Nat) (f : LaneFigures) (l : Lane) : Lane :=
  { l with gaps := f.lost.map (fun g => (windowStart am now + g.1, g.2)) ++ l.gaps.filter fun g => decide (now < g.1 + g.2 + 48000) }

/-- A gap of its inputs or its own has come since the last update, or reaches into the samples of this one. -/
def laneGap (s : State) (am : Bool) (f : LaneFigures) (l : Lane) : Bool :=
  !f.lost.isEmpty || gapIn s l.mask (s.now - 480) (s.now + 1) || l.gaps.any fun g => decide (windowStart am s.now < g.1 + g.2 ∧ g.1 < s.now + 1)

/-- One update: the bins as transported, the figures, unless a gap holds them (R131), and the audio. -/
def updateLane (s : State) (am : Bool) (f : LaneFigures) (l0 : Lane) : Lane :=
  let hold := laneGap s am f l0
  let l1 := takeLost am s.now f { l0 with bins := carryBins s am f.bins }
  let l := if hold then l1 else takeParams l1
  let bb := laneBaseband s am l
  let m := if hold then concealLane l else measureLane s am f bb.1 l
  let y := noteAudio (laneAudioStep s am bb m)
  if hold then { y with audioRms := l0.audioRms, silenceMs := l0.silenceMs } else { y with first := false }

/-- Every 100 ms the statistics flow of a lane carries its figures (R151). -/
def laneStats (id : Nat) (s : State) : State :=
  match laneAt s id with
  | none => s
  | some l =>
    if l.statsMs + 10 < 100 then setLane id { l with statsMs := l.statsMs + 10 } s
    else produce 0x02 (laneSource id) 0xFFFF false none (laneFigureBytes s (isAm id) l) (setLane id { l with statsMs := 0 } s)

/-- `LANE_UPDATE` (R126 to R151): the 10 ms update of a running lane. -/
def execLaneUpdate (lane : Nat) (figs : LaneFigures) (s : State) : Host.Outcome State Fault Refusal :=
  match laneAt s lane with
  | none => .fault .absentUnit
  | some l =>
    if l.st ≠ .running then .next s
    else if !s.mgr.rxRunning then .next (laneStats lane (setLane lane (concealLane l) s))
    else .next (count 15 figs.lost.length 0 (laneStats lane (noteLq lane (setLane lane (updateLane s (isAm lane) figs l) s))))

/-- The pilot after an observation (R136): present after 50 ms of at least 2.0 kHz with the loop locked, absent after 20 ms below
1.0 kHz or unlocked. The loop locks to such a pilot in that time whenever the CNR is 10 dB or more (`cnr` 80). -/
def pilotAfter (o : PilotObs) (cnr : Nat) (was : Bool) : Bool :=
  if (o.locked ∨ 80 ≤ cnr) ∧ 2000 ≤ o.least ∧ 50 ≤ o.ms then true
  else if (!o.locked ∨ o.most < 1000) ∧ 20 ≤ o.ms then false else was

/-- The carrier loop after an observation (R147): locked after 100 ms within 20 degrees at a carrier in the capture range, unlocked
after 50 ms beyond 60 degrees. It locks whenever the CNR is 10 dB or more and the carrier moves by 1 Hz/s or less. -/
def loopAfter (o : LoopObs) (cnr : Nat) (was : Bool) : Bool :=
  if o.offset.natAbs ≤ 100 ∧ 100 ≤ o.ms ∧ (o.most ≤ 20 ∨ (80 ≤ cnr ∧ o.drift ≤ 1000)) then true
  else if 60 < o.least ∧ 50 ≤ o.ms then false else was

/-- `PILOT_STATE_CHANGE` (R136): the pilot of an FM lane becomes present or absent. -/
def execPilotStateChange (lane : Nat) (o : PilotObs) (s : State) : Host.Outcome State Fault Refusal :=
  match s.lanes.fm[lane]? with
  | none => .fault .absentUnit
  | some l => if l.st = .running then .next (updLane lane (fun l => { l with pilot := pilotAfter o l.raw.cnr l.pilot }) s) else .next s

/-- `SYNC_LOOP_LOCK_CHANGE` (R147): the carrier loop of an AM lane. -/
def execSyncLoopLockChange (lane : Nat) (o : LoopObs) (s : State) : Host.Outcome State Fault Refusal :=
  match laneAt s lane with
  | none => .fault .absentUnit
  | some l => if isAm lane ∧ l.st = .running then .next (updLane lane (fun l => { l with loop := loopAfter o l.raw.cnr l.loop }) s) else .next s

end Sys2Proof.Machine
end

