-- ==== Sys2Proof/Machine/Power.lean ====
section
/-! DEFINITION. `POWER_POLICY` and `CAPACITY_STATUS` (R276, R295), and the rows of the fabric's capacity: measurement and
VCORE control (R273, R278), shedding and restoring (R283 to R290), input FIFO drops and the derate (R291, R292). -/

namespace Sys2Proof.Machine

def setCap (f : Capacity → Capacity) (s : State) : State := { s with cap := f s.cap }

/-! ### Commands -/

def powerReply (s : State) : List Byte := powerBytes (powerAsked s.cap) ++ le 2 s.cap.vcore

def bodyPowerPolicy (c : Call) (s : State) : Res :=
  if c.p.length = 0 then okay (powerReply s) s else
  let s1 := setCap (fun k => { k with next := some (parsePower c.p) }) s
  okay (powerReply s1) s1

def cmdPowerPolicy : Cmd := { opc := 0x90, len := lenIn [0, 6], ids := noIds, body := bodyPowerPolicy }

/-- `POWER_POLICY` (R276): it takes effect at the next measurement. -/
def execPowerPolicy (tag : Byte) (p : List Byte) (s : State) : Host.Outcome State Fault Refusal := hostRow cmdPowerPolicy tag p s

/-- The cap ceiling counts, and lies below `vcore_ceiling_mv`. -/
def capLowers (c : Capacity) : Bool := c.economy && decide (c.vcap < c.ceiling)

def capFlags (now : Nat) (c : Capacity) : Nat :=
  flag c.shortfall + 2 * flag c.overcommitted + 4 * flag c.thermalHeld + 8 * flag (capLowers c) + 16 * flag c.unattainable +
  32 * flag (decide (now < c.slewEnd))

def word16 (x : Int) : List Byte := le 2 (clampInt 0 65535 x).toNat

/-- The reply of `CAPACITY_STATUS` (Table 10-6). -/
def capacityBytes (s : State) : List Byte :=
  let c := s.cap
  [bflag c.economy] ++ le 2 c.vcore ++ le 2 (vEff c) ++ word16 c.powerMw ++ le 2 c.capMw ++ leS 2 (tjMax s) ++ word16 c.cmeas ++
  word16 (capLim s).floor ++ word16 (demand s) ++ word16 (reservedDemand s) ++
  leS 2 (clampInt (-32768) 32767 (capLim s * 10 / 11 - demand s).floor) ++ [byte c.derate, byte (capFlags s.now c)] ++
  [byte (min 255 c.restoreList.length)] ++ le 2 c.shedPasses ++ le 4 c.fifoDrops

def cmdCapacityStatus : Cmd := { opc := 0x91, len := lenIn [0], ids := noIds, body := fun _ s => okay (capacityBytes s) s }

/-- `CAPACITY_STATUS` (R295). -/
def execCapacityStatus (tag : Byte) (p : List Byte) (s : State) : Host.Outcome State Fault Refusal := hostRow cmdCapacityStatus tag p s

/-! ### Measurement and VCORE control (R273, R276 to R278, R283, R286) -/

/-- A policy that was asked for comes into force (R276); the cap ceiling starts at `vcore_ceiling_mv` (R278). -/
def takePolicy (c : Capacity) : Capacity :=
  match c.next with
  | none => c
  | some x =>
    let again := (x.economy && !c.economy) || x.ceiling != c.ceiling
    { c with economy := x.economy, capMw := x.capMw, ceiling := x.ceiling, restore := x.restore, next := none,
             vcap := if again then x.ceiling else c.vcap, underCap := if again then 0 else c.underCap,
             unattainable := c.unattainable && !again, restoreList := if x.restore then c.restoreList else [] }

/-- The slowest ring gives the capacity in force. -/
def measure (rings : List Nat) (c : Capacity) : Capacity :=
  { c with cmeas := Config.capacityOfRing (rings.foldl max 0), measuredAt := c.vcore }

/-- Ticks of a slew at 1 mV/us, begun ones counted. -/
def slewTicks (a b : Nat) : Nat := (48 * (max a b - min a b) + 999) / 1000

/-- VCORE moves; the capacity at the new voltage is estimated until the next measurement. -/
def setVcore (v : Nat) (s : State) : State :=
  if v = s.cap.vcore then s
  else setCap (fun c => { c with vcore := v, slewEnd := s.now + slewTicks c.vcore v, richMs := 0, shortReads := 0 }) s

/-- VCORE slews, or did so within the last 50 us (R273). -/
def slewed (s : State) : Bool := decide (0 < s.cap.slewEnd) && decide (s.now < s.cap.slewEnd + 3)

/-- C_est(V_now - 5 mV) meets a multiple of the demand, in hundredths. -/
def mayFall (s : State) (pct : Nat) : Bool :=
  decide (605 ≤ s.cap.vcore) && decide ((demand s : Rat) * pct / 100 ≤ capEst s (s.cap.vcore - 5))

/-- The control of VCORE at a measurement. -/
def controlVcore (s : State) : State :=
  if vEff s.cap < s.cap.vcore then setVcore (vEff s.cap) s
  else if !capacityMet s && decide (s.cap.vcore < vEff s.cap) then setVcore (vNeeded s) s
  else
    let rich := decide ((demand s : Rat) * 5 / 4 ≤ (s.cap.cmeas : Rat))
    let n := if rich then min 10000 (s.cap.richMs + 1) else 0
    let s1 := setCap (fun c => { c with richMs := n }) s
    if !s.cap.economy && n == 10000 && mayFall s 110 then setVcore (s.cap.vcore - 5) s1 else s1

/-- Consecutive measurements short with VCORE at the effective ceiling (R283). -/
def countShort (s : State) : State :=
  let short := !capacityMet s && s.cap.vcore == vEff s.cap
  setCap (fun c => { c with shortReads := if short then min 2 (c.shortReads + 1) else 0 }) s

/-- D - C_lim / 1.10 in 0.25 EU, for the fault log (Table 18-5). -/
def deficit (s : State) : Int := ((demand s : Rat) - capLim s * 10 / 11).floor

/-- The shortfall and the overcommitted state after a measurement, with their faults. -/
def judgeShortfall (s : State) : State :=
  let short := shortByLimit s || decide (2 ≤ s.cap.shortReads)
  let s1 := setCap (fun c => { c with shortfall := short, overcommitted := c.overcommitted && shortByLimit s }) s
  let s2 := if s.cap.overcommitted && !shortByLimit s then faultEnds 0x71 0 2 s1 else s1
  if short && !faultOpen s2 0x70 0 && !s2.cap.overcommitted then faultBegins 0x70 0 0 (deficit s2) false s2
  else if !short then faultEnds 0x70 0 2 s2 else s2

/-- Headroom for the most recently shed entry (R290). -/
def entryCost (s : State) (x : ShedEntry) : Nat := if x.engine then engineRaise s x.id x.mask else laneRaise s x.id x.mask

def restoreFits (s : State) : Bool :=
  match s.cap.restoreList.getLast? with
  | none => false
  | some x => !s.cap.shortfall && decide (((demand s + entryCost s x : Nat) : Rat) * 1155 / 1000 ≤ capLim s)

def trackRestore (s : State) : State :=
  setCap (fun c => { c with restoreSince := if restoreFits s then some (c.restoreSince.getD s.now) else none }) s

/-- `CAPACITY_MEASUREMENT` (R273, R276, R278, R283): once per millisecond; one during a slew, or within 50 us of it, is discarded. -/
def execCapacityMeasurement (rings : List Nat) (s : State) : Host.Outcome State Fault Refusal :=
  if !mainReady s || slewed s then .next s
  else
    let s1 := controlVcore (setCap (fun c => takePolicy (measure rings c)) s)
    .next (trackRestore (judgeShortfall (countShort s1)))

/-- The lowest voltage that carries a demand with its margin, up to the ceilings that are never overridden (R286). -/
def vFor (need : Nat) (s : State) : Nat :=
  let top := min s.cap.ceiling s.cap.thermal
  (vSteps.find? fun v => decide (v ≤ top) && decide (plusTenth need ≤ capEst s v * ((100 - s.cap.derate : Nat) : Rat) / 100)).getD top

/-- The cap ceiling after a window of input power (R278); while the cap is unattainable it stays at what the protected work needs,
`floor`, if that is more (R286). -/
def moveCap (mw floor : Nat) (c : Capacity) : Capacity :=
  let v := max 600 (c.vcore - 5)
  if c.capMw < mw then { c with vcap := if c.unattainable then max v floor else v, underCap := 0, unattainable := c.unattainable && decide (v < floor) }
  else if 100 * mw < 95 * c.capMw then
    if 9 ≤ c.underCap then { c with vcap := min c.ceiling (c.vcap + 5), underCap := 0, unattainable := false }
    else { c with underCap := c.underCap + 1, unattainable := false }
  else { c with underCap := 0, unattainable := false }

/-- `POWER_WINDOW` (R278): the 100 ms average, mW. -/
def execPowerWindow (mw : Nat) (s : State) : Host.Outcome State Fault Refusal :=
  if !mainReady s then .next s
  else
    let s1 := setCap (fun c => { c with powerMw := mw }) s
    if !s.cap.economy then .next (setCap (fun c => { c with underCap := 0 }) s1)
    else
      let s2 := setCap (moveCap mw (vFor (demand s) s)) s1
      .next (if mayFall s2 112 then setVcore (s2.cap.vcore - 5) s2 else s2)

/-! ### Shedding (R283 to R288) -/

/-- An instance chosen in a pass: its step, antenna masks before and after, and its saving. -/
structure Shed where
  engine : Bool
  id : Nat
  step : Nat
  before : Nat
  after : Nat
  saving : Nat

/-- An announcement or alarm takes its audio from the engine. -/
def engineAnnounces (s : State) (e : Nat) : Bool :=
  s.progs.any fun p => (p.holding.toList ++ p.nextHold.toList).any fun h => h.src.kind == 2 && resolve s h.src == some e

def idleEngine (s : State) (e : Nat) (x : Engine) : Bool :=
  x.st == .running && engineRank s e x != 1 && !engineDecodes s e && !engineAnnounces s e

def idleLane (s : State) (id : Nat) (l : Lane) : Bool := l.st == .running && laneRank s id l != 1

/-- Qualification of a lane for a step of Table 10-5. -/
def laneStep (s : State) (step id : Nat) (l : Lane) : Bool :=
  idleLane s id l &&
  (match step with
   | 1 => !l.pinned && 4 ≤ laneRank s id l && !isAm id && 2 ≤ antennas l.mask
   | 2 => !l.pinned && 4 ≤ laneRank s id l
   | 5 => l.pinned && 2 ≤ antennas l.mask
   | _ => false)

def engineStep (s : State) (step e : Nat) (x : Engine) : Bool :=
  idleEngine s e x &&
  (match step with
   | 3 => !x.pinned && 2 ≤ antennas x.mask
   | 4 => !x.pinned && !engineFeedsFlow s e
   | 5 => x.pinned && 2 ≤ antennas x.mask
   | _ => false)

/-- Candidates of a step: scan-assigned and AF first, then the lowest quality, then the highest identifier (R284). -/
def stepCandidates (s : State) (step : Nat) : List (Bool × Nat) :=
  let ls := (laneIds s).filterMap fun id => match laneAt s id with
    | some l => if laneStep s step id l then some (false, id, l.owner == .host, l.smoothed.lq) else none
    | none => none
  let es := (List.range s.dab.engines.length).filterMap fun e => match engineAt s e with
    | some x => if engineStep s step e x then some (true, e, x.owner == .host, eqSmooth x) else none
    | none => none
  (sortBy (fun a b => decide (flag a.2.2.1 < flag b.2.2.1 ∨ (a.2.2.1 = b.2.2.1 ∧ (a.2.2.2 < b.2.2.2 ∨ (a.2.2.2 = b.2.2.2 ∧ b.2.1 ≤ a.2.1)))))
    (ls ++ es)).map fun x => (x.1, x.2.1)

/-- The combining weight of an antenna (R115, R186): its square for a lane, its sum over the carriers for an engine. -/
def weightOf (s : State) (engine : Bool) (id i : Nat) : Rat :=
  if engine then match engineAt s id with
    | some x => sumOf ((x.antennas.filter fun a => a.input == i && a.wait == 0).map fun a => sumOf ((List.range a.taps.length).map (weightK a)))
    | none => 0
  else match laneAt s id with
    | some l => sumOf ((l.branches.filter fun b => b.input == i).map fun b =>
        factorOf b * factorOf b * b.h.power / (noiseAt s i l.freq * noiseAt s i l.freq))
    | none => 0

/-- The antenna of the set with the highest combining weight (R284); which of equals is open (log entry 110). -/
def keepOne (w : Nat → Rat) (mask : Nat) (s : State) : Nat × State :=
  let l := (List.range 8).filter (bitOf mask)
  let best := l.filter fun i => decide (w i = (l.map w).foldl max 0)
  let d := drawNat s
  (2 ^ best.getD (d.1 % max 1 best.length) (l.headD 0), d.2)

def reduces (step : Nat) : Bool := step == 1 || step == 3 || step == 5

/-- Shed one instance: its set falls to one antenna, or it is released. -/
def shedOne (step : Nat) (engine : Bool) (id : Nat) (s : State) : State × Option Shed :=
  match (if engine then (engineAt s id).map (·.mask) else (laneAt s id).map (·.mask)) with
  | none => (s, none)
  | some m =>
    let n := antennas m
    if reduces step then
      let k := keepOne (weightOf s engine id) m s
      let s1 := if engine then setEngineMask id k.1 k.2 else setLaneMask id k.1 k.2
      let entry : ShedEntry := { engine := engine, id := id, mask := m, step := step }
      let s2 := setCap (fun c => { c with
        restoreList := if c.restore then (c.restoreList.filter fun x => !(x.engine == engine && x.id == id)) ++ [entry] else c.restoreList
        restoreSince := none }) s1
      (s2, some { engine := engine, id := id, step := step, before := m, after := k.1, saving := (n - 1) * (if engine then 8 else 2) })
    else
      let save := if engine then engineCost n else laneCost (isAm id) n
      ((if engine then releaseEngine id s else releaseLane id s),
        some { engine := engine, id := id, step := step, before := m, after := 0, saving := save })

/-- What a pass carries: the state, the demand left with savings counted at once, and the instances shed. -/
structure Pass where
  s : State
  left : Nat
  shed : List Shed

def passFits (lim : Rat) (p : Pass) : Bool := decide (plusTenth p.left ≤ lim)

def passStep (lim : Rat) (p : Pass) (step : Nat) : Pass :=
  (stepCandidates p.s step).foldl (fun p x =>
    if passFits lim p then p else
    match shedOne step x.1 x.2 p.s with
    | (s1, some d) => { s := s1, left := p.left - d.saving, shed := p.shed ++ [d] }
    | (s1, none) => { p with s := s1 }) p

/-- The cause of a shortfall (R287). -/
def shedCause (c : Capacity) : Nat :=
  if 0 < c.derate then 3
  else if c.economy ∧ vEff c = c.vcap then 2
  else if vEff c = c.ceiling ∧ c.ceiling < 850 then 1
  else 0

/-- A mask as the record codes it: HB0 to HB3, or LB0 and LB1 in bits 0 and 1. -/
def recordMask (engine : Bool) (id m : Nat) : Nat := if !engine && isAm id then m / 16 % 4 else m % 16

def shedEntry (d : Shed) : List Byte :=
  le 2 (if d.engine then engineRef d.id else laneSource d.id) ++
  [byte d.step, byte (recordMask d.engine d.id d.before + 16 * recordMask d.engine d.id d.after)]

/-- One `EV_CAPACITY_SHED` record. -/
def evShed (cause before after : Nat) (l : List Shed) (s : State) : State :=
  let c := s.cap
  raise 8 ([byte cause, byte l.length] ++ le 2 c.vcore ++ word16 c.cmeas ++ word16 (capLim s).floor ++ word16 before ++ word16 after ++
    leS 2 (tjMax s) ++ word16 c.powerMw ++ [0, 0] ++ l.flatMap shedEntry) s

/-- Records of at most 12 entries; a pass raises one at least. -/
def shedRecords (cause before after : Nat) : Nat → List Shed → State → State
  | 0, _, s => s
  | k + 1, l, s =>
    let s1 := evShed cause before after (l.take 12) s
    if (l.drop 12).isEmpty then s1 else shedRecords cause before after k (l.drop 12) s1

/-- Under Economy the cap ceiling gives way to the protected work (R286). -/
def raiseCap (left : Nat) (s : State) : State :=
  let c := s.cap
  let top := min c.ceiling c.thermal
  if !c.economy || vEff c != c.vcap || decide (top ≤ c.vcap) then s else
  let v := max c.vcap (vFor left s)
  let s1 := setCap (fun c => { c with vcap := v, unattainable := true }) s
  if c.unattainable then s1 else evShed 6 left left [] s1

/-- A shortfall that remains leaves the device overcommitted (R286). -/
def overcommit (left : Nat) (s : State) : State :=
  if decide (plusTenth left ≤ capLim s) || s.cap.overcommitted then s else
  let s1 := evShed 5 left left [] (setCap (fun c => { c with overcommitted := true }) s)
  faultBegins 0x71 0 0 (deficit s1) false (faultEnds 0x70 0 6 s1)

/-- Every change of the previous pass has taken effect. -/
def passSettled (s : State) : Bool :=
  s.cap.passUnits.all fun u =>
    if u.1 then match engineAt s u.2 with | some x => x.st != .draining && (x.ramps.all fun r => decide (r.2 ≤ s.now)) | none => true
    else match laneAt s u.2 with | some l => l.st != .draining && (l.ramps.all fun r => decide (r.2 ≤ s.now)) | none => true

def sheddingPass (s : State) : State :=
  let before := demand s
  let lim := capLim s
  let p := [1, 2, 3, 4, 5].foldl (passStep lim) { s := s, left := before, shed := [] }
  let s1 := setCap (fun c => { c with shedPasses := min 65535 (c.shedPasses + 1), passUnits := p.shed.map fun d => (d.engine, d.id) }) p.s
  let s2 := shedRecords (shedCause s.cap) before p.left (p.shed.length / 12 + 1) p.shed s1
  if passFits lim p then reselectAll s2 else reselectAll (overcommit p.left (raiseCap p.left s2))

/-- A shortfall exists now: by the limit, or by measurements that the present demand still falls short of (R283). -/
def shortNow (s : State) : Bool := shortByLimit s || (decide (2 ≤ s.cap.shortReads) && !capacityMet s)

/-- `SHEDDING_PASS` (R283 to R288, R512): at a decision point. -/
def execSheddingPass (s : State) : Host.Outcome State Fault Refusal :=
  if !mainReady s || !decides s || !s.cap.shortfall || !shortNow s || s.cap.overcommitted || !passSettled s then .next s
  else
    let s1 := becomesRunnable 0x70 0 s
    .next (if holdsSlot s1 0x70 0 || !faultOpen s1 0x70 0 then sheddingPass s1 else s1)

/-! ### Restoring (R290) -/

/-- The set of an entry, within what its instance may still use. -/
def restoreMask (s : State) (x : ShedEntry) : Nat :=
  if x.engine then match engineAt s x.id with | some e => engineMask s s.clocks.plan e.freq x.mask | none => 0
  else match laneAt s x.id with | some l => laneMask s s.clocks.plan x.id l.freq x.mask | none => 0

def unitMask (s : State) (x : ShedEntry) : Nat :=
  if x.engine then match engineAt s x.id with | some e => e.mask | none => 0
  else match laneAt s x.id with | some l => l.mask | none => 0

def restoreOne (x : ShedEntry) (s : State) : State :=
  let old := unitMask s x
  let m := restoreMask s x ||| old
  let d0 := demand s
  let s1 := if x.engine then setEngineMask x.id m s else setLaneMask x.id m s
  let s2 := setCap (fun c => { c with restoreList := c.restoreList.dropLast, restoredAt := some s.now }) s1
  let s3 := evShed 4 d0 (demand s2) [{ engine := x.engine, id := x.id, step := x.step, before := old, after := m, saving := 0 }] s2
  if restoreFits s3 then s3 else setCap (fun c => { c with restoreSince := none }) s3

/-- `RESTORE` (R290): after 10 s of headroom, then at intervals of at least 1 s. -/
def execRestore (s : State) : Host.Outcome State Fault Refusal :=
  match s.cap.restoreList.getLast?, s.cap.restoreSince with
  | some x, some t =>
    let waited : Bool := match s.cap.restoredAt with
      | some r => if t ≤ r then elapsed s r 48000 else elapsed s t 480000
      | none => elapsed s t 480000
    if mainReady s && decides s && s.cap.restore && restoreFits s && waited && admits s (entryCost s x) then .next (restoreOne x s) else .next s
  | _, _ => .next s

/-! ### Input FIFO drops and the derate (R291 to R293) -/

/-- Ticks that a block of 4096 samples touches: 7 us in the high band, 55 us in the low band (R270). -/
def blockTicks (input : Nat) : Nat := if isLow input then 3 else 1

/-- The gap marker of a block on an input: every consumer of its bins sees it, lanes, engines and RDS decoders (R291). -/
def gapOn (input : Nat) : State → State := fun s => updInput input (gapNow (blockTicks input) s.now) s

/-- `INPUT_FIFO_DROP` (R291, R292). -/
def execInputFifoDrop (input : Nat) (s : State) : Host.Outcome State Fault Refusal :=
  if !bonded s input then .fault .absentUnit
  else if sampling s input then
    .next (gapOn input (count (6 + input) 1 input (setCap (fun c => { c with
      derate := min 20 (c.derate + 2), derateAt := s.now, fifoDrops := satAdd 0xFFFFFFFF c.fifoDrops 1 }) s)))
  else .next s

/-- `DERATE_DECAY` (R292): 1 % for every 10 s without a drop. -/
def execDerateDecay (s : State) : Host.Outcome State Fault Refusal :=
  if 0 < s.cap.derate ∧ elapsed s s.cap.derateAt 480000 then
    .next (setCap (fun c => { c with derate := c.derate - 1, derateAt := s.now }) s)
  else .next s

end Sys2Proof.Machine
end

