-- ==== Sys2Proof/Machine/Services.lean ====
section
/-! DEFINITION. The services commands 0x30 to 0x33 (R163, R209, R210, R223, R230, R404, R405). -/

namespace Sys2Proof.Machine

/-! ### Entries and records (Tables 8-3, 8-4) -/

def serviceOf (m : Model) (sid : Id32) : Option Service := m.services.find? (·.sid == sid)

/-- Label, mask and character set: the component's, otherwise the service's, otherwise blanks. -/
def labelOf (m : Model) (c : Component) : List Byte × Nat × Nat :=
  match c.label, serviceOf m c.sid with
  | some l, _ => (l, c.labelMask, c.charset)
  | none, some v => match v.label with
    | some l => (l, v.labelMask, v.charset)
    | none => (List.replicate 16 0x20, 0, 0)
  | none, none => (List.replicate 16 0x20, 0, 0)

/-- Linkage sets that name a service. -/
def setsOf (m : Model) (sid : Id32) : List Linkage := m.linkage.filter fun l => l.sids.contains sid

def ptyOf (m : Model) (sid : Id32) : Option Nat := (serviceOf m sid).bind (·.pty)

def entryFlags (m : Model) (c : Component) : Nat :=
  flag c.primary + 2 * flag c.scrambled + 4 * flag m.current + 8 * flag (ptyOf m c.sid).isSome +
  16 * flag (!(setsOf m c.sid).isEmpty) + 32 * flag (m.annSup.any (·.sid == c.sid))

def dabEntry (e : Nat) (m : Model) (c : Component) : List Byte :=
  let l := labelOf m c
  le 2 (m.eid.getD 0).toNat ++ le 4 c.sid.toNat ++
  [byte c.scids, byte e, byte (compKind c), byte (entryFlags m c), byte ((ptyOf m c.sid).getD 0), byte c.subch] ++
  padTo 16 l.1 ++ le 2 l.2.1 ++ [byte l.2.2, 0]

/-- Every component of every running engine's model. -/
def dabComps (s : State) : List (Nat × Model × Component) :=
  (List.range s.dab.engines.length).flatMap fun e => match engineAt s e with
    | some x => if x.st = .running then x.model.comps.map fun c => (e, x.model, c) else []
    | none => []

/-- Ascending EId, SId, SCIdS and engine (R209). -/
def dabKeyLe (a b : Nat × Model × Component) : Bool :=
  let k (x : Nat × Model × Component) : List Nat := [(x.2.1.eid.getD 0).toNat, x.2.2.sid.toNat, x.2.2.scids, x.1]
  decide (k a ≤ k b)

def dabList (s : State) : List (Nat × Model × Component) := sortBy dabKeyLe (dabComps s)

def fmList (s : State) : List Station := sortBy (fun a b => decide (a.pi.toNat ≤ b.pi.toNat)) (s.rds.stations.filter (·.valid))

/-- Header of a page (R209). -/
def pageHead (total gen first count : Nat) : List Byte := le 2 total ++ le 2 gen ++ le 2 first ++ [byte count, 0]

/-- `domain`: 0 FM, anything else 1 DAB. -/
def domainFm (p : List Byte) : Bool := p1 p 0 == 0

def bodyServiceList (c : Call) (s : State) : Res :=
  let first := rd c.p 1 2
  if domainFm c.p then
    let page := ((fmList s).drop first).take 13
    okay (pageHead (fmList s).length s.rds.generation first page.length ++ page.flatMap fun r => (stationBytes s r).take 18) s
  else
    let page := ((dabList s).drop first).take 7
    okay (pageHead (dabList s).length s.dab.generation first page.length ++ page.flatMap fun x => dabEntry x.1 x.2.1 x.2.2) s

def cmdServiceList : Cmd := { opc := 0x30, len := lenIn [3], ids := noIds, body := bodyServiceList }

/-- `SERVICE_LIST` (R209, R404). -/
def execServiceList (tag : Byte) (p : List Byte) (s : State) : Host.Outcome State Fault Refusal := hostRow cmdServiceList tag p s

def lsnBytes (l : Linkage) : List Byte := le 2 (l.lsn % 4096 + 32768 * flag l.ils + 16384 * flag l.hard)

/-- Table 8-4. -/
def dabRecord (e : Nat) (m : Model) (c : Component) : List Byte :=
  let sub := m.subchs.find? (·.id == c.subch)
  let ann := m.annSup.find? (·.sid == c.sid)
  let cl := match ann with | some a => a.clusters | none => []
  let sets := (setsOf m c.sid).take 4
  dabEntry e m c ++ le 2 (match sub with | some x => bitrateKbps x | none => 0) ++
  [byte (if c.tmid = 0 then (match sub with | some x => x.audio | none => 0) else 0), byte c.lang, byte (c.caid % 8), byte c.apps.length] ++
  padTo 12 (c.apps.flatMap (le 2)) ++ le 2 (match ann with | some a => a.asu | none => 0) ++
  [byte cl.length] ++ padTo 8 (cl.map byte) ++ [byte sets.length] ++ padTo 8 (sets.flatMap lsnBytes) ++
  le 2 (if c.tmid = 3 then c.addr else 0)

def infoKey (p : List Byte) : Source :=
  { kind := 2, lane := 0, eid := BitVec.ofNat 16 (rd p 1 2), sid := BitVec.ofNat 32 (rd p 3 4), scids := p1 p 7 }

def bodyServiceInfo (c : Call) (s : State) : Res :=
  if domainFm c.p then
    let pi : Id16 := BitVec.ofNat 16 (rd c.p 1 2)
    match s.rds.stations.find? fun r => r.valid && r.pi == pi with
    | some r => okay (stationBytes s r) s
    | none => fail stWrongState s
  else
    match resolve s (infoKey c.p) with
    | none => fail stWrongState s
    | some e =>
      match engineAt s e, compOf s e (infoKey c.p) with
      | some x, some k => okay (dabRecord e x.model k) s
      | _, _ => fail stWrongState s

/-- LEN must match the domain (R405). -/
def serviceInfoLen (p : List Byte) : Bool := if domainFm p then p.length == 3 else p.length == 8

def cmdServiceInfo : Cmd := { opc := 0x31, len := serviceInfoLen, ids := noIds, body := bodyServiceInfo }

/-- `SERVICE_INFO` (R163, R210, R405). -/
def execServiceInfo (tag : Byte) (p : List Byte) (s : State) : Host.Outcome State Fault Refusal := hostRow cmdServiceInfo tag p s

/-! ### Policies -/

def programExists (s : State) (n : Nat) : Bool := decide (n < s.progs.length)

/-- What holds a program: 0 nothing, 1 an announcement, 2 an alarm. -/
def holdingCode (p : Program) : Nat :=
  match p.holding with
  | some h => if h.onAir then (if isAlert h.ann then 2 else 1) else 0
  | none => 0

def annReply (n : Nat) (s : State) : List Byte :=
  match progAt s n with
  | some p => annBytes n p.ann ++ [byte (holdingCode p)]
  | none => []

def bodyAnnouncementPolicy (c : Call) (s : State) : Res :=
  let n := p1 c.p 0
  if c.p.length = 1 then okay (annReply n s) s
  else
    let s1 := reselect n (updProgram n (fun p => { p with ann := parseAnn c.p }) s)
    okay (annReply n s1) s1

def cmdAnnouncementPolicy : Cmd :=
  { opc := 0x32, len := lenIn [1, 9], ids := fun s p => programExists s (p1 p 0), body := bodyAnnouncementPolicy }

/-- `ANNOUNCEMENT_POLICY` (R223). -/
def execAnnouncementPolicy (tag : Byte) (p : List Byte) (s : State) : Host.Outcome State Fault Refusal :=
  hostRow cmdAnnouncementPolicy tag p s

def alertReply (s : State) : List Byte := alertBytes s.alerts.policy ++ [byte (s.alerts.active.filter (·.alarm)).length]

def bodyAlertPolicy (c : Call) (s : State) : Res :=
  if c.p.isEmpty then okay (alertReply s) s
  else
    let s1 := reselectAll { s with alerts := { s.alerts with policy := parseAlert s.chip.variant c.p } }
    okay (alertReply s1) s1

def cmdAlertPolicy : Cmd := { opc := 0x33, len := lenIn [0, 8], ids := noIds, body := bodyAlertPolicy }

/-- `ALERT_POLICY` (R230). -/
def execAlertPolicy (tag : Byte) (p : List Byte) (s : State) : Host.Outcome State Fault Refusal := hostRow cmdAlertPolicy tag p s

end Sys2Proof.Machine
end

