-- ==== Sys2Proof/Machine/Programs.lean ====
section
/-! DEFINITION. The program commands 0x40 to 0x44 (R233 to R239, R255, R269, R313, R314, R412, R413). -/

namespace Sys2Proof.Machine

/-! ### PROGRAM_SET (R234, R413) -/

/-- Table 9-10 code. -/
def programState (p : Program) : Nat :=
  if !p.running then 0 else match holdingCode p with
    | 0 => 1
    | k => k + 1

def stateOfProgram (s : State) (n : Nat) : Nat := match progAt s n with | some p => programState p | none => 0

def noSource : Source := { kind := 0, lane := 0, eid := 0, sid := 0, scids := 0 }

def setReply (n action : Nat) (src : Source) (slot state : Nat) : List Byte := sourceBytes n action src ++ [byte slot, byte state]

/-- Action 0: a program whose curtain is open stops at the closed instant. -/
def bodyProgramStop (n : Nat) (s : State) : Res :=
  match progAt s n with
  | none => fail stNotInVariant s
  | some p =>
    if !p.running then okay (setReply n 0 noSource 0xFF 0) s
    else
      { status := stOk, payload := setReply n 0 noSource 0xFF (if p.curtain.pos = 0 then 0 else programState p), state := s,
        effects := [.stop n] }

/-- A lane that `PROGRAM_SET` names and that is held in the wings is started, and the command waits for it (R120, R413). -/
def startNamed (src : Source) (s : State) : State × Option Wait :=
  if src.kind = 2 then (s, none)
  else match laneAt s src.lane with
    | some l => if l.st = .wings then (orderLane src.lane s, some (.lane src.lane)) else (s, none)
    | none => (s, none)

/-- Action 1. -/
def bodyProgramStart (n : Nat) (src : Source) (s : State) : Res :=
  let live : Bool := src.kind == 2 || (match laneAt s src.lane with | some l => liveState l.st | none => false)
  if !live then fail stWrongState s
  else
    let (s1, w) := startNamed src (formGroup n src s)
    { status := stOk, payload := setReply n 1 src 0 (max 1 (stateOfProgram s1 n)), state := s1, effects := [.primary n], wait := w }

/-- The automatic member that a host member replaces in a full group: lowest quality, ties to the highest slot (R413). -/
def yieldingSlot (s : State) (p : Program) : Option Nat :=
  worst (fun i => match memberAt p i with | some m => sourceQuality s m.src | none => 0)
    ((slotsOf p).filter fun i => !inUse p i && (match memberAt p i with | some m => m.origin == 2 | none => false))

/-- Action 2, once the slot is known. -/
def addHost (n slot : Nat) (src : Source) (s : State) : Res :=
  let (s1, w) := startNamed src (placeMember n slot src 1 s)
  { status := stOk, payload := setReply n 2 src slot (stateOfProgram s1 n), state := s1, wait := w }

/-- The 1.5 EU of a second member (R239). -/
def blendAdmitted (s : State) (p : Program) : Bool := p.blended || (slotsOf p).isEmpty || admits s blendCost

def bodyProgramAdd (n : Nat) (src : Source) (s : State) : Res :=
  match progAt s n with
  | none => fail stNotInVariant s
  | some p =>
    if !p.running then fail stWrongState s
    else match slotOfSource p src with
      | some i => okay (setReply n 2 src i (programState p)) s
      | none =>
        if !blendAdmitted s p then fail stNoResource s
        else if p.policy.maxMembers ≤ (slotsOf p).length then
          match yieldingSlot s p with
          | some i => addHost n i src (removeMember n i s)
          | none => fail stNoResource s
        else match freeSlot p with
          | some i => addHost n i src s
          | none => fail stNoResource s

/-- Action 3. -/
def bodyProgramRemove (n : Nat) (src : Source) (s : State) : Res :=
  match progAt s n with
  | none => fail stNotInVariant s
  | some p =>
    match slotOfSource p src with
    | none => fail stWrongState s
    | some 0 => fail stWrongState s
    | some i =>
      { status := stOk, payload := setReply n 3 src i (stateOfProgram (dropSource n src s) n), state := s, effects := [.remove n src] }

def bodyProgramSet (c : Call) (s : State) : Res :=
  let n := p1 c.p 0
  match p1 c.p 1 with
  | 0 => bodyProgramStop n s
  | 1 => bodyProgramStart n (parseSource c.p) s
  | 2 => bodyProgramAdd n (parseSource c.p) s
  | 3 => bodyProgramRemove n (parseSource c.p) s
  | _ => fail stWrongState s

/-- LEN 2 only with action 0 (R413). -/
def programSetLen (p : List Byte) : Bool := p.length == 11 || (p.length == 2 && p1 p 1 == 0)

/-- The program, and the lane for kinds 0 and 1: a lane of the other kind is not in the variant. -/
def programSetIds (s : State) (p : List Byte) : Bool :=
  programExists s (p1 p 0) &&
  (p1 p 1 == 0 ||
    (let x := parseSource p
     x.kind == 2 || (laneExists s x.lane && (isAm x.lane == (x.kind == 1)))))

def cmdProgramSet : Cmd := { opc := 0x40, len := programSetLen, ids := programSetIds, body := bodyProgramSet }

/-- `PROGRAM_SET` action 0 (R234). -/
def execProgramStop (tag : Byte) (p : List Byte) (s : State) : Host.Outcome State Fault Refusal :=
  hostRow cmdProgramSet tag (setByte p 1 0) s

/-- `PROGRAM_SET` action 1 (R234). -/
def execProgramStart (tag : Byte) (p : List Byte) (s : State) : Host.Outcome State Fault Refusal :=
  hostRow cmdProgramSet tag (setByte p 1 1) s

/-- `PROGRAM_SET` action 2 (R234, R413). -/
def execProgramAddMember (tag : Byte) (p : List Byte) (s : State) : Host.Outcome State Fault Refusal :=
  hostRow cmdProgramSet tag (setByte p 1 2) s

/-- `PROGRAM_SET` action 3 (R234). -/
def execProgramRemoveMember (tag : Byte) (p : List Byte) (s : State) : Host.Outcome State Fault Refusal :=
  hostRow cmdProgramSet tag (setByte p 1 3) s

/-! ### PROGRAM_STATUS (Table 9-10) -/

def slotByte (x : Option Nat) : Byte := byte (x.getD 0xFF)

/-- A realignment runs, its full search with it (R249). -/
def isRealigning (p : Program) : Bool :=
  match p.align with
  | .realigning _ => true
  | .searching _ | .refining _ _ _ => p.wasAligned
  | _ => false

def memberDecoded (s : State) (m : Member) : Bool := m.src.kind == 2 && (decoderOf s m.src).isSome && memberBound s m.src

def memberRecord (s : State) (p : Program) (i : Nat) : List Byte :=
  match memberAt p i with
  | none => []
  | some m =>
    [byte i, byte m.src.kind, byte m.origin] ++ extKey m.src ++ [byte (sourceQuality s m.src)] ++
    leS 2 (m.delta.getD (-32768)) ++
    [byte (flag (memberFailing s p i m) + 2 * flag (memberGood s p i m) + 4 * flag (memberDecoded s m) + 8 * flag m.underrun)]

def programStatusBytes (s : State) (n : Nat) (p : Program) : List Byte :=
  let shown (x : Option Nat) : Option Nat := x.filter fun i => (memberAt p i).isSome
  [byte (programState p), byte (flag p.alignedMode + 128 * flag p.unaligned),
    byte (flag (progReady s p) + 2 * flag (isRealigning p) + 4 * flag p.fade.isSome + 8 * flag p.curtain.moving.isSome + 16 * flag (programValid s n)),
    bflag p.outDab, slotByte (shown p.selA), slotByte (shown p.selD)] ++
  leS 4 (if p.align = .aligned then roundRat p.tau else 0) ++ leS 1 (p.loud.getD 0) ++
  [byte p.pages, byte (if p.pages = 0 then p.clsCfg else p.cls), byte (slotsOf p).length] ++
  (slotsOf p).flatMap (memberRecord s p)

def bodyProgramStatus (c : Call) (s : State) : Res :=
  match progAt s (p1 c.p 0) with
  | some p => okay (programStatusBytes s (p1 c.p 0) p) s
  | none => fail stNotInVariant s

def cmdProgramStatus : Cmd := { opc := 0x41, len := lenIn [1], ids := fun s p => programExists s (p1 p 0), body := bodyProgramStatus }

/-- `PROGRAM_STATUS` (R269). -/
def execProgramStatus (tag : Byte) (p : List Byte) (s : State) : Host.Outcome State Fault Refusal := hostRow cmdProgramStatus tag p s

/-! ### LINK_POLICY (R237) -/

def bodyLinkPolicy (c : Call) (s : State) : Res :=
  let n := p1 c.p 0
  match progAt s n with
  | none => fail stNotInVariant s
  | some p =>
    if c.p.length = 1 then okay (linkBytes n (p.policyNext.getD p.policy)) s
    else
      let x := parseLink c.p
      okay (linkBytes n x) (updProgram n (fun p => { p with policyNext := some x }) s)

def cmdLinkPolicy : Cmd := { opc := 0x42, len := lenIn [1, 12], ids := fun s p => programExists s (p1 p 0), body := bodyLinkPolicy }

/-- `LINK_POLICY` (R237): it applies from the next decision point (R267). -/
def execLinkPolicy (tag : Byte) (p : List Byte) (s : State) : Host.Outcome State Fault Refusal := hostRow cmdLinkPolicy tag p s

/-! ### DELAY_STORE_CONFIG (R255) -/

def storeReply (n cls : Nat) (p : Program) (free : Nat) : List Byte :=
  [byte n, byte cls, byte (if p.pages = 0 then 0xFF else p.cls), byte p.pages] ++ le 2 free

def bodyDelayStoreConfig (c : Call) (s : State) : Res :=
  let n := p1 c.p 0
  match progAt s n with
  | none => fail stNotInVariant s
  | some p =>
    if c.p.length = 1 then okay (storeReply n p.clsCfg p (pagesFree s)) s
    else
      let cls := enumOf [0, 1] 0 (p1 c.p 1)
      okay (storeReply n cls p (pagesFree s)) (updProgram n (fun p => { p with clsCfg := cls }) s)

def cmdDelayStoreConfig : Cmd :=
  { opc := 0x43, len := lenIn [1, 2], ids := fun s p => programExists s (p1 p 0), body := bodyDelayStoreConfig }

/-- `DELAY_STORE_CONFIG` (R255). -/
def execDelayStoreConfig (tag : Byte) (p : List Byte) (s : State) : Host.Outcome State Fault Refusal := hostRow cmdDelayStoreConfig tag p s

/-! ### CURTAIN (R313, R314) -/

def curtainReply (n action : Nat) (c : Curtain) (held : Bool) : List Byte :=
  curtainBytes n action c ++ [byte (roundRat (c.pos * 255)).toNat, bflag held]

def bodyCurtain (c : Call) (s : State) : Res :=
  let n := p1 c.p 0
  match progAt s n with
  | none => fail stNotInVariant s
  | some p =>
    if c.p.length = 1 then okay (curtainReply n 2 p.curtain p.curtain.held) s
    else
      let action := enumOf [0, 1, 2] 2 (p1 c.p 1)
      let k := { p.curtain with downMs := curtainMs (rd c.p 2 2), upMs := curtainMs (rd c.p 4 2) }
      { status := stOk, payload := curtainReply n action k (if action = 2 then k.held else action == 0), state := s,
        effects := [.curtain n (if action = 2 then none else some (action == 0)) k.downMs k.upMs] }

def cmdCurtain : Cmd := { opc := 0x44, len := lenIn [1, 6], ids := fun s p => programExists s (p1 p 0), body := bodyCurtain }

/-- `CURTAIN` action 0 (R314). -/
def execCurtainCloseAndHold (tag : Byte) (p : List Byte) (s : State) : Host.Outcome State Fault Refusal :=
  hostRow cmdCurtain tag (setByte p 1 0) s

/-- `CURTAIN` action 1 (R314). -/
def execCurtainReleaseAndOpen (tag : Byte) (p : List Byte) (s : State) : Host.Outcome State Fault Refusal :=
  hostRow cmdCurtain tag (setByte p 1 1) s

/-- `CURTAIN` action 2, and the query of LEN 1 (R313). -/
def execCurtainSetTimes (tag : Byte) (p : List Byte) (s : State) : Host.Outcome State Fault Refusal :=
  hostRow cmdCurtain tag (setByte p 1 2) s

end Sys2Proof.Machine
end

