-- ==== Sys2Proof/Machine/Linking.lean ====
section
/-! DEFINITION. The decision points and the rows of linking, alignment and blending (R226, R231, R240 to R267). -/

namespace Sys2Proof.Machine

/-! ### Candidates (R238) -/

/-- A component that bits 1 and 2 of `auto` admit for the group identity. -/
def dabAdmitted (s : State) (p : Program) (sid : Id32) : Bool :=
  let ids := groupIdentity s p
  let linked (hard : Bool) : Bool := (linkSets s hard).any fun l => l.sids.contains sid && ids.any fun i => setLists l i
  (bitOf p.policy.auto 1 && ((shortSid sid && ids.contains (sidPi sid)) || linked true)) || (bitOf p.policy.auto 2 && linked false)

/-- The PIs whose live sets the group draws on (R168, R238). -/
def drawnPis (s : State) (p : Program) : List Id16 :=
  if (groupIdentity s p).isEmpty then [] else
  (if bitOf p.policy.auto 0 then groupIdentity s p else []) ++ (if bitOf p.policy.auto 3 then memberPis s p else [])

/-! ### Leaving (R240) -/

/-- An automatic FM member keeps an identity that the group draws on. -/
def fmStays (s : State) (p : Program) (m : Member) : Bool :=
  match (laneAt s m.src.lane).bind (·.ident.pi) with
  | none => false
  | some q => !(groupIdentity s p).isEmpty &&
      (groupIdentity s p ++ (if bitOf p.policy.auto 3 then memberPis s p else [])).any (oneProgramme s.rds.cfg q)

/-- Since when nothing has admitted an automatic DAB member. -/
def admitTimer (s : State) (p : Program) (m : Member) : Member :=
  if m.origin = 2 ∧ m.src.kind = 2 then
    { m with notAdmittedSince := if dabAdmitted s p m.src.sid then none else some (m.notAdmittedSince.getD s.now) }
  else m

def memberLeaves (s : State) (p : Program) (m : Member) : Bool :=
  m.origin == 2 && (if m.src.kind = 2 then heldFor s m.notAdmittedSince 10000 else !fmStays s p m)

def leavePass (n : Nat) (s : State) : State :=
  match progAt s n with
  | none => s
  | some p0 =>
    let s1 := updProgram n (fun p => { p with members := p.members.map fun m => m.map (admitTimer s p0) }) s
    match progAt s1 n with
    | none => s1
    | some p =>
      forEach ((slotsOf p).filter fun i => match memberAt p i with | some m => memberLeaves s1 p m | none => false) (removeMember n) s1

/-! ### Timers of the conditions (R257, R258) -/

def since (holds : Bool) (now : Nat) (t : Option Nat) : Option Nat := if holds then some (t.getD now) else none

/-- The timers of one member at a decision point. -/
def ageMember (s : State) (p : Program) (i : Nat) (m : Member) : Member :=
  let c := p.policy
  let q := qualityOf s p i m
  let dab := m.src.kind == 2
  let soon := dab && concealsSoon s m
  let whole : Bool := if dab then (resolve s m.src).isSome && memberBound s m.src && !soon else analogValid s p i m
  let good := !m.underrun && whole && decide ((if dab then c.eqLow + c.eqHyst else c.lqLow + c.lqHyst) ≤ q)
  let sel := (pathSel p dab).bind fun j => (memberAt p j).map fun x => (j, qualityOf s p j x)
  let better : Bool := match sel with
    | some (j, v) => j != i && decide (v + (if dab then c.eqHyst else c.lqMargin) ≤ q)
    | none => false
  { m with lowSince := since (decide (q < (if dab then c.eqLow else c.lqLow))) s.now m.lowSince, goodSince := since good s.now m.goodSince,
           betterSince := since better s.now m.betterSince, concealDue := soon }

def agePass (n : Nat) (s : State) : State :=
  updProgram n (fun p => { p with members := mapIdx (fun i m => m.map (ageMember s p i)) p.members }) s

/-! ### Switching (R259 to R262) -/

/-- Highest quality, ties to the lower slot. -/
def bestSlot (q : Nat → Nat) : List Nat → Option Nat
  | [] => none
  | i :: is => match bestSlot q is with
    | none => some i
    | some j => if q i < q j then some j else some i

/-- The member that a path switches to (Table 9-6, first two rows). -/
def pathSwitch (s : State) (p : Program) (dab : Bool) : Option Nat :=
  let q (i : Nat) : Nat := match memberAt p i with | some m => qualityOf s p i m | none => 0
  let others := (pathSlots p dab).filter fun i => pathSel p dab != some i && !slotFailing s p i
  let better := others.any fun i => match memberAt p i with
    | some m => if dab then memberGood s p i m && heldFor s m.betterSince (1000 * p.policy.holdS) else heldFor s m.betterSince 1000
    | none => false
  if others.isEmpty then none
  else if better || pathFailing s p dab then bestSlot q others else none

def trimmed (p : Program) (i : Nat) : Bool := match memberAt p i with | some m => m.delta.isSome | none => false

/-- A DAB member is decoded: a decoder delivers its audio. -/
def slotDecoded (s : State) (p : Program) (i : Nat) : Bool :=
  match memberAt p i with
  | some m => sourceValid s m.src
  | none => false

def slotOr (x : Option Nat) : Nat := x.getD 0xFF

/-- Start a crossfade. -/
def startFade (n : Nat) (output : Bool) (old new ms : Nat) (s : State) : State :=
  updProgram n (fun p => { p with fade := some { output := output, old := old, new := new, start := s.now, ms := ms, reversed := false } }) s

/-- A new selection starts the comparison with it afresh. -/
def clearBetter (p : Program) : Program := { p with members := p.members.map fun m => m.map fun x => { x with betterSince := none } }

/-- A switch within a path (Table 9-7, rows 1 to 3). -/
def switchWithin (n : Nat) (dab : Bool) (new : Nat) (s : State) : State :=
  match progAt s n with
  | none => s
  | some p =>
    let old := pathSel p dab
    let both := trimmed p new && old.any (trimmed p)
    let anchorIn := isRealigning p && (p.anchorD == some new || p.anchorD == old)
    let fades := both && !(dab && anchorIn) && (!dab || (slotDecoded s p new && old.any (slotDecoded s p)))
    let s1 := updProgram n clearBetter s
    if fades then
      startFade n false (slotOr old) new (if dab then 200 else 30) (evLink n 6 (slotOr old) new [] (if dab then 2 else 1) s1)
    else
      closeThen n (.switchMember dab new) (evLink n 6 (slotOr old) new [] 3 s1)

/-- A switch between the paths (Table 9-7, rows 4 and 5). -/
def switchPaths (n : Nat) (dab : Bool) (s : State) : State :=
  match progAt s n with
  | none => s
  | some p =>
    let old := slotOr (pathSel p (!dab))
    let new := slotOr (pathSel p dab)
    if p.alignedMode && progReady s p then startFade n true old new 200 (evLink n 6 old new [] 4 s)
    else closeThen n (.switchPath dab) (evLink n 6 old new [] 5 s)

/-- The output decision of Table 9-6. -/
def outputSwitch (s : State) (p : Program) : Option Bool :=
  let pref := p.policy.prefer == 0
  let has (dab : Bool) : Bool := !(pathSlots p dab).isEmpty
  if p.outDab = pref then
    if pathFailing s p pref && has (!pref) && !pathFailing s p (!pref) then some (!pref) else none
  else if !has pref then none
  else if pathGood s p pref || (pathFailing s p (!pref) && !pathFailing s p pref) then some pref else none

/-- No decision is taken during a crossfade, a hard switch, or while an announcement or alarm holds the program. -/
def decisionsHeld (p : Program) : Bool :=
  p.holding.any (·.onAir) || p.fade.isSome || !p.curtain.after.isEmpty || p.curtain.switching

/-- An incoming source that fails reverses its crossfade (R262). -/
def reversePass (n : Nat) (s : State) : State :=
  updProgram n (fun p => { p with fade := p.fade.map fun f => if slotFailing s p f.new then reverseFade s.now f else f }) s

def switchPass (n : Nat) (s0 : State) : State :=
  let s := reversePass n s0
  match progAt s n with
  | none => s
  | some p =>
    if decisionsHeld p then s
    else
      let s1 := match pathSwitch s p false with | some i => switchWithin n false i s | none => s
      let s2 := match progAt s1 n with
        | some q => if decisionsHeld q then s1 else
          match pathSwitch s1 q true with | some i => switchWithin n true i s1 | none => s1
        | none => s1
      match progAt s2 n with
      | some q => if decisionsHeld q then s2 else
        match outputSwitch s2 q with | some d => switchPaths n d s2 | none => s2
      | none => s2

/-! ### Modes, loans, sources -/

/-- The moves between direct and aligned mode (R254, R264). -/
def modePass (n : Nat) (s : State) : State :=
  match progAt s n with
  | none => s
  | some p =>
    if !p.policy.align then
      if p.align = .off ∧ !p.alignedMode ∧ p.pages = 0 then s
      else leaveAligned n (updProgram n (fun p => { p with align := .off, wasAligned := false }) s)
    else if p.alignedMode || decisionsHeld p || !progReady s p then s
    else if p.outDab then alignIfReady n s
    else if p.policy.entry = 1 then closeThen n .enterAligned s
    else s

/-- An unowned decoder is lent for a second DAB member (R212): the best that resolves and has none. -/
def loanPass (n : Nat) (s : State) : State :=
  match progAt s n with
  | none => s
  | some p =>
    let idle := (pathSlots p true).filter fun i => p.selD != some i && (match memberAt p i with
      | some m => (resolve s m.src).isSome && (decoderOf s m.src).isNone
      | none => false)
    let has := s.decoders.any fun d => isLoanTo n d && (match d.key with
      | some k => p.members.any fun m => match m with | some x => x.src == k | none => false
      | none => false)
    if has then s
    else match (bestSlot (fun i => match memberAt p i with | some m => sourceQuality s m.src | none => 0) idle).bind (memberAt p) with
      | some m => (lend n m.src s).getD s
      | none => s

/-- A program with no selectable member is silent and says so (R263). -/
def sourcePass (n : Nat) (s : State) : State :=
  match progAt s n with
  | none => s
  | some p =>
    if (slotsOf p).any (slotSelectable s p) then updProgram n (fun p => { p with noSource := false }) s
    else if p.noSource || !p.curtain.after.isEmpty then s
    else evLink n 9 0xFF 0 [] 0 (updProgram n (fun p => { p with noSource := true }) s)

/-! ### The search for tau (R244 to R249) -/

/-- The DAB anchor delivers. -/
def anchorValid (s : State) (p : Program) : Bool :=
  match p.anchorD.bind (memberAt p) with
  | some m => sourceValid s m.src
  | none => false

def searchPass (n : Nat) (s0 : State) : State :=
  let s := updProgram n (fun p => if p.dabValidAt.isNone && anchorValid s0 p then { p with dabValidAt := some s0.now } else p) s0
  match progAt s n with
  | none => s
  | some p =>
    if !p.policy.align || !bothPaths p then s
    else match p.align with
      | .off => if p.dabValidAt.isSome then updAlign n (.searching s.now) s else s
      | .searching t =>
        if p.dabTicks < 48000 then s
        else match coarseLag p with
          | some lag => requestPages n lag (updAlign n (.refining t lag s.now) s)
          | none => s
      | _ => s

/-- Automatic members beyond `max_members` leave, from the highest slot down. -/
def trimGroup (n : Nat) : Nat → State → State
  | 0, s => s
  | k + 1, s =>
    match progAt s n with
    | none => s
    | some p =>
      if (slotsOf p).length ≤ p.policy.maxMembers then s
      else match ((slotsOf p).filter fun i => match memberAt p i with | some m => m.origin == 2 | none => false).getLast? with
        | some i => trimGroup n k (removeMember n i s)
        | none => s

/-- A new linking policy applies from a decision point (R237, R267). -/
def takeLinkPolicy (n : Nat) (s : State) : State :=
  match (progAt s n).bind (·.policyNext) with
  | some x => trimGroup n 12 (updProgram n (fun p => { p with policy := x, policyNext := none }) s)
  | none => s

/-- One program at a decision point (R259). -/
def decide1 (o : ProgObs) (s0 : State) : State :=
  let n := o.program
  let s := takeLinkPolicy n s0
  match progAt s n with
  | none => s
  | some p =>
    if !p.running then s
    else
      let s := updProgram n (fun p => { p with store := o.upsets.foldl upset p.store }) s
      sourcePass n (loanPass n (modePass n (switchPass n (searchPass n (agePass n (leavePass n s))))))

def obsOf (l : List ProgObs) (n : Nat) : ProgObs := (l.find? (·.program == n)).getD { program := n, upsets := [] }

/-- The DFC is that of a decision point (R257). -/
def atDecision (s : State) : Bool := s.time.dfc.toNat % 480 == 0

/-- `DECISION_POINT` (R257, R259): every program in turn, between commands (R35), at a DFC that is a multiple of 480. -/
def execDecisionPoint (obs : List ProgObs) (s : State) : Host.Outcome State Fault Refusal :=
  if mainReady s && decides s && atDecision s then .next (reselectAll (forEach (List.range s.progs.length) (fun n => decide1 (obsOf obs n)) s)) else .next s

/-! ### Rows of the search -/

/-- Loudness offset limited to 10 dB (R250). -/
def loudOf (x : Option Int) (old : Option Int) : Option Int := match x with | some v => some (clampInt (-100) 100 v) | none => old

/-- Loudness over the latest `windowMs` of the DAB path, at an offset in ticks (R250); none where the window has a gap (R267). -/
def loudnessAt (windowMs : Nat) (ticks : Int) (p : Program) : Option Int :=
  let lag := (ticks / 48).toNat
  if windowHit windowMs lag lag p.traceA p.traceD then none else loudnessOf (envPairs windowMs lag p.traceA p.traceD)

/-- tau is found: the program is aligned (R246, R253). -/
def aligned (n windowMs : Nat) (o : TauObs) (s : State) : State :=
  match progAt s n with
  | none => s
  | some p =>
    let v := loudOf (loudnessAt windowMs o.ticks p) p.loud
    let q := { p with align := .aligned, tau := o.ticks, tauTarget := o.ticks, loud := v, badTracks := 0, wasAligned := true, trackedAt := s.now }
    let s1 := evLink n 2 (v.getD 0 % 256).toNat 0 [] o.ticks (updProgram n (fun _ => q) s)
    if q.pages = 0 then alignIfReady n s1
    else match growPages 256 (pagesFree s) q o.ticks with
      | some g => alignIfReady n (updProgram n (fun _ => g) s1)
      | none => loseAlignment n s1

/-- An estimate is accepted (R246), within the range of tau. -/
def accepted (o : TauObs) : Bool := o.ok && decide (0 ≤ o.ticks ∧ o.ticks ≤ 288000)

/-- Lags at 8 kHz from `ms` below to `ms` above a delay in ticks, within those of the history (R246, R249). A window with a gap is
excluded (R267). -/
def refineAbout (windowMs : Nat) (ticks : Int) (ms : Nat) (frac : Int) (p : Program) : Option TauObs :=
  let lo := max 0 (ticks / 6 - 8 * ms : Int)
  let hi := ticks / 6 + 8 * ms
  if windowHit windowMs (lo / 8).toNat (hi / 8).toNat p.traceA p.traceD then none else some (refine windowMs lo hi frac p.traceA p.traceD)

/-- `REFINEMENT` (R246): once the next 0.5 s has been taken, within 1 ms of the coarse lag; and the search of a realignment over
1.0 s within 50 ms of tau (R249). -/
def execRefinement (n : Nat) (frac : Int) (s : State) : Host.Outcome State Fault Refusal :=
  match progAt s n with
  | none => .fault .absentUnit
  | some p =>
    match p.align with
    | .refining t lag at_ =>
      if !elapsed s at_ 24000 then .next s
      else
        match refineAbout 500 (48 * lag) 1 frac p with
        | some o => if accepted o then .next (aligned n 500 o s) else .next (updAlign n (.searching t) s)
        | none => .next (updAlign n (.searching t) s)
    | .realigning t =>
      if !elapsed s t 48000 then .next s
      else
        match refineAbout 1000 (roundRat p.tau) 50 frac p with
        | some o => if accepted o then .next (aligned n 1000 o s) else .next (updAlign n (.searching s.now) s)
        | none => .next s
    | _ => .next s

/-- `ALIGNMENT_FAILED` (R247, R249): 3.0 s without an alignment. -/
def execAlignmentFailed (n : Nat) (s : State) : Host.Outcome State Fault Refusal :=
  match progAt s n with
  | none => .fault .absentUnit
  | some p =>
    let go (t : Nat) : State :=
      if !elapsed s t 144000 then s
      else if p.wasAligned then loseAlignment n s
      else dropPages n (updAlign n (.failed s.now) (evLink n 3 0 0 [] 0 s))
    match p.align with
    | .searching t => .next (go t)
    | .refining t _ _ => .next (go t)
    | _ => .next s

/-- `SEARCH_RESTART` (R247): 30 s after a failure. -/
def execSearchRestart (n : Nat) (s : State) : Host.Outcome State Fault Refusal :=
  match progAt s n with
  | none => .fault .absentUnit
  | some p =>
    match p.align with
    | .failed t =>
      if elapsed s t 1440000 then .next (updAlign n (if p.policy.align && bothPaths p && p.dabValidAt.isSome then .searching s.now else .off) s)
      else .next s
    | _ => .next s

/-- An estimate moves tau (R248); the reservation follows it (R254). -/
def trackTo (n : Nat) (o : TauObs) (s : State) : State :=
  match progAt s n with
  | none => s
  | some p =>
    let q := { p with tauTarget := o.ticks, badTracks := 0 }
    if q.pages = 0 then updProgram n (fun _ => q) s
    else match growPages 256 (pagesFree s) q o.ticks with
      | some g => updProgram n (fun _ => g) s
      | none => loseAlignment n (updProgram n (fun _ => q) s)

/-- One tracking window (R248). -/
def trackOnce (n : Nat) (o : TauObs) (p : Program) (s : State) : State :=
  if o.ok then
    if -96 ≤ (o.ticks : Rat) - p.tau ∧ (o.ticks : Rat) - p.tau ≤ 96 ∧ o.ticks ≤ 288000 then alignIfReady n (trackTo n o s) else realign n s
  else if 1 ≤ p.badTracks then realign n s
  else updProgram n (fun p => { p with badTracks := p.badTracks + 1 }) s

/-- `TRACKING` (R248, R250): every 2.0 s, over the last 2.0 s within 2 ms of tau. -/
def execTracking (n : Nat) (frac : Int) (s : State) : Host.Outcome State Fault Refusal :=
  match progAt s n with
  | none => .fault .absentUnit
  | some p =>
    if p.align ≠ .aligned || !elapsed s p.trackedAt 96000 then .next s
    else
      let t := roundRat p.tau
      let s1 := updProgram n (fun p => { p with trackedAt := s.now, loud := loudOf (loudnessAt 2000 t p) p.loud }) s
      match refineAbout 2000 t 2 frac p with
      | some o => .next (trackOnce n o p s1)
      | none => .next s1

/-- Envelope pairs of a member and its anchor at a lag in ms of either sign. -/
def lagPairs (a m : Trace) (lag : Int) : List (Int × Int) :=
  if 0 ≤ lag then envPairs 1000 lag.toNat m a else envPairs 1000 (-lag).toNat a m

/-- The coarse lag of a member against the anchor in ms, from -50 to 50, over 1.0 s, as confident as R245 asks (R242). -/
def memberLag (a m : Trace) : Option Int :=
  let f (j : Nat) : Rat := corrSq (lagPairs a m ((j : Int) - 50))
  let lags := List.range 101
  let top := peakOf f lags
  let lag : Int := (top.1 : Int) - 50
  let pairs := lagPairs a m lag
  if decide (36 / 100 ≤ top.2) && decide (9 * awayFrom f top.1 lags ≤ 4 * top.2) && decide (700 ≤ pairs.length) &&
     varies (pairs.map (·.1)) && varies (pairs.map (·.2)) then some lag else none

/-- The delay of a member relative to the anchor: the content of `m` is `delta` ticks later than that of `a`. -/
def memberDelta (frac : Int) (a m : Trace) : Option TauObs :=
  if windowHit 1050 0 0 a m then none else (memberLag a m).map fun lag => refine 1000 (8 * lag - 8) (8 * lag + 8) frac m a

/-- A measurement of a member is due: its first after the 1.0 s of its window, then every 10 s (R242). -/
def measureDue (s : State) (m : Member) : Bool :=
  match m.measuredAt with
  | some t => elapsed s t 480000
  | none => elapsed s m.joinedAt 48000

/-- `MEMBER_DELAY_MEASURE` (R241, R242): an accepted measurement in range trims the member. A member that is ahead of the
anchor has a positive lag in its own history, so its delta is the negative of it. -/
def execMemberDelayMeasure (n slot : Nat) (frac : Int) (s : State) : Host.Outcome State Fault Refusal :=
  match progAt s n with
  | none => .fault .absentUnit
  | some p =>
    match memberAt p slot with
    | none => .next s
    | some m =>
      let anchor := if m.src.kind = 2 then p.anchorD else p.anchorA
      if anchor = some slot || !measureDue s m then .next s
      else match anchor.bind (memberAt p) with
        | none => .next s
        | some a =>
          let put (d : Option Int) : State :=
            updProgram n (fun p => { p with members := p.members.set slot (some { m with delta := d, measuredAt := some s.now }) }) s
          match memberDelta frac a.trace m.trace with
          | some o =>
            if !o.ok then .next (put m.delta)
            else .next (put (if o.ticks.natAbs ≤ 2400 then some (-o.ticks) else none))
          | none => .next (put m.delta)

/-- `NO_DAB_MEMBER_TIMEOUT` (R254). -/
def execNoDabMemberTimeout (n : Nat) (s : State) : Host.Outcome State Fault Refusal :=
  match progAt s n with
  | none => .fault .absentUnit
  | some p =>
    if p.running && (pathSlots p true).isEmpty && heldFor s p.noDabSince 60000 then
      .next (leaveAligned n (updProgram n (fun p => { p with align := .off, wasAligned := false }) s))
    else .next s

/-! ### Crossfades -/

/-- `CROSSFADE_END` (R260, R262): the incoming source holds the path or the output; a reversed one leaves things as they were. -/
def execCrossfadeEnd (n : Nat) (s : State) : Host.Outcome State Fault Refusal :=
  match progAt s n with
  | none => .fault .absentUnit
  | some p =>
    match p.fade with
    | none => .next s
    | some f =>
      if !elapsed s f.start (ticksOfMs f.ms) then .next s
      else
        let s1 := updProgram n (fun p => { p with fade := none }) s
        if f.reversed then .next s1
        else if f.output then .next (updProgram n (fun p => { p with outDab := !p.outDab }) s1)
        else match memberAt p f.new with
          | some m => .next (ownMember n f.new (selectMember n (m.src.kind == 2) f.new s1))
          | none => .next s1

/-! ### Underrun (R265, R266) -/

/-- Sample pairs that come late are discarded and counted (R294); so is a pair that fails fabric parity (R504). -/
def countLate (n late bad : Nat) (s : State) : State := count 15 bad 0 (count 12 (max 1 (late + bad)) n s)

/-- A member's samples are late for so many ticks from the next one on; within such a run the concealment goes on (R265). -/
def runLate (now late : Nat) (m : Member) : Member :=
  { m with underrun := true, goodSince := none, lateFrom := if memberLate (now + 1) m then m.lateFrom else now + 1,
           onTimeSince := some (max (m.onTimeSince.getD 0) (now + 1 + late)) }

/-- `UNDERRUN` (R265, R294, R504). -/
def execUnderrun (n : Nat) (o : UnderrunObs) (s : State) : Host.Outcome State Fault Refusal :=
  match progAt s n with
  | none => .fault .absentUnit
  | some p =>
    match memberAt p o.slot with
    | none => .next s
    | some m =>
      if !p.running then .next s
      else
        let s1 := updProgram n (fun p => { p with members := p.members.set o.slot (some (runLate s.now (max 1 (o.late + o.bad)) m)) }) s
        .next (countLate n o.late o.bad (if m.underrun then s1 else evLink n 8 o.slot 0 [] 0 s1))

/-- On time for 100 ms (R266). -/
def onTime (now : Nat) (m : Member) : Bool := match m.onTimeSince with | some t => decide (t + 4800 ≤ now) | none => false

/-- `MEMBER_RETURN` (R266): 100 ms after the last late sample. -/
def execMemberReturn (n slot : Nat) (s : State) : Host.Outcome State Fault Refusal :=
  match progAt s n with
  | none => .fault .absentUnit
  | some p =>
    match memberAt p slot with
    | none => .next s
    | some m =>
      if !m.underrun || !onTime s.now m then .next s
      else
        let dab := m.src.kind == 2
        let anchor := if dab then p.anchorD == some slot else p.anchorA == some slot
        let m1 := { m with underrun := false, delta := if dab || anchor then m.delta else none, measuredAt := if dab || anchor then m.measuredAt else none }
        let s1 := updProgram n (fun p => { p with members := p.members.set slot (some m1) }) s
        .next (if dab && anchor then realign n s1 else s1)

/-! ### Curtain and announcements (R226, R231, R314) -/

/-- `CURTAIN_CLOSED` (R314, R234): what waits for the closed instant is made. -/
def execCurtainClosed (n : Nat) (s : State) : Host.Outcome State Fault Refusal :=
  match progAt s n with
  | none => .fault .absentUnit
  | some p => if p.curtain.pos = 0 && p.curtain.moving == some false then .next (reselectAll (closedInstant n s)) else .next s

/-- `CURTAIN_OPENED` (R314). -/
def execCurtainOpened (n : Nat) (s : State) : Host.Outcome State Fault Refusal :=
  match progAt s n with
  | none => .fault .absentUnit
  | some p =>
    if p.curtain.pos = 1 && p.curtain.moving == some true then
      .next (setCurtain n (fun c => { c with moving := none, switching := false }) s)
    else .next s

/-- The source of the latest selection delivers: a lane at once, a decoder at its first valid sample (R226 step 2). -/
def selectionReady (s : State) (h : Holding) : Bool := if h.src.kind = 2 then sourceValid s h.src else true

/-- `ANNOUNCEMENT_SOURCE_READY` (R226 step 3, R231): the curtain closes on the source's first valid sample. -/
def execAnnouncementSourceReady (n : Nat) (s : State) : Host.Outcome State Fault Refusal :=
  match progAt s n with
  | none => .fault .absentUnit
  | some p =>
    match selection p with
    | some h =>
      if p.running && !h.onAir && selectionReady s h && !p.curtain.after.contains .takeAnnouncement then
        .next (reselectAll (closeThen n .takeAnnouncement s))
      else .next s
    | none => .next s

/-- `END_DELAY_EXPIRY` (R226 steps 5 and 6, R231, R232): the next condition takes over directly, after an alarm another alarm or the
announcement that it broke off, or the program returns. -/
def execEndDelayExpiry (n : Nat) (s : State) : Host.Outcome State Fault Refusal :=
  match progAt s n with
  | none => .fault .absentUnit
  | some p =>
    match p.holding with
    | none => .next s
    | some h =>
      let done : Bool := match h.endedAt with | some t => elapsed s t (ticksOfMs h.delayMs) | none => false
      if !h.onAir || !done || p.nextHold.isSome || p.curtain.after.contains .returnNormal then .next s
      else
        let next := if isAlert h.ann then (bestAlarm s n).or ((p.resume.filter (holdAlive s)).map (·.ann)) else (bestAlarm s n).or (bestAnn s p)
        let s1 := match next with
          | some a => selectAnn n p a s
          | none => s
        match (progAt s1 n).bind (·.nextHold) with
        | some _ => .next s1
        | none => .next (reselectAll (closeThen n .returnNormal s1))

end Sys2Proof.Machine
end

