-- ==== Sys2Proof/Machine/Scan.lean ====
section
/-! DEFINITION. `SCAN_POLICY` (R121, R125) and the fine-map update: scan policy (R122 to R125, R175), AF lanes (R168, R169),
the watch source (R490), automatic members (R238) and the alert log's end of return (R492). -/

namespace Sys2Proof.Machine

/-! ### SCAN_POLICY -/

def scanInForce (s : State) : ScanPolicy := s.scan.next.getD s.scan.policy

def bodyScanPolicy (c : Call) (s : State) : Res :=
  if c.p.length = 0 then okay (scanBytes (scanInForce s)) s else
  let x := parseScan s.chip.variant c.p
  okay (scanBytes x) { s with scan := { s.scan with next := some x } }

def cmdScanPolicy : Cmd := { opc := 0x18, len := lenIn [0, 10], ids := noIds, body := bodyScanPolicy }

/-- `SCAN_POLICY` (R121, R125): it applies from the next fine-map update. -/
def execScanPolicy (tag : Byte) (p : List Byte) (s : State) : Host.Outcome State Fault Refusal := hostRow cmdScanPolicy tag p s

/-! ### Carriers (R122, R99) -/

/-- Kinds: 0 FM, 1 AM, 2 DAB. -/
def detectDb (c : ScanPolicy) (kind : Nat) : Int := if kind = 0 then c.fmDetect else if kind = 1 then c.amDetect else c.dabDetect

def kindScanned (c : ScanPolicy) (kind : Nat) : Bool := bitOf c.mode (if kind = 2 then 1 else 0)

/-- The level of a carrier: its largest excess, 0.25 dB. -/
def levelOf (l : List (Nat × Int)) : Int := l.foldl (fun m x => max m x.2) (-32768)

/-- Inputs that carry the frequency, in descending excess, ties to the lower input (R123). -/
def carriers (c : ScanPolicy) (kind : Nat) (l : List (Nat × Int)) : List Nat :=
  (sortBy (fun a b => decide (b.2 < a.2 ∨ (a.2 = b.2 ∧ a.1 ≤ b.1))) (l.filter fun x => decide (4 * detectDb c kind ≤ x.2))).map (·.1)

/-- Hz within which a raster point has to be the largest (R122). -/
def peakSpan (kind : Nat) : Nat := if kind = 0 then 150000 else 5000

/-- No raster point of the same kind near it is larger; ties go to the lower frequency. -/
def localPeak (obs : List PointObs) (o : PointObs) : Bool :=
  o.kind == 2 || obs.all fun q =>
    q.kind != o.kind || q.freq == o.freq || decide (peakSpan o.kind < ((q.freq : Int) - o.freq).natAbs) ||
    decide (levelOf q.excess < levelOf o.excess) || (levelOf q.excess == levelOf o.excess && decide (o.freq < q.freq))

/-- On a high-band input the point is an image of a stronger one, no more than that input's image bound plus 6 dB below it. -/
def imageOn (s : State) (obs : List PointObs) (o : PointObs) (i : Nat) : Bool :=
  !isLow i && obs.any fun g =>
    match pointPower s i o, pointPower s i g with
    | some a, some b => imageOf s.clocks.plan o.kind o.freq g.freq && decide (a < b) && decide (a - b ≤ 4 * (imageBound s i + 6))
    | _, _ => false

/-- A carrier that is an image on every input that carries it (R99, log entry 119). -/
def imageExcluded (s : State) (c : ScanPolicy) (obs : List PointObs) (o : PointObs) : Bool :=
  (carriers c o.kind o.excess).all (imageOn s obs o)

/-- Points after one update: consecutive updates at the threshold, and detection. -/
def newPoint (s : State) (c : ScanPolicy) (obs : List PointObs) (o : PointObs) : Point :=
  let before := (s.scan.points.find? fun p => p.kind == o.kind && p.freq == o.freq).map (·.seen)
  let n := if (carriers c o.kind o.excess).isEmpty then 0 else min 2 (before.getD 0 + 1)
  { kind := o.kind, freq := o.freq, excess := o.excess, seen := n, detected := n == 2 && localPeak obs o && !imageExcluded s c obs o }

def pointAt (s : State) (kind freq : Nat) : Option Point := s.scan.points.find? fun p => p.kind == kind && p.freq == freq

def carrierHeard (s : State) (kind freq : Nat) : Bool := match pointAt s kind freq with | some p => p.detected | none => false

def levelAt (s : State) (kind freq : Nat) : Int := match pointAt s kind freq with | some p => levelOf p.excess | none => -32768

/-! ### Instances by kind -/

def unitsOf (s : State) (kind : Nat) : List Nat :=
  if kind = 2 then List.range s.dab.engines.length else lanesOf s (kind == 1)

/-- What the scan needs of an instance: state, owner, frequency, what waits, rank. -/
structure Unit_ where
  st : InstState
  owner : Owner
  freq : Nat
  pend : Option Pend
  rank : Nat
  quality : Nat
  absentSince : Option Nat

def unitAt (s : State) (kind id : Nat) : Option Unit_ :=
  if kind = 2 then (engineAt s id).map fun x =>
    { st := x.st, owner := x.owner, freq := x.freq, pend := x.pend, rank := engineRank s id x, quality := eqSmooth x, absentSince := x.absentSince }
  else (laneAt s id).map fun l =>
    { st := l.st, owner := l.owner, freq := l.freq, pend := l.pend, rank := laneRank s id l, quality := l.smoothed.lq, absentSince := l.absentSince }

/-- An instance holds a frequency: live on it, or with an assignment to it that waits. -/
def holds (u : Unit_) (freq : Nat) : Bool := (liveState u.st && u.freq == freq) || (u.pend.any fun p => p.freq == freq)

def freqHeld (s : State) (kind freq : Nat) : Bool :=
  (unitsOf s kind).any fun id => match unitAt s kind id with | some u => holds u freq | none => false

/-- A running or in-the-wings FM lane holds the frequency (R168). -/
def freqLive (s : State) (freq : Nat) : Bool := s.lanes.fm.any fun l => liveState l.st && l.freq == freq

/-- A running scan assignment that R124 does not protect; one in the wings cannot be taken (R20). -/
def scanOwned (u : Unit_) : Bool := u.st == .running && u.owner == .scan && u.rank == 5

def releaseUnit (kind id : Nat) (s : State) : State := if kind = 2 then releaseEngine id s else releaseLane id s

def setAbsent (kind id : Nat) (t : Option Nat) (s : State) : State :=
  if kind = 2 then updEngine id (fun x => { x with absentSince := t }) s else updLane id (fun l => { l with absentSince := t }) s

def freeUnits (s : State) (kind : Nat) : List Nat :=
  (unitsOf s kind).filter fun id => match unitAt s kind id with | some u => u.st == .free | none => false

def keepFree (c : ScanPolicy) (kind : Nat) : Nat := if kind = 0 then c.keepFm else if kind = 2 then c.keepDab else 0

/-- The free instance that an assignment may take (R123). -/
def freeUnit (s : State) (c : ScanPolicy) (kind : Nat) : Option Nat :=
  let l := freeUnits s kind
  if keepFree c kind < l.length then l.head? else none

/-- Effective set of inputs for a carrier: those that carry it, up to `scan_antennas`, that compute its bins. -/
def scanMask (s : State) (c : ScanPolicy) (kind freq : Nat) (excess : List (Nat × Int)) : Nat :=
  let l := (carriers c kind excess).take (if kind = 1 then 1 else c.antennas)
  let m := maskOf l
  if m = 0 then 0
  else if kind = 2 then engineMask s s.clocks.plan freq m else laneMask s s.clocks.plan (if kind = 1 then 0x80 else 0) freq m

/-- Admission of an assignment, of fabric and of soft-bit shares (R119, R173). -/
def unitAdmits (s : State) (kind id mask : Nat) : Bool :=
  if kind = 2 then
    admits s (engineRaise s id mask) &&
    (match engineAt s id with | some x => decide (sharesOf s.dab.defaultExact - x.shares ≤ sharesFree s) | none => false)
  else admits s (laneRaise s id mask)

def blockOf (freq : Nat) : Nat := ((List.range 41).find? fun n => blockHz n == freq).getD 0xFF

def putUnit (kind id : Nat) (o : Owner) (af : Option Id16) (freq mask : Nat) (s : State) : State :=
  if kind = 2 then putEngine id o (blockOf freq) freq mask false false s else putLane id o freq mask false false af s

def redirectUnit (kind id : Nat) (o : Owner) (af : Option Id16) (freq mask : Nat) (s : State) : State :=
  let p : Pend := { owner := o, exact := s.dab.defaultExact, af := af, freq := freq, block := if kind = 2 then blockOf freq else 0xFF,
                    mask := mask, asked := mask, pin := false, start := false, opc := 0, tag := 0 }
  if kind = 2 then redirectEngine id p s else redirectLane id p (laneLeaves id s)

/-! ### Release (R123 step 1, R124, R125) -/

/-- The host holds the frequency of a scan lane (R124). -/
def hostHolds (s : State) (kind freq : Nat) : Bool :=
  (unitsOf s kind).any fun id => match unitAt s kind id with | some u => u.owner == .host && holds u freq | none => false

def scanRelease (c : ScanPolicy) (kind id : Nat) (s : State) : State :=
  match unitAt s kind id with
  | none => s
  | some u =>
    if !(liveState u.st && u.owner == .scan) then s else
    let t := if carrierHeard s kind u.freq then none else some (u.absentSince.getD s.now)
    let gone : Bool := match t with | some x => elapsed s x (ticksOfS c.holdS) | none => false
    let s1 := setAbsent kind id t s
    if scanOwned u && (!kindScanned c kind || gone || (kind != 2 && hostHolds s kind u.freq)) then releaseUnit kind id s1 else s1

def scanKinds : List Nat := [0, 1, 2]

def releasePass (c : ScanPolicy) (s : State) : State :=
  forEach scanKinds (fun k s => forEach (unitsOf s k) (scanRelease c k) s) s

/-! ### Assign and displace (R123 steps 2 and 3, R175) -/

/-- A competing block has a larger excess, or an equal one and a lower index (R175). -/
def outcompeted (s : State) (p : Point) : Bool :=
  p.kind == 2 && s.scan.points.any fun q =>
    q.kind == 2 && q.freq != p.freq && decide (((q.freq : Int) - p.freq).natAbs < 1536000) &&
    (decide (levelOf p.excess < levelOf q.excess) || (levelOf p.excess == levelOf q.excess && decide (q.freq < p.freq)))

def barredNow (s : State) (freq : Nat) : Bool := s.scan.barred.any fun b => b.1 == freq && decide (s.now < b.2)

/-- Detected carriers that nothing holds, in descending level, ties to the lower frequency. -/
def unheldCarriers (s : State) (c : ScanPolicy) : List Point :=
  sortBy (fun a b => decide (levelOf b.excess < levelOf a.excess ∨ (levelOf a.excess = levelOf b.excess ∧ a.freq ≤ b.freq)))
    (s.scan.points.filter fun p =>
      p.detected && kindScanned c p.kind && !freqHeld s p.kind p.freq && !barredNow s p.freq && !outcompeted s p)

/-- One carrier of the assign step; the flag says that an admission has failed and the step is over. -/
def assignCarrier (c : ScanPolicy) (acc : State × Bool) (p : Point) : State × Bool :=
  let (s, done) := acc
  if done then acc else
  match freeUnit s c p.kind with
  | none => acc
  | some id =>
    let m := scanMask s c p.kind p.freq p.excess
    if m = 0 then acc
    else if !unitAdmits s p.kind id m then (s, true)
    else (putUnit p.kind id .scan none p.freq m s, false)

def assignPass (c : ScanPolicy) (s : State) : State := ((unheldCarriers s c).foldl (assignCarrier c) (s, false)).1

/-- The weakest carrier held by a scan assignment of a kind: instance and level; of equals the lowest identifier (DESIGN CHOICE,
log entry 127). -/
def weakestHeld (s : State) (kind : Nat) : Option (Nat × Int) :=
  (unitsOf s kind).foldl (fun b id =>
    match unitAt s kind id with
    | some u =>
      if scanOwned u then
        match b with
        | none => some (id, levelAt s kind u.freq)
        | some x => if levelAt s kind u.freq < x.2 then some (id, levelAt s kind u.freq) else b
      else b
    | none => b) none

/-- The strongest unheld carrier of a kind is followed for 20 updates (R123 step 3). A displacement that is not admitted, or has
no input left, is tried again at each update (DESIGN CHOICE, log entry 127). -/
def displaceKind (c : ScanPolicy) (kind : Nat) (s : State) : State :=
  let rest := s.scan.rivals.filter (·.1 != kind)
  let set (l : List (Nat × Nat × Nat)) (s : State) : State := { s with scan := { s.scan with rivals := rest ++ l } }
  match (unheldCarriers s c).find? (·.kind == kind), weakestHeld s kind with
  | some p, some w =>
    if levelOf p.excess < w.2 + 4 * c.swapDb then set [] s
    else
      let n := match s.scan.rivals.find? (·.1 == kind) with | some r => if r.2.1 = p.freq then r.2.2 + 1 else 1 | none => 1
      if n < 20 then set [(kind, p.freq, n)] s
      else
        let m := scanMask s c kind p.freq p.excess
        if m = 0 ∨ !unitAdmits s kind w.1 m then set [(kind, p.freq, 19)] s
        else set [] (redirectUnit kind w.1 .scan none p.freq m s)
  | _, _ => set [] s

def displacePass (c : ScanPolicy) (s : State) : State := forEach scanKinds (displaceKind c) s

/-! ### AF lanes (R168, R169) -/

/-- PIs that running programs call for. -/
def calledPis (s : State) : List Id16 := (s.progs.flatMap fun p => if p.running then drawnPis s p else []).dedup

/-- FM entries in the records of every PI that belongs to one programme with `pi`. -/
def afFreqs (s : State) (pi : Id16) : List Nat :=
  (s.rds.stations.flatMap fun r =>
    if r.valid && oneProgramme s.rds.cfg r.pi pi then (r.af.filter fun e => !e.lfMf && afFm e.code).map fun e => afHz e.code else []).dedup

def afSkipped (s : State) (freq : Nat) : Bool := s.rds.afSkip.any fun x => x.1 == freq && decide (s.now < x.2)

/-- Excess of any FM frequency on the inputs whose fine maps cover it, on the raster or off it (R107, R169). -/
def fmExcess (s : State) (freq : Nat) : List (Nat × Int) :=
  ((mappedInputs s).filter fun i => !isLow i).filterMap fun i => (excessAt s i 0 freq).map fun e => (i, e)

/-- Unheld candidates with their PI, in descending excess; those below `fm_detect_db` are skipped. -/
def afCandidates (s : State) (c : ScanPolicy) : List (Id16 × Nat × Int) :=
  sortBy (fun a b => decide (b.2.2 < a.2.2 ∨ (a.2.2 = b.2.2 ∧ a.2.1 ≤ b.2.1)))
    ((calledPis s).flatMap fun pi => ((afFreqs s pi).filter fun f =>
      !freqLive s f && !afSkipped s f && decide (4 * detectDb c 0 ≤ levelOf (fmExcess s f))).map fun f => (pi, f, levelOf (fmExcess s f)))

def isAf (l : Lane) : Bool := (liveState l.st && l.owner == .af) || (l.pend.any fun p => p.owner == .af)

def afCount (s : State) : Nat := (s.lanes.fm.filter isAf).length

/-- A lane for a candidate: a free one, or the scan lane of R25 (R169 rule 2). -/
def afLaneFor (s : State) (c : ScanPolicy) : Option (Nat × Bool) :=
  match freeUnit s c 0 with
  | some id => some (id, true)
  | none => (spareLane s false true).map fun id => (id, false)

/-- The set of a candidate's inputs. -/
def afMask (s : State) (c : ScanPolicy) (freq : Nat) : Nat := scanMask s c 0 freq (fmExcess s freq)

/-- State of the AF step: the PIs served in this update, and whether an admission failed. -/
def afAssign (c : ScanPolicy) (acc : State × List Id16 × Bool) (x : Id16 × Nat × Int) : State × List Id16 × Bool :=
  let (s, served, done) := acc
  if done || served.contains x.1 || decide (s.rds.cfg.afLanes ≤ afCount s) || freqLive s x.2.1 then acc else
  let m := afMask s c x.2.1
  if m = 0 then acc else
  match afLaneFor s c with
  | none => acc
  | some (id, free) =>
    if !unitAdmits s 0 id m then (s, served, true)
    else if free then (putUnit 0 id .af (some x.1) x.2.1 m s, x.1 :: served, false)
    else (redirectUnit 0 id .af (some x.1) x.2.1 m s, x.1 :: served, false)

/-- An AF lane is released when it has not confirmed its programme within 5 s, when its frequency has left every list for
10 s, when no group calls for its PI (R169), and when a host lane holds its frequency (R124). -/
def afRelease (id : Nat) (s : State) : State :=
  match laneAt s id with
  | none => s
  | some l =>
    if !(l.st == .running && l.owner == .af) then s else
    let pi := l.afFor.getD 0
    let called := (calledPis s).any fun q => oneProgramme s.rds.cfg q pi
    let listed := (calledPis s).any fun q => (afFreqs s q).contains l.freq
    let t := if listed then none else some (l.absentSince.getD s.now)
    let gone : Bool := match t with | some x => elapsed s x 480000 | none => false
    let wrong : Bool := l.st == .running && elapsed s l.startedAt 240000 && !l.afOk
    let s1 := setAbsent 0 id t s
    if laneRank s id l ≠ 5 then s1
    else if wrong then
      releaseLane id { s1 with rds := { s1.rds with afSkip := (s1.rds.afSkip.filter (·.1 != l.freq)) ++ [(l.freq, s.now + 2880000)] } }
    else if gone || !called || hostHolds s 0 l.freq then releaseLane id s1 else s1

/-- The AF step: releases, then assignments while `af_lanes` is above 0. -/
def afPass (c : ScanPolicy) (s : State) : State :=
  let s1 := forEach (List.range s.lanes.fm.length) afRelease s
  if s.rds.cfg.afLanes = 0 then s1 else ((afCandidates s1 c).foldl (afAssign c) (s1, [], false)).1

/-! ### The watch source (R490) -/

/-- The configuration asks for a watch source of a kind on a frequency. -/
def watchAsked (s : State) (kind freq : Nat) : Bool :=
  s.mgr.rxRunning && s.ghost.cfg.watch == (if kind = 2 then 2 else 1) && s.ghost.cfg.freq != 0 && freq == s.ghost.cfg.freq

def watchRelease (kind id : Nat) (s : State) : State :=
  match unitAt s kind id with
  | some u => if liveState u.st && u.owner == .watch && !watchAsked s kind u.freq then releaseUnit kind id s else s
  | none => s

/-- Watch sources that the device assigned and that are no longer asked for are released. -/
def watchReleases (s : State) : State :=
  forEach [0, 2] (fun k s => forEach (unitsOf s k) (watchRelease k) s) s

/-- An instance on the frequency has HB0 in its set, now or when what waits takes effect. -/
def watchServed (s : State) (kind freq : Nat) : Bool :=
  if kind = 2 then s.dab.engines.any fun x => (liveState x.st && x.freq == freq && bitOf x.mask 0) || (x.pend.any fun p => p.freq == freq && bitOf p.mask 0)
  else s.lanes.fm.any fun l => (liveState l.st && l.freq == freq && bitOf l.mask 0) || (l.pend.any fun p => p.freq == freq && bitOf p.mask 0)

/-- The instance that the watch takes: the lowest free one, or a scan assignment (R490 in the manner of R169). -/
def watchUnit (s : State) (c : ScanPolicy) (kind : Nat) : Option (Nat × Bool) :=
  match freeUnit s c kind with
  | some id => some (id, true)
  | none =>
    let l := (unitsOf s kind).filter fun id => match unitAt s kind id with | some u => scanOwned u | none => false
    (worst (fun id => match unitAt s kind id with | some u => u.quality | none => 0) l).map fun id => (id, false)

def watchPass (c : ScanPolicy) (s0 : State) : State :=
  let s := watchReleases s0
  let kind := if s.ghost.cfg.watch = 2 then 2 else 0
  let f := s.ghost.cfg.freq
  if !watchAsked s kind f || watchServed s kind f then s else
  let m := if kind = 2 then engineMask s s.clocks.plan f 1 else laneMask s s.clocks.plan 0 f 1
  if m = 0 then s else
  match watchUnit s c kind with
  | none => s
  | some (id, free) =>
    if !unitAdmits s kind id m then s
    else if free then putUnit kind id .watch none f m s else redirectUnit kind id .watch none f m s

/-! ### Automatic members (R238, R239) -/

/-- Component keys that engines offer. -/
def offeredKeys (s : State) : List Source :=
  ((List.range s.dab.engines.length).flatMap fun n => match engineAt s n with
    | some e => match e.model.eid with
      | some eid =>
        if e.st == .running && e.model.current then
          e.model.comps.map fun c => { kind := 2, lane := 0, eid := eid, sid := c.sid, scids := c.scids }
        else []
      | none => []
    | none => []).dedup

/-- Candidates of a group. -/
def groupCandidates (s : State) (p : Program) : List Source :=
  (((drawnPis s p).flatMap (liveSet s)).dedup.map laneSrc) ++ (offeredKeys s).filter fun k => dabAdmitted s p k.sid

/-- Smoothed LQ of a lane, smoothed EQ of a component. -/
def smoothQuality (s : State) (x : Source) : Nat :=
  if x.kind = 2 then match (resolve s x).bind (engineAt s) with | some e => eqSmooth e | none => 0
  else laneQ s x.lane

/-- Identifiers in order: a lane's, or a component's EId, SId and SCIdS. -/
def sourceOrder (x : Source) : Nat := if x.kind = 2 then (x.eid.toNat * 2 ^ 32 + x.sid.toNat) * 16 + x.scids else x.lane

/-- In descending quality, ties to the lower identifier. -/
def rankedCandidates (s : State) (p : Program) : List Source :=
  sortBy (fun a b => decide (smoothQuality s b < smoothQuality s a ∨ (smoothQuality s a = smoothQuality s b ∧ sourceOrder a ≤ sourceOrder b)))
    ((groupCandidates s p).filter fun x => !usesSource p x && !(p.excluded.any (sameSource x)))

def addCandidate (n : Nat) (s : State) (x : Source) : State :=
  match progAt s n with
  | none => s
  | some p =>
    if p.policy.maxMembers ≤ (slotsOf p).length || !blendAdmitted s p then s
    else match freeSlot p with
      | some i => placeMember n i x 2 s
      | none => s

/-- Better candidates than the weakest automatic member, best first, each with the instant since when it has been so. -/
def rivalsOf (s : State) (p : Program) (m : Member) : List (Source × Nat) :=
  let dab := m.src.kind == 2
  let bar := smoothQuality s m.src + (if dab then p.policy.eqHyst else p.policy.lqMargin)
  ((rankedCandidates s p).filter fun x => (x.kind == 2) == dab && decide (bar < smoothQuality s x)).map fun x => (x, (m.rivals.lookup x).getD s.now)

/-- A full group: the weakest automatic member makes room for a candidate of its path that has been better for `hold_s` (R238). Times
run against the weakest member only. -/
def replaceMember (n : Nat) (s : State) : State :=
  match progAt s n with
  | none => s
  | some p =>
    let l := (slotsOf p).filter fun i => !inUse p i && (match memberAt p i with | some m => m.origin == 2 | none => false)
    let q (i : Nat) : Nat := match memberAt p i with | some m => smoothQuality s m.src | none => 0
    let weak := if (slotsOf p).length < p.policy.maxMembers then none else worst q l
    let rivals (i : Nat) (m : Member) : List (Source × Nat) := if weak = some i then rivalsOf s p m else []
    let s1 := updProgram n (fun p => { p with members := mapIdx (fun i m => m.map fun x => { x with rivals := rivals i x }) p.members }) s
    match weak.bind fun i => (memberAt p i).bind fun m => ((rivals i m).find? fun x => elapsed s x.2 (ticksOfS p.policy.holdS)).map fun x => (i, x.1) with
    | some x => placeMember n x.1 x.2 2 (removeMember n x.1 s1)
    | none => s1

def membershipOf (n : Nat) (s : State) : State :=
  match progAt s n with
  | none => s
  | some p => if p.running then replaceMember n ((rankedCandidates s p).foldl (addCandidate n) s) else s

def membershipPass (s : State) : State := forEach (List.range s.progs.length) membershipOf s

/-! ### The alert log 60 s after the return (R492) -/

/-- A condition that ended while nothing watched is closed in the log without an edge. -/
def closeReturn (s : State) : State :=
  match s.retained.alertLog.returnAt with
  | none => s
  | some t =>
    if !elapsed s t (60 * 48000) then s else
    let live (b : Announce) : Bool := s.alerts.active.any fun a => logged a && fromWatch s a && sameLogged a b
    updLog (fun l => { l with conds := l.conds.filter fun c => live c.1, changed := l.changed || l.conds.any fun c => !live c.1, returnAt := none }) s

/-! ### The update -/

/-- After a wipe of the station database, the running lanes' confirmed identities have their records made again (R165). -/
def remakeStations (s : State) : State :=
  if !s.rds.remake then s else
  forEach (List.range s.lanes.fm.length) (fun id s =>
    match laneAt s id with
    | some l => match l.st, l.ident.pi with
      | .running, some pi => confirmStation pi s
      | _, _ => s
    | none => s) { s with rds := { s.rds with remake := false } }

/-- Fine maps of the inputs that receive, at the scale of the gain in force (R48, R110). -/
def storeMaps (maps : List (Nat × List Int)) (s : State) : State :=
  forEach maps (fun m s => if (inputAt s m.1).receiving then updInput m.1 (fun x => { x with fineMap := m.2.map (compensated x), fineDfc := s.time.dfc }) s else s) s

/-- The points as the new maps have them, the policy in force from now, and the decisions unless a command executes (R35, R125): the
watch source, of rank 1, before what the scan and the AF rule claim at rank 5 (R24). -/
def scanUpdate (s : State) : State :=
  let c := scanInForce s
  let obs := pointsNow s
  let s1 := { s with scan := { s.scan with policy := c, next := none, points := obs.map (newPoint s c obs),
                                           barred := s.scan.barred.filter fun b => decide (s.now < b.2) },
                     rds := { s.rds with afSkip := s.rds.afSkip.filter fun x => decide (s.now < x.2) } }
  if decides s then displacePass c (assignPass c (afPass c (watchPass c (releasePass c s1)))) else s1

/-- `FINE_MAP_UPDATE` brings the maps of high-band and of low-band inputs (R110, R123, R169, R238, R490, R492). -/
def execFineMapUpdate (high low : List (Nat × List Int)) (s : State) : Host.Outcome State Fault Refusal :=
  if !s.mgr.rxRunning then .next s
  else
    let s1 := remakeStations (scanUpdate (storeMaps (high ++ low) s))
    if decides s then .next (closeReturn (reselectAll (membershipPass s1))) else .next (closeReturn s1)

end Sys2Proof.Machine
end

