-- ==== Sys2Proof/Machine/Supplies.lean ====
section
/-! DEFINITION. Ghost light configuration, supply, life-cycle and wipe commands 0x92 to 0x96 (R429 to R435), and the rows of
the supplies and of RESETN (R469 to R479). -/

namespace Sys2Proof.Machine

/-! ### GHOST_LIGHT_CONFIG -/

def watchCode : WatchState → Nat
  | .off => 0
  | .acquiring => 1
  | .watching => 2
  | .lost => 3

def ghostReply (s : State) (action : Nat) : List Byte :=
  ghostBytes s.ghost.cfg action ++ [byte (domainCode s), byte (watchCode s.ghost.watch)]

/-- A watch can run with this configuration (R432, R486). -/
def watchSet (c : GhostCfg) : Bool := c.watch != 0 && c.freq != 0

/-- The identity of the watch for the records of its conditions (Table 17-8a). -/
def watchEdge (s : State) (a : Announce) : Announce :=
  { a with origin := if s.ghost.cfg.watch = 2 then 0 else 1, id := 0xFE, eidPi := s.ghost.identity.getD 0 }

/-- `prompts` has the bit of a condition's kind (Table 15-9). -/
def prompted (s : State) (a : Announce) : Bool := bitOf s.ghost.cfg.prompts (logKind a)

/-- The end edge of a condition that the watch holds; it is closed in the log. -/
def endHeld (a : Announce) (s : State) : State :=
  let s1 := if prompted s a then evAnnounce (watchEdge s a) false s else s
  updLog (logSet a false 0) s1

/-- The end edges of every condition that the watch holds (R488). -/
def endAllHeld (s : State) : State := forEach (s.retained.alertLog.conds.map (·.1)) endHeld s

/-- The watch begins again under its new configuration, or stops with none (R431, R466). -/
def restartWatch (s : State) : State :=
  if watchSet s.ghost.cfg then
    refreshFeeds { s with ghost := { s.ghost with watch := .acquiring, identity := none, clusters := [] }, clocks := { s.clocks with pllN := .locking } }
  else
    refreshFeeds { s with ghost := { s.ghost with watch := .off, identity := none, sentinel := false, entryDue := false, clusters := [] },
                          clocks := { s.clocks with pllN := .off } }

/-- The configuration is set; a change clears the alert log and restarts a running watch (R431, R490, R491). -/
def setGhost (cfg : GhostCfg) (s : State) : State :=
  if cfg = s.ghost.cfg then s else
  let s1 := if s.ghost.watch = .watching then endAllHeld s else s
  let s2 := updLog (fun _ => { AlertLog.empty with changed := true }) { s1 with ghost := { s1.ghost with cfg := cfg } }
  if s2.ghost.watch = .off then watchReleases s2 else restartWatch s2

/-- `action` 1 with the main domain off: the watch starts from retention (R486). -/
def enterFromRetention (s : State) : State :=
  let cause := if s.reset_.offCause = .thermal then .thermal else .command
  startWatch { s with reset_ := { s.reset_ with offCause := cause } }

/-- `action` 2 in ghost light cannot start the main domain (R432, R479, R487, R515). -/
def cannotLeave (s : State) : Bool :=
  decide (s.supply.vmain ≤ 2970) || s.reset_.offCause == .thermal || s.supply.resetnLow

def bodyGhost (c : Call) (s : State) : Res :=
  if c.p.length = 0 then okay (ghostReply s 0) s else
  let cfg := parseGhost c.p
  let action := enumOf [0, 1, 2] 0 (p1 c.p 9)
  let inGhost := s.ghost.watch != .off
  if action = 1 ∧ !watchSet cfg then fail stWrongState s
  else if action = 2 ∧ inGhost ∧ cannotLeave s then fail stWrongState s
  else
    let s1 := setGhost cfg s
    if action = 2 ∧ inGhost then { status := stOk, payload := [], state := startMain .mainReturn false s1, silent := true }
    else if action = 1 ∧ s1.reset_.domain = .off ∧ s1.ghost.watch = .off then
      let s2 := enterFromRetention s1
      okay (ghostReply s2 action) s2
    else { status := stOk, payload := ghostReply s1 action, state := s1, gate := action == 1 && mainReady s1 }

def cmdGhost : Cmd := { opc := 0x92, len := lenIn [0, 10], ids := noIds, body := bodyGhost }

/-- `GHOST_LIGHT_CONFIG` with `action` 0, and its query (R431). -/
def execGhostLightConfig (tag : Byte) (p : List Byte) (s : State) : Host.Outcome State Fault Refusal :=
  hostRow cmdGhost tag (setByte p 9 0) s

/-- `GHOST_LIGHT_CONFIG` with `action` 1 (R432). -/
def execGhostLightEnter (tag : Byte) (p : List Byte) (s : State) : Host.Outcome State Fault Refusal :=
  hostRow cmdGhost tag (setByte p 9 1) s

/-- `GHOST_LIGHT_CONFIG` with `action` 2 (R432). -/
def execGhostLightLeave (tag : Byte) (p : List Byte) (s : State) : Host.Outcome State Fault Refusal :=
  hostRow cmdGhost tag (setByte p 9 2) s

/-! ### SUPPLY_STATUS and the life cycle -/

/-- The reply of `SUPPLY_STATUS` (R433). -/
def supplyBytes (s : State) : List Byte :=
  let u := s.supply
  let on := !mainOff s
  le 2 u.vmain ++ le 2 u.vbak ++ le 2 u.vio ++ le 2 (if on then s.cap.vcore else 0) ++ le 2 (if on then u.vana else 0) ++
  [byte (flag u.sag + 2 * flag u.onVbak + 4 * flag on + 8 * flag (!u.vio33)), 0] ++ le 2 u.halts ++ le 2 u.switchovers

def cmdSupplyStatus : Cmd := { opc := 0x93, len := lenIn [0], ids := noIds, body := fun _ s => okay (supplyBytes s) s }

/-- `SUPPLY_STATUS` (R433). -/
def execSupplyStatus (tag : Byte) (p : List Byte) (s : State) : Host.Outcome State Fault Refusal := hostRow cmdSupplyStatus tag p s

/-- Internal debug is open in every state but FIELD (Table 17-10); boundary scan is always available. -/
def lifeBytes (c : Chip) : List Byte := [byte (lifeCode c.life), byte (flag (c.life != .field) + 2), bflag c.oemWritten, 0]

def cmdLifecycleRead : Cmd := { opc := 0x94, len := lenIn [0], ids := noIds, body := fun _ s => okay (lifeBytes s.chip) s }

/-- `LIFECYCLE_READ` (R433). -/
def execLifecycleRead (tag : Byte) (p : List Byte) (s : State) : Host.Outcome State Fault Refusal := hostRow cmdLifecycleRead tag p s

def nextLife : LifeCycle → Option LifeCycle
  | .foundry => some .oem
  | .oem => some .field
  | .field => some .retired
  | .retired => none

/-- `confirm` of the two commands that need it. -/
def confirmWord : Nat := 0x5A3C

def bodyLifecycleAdvance (c : Call) (s : State) : Res :=
  match nextLife s.chip.life with
  | none => fail stWrongState s
  | some next =>
    if p1 c.p 0 ≠ lifeCode next ∨ rd c.p 1 2 ≠ confirmWord ∨ s.ghost.watch ≠ .off ∨ s.supply.sag then fail stWrongState s
    else { status := stOk, payload := [], state := coldStart s.link.address { s with chip := { s.chip with life := next } }, silent := true }

def cmdLifecycleAdvance : Cmd := { opc := 0x95, len := lenIn [3], ids := noIds, body := bodyLifecycleAdvance }

/-- `LIFECYCLE_ADVANCE` (R434, R477, R497). -/
def execLifecycleAdvance (tag : Byte) (p : List Byte) (s : State) : Host.Outcome State Fault Refusal :=
  hostRow cmdLifecycleAdvance tag p s

/-- The retained bank but for the OEM area is wiped, writes that wait are discarded, and the working station records go
with their copies (R435, R165). -/
def wipeRetained (s : State) : State :=
  { s with
    retained := Retained.wiped
    cal := { s.cal with inputs := s.cal.inputs.map fun c => { c with writeWaits := none } }
    rds := { s.rds with stations := List.replicate 512 Station.invalid, generation := (s.rds.generation + 1) % 65536, remake := true } }

def bodyRetainedWipe (c : Call) (s : State) : Res :=
  if rd c.p 0 2 ≠ confirmWord ∨ s.supply.sag then fail stWrongState s else okay (le 2 252) (wipeRetained s)

def cmdRetainedWipe : Cmd := { opc := 0x96, len := lenIn [2], ids := noIds, body := bodyRetainedWipe }

/-- `RETAINED_WIPE` (R435). -/
def execRetainedWipe (tag : Byte) (p : List Byte) (s : State) : Host.Outcome State Fault Refusal := hostRow cmdRetainedWipe tag p s

/-! ### Supply thresholds (Table 17-2) -/

def setSupply (f : Supply → Supply) (s : State) : State := { s with supply := f s.supply }

/-- `SAG_WARNING` (R471): VMAIN below 2.92 V. -/
def execSagWarning (mv : Nat) (s : State) : Host.Outcome State Fault Refusal :=
  if s.supply.backupOn ∧ !s.supply.sag ∧ mv < 2920 then
    .next (evSupply 0 (setSupply (fun u => { u with vmain := mv, sag := true }) s))
  else .next s

/-- Band memory that locked during a sag is copied now (R447, R471). -/
def flushBand (s : State) : State :=
  if s.clocks.pllS = .locked then
    { s with retained := { s.retained with band := s.retained.band.set s.clocks.plan (some true) } }
  else s

/-- `SAG_CLEARED` (R471): VMAIN above 2.97 V for 1 ms; waiting writes start. -/
def execSagCleared (mv : Nat) (s : State) : Host.Outcome State Fault Refusal :=
  if s.supply.backupOn ∧ s.supply.sag ∧ 2970 < mv then
    .next (flushBand (flushWrites (evSupply 1 (setSupply (fun u => { u with vmain := mv, sag := false }) s))))
  else .next s

/-- `SWITCH_OVER` (R471): VMAIN below 2.85 V. -/
def execSwitchOver (vmain vbak : Nat) (s : State) : Host.Outcome State Fault Refusal :=
  if s.supply.backupOn ∧ !s.supply.onVbak ∧ vmain < 2850 then
    .next (evSupply 2 (setSupply (fun u =>
      { u with vmain := vmain, vbak := vbak, onVbak := true, switchovers := satAdd 65535 u.switchovers 1 }) s))
  else .next s

/-- `SWITCH_BACK` (R471): VMAIN above 2.90 V. -/
def execSwitchBack (mv : Nat) (s : State) : Host.Outcome State Fault Refusal :=
  if s.supply.backupOn ∧ s.supply.onVbak ∧ 2900 < mv then
    .next (setSupply (fun u => { u with vmain := mv, onVbak := false }) s)
  else .next s

/-- The faults of blackout end when the device leaves it (R514, R517). -/
def leaveBlackout (s : State) : State := if s.reset_.domain = .blackout then closeBlackoutFaults s else s

/-- A table write that may be under way is cut: whether it had ended is open (R102, log entry 128). -/
def cutWrite (s : State) : State :=
  match s.retained.writing with
  | none => s
  | some (n, t) =>
    if t < s.now then s else
    let d := drawBool s
    if d.1 then { d.2 with retained := { d.2.retained with tables := upd d.2.retained.tables n fun t => { t with ok := false } } } else d.2

/-- The main domain halts (R471, R472, R474, R510). -/
def hardHalt (s0 : State) : State :=
  let s := cutWrite s0
  let s1 := stopMain .hardHalt (discardLink (leaveBlackout s))
  let s2 := evSupply 4 (setSupply (fun u => { u with halts := satAdd 65535 u.halts 1 }) s1)
  faultBegins 0x10 0 s.supply.vbak 0 false s2

/-- `HARD_HALT` (R474): VMAIN below 2.70 V. A main domain that is held off by RESETN then waits for the return as well. -/
def execHardHalt (vmain vbak : Nat) (s : State) : Host.Outcome State Fault Refusal :=
  if !s.supply.backupOn ∨ 2700 ≤ vmain then .next s else
  let s1 := setSupply (fun u => { u with vmain := vmain, vbak := vbak }) s
  if !mainOff s1 then .next (hardHalt s1)
  else if s.reset_.offCause = .resetn then .next { s1 with reset_ := { s1.reset_ with offCause := .hardHalt } }
  else .next s1

/-- `MAIN_DOMAIN_RETURN` (R471, R487, R512): VMAIN above 2.97 V for 20 ms after a hard halt. -/
def execMainDomainReturn (mv : Nat) (s : State) : Host.Outcome State Fault Refusal :=
  if s.supply.backupOn ∧ mainOff s ∧ s.reset_.offCause = .hardHalt ∧ !s.supply.resetnLow ∧ 2970 < mv then
    .next (startMain .mainReturn false (evSupply 3 (setSupply (fun u => { u with vmain := mv }) s)))
  else .next s

/-- Supplies as a backup power-on finds them. -/
def powerUp (vmain vbak : Nat) (u : Supply) : Supply :=
  { u with vmain := vmain, vbak := vbak, sag := decide (vmain < 2920), onVbak := decide (vmain < 2850), backupOn := true }

/-- `BACKUP_POWER_ON` (R475): a cold reset, at which the ADDR balls are sampled. -/
def execBackupPowerOn (addr1 addr0 : Bool) (vmain vbak : Nat) (s : State) : Host.Outcome State Fault Refusal :=
  if s.supply.backupOn then .next s
  else .next (coldStart (addressOf addr1 addr0) (setSupply (powerUp vmain vbak) s))

/-- `BACKUP_LOSS` (R471): every domain stops, and nothing is kept but the fuses. -/
def execBackupLoss (s : State) : Host.Outcome State Fault Refusal :=
  if !s.supply.backupOn then .next s else
  let s1 := coldState s.link.address s
  .next { s1 with
    supply := { s1.supply with backupOn := false }
    reset_ := { s1.reset_ with domain := .off, offCause := .backupOnly }
    clocks := { s1.clocks with pllS := .off, pllA := .off } }

/-- `VIO_LEVEL_CHANGE` (R469). -/
def execVioLevelChange (mv : Nat) (s : State) : Host.Outcome State Fault Refusal :=
  .next (refreshMirror (setSupply (fun u => { u with vio := mv, vio33 := decide (2400 ≤ mv), ioTristate := decide (mv < 1400) }) s))

/-- `VMAIN_RISE_AFTER_BACKUP_ONLY_START` (R479). -/
def execVmainRiseAfterBackupOnlyStart (mv : Nat) (s : State) : Host.Outcome State Fault Refusal :=
  if s.supply.backupOn ∧ mainOff s ∧ s.reset_.offCause = .backupOnly ∧ !s.supply.resetnLow ∧ 2970 < mv then
    .next (startMain .cold false (setSupply (fun u => { u with vmain := mv }) s))
  else .next s

/-! ### RESETN (Table 17-3, R479) -/

/-- RESETN holds the main domain stopped. -/
def resetHeld (s : State) : State :=
  let s1 := setSupply (fun u => { u with resetnLow := true }) s
  if mainOff s1 then s1 else stopMain .resetn (discardLink (leaveBlackout s1))

/-- The cause with which a release of RESETN starts the main domain, if it does (R479). -/
def releaseCause (s : State) : Option ResetCause :=
  if s.reset_.offCause = .resetn then (if 2700 ≤ s.supply.vmain then some .resetn else none)
  else if 2970 < s.supply.vmain then (if s.reset_.offCause = .backupOnly then some .cold else some .resetn)
  else none

/-- `RESETN_LOW` (R476): a pulse of at least 1 us; between 200 ns and 1 us it is open whether the pulse acts. -/
def execResetnLow (ns : Nat) (s : State) : Host.Outcome State Fault Refusal :=
  if !s.supply.backupOn ∨ s.supply.resetnLow ∨ ns < 200 then .next s
  else if 1000 ≤ ns then .next (resetHeld s)
  else
    let d := drawBool s
    let cause := if mainOff s then releaseCause s else some .resetn
    match d.1, cause with
    | true, some c => .next (startMain c false d.2)
    | _, _ => .next d.2

/-- `RESETN_RELEASE` (R479, R350): the ADDR balls are sampled as the reset is released. -/
def execResetnRelease (addr1 addr0 : Bool) (s : State) : Host.Outcome State Fault Refusal :=
  if !s.supply.backupOn ∨ !s.supply.resetnLow then .next s else
  let s1 := setSupply (fun u => { u with resetnLow := false }) s
  match releaseCause s1 with
  | some cause =>
    .next (startMain cause false { s1 with link := { s1.link with address := addressOf addr1 addr0 } })
  | none => .next s1

end Sys2Proof.Machine
end

