-- ==== Sys2Proof/Machine/Resets.lean ====
section
/-! DEFINITION. Heat (R279, R438, R515), core failures (Table 17-3), the device becoming ready (R467, R478, R479, R518), scene
capture (R482), and the ghost light watch (R486 to R493). -/

namespace Sys2Proof.Machine

/-! ### Sensors (R279, R438, R515) -/

/-- The thermal ceiling is frozen at 118 degC and released when every sensor reads 113 degC or less (R279). -/
def thermalCeiling (s : State) : State :=
  let tj := maxInt s.thermal.sensors
  if !s.cap.thermalHeld && decide (1888 ≤ tj) then evThermal 0 tj (setCap (fun c => { c with thermal := c.vcore, thermalHeld := true }) s)
  else if s.cap.thermalHeld && decide (tj ≤ 1808) then evThermal 1 tj (setCap (fun c => { c with thermal := 850, thermalHeld := false }) s)
  else s

/-- The thermal trip (R515): the main domain halts as at a hard halt. -/
def thermalTrip (s : State) : State :=
  let tj := maxInt s.thermal.sensors
  faultBegins 0x20 0 0 tj false (evThermal 2 tj (stopMain .thermal (discardLink s)))

/-- Reads at 135 degC or more that stand together. -/
def countTrip (s : State) : State :=
  let hot := decide (2160 ≤ maxInt s.thermal.sensors)
  { s with thermal := { s.thermal with tripReads := if hot then min 2 (s.thermal.tripReads + 1) else 0 } }

/-- After a trip: since when the monitor has read 115 degC or less with VMAIN good. -/
def trackCool (s : State) : State :=
  let ok := s.reset_.offCause == .thermal && decide (s.thermal.backup ≤ 1840) && decide (2970 < s.supply.vmain)
  { s with reset_ := { s.reset_ with coolSince := if ok then some (s.reset_.coolSince.getD s.now) else none } }

def setSensors (sensors : List Int) (backup : Int) (s : State) : State :=
  { s with thermal := { s.thermal with sensors := sensors, backup := backup } }

/-- The triggers of calibration, decided between commands only (R35). -/
def decideTriggers (s : State) : State :=
  if decides s then { tempTriggers s.thermal.judged s with thermal := { s.thermal with judged := tDie s } } else s

/-- The sensors are read with the main domain running. -/
def sensorsRunning (s : State) : State :=
  let s1 := countTrip (if mainReady s then thermalCeiling (decideTriggers s) else s)
  if 2 ≤ s1.thermal.tripReads then thermalTrip s1 else s1

/-- `SENSOR_READ` (R279, R438, R515): every millisecond, in 1/16 degC. -/
def execSensorRead (sensors : List Int) (backup : Int) (s : State) : Host.Outcome State Fault Refusal :=
  let s1 := setSensors sensors backup s
  match s.reset_.domain with
  | .off => .next (trackCool s1)
  | .blackout => .next s1
  | .starting | .ready => .next (sensorsRunning s1)

/-- `THERMAL_RESTART` (R515). -/
def execThermalRestart (s : State) : Host.Outcome State Fault Refusal :=
  let held : Bool := match s.reset_.coolSince with | some t => elapsed s t 48000 | none => false
  if s.supply.backupOn && mainOff s && s.reset_.offCause == .thermal && held && !s.supply.resetnLow && decide (s.thermal.backup ≤ 1840) &&
      decide (2970 < s.supply.vmain) then
    .next (startMain .thermal false (evThermal 3 s.thermal.backup s))
  else .next s

/-! ### Core failures (Table 17-3, Table 18-5, R508) -/

/-- A core failure: its counter, whose records are held from here on, its fault, and the stage reset. -/
def coreFailure (counter code : Nat) (detail : Int) (cause : ResetCause) (s : State) : State :=
  let s1 := count counter 1 0 { s with integ := { s.integ with holding := true } }
  startMain cause false (faultBegins code 0 0 detail true s1)

/-- The control core runs. -/
def coreRuns (s : State) : Bool := s.reset_.domain == .ready || s.reset_.domain == .starting

/-- `WATCHDOG_EXPIRY` (R476). -/
def execWatchdogExpiry (s : State) : Host.Outcome State Fault Refusal :=
  if coreRuns s then .next (coreFailure 30 0x31 0 .watchdog s) else .next s

/-- `FIRMWARE_RAM_ERROR` (R510). -/
def execFirmwareRamError (addr : Nat) (s : State) : Host.Outcome State Fault Refusal :=
  if coreRuns s then .next (coreFailure 19 0x30 addr .ramError s) else .next s

/-! ### DEVICE_READY (R467, R478, R479, R518) -/

/-- A retained item that fails its CRC on load (Table 18-4): what its owner does with it, where it was held at all. -/
def failItem (code : Nat) (s : State) : State :=
  let r := s.retained
  if code < 0x12 then
    let i := if code < 0x10 then code else 16 + (code - 0x10)
    match r.tables[i]? with
    | some t => if t.ok || t.initialised then count 22 1 code { s with retained := { r with tables := r.tables.set i { t with ok := false } } } else s
    | none => s
  else if 0x100 ≤ code ∧ code < 0x300 then
    if (r.stations.getD (code - 0x100) none).isSome then
      count 22 1 code { s with retained := { r with
        stations := r.stations.set (code - 0x100) none, badStations := (code - 0x100) :: r.badStations } }
    else s
  else if code = 0x300 then
    match r.scene with
    | some x => if x.ok then count 22 1 code { s with retained := { r with scene := some { x with ok := false } } } else s
    | none => s
  else if code = 0x301 then
    if r.alertLog.ok then count 22 1 code { s with retained := { r with alertLog := { AlertLog.empty with ok := false } } } else s
  else if 0x310 ≤ code ∧ code < 0x314 then
    if r.band.getD (code - 0x310) none = some true then
      count 22 1 code { s with retained := { r with band := r.band.set (code - 0x310) (some false) } }
    else s
  else if 0x400 ≤ code ∧ code < 0x500 then
    { s with retained := { r with ring := r.ring.map fun x => if x.seq % 256 = code - 0x400 then { x with ok := false } else x } }
  else s

/-- The clocks start in the order of R467; with the reference absent they wait, and the fault is detected afresh. -/
def startClocks (present : Bool) (s : State) : State :=
  let s1 := if present && s.clocks.ref == .absent then setClocks (fun c => { c with ref := .present }) s else s
  if s1.clocks.ref = .absent then faultBegins 0x40 0 0 0 false (refreshClocks s1)
  else
    let s2 := if s1.clocks.pllA = .locking then lockPllA s1 else s1
    if s2.clocks.pllS = .locking then lockPllS s2 else refreshClocks s2

/-- Codes of the tables that failed at an earlier load and have not been written since: they fail at this one too (R101). -/
def stillBad (s : State) : List Nat :=
  (List.range s.retained.tables.length).filterMap fun i => match s.retained.tables[i]? with
    | some t => if t.initialised && !t.ok then some (if i < 16 then i else 0x10 + (i - 16)) else none
    | none => none

/-- The main domain loads what the retained bank holds, measures its capacity, and reports ready. -/
def becomeReady (o : ReadyObs) (s : State) : State :=
  let s1 := forEach (o.badItems ++ (stillBad s).filter fun c => !o.badItems.contains c) failItem (count 20 o.corrected 0 s)
  let s2 := { s1 with
    rds := { s1.rds with stations := s1.retained.stations.map fun r => r.getD Station.invalid }
    clocks := { s1.clocks with band := s1.retained.band.map fun b => b == some true } }
  let s3 := setCap (measure o.cmeasRings) (startClocks o.refPresent s2)
  setDomain .ready { s3 with reset_ := { s3.reset_ with reapplying := true } }

/-- `DEVICE_READY` (R479): the end of the start-up, in the scene's reapplication or in blackout (R518). -/
def execDeviceReady (obs : ReadyObs) (s : State) : Host.Outcome State Fault Refusal :=
  if s.reset_.domain ≠ .starting then .next s else
  match obs.wipeFailed with
  | some region => .next (enterBlackout 0x32 region (count 28 1 region (count 28 1 region s)))
  | none =>
    if !obs.romOk then .next (enterBlackout 0x33 0 s)
    else if 3 ≤ s.reset_.coreChain then .next (enterBlackout 0x34 0 s)
    else .next (becomeReady obs s)

/-! ### Scene capture (R482) -/

/-- A changed scene may be captured now. -/
def captureDue (s : State) : Bool :=
  mainReady s && !s.reset_.reapplying && s.mgr.rxRunning && !s.supply.sag && s.mgr.sceneChanged.isSome &&
  (match s.mgr.sceneCapturedAt with | some t => elapsed s t 480000 | none => true)

def captureScene (s : State) : State :=
  let n := match s.retained.scene with | some x => x.writes | none => 0
  { s with retained := { s.retained with scene := some { sceneOf s with writes := (n + 1) % 65536 } },
           mgr := { s.mgr with sceneChanged := none, sceneCapturedAt := some s.now } }

/-- `SCENE_CAPTURE` (R482). -/
def execSceneCapture (s : State) : Host.Outcome State Fault Refusal := if captureDue s then .next (captureScene s) else .next s

/-! ### The ghost light watch (R486 to R493) -/

/-- The main domain stopped by itself and ghost light is to follow (R486, R470). -/
def entryDue (s : State) : Bool :=
  s.supply.backupOn && mainOff s && s.ghost.watch == .off && s.ghost.cfg.auto && watchSet s.ghost.cfg &&
  (s.reset_.offCause == .hardHalt || s.reset_.offCause == .thermal) && (decide (2500 ≤ s.supply.vbak) || decide (2700 ≤ s.supply.vmain))

/-- `GHOST_LIGHT_ENTRY` (R486). -/
def execGhostLightEntry (s : State) : Host.Outcome State Fault Refusal := if entryDue s then .next (startWatch s) else .next s

/-- The identity is one that the watch accepts (Table 17-8a). -/
def expected (s : State) (id : Id16) : Bool := s.ghost.cfg.expectId == 0 || s.ghost.cfg.expectId == id

def setWatch (w : WatchState) (s : State) : State := { s with ghost := { s.ghost with watch := w } }

def setClusters (l : List Cluster) (s : State) : State := { s with ghost := { s.ghost with clusters := l } }

/-- The watch is lost (R488): the end edges of what it holds, and its record. -/
def watchLost (s : State) : State := evGhost 2 (setWatch .lost (setClusters [] (endAllHeld s)))

/-- An identity that the watch accepts is confirmed: it enters watching, or adopts it. -/
def watchConfirms (id : Id16) (s : State) : State :=
  let s1 := if s.ghost.watch = .watching ∧ s.ghost.identity ≠ some id then setClusters [] (endAllHeld s) else s
  let s2 := updLog (logId id) { s1 with ghost := { s1.ghost with identity := some id } }
  if s.ghost.watch = .watching then s2 else evGhost 3 (setWatch .watching s2)

def watchIdentity (id : Id16) (s : State) : State :=
  if expected s id then watchConfirms id s
  else if s.ghost.watch = .watching then watchLost s
  else s

/-- A condition as the FM watch receives it. -/
def watchCondition (s : State) (kind : Nat) : Announce :=
  watchEdge s { alarm := kind == 1, test := kind == 2, origin := 1, id := 0xFE, eidPi := 0, other := 0, ty := if kind = 0 then 1 else 0,
                asw := if kind = 0 then 2 else 1, cluster := 0, subch := 0xFF, new := false, region := 0 }

/-- A condition of a cluster as the DAB watch reports it: type 0 alarm, type 1 traffic. -/
def watchAnn (s : State) (c : Cluster) (ty : Nat) : Announce :=
  watchEdge s { alarm := ty == 0, test := false, origin := 0, id := 0xFE, eidPi := 0, other := 0, ty := ty, asw := c.asw,
                cluster := c.id, subch := c.subch, new := c.new, region := c.region }

/-- A condition that starts: one that the log shows active, or whose `prompts` bit is clear, has no edge (R488, R492). -/
def conditionStarts (a : Announce) (s : State) : State :=
  if inLog s.retained.alertLog a || !prompted s a then s
  else updLog (logSet a true (stampDfc s)) (evAnnounce a true s)

def conditionEnds (a : Announce) (s : State) : State := if inLog s.retained.alertLog a then endHeld a s else s

/-- Types that the DAB watch reports. -/
def watchTypes (l : List Nat) : List Nat := l.filter (· ≤ 1)

/-- FIG 0/19 at a DAB watch has the edges of R222 (R229). -/
def watchSwitch (cluster asw subch : Nat) (new : Bool) (region : Nat) (s : State) : State :=
  let old := s.ghost.clusters.find? (·.id == cluster)
  if old.isNone && decide (16 ≤ s.ghost.clusters.length) then s
  else
    let (c, starts, ends) := clusterUse (old.getD (Cluster.fresh cluster)) asw subch new region s.now
    let s1 := setClusters (c :: s.ghost.clusters.filter (·.id != cluster)) s
    let s2 := forEach (watchTypes starts) (fun t s => conditionStarts (watchAnn s c t) s) s1
    forEach (watchTypes ends) (fun t s => conditionEnds (watchAnn s c t) s) s2

/-- A cluster that has not been signalled for 2.0 s (R222). -/
def watchSilent (cluster : Nat) (s : State) : State :=
  match s.ghost.clusters.find? (·.id == cluster) with
  | none => s
  | some c =>
    if elapsed s c.usedAt 96000 then
      forEach (watchTypes (annTypes.filter (bitOf c.active))) (fun t s => conditionEnds (watchAnn s c t) s)
        (setClusters (s.ghost.clusters.filter (·.id != cluster)) s)
    else s

def watchSees (o : WatchObs) (s : State) : State :=
  let hears := s.clocks.pllN = .locked ∧ s.ghost.watch = .watching
  match o with
  | .identity id => if s.clocks.pllN = .locked then watchIdentity id s else s
  | .lost => if s.ghost.watch = .watching then watchLost s else s
  | .condition kind start =>
    if hears ∧ s.ghost.cfg.watch = 1 ∧ kind ≤ 2 then
      let a := watchCondition s kind
      if start then conditionStarts a s else conditionEnds a s
    else s
  | .switching cluster asw subch new region =>
    if hears ∧ s.ghost.cfg.watch = 2 then watchSwitch cluster asw subch new region s else s
  | .silent cluster => if s.ghost.watch = .watching then watchSilent cluster s else s
  | .pllN up => if up then lockPllN s else losePllN s

/-- `WATCH_STATE_CHANGE` (R488). Without PLL-N the sentinel is gated and receives nothing new (Table 16-6). -/
def execWatchStateChange (obs : WatchObs) (s : State) : Host.Outcome State Fault Refusal :=
  if s.ghost.watch = .off then .next s else .next (watchSees obs s)

/-- `ALERT_LOG_WRITE` (R493): written during a sag too. -/
def execAlertLogWrite (s : State) : Host.Outcome State Fault Refusal :=
  if s.supply.backupOn ∧ s.retained.alertLog.changed then .next (updLog (fun l => { l with changed := false, ok := true }) s) else .next s

end Sys2Proof.Machine
end

