-- ==== Sys2Proof/Machine/Diagnostics.lean ====
section
/-! DEFINITION. Diagnostic commands 0xA0 to 0xA4 (R436 to R440), and the rows of scrubbing, counters, recoveries and the fault
log (R498, R505, R508, R513, R522). -/

namespace Sys2Proof.Machine

/-! ### FAULT_LOG_READ -/

/-- Bytes 0 to 27 of a record (Table 18-6). -/
def logHead (r : LogRec) : List Byte :=
  le 4 r.seq ++ [r.epoch, byte r.rank, byte r.code, byte r.phase] ++ le 4 r.dfc.toNat ++ [bflag r.off, byte r.other] ++
  le 2 r.detailA ++ leS 4 r.detailB ++ le 2 r.vmain ++ leS 2 r.tj ++ le 2 r.vcore ++ [0, 0]

/-- A record of 32 bytes (R519). -/
def logBytes (r : LogRec) : List Byte := logHead r ++ le 4 (crc32 (logHead r)).toNat

/-- Records held that pass their check, and the staged ones as the newest (R521). -/
def logHeld (s : State) : List LogRec := s.retained.ring.filter (·.ok) ++ s.integ.staging

/-- A record that fails its check is counted with its position code (R509, R521). -/
def countBadRecords (s : State) : State :=
  forEach (s.retained.ring.filter fun r => !r.ok) (fun r s => count 22 1 (0x400 + r.seq % 256) s) s

def bodyFaultLogRead (c : Call) (s : State) : Res :=
  let held := logHeld s
  let first := min (rd c.p 0 2) held.length
  let page := (held.drop first).take 7
  okay (le 2 held.length ++ le 2 first ++ [byte page.length, 0] ++ page.flatMap logBytes) (countBadRecords s)

def cmdFaultLogRead : Cmd := { opc := 0xA0, len := lenIn [2], ids := noIds, body := bodyFaultLogRead }

/-- `FAULT_LOG_READ` (R436, R521). -/
def execFaultLogRead (tag : Byte) (p : List Byte) (s : State) : Host.Outcome State Fault Refusal := hostRow cmdFaultLogRead tag p s

/-! ### INTEGRITY_COUNTERS -/

/-- The counters from `first`, zeroed in the step in which they are read (R437). -/
def clearCounters (first n : Nat) (s : State) : State :=
  let inside (i : Nat) : Bool := decide (first ≤ i ∧ i < first + n)
  { s with integ := { s.integ with
      counters := mapIdx (fun i x => if inside i then 0 else x) s.integ.counters
      recorded := mapIdx (fun i x => if inside i then x.map fun r => (r.1, 0) else x) s.integ.recorded } }

def bodyCounters (c : Call) (s : State) : Res :=
  let first := min 31 (p1 c.p 0)
  let n := min (32 - first) (clampNat 1 60 (p1 c.p 1))
  let reply := [byte first, byte n, 0, 0] ++ ((s.integ.counters.drop first).take n).flatMap (le 4)
  okay reply (if c.p.length = 3 ∧ p1 c.p 2 = 1 then clearCounters first n s else s)

def cmdCounters : Cmd := { opc := 0xA1, len := lenIn [2, 3], ids := noIds, body := bodyCounters }

/-- `INTEGRITY_COUNTERS` (R437). -/
def execIntegrityCounters (tag : Byte) (p : List Byte) (s : State) : Host.Outcome State Fault Refusal := hostRow cmdCounters tag p s

/-! ### TEMPERATURE_READ -/

/-- The reply of `TEMPERATURE_READ` (R438). -/
def temperatureBytes (s : State) : List Byte :=
  leS 2 (tDie s) ++ leS 2 (tjMax s) ++ [8, 0] ++
  (if mainOff s then List.replicate 8 (-32768) else s.thermal.sensors).flatMap (leS 2)

def cmdTemperature : Cmd := { opc := 0xA2, len := lenIn [0], ids := noIds, body := fun _ s => okay (temperatureBytes s) s }

/-- `TEMPERATURE_READ` (R438). -/
def execTemperatureRead (tag : Byte) (p : List Byte) (s : State) : Host.Outcome State Fault Refusal := hostRow cmdTemperature tag p s

/-! ### SPECTRUM_SNAPSHOT -/

/-- Entries for each bin in a map. -/
def perBin (fine : Bool) : Nat := if fine then 12 else 1

/-- One entry: 0x8000 for a bin that is not computed, or before the first update (R439). -/
def mapEntry (s : State) (i : Nat) (fine : Bool) (k : Nat) : Int :=
  let x := inputAt s i
  let l := if fine then x.fineMap else x.binMap
  match (mapPlace s i (perBin fine) k).bind fun n => l[n]? with
  | some v => clampInt (-32767) 32767 v
  | none => -32768

def bodySnapshot (c : Call) (s : State) : Res :=
  let i := p1 c.p 0
  let x := inputAt s i
  if !x.receiving then fail stWrongState s else
  let fine := enumOf [0, 1] 0 (p1 c.p 1) == 1
  let last := binCount (isLow i) * perBin fine - 1
  let first := min last (rd c.p 2 2)
  let n := min (last + 1 - first) (clampNat 1 120 (p1 c.p 4))
  let dfc := if fine then x.fineDfc else x.binDfc
  okay ([byte i, bflag fine] ++ le 2 first ++ [byte n, 0] ++ le 4 dfc.toNat ++
    (List.range n).flatMap (fun k => leS 2 (mapEntry s i fine (first + k)))) s

def cmdSnapshot : Cmd := { opc := 0xA3, len := lenIn [5], ids := fun s p => bonded s (p1 p 0), body := bodySnapshot }

/-- `SPECTRUM_SNAPSHOT` (R439). -/
def execSpectrumSnapshot (tag : Byte) (p : List Byte) (s : State) : Host.Outcome State Fault Refusal := hostRow cmdSnapshot tag p s

/-! ### SELFTEST -/

/-- Codes of the items of test bit 0 that fail their CRC (R440, R509). -/
def failingItems (s : State) : List Nat :=
  let r := s.retained
  (mapIdx (fun i (t : CalTable) => if t.initialised && !t.ok then [i] else []) r.tables).flatten ++
  sortBy (fun a b => decide (a ≤ b)) (r.badStations.map (· + 0x100)) ++
  (match r.scene with | some x => if x.ok then [] else [0x300] | none => []) ++
  (r.ring.filter fun x => !x.ok).map fun x => 0x400 + x.seq % 256

/-- `detail`: the item of bit 0, the ring of bit 2; what the other tests give is open (log entry 17). -/
def selfDetail (s : State) (failed free : Nat) : Nat :=
  if bitOf failed 0 then (failingItems s).headD 0
  else if failed % 8 = 4 then free % 32
  else free % 65536

/-- Bits 1 to 3 test parts of the die that the state does not hold; their outcome is open (log entry 17). -/
def bodySelftest (c : Call) (s : State) : Res :=
  let tests := (if c.p.length = 0 then 0x0F else p1 c.p 0) % 16
  let n := s.draws
  let s1 := { s with draws := n + 1 }
  let items := if bitOf tests 0 && !(failingItems s).isEmpty then 1 else 0
  let failed := items + ((Config.selftestFails n) % 16 / 2 * 2 &&& tests)
  okay ([byte tests, byte failed] ++ le 2 (selfDetail s failed (Config.freeNat n)) ++ le 2 (Config.selftestMs n % 51)) s1

def cmdSelftest : Cmd := { opc := 0xA4, len := lenIn [0, 1], ids := noIds, body := bodySelftest }

/-- `SELFTEST` (R440). -/
def execSelftest (tag : Byte) (p : List Byte) (s : State) : Host.Outcome State Fault Refusal := hostRow cmdSelftest tag p s

/-! ### Scrubbing and counters (R505, R507, R508) -/

/-- A scrub of firmware RAM: a double-bit word is a fault of rank 3. -/
def scrubFirmware (corrected : Nat) (bad : Option Nat) (s : State) : State :=
  let s1 := count 18 corrected 0 s
  match bad with
  | some addr => coreFailure 19 0x30 addr .ramError s1
  | none => s1

/-- A scrub of the retained bank: a double-bit word fails its item, under the rule of its owner (R500). -/
def scrubRetained (corrected : Nat) (bad : Option Nat) (s : State) : State :=
  let s1 := count 20 corrected 0 s
  match bad with
  | some item => failItem item (count 21 1 item s1)
  | none => s1

/-- A queued packet that holds an uncorrectable word is delivered with bit 0 of its flags set. -/
def failPacket (pos : Nat) (f : Flow) : Flow := { f with queue := upd f.queue pos (setFlag · 0) }

/-- A millisecond of a history leaves every window (R502, R267). -/
def dropValue (ms : Nat) (t : Trace) : Trace := { t with env := upd t.env ms fun v => (v.1, false) }

/-- A model object is discarded until a FIG defines it again. -/
def dropObject (table pos : Nat) (m : Model) : Model :=
  match table with
  | 0 => { m with services := m.services.eraseIdx pos }
  | 1 => { m with comps := m.comps.eraseIdx pos }
  | 2 => { m with subchs := m.subchs.eraseIdx pos }
  | 3 => { m with linkage := m.linkage.eraseIdx pos }
  | 4 => { m with annSup := m.annSup.eraseIdx pos }
  | _ => m

/-- An uncorrectable word fails the item that holds it, and nothing else (R502). -/
def failBuffer (b : BufferItem) (s : State) : State :=
  match b with
  | .packet flow pos => updFlow flow (failPacket pos) s
  | .window n dab ms =>
    updProgram n (fun p => if dab then { p with traceD := dropValue ms p.traceD } else { p with traceA := dropValue ms p.traceA }) s
  | .object e table pos => match engineAt s e with
    | some x =>
      let s1 := updEngine e (fun x => { x with model := dropObject table pos x.model }) s
      if (dropObject table pos x.model).comps.length = x.model.comps.length then s1 else bumpServices s1
    | none => s
  | .laneWork id => updLane id (fun l => if l.st = .running then { l with gaps := (s.now - laneLatency (isAm id), 480) :: l.gaps } else l) s
  | .engineWork e => updEngine e (gapEngine fun _ => true) s

/-- Reads of the general and service buffers (R500 to R502). -/
def readBuffers (corrected : Nat) (bad : Option BufferItem) (s : State) : State :=
  let s1 := count 16 corrected 0 s
  match bad with
  | some b => failBuffer b (count 17 1 0 s1)
  | none => s1

/-- `SCRUB` (R505); the row also brings what reads of the general buffers find (DESIGN CHOICE, log entry 135). -/
def execScrub (mem : ScrubMem) (corrected : Nat) (bad : Bool) (s : State) : Host.Outcome State Fault Refusal :=
  match mem with
  | .retained item => if s.supply.backupOn then .next (scrubRetained corrected (if bad then some item else none) s) else .next s
  | .firmware addr => if coreRuns s then .next (scrubFirmware corrected (if bad then some addr else none) s) else .next s
  | .buffers item => if mainReady s then .next (readBuffers corrected (if bad then some item else none) s) else .next s

/-- A counter has moved since its record of at least a second ago (R508). -/
def recordDue (s : State) (i : Nat) : Bool :=
  counterRaises i && !counterEach i && !s.integ.holding &&
  match s.integ.recorded.getD i none with
  | some (t, n) => elapsed s t 48000 && s.integ.counters.getD i 0 != n
  | none => false

/-- `INTEGRITY_RECORD` (R508). -/
def execIntegrityRecord (index : Nat) (s : State) : Host.Outcome State Fault Refusal :=
  if recordDue s index then .next (raiseCounter index s) else .next s

/-! ### Recoveries and the fault log (R512, R513, R522) -/

/-- The cause of a fault lets its recovery begin, as far as the state shows it (R512). -/
def mayBegin (s : State) (code inst : Nat) : Bool :=
  if code = 0x10 then decide (2970 < s.supply.vmain)
  else if code = 0x20 then (match s.reset_.coolSince with | some t => elapsed s t 48000 | none => false)
  else if code = 0x40 ∨ code = 0x41 ∨ code = 0x50 then refUp s.clocks
  else if code = 0x90 then
    (match s.feeds[inst]? with
     | some f => match f.waitSince with | some t => elapsed s t (ticksOfMs f.retryMs) | none => true
     | none => false)
  else !(code == 0x32 || code == 0x33 || code == 0x34)

/-- `RECOVERY_RUNNABLE` (R513). -/
def execRecoveryRunnable (code inst : Nat) (s : State) : Host.Outcome State Fault Refusal :=
  if mayBegin s code inst then .next (becomesRunnable code inst s) else .next s

/-- The newest 256 records. -/
def lastRecords (l : List LogRec) : List LogRec := l.drop (l.length - 256)

/-- `FAULT_LOG_WRITE` (R519, R522). -/
def execFaultLogWrite (s : State) : Host.Outcome State Fault Refusal :=
  if s.supply.backupOn ∧ !s.supply.sag ∧ s.integ.staging ≠ [] then
    .next { s with retained := { s.retained with ring := lastRecords (s.retained.ring ++ s.integ.staging) },
                   integ := { s.integ with staging := [] } }
  else .next s

/-- `BOUNDARY_SCAN` (R498): the balls carry what the test port drives, and return to their rules when it lets go. -/
def execBoundaryScan (drive : Bool) (s : State) : Host.Outcome State Fault Refusal :=
  .next (refreshMirror { s with integ := { s.integ with scan := drive } })

end Sys2Proof.Machine
end

