-- ==== Sys2Proof/Machine/Flows.lean ====
section
/-! DEFINITION. The flow commands 0x60 to 0x66, packets that arrive and drop records (R325 to R349, R417, R418). -/

namespace Sys2Proof.Machine

/-! ### Sources (Tables 12-1, 12-2) -/

/-- A source without its reserved bits. -/
def sourceField (x : Nat) : Nat :=
  match x / 4096 with
  | 0 => x % 256
  | 1 => x
  | 2 => 0x2000 + x % 256
  | _ => x

/-- The lane or engine of a source is one of the variant, and its subchannel field none of the values 64 to 0xFE (R18, R382). -/
def sourceExists (s : State) (x : Nat) : Bool :=
  match x / 4096 with
  | 0 => laneExists s (x % 256)
  | 1 => engineExists s (x / 256 % 16) && (decide (x % 256 < 64) || x % 256 == 0xFF)
  | _ => true

/-- A kind matches its source (Table 12-9). -/
def kindMatches (kind source : Nat) : Bool :=
  let top := source / 4096
  if kind = 0x01 then top == 0 && !isAm (source % 256)
  else if kind = 0x02 then top == 0
  else if kind = 0x10 ∨ kind = 0x11 then top == 1 && source % 256 == 0xFF
  else if kindSubch kind then top == 1 && decide (source % 256 < 64)
  else if kind = 0x20 then source == 0x2001
  else if kind = 0x21 then source == 0x2002
  else false

/-- The unit of a source is running or in the wings (R347). -/
def sourceLive (s : State) (source : Nat) : Bool :=
  match source / 4096 with
  | 0 => (match laneAt s (source % 256) with | some l => liveState l.st | none => false)
  | 1 => (match engineAt s (source / 256 % 16) with | some e => liveState e.st | none => false)
  | _ => true

def urgentKind (k : Nat) : Bool := k == 0x20 || k == 0x21

/-! ### FLOW_OPEN -/

def flowAt (s : State) (i : Nat) : Option Flow := s.flows.flows[i]?

def flowExists (s : State) (i : Nat) : Bool := decide (i < s.flows.flows.length)

/-- Data group flows: 0 to 1023, anything else all; other kinds ignore it. -/
def qualField (kind x : Nat) : Nat := if kind = 0x15 ∧ x < 1024 then x else 0xFFFF

/-- A freshly opened flow (R336, R346, R418). -/
def openedFlow (p : List Byte) : Flow :=
  let kind := p1 p 2
  let short := p.length == 8
  let cls := classField (p1 p 7)
  let burst := if short then kindBurst kind else burstField (rd p 12 2)
  { Flow.free with
    st := .opened, kind := kind, cls := if cls = 0xFF then kindClass kind else cls, source := sourceField (rd p 3 2),
    qual := qualField kind (rd p 5 2), rate := if short then kindRate kind else rateQps (rd p 8 4), burst := burst,
    limit := if short then 32 else limitField (rd p 14 2), tokens := burst * tokenOne }

def bodyFlowOpen (c : Call) (s : State) : Res :=
  let i := rd c.p 0 2
  match flowAt s i with
  | none => fail stNotInVariant s
  | some f =>
    let x := openedFlow c.p
    if f.st ≠ .free ∨ !flowKinds.contains x.kind ∨ !kindMatches x.kind x.source ∨ !sourceLive s x.source ∨
        (x.cls = 0 ∧ !urgentKind x.kind) then fail stWrongState s
    else okay (flowOpenBytes i x) (updFlow i (fun _ => x) s)

def cmdFlowOpen : Cmd :=
  { opc := 0x60, len := lenIn [8, 16], ids := fun s p => flowExists s (rd p 0 2) && sourceExists s (rd p 3 2), body := bodyFlowOpen }

/-- `FLOW_OPEN` (R326, R346, R347). -/
def execFlowOpen (tag : Byte) (p : List Byte) (s : State) : Host.Outcome State Fault Refusal := hostRow cmdFlowOpen tag p s

/-! ### FLOW_CLOSE -/

def queuedOf (f : Flow) : Nat := f.queue.length + f.held.length

def bodyFlowClose (c : Call) (s : State) : Res :=
  let i := rd c.p 0 2
  let drain := boolOf false (p1 c.p 2)
  match flowAt s i with
  | none => fail stNotInVariant s
  | some f =>
    let g := match f.st with
      | .free => f
      | .opened => closeFlow s.time.dfc 0 drain f
      | .closing => if drain then f else discardClosing f
    if f.st = .free then fail stWrongState s
    else okay (le 2 i ++ [bflag drain] ++ le 2 (queuedOf g)) (updFlow i (fun _ => g) s)

def cmdFlowClose : Cmd := { opc := 0x61, len := lenIn [2, 3], ids := fun s p => flowExists s (rd p 0 2), body := bodyFlowClose }

/-- `FLOW_CLOSE` (R348, R418). -/
def execFlowClose (tag : Byte) (p : List Byte) (s : State) : Host.Outcome State Fault Refusal := hostRow cmdFlowClose tag p s

/-! ### FLOW_SHAPE, CLASS_SHAPE -/

/-- A lower limit discards at once under the drop policy (Table 12-6, R339). -/
def fitLimit : Nat → Flow → Flow
  | 0, f => f
  | n + 1, f =>
    if f.cls = 0 ∨ queueLen f ≤ max f.limit (firstUnstarted f) then f
    else if f.cls = 3 then fitLimit n (countDrop false (markGap (queueLen f - 1) { f with queue := f.queue.eraseIdx (queueLen f - 1) }))
    else fitLimit n (dropOldest false f)

/-- New shaping of a flow (R336, R337): its limit at once, rate and burst at the next tick, the class at the next fragment
opportunity. -/
def shapeFlow (cls rate burst limit : Nat) (f : Flow) : Flow :=
  fitLimit f.queue.length { f with clsNext := if cls = 0xFF then f.clsNext else some cls, shapeNext := some (rate, burst), limit := limit }

def flowShapeReply (i : Nat) (x : Flow) : List Byte :=
  let f := shapedFlow x
  le 2 i ++ [byte f.cls] ++ le 4 f.rate ++ le 2 f.burst ++ le 2 f.limit ++ leS 2 (tokens64 f.tokens) ++ le 2 (queuedOf f)

def bodyFlowShape (c : Call) (s : State) : Res :=
  let i := rd c.p 0 2
  match flowAt s i with
  | none => fail stNotInVariant s
  | some f =>
    let cls := classField (p1 c.p 2)
    if f.st = .free then fail stWrongState s
    else if c.p.length = 2 then okay (flowShapeReply i f) s
    else if cls = 0 ∧ !urgentKind f.kind then fail stWrongState s
    else
      let g := shapeFlow cls (rateQps (rd c.p 3 4)) (burstField (rd c.p 7 2)) (limitField (rd c.p 9 2)) f
      okay (flowShapeReply i g) { s with flows := admitAll { s.flows with flows := s.flows.flows.set i g } }

def cmdFlowShape : Cmd := { opc := 0x62, len := lenIn [2, 11], ids := fun s p => flowExists s (rd p 0 2), body := bodyFlowShape }

/-- `FLOW_SHAPE` (R326, R337). -/
def execFlowShape (tag : Byte) (p : List Byte) (s : State) : Host.Outcome State Fault Refusal := hostRow cmdFlowShape tag p s

def classReply (n : Nat) (c : ClassBucket) : List Byte := classBytes n (shapedClass c) ++ leS 2 (tokens64 (shapedClass c).tokens)

def bodyClassShape (c : Call) (s : State) : Res :=
  let n := p1 c.p 0
  match s.flows.classes[n]? with
  | none => fail stNotInVariant s
  | some b =>
    if c.p.length = 1 then okay (classReply n b) s
    else
      let b1 := { b with shapeNext := some (rateQps (rd c.p 1 4), burstField (rd c.p 5 2)) }
      okay (classReply n b1) { s with flows := { s.flows with classes := s.flows.classes.set n b1 } }

def cmdClassShape : Cmd :=
  { opc := 0x63, len := lenIn [1, 7], ids := fun s p => decide (p1 p 0 < s.flows.classes.length), body := bodyClassShape }

/-- `CLASS_SHAPE` (R337). -/
def execClassShape (tag : Byte) (p : List Byte) (s : State) : Host.Outcome State Fault Refusal := hostRow cmdClassShape tag p s

/-! ### EGRESS_CONFIG -/

/-- A change of path restarts every started packet from a first fragment, those whose last fragment still waits with them (R343). -/
def changePath (mailbox : Bool) (f : Flows) : Flows :=
  if f.mailbox = mailbox then f
  else
    let g := discardPending { f with mailbox := mailbox, resend := f.resend ++ f.inFlight, inFlight := [] }
    { g with flows := g.flows.map fun x => if x.sent.isSome then { x with sent := some 0 } else x }

def egressReply (s : State) : List Byte :=
  [bflag s.flows.mailbox, byte (match s.ports.tdm[1]? with | some p => dataSlots p | none => 0)]

def bodyEgressConfig (c : Call) (s : State) : Res :=
  if c.p.isEmpty then okay (egressReply s) s
  else
    let s1 := { s with flows := changePath (boolOf false (p1 c.p 0)) s.flows }
    okay (egressReply s1) s1

def cmdEgressConfig : Cmd := { opc := 0x64, len := lenIn [0, 1], ids := noIds, body := bodyEgressConfig }

/-- `EGRESS_CONFIG` (R343, R344). -/
def execEgressConfig (tag : Byte) (p : List Byte) (s : State) : Host.Outcome State Fault Refusal := hostRow cmdEgressConfig tag p s

/-! ### FLOW_STATS (Table 12-11) -/

def flowStateCode : FlowState → Nat
  | .free => 0
  | .opened => 1
  | .closing => 2

def flowStatsBytes (f : Flow) : List Byte :=
  if f.st = .free then List.replicate 43 0
  else
    [byte (flowStateCode f.st), byte f.kind, byte f.cls] ++ le 2 f.source ++ le 4 f.rate ++ le 2 f.burst ++ le 2 f.limit ++
    leS 2 (tokens64 f.tokens) ++ le 2 (queuedOf f) ++ le 4 f.pktsSent ++ le 4 f.bytesSent ++ le 4 f.dropsQueue ++ le 4 f.dropsPool ++
    le 4 f.sourceErrors ++ le 4 f.merged ++ le 2 f.resends

def bodyFlowStats (c : Call) (s : State) : Res :=
  match flowAt s (rd c.p 0 2) with
  | some f => okay (flowStatsBytes f) s
  | none => fail stNotInVariant s

def cmdFlowStats : Cmd := { opc := 0x65, len := lenIn [2], ids := fun s p => flowExists s (rd p 0 2), body := bodyFlowStats }

/-- `FLOW_STATS` (R349, R418). -/
def execFlowStats (tag : Byte) (p : List Byte) (s : State) : Host.Outcome State Fault Refusal := hostRow cmdFlowStats tag p s

/-! ### MAILBOX_READ -/

def mailboxWords (p : List Byte) : Nat := if p.isEmpty then 62 else clampNat 3 62 (p1 p 0)

def bodyMailboxRead (c : Call) (s : State) : Res :=
  if !s.flows.mailbox then okay [] s
  else
    let (frags, fl) := fillWords (mailboxWords c.p) s.flows
    let sent := c.cue.isSome || decide (s.link.fifo.length < 4)
    okay ((frags.flatMap (·.words)).flatMap (le 4)) { s with flows := if sent then confirmAll frags fl else { fl with inFlight := fl.inFlight ++ frags } }

def cmdMailboxRead : Cmd := { opc := 0x66, len := lenIn [0, 1], ids := noIds, body := bodyMailboxRead }

/-- `MAILBOX_READ` (R345): its fragments are sent when the reply enters the reply FIFO. -/
def execMailboxRead (tag : Byte) (p : List Byte) (s : State) : Host.Outcome State Fault Refusal := hostRow cmdMailboxRead tag p s

/-! ### Arrivals (R221, R327 to R329, R339, R340) -/

/-- A data group that fails its check is counted on every flow that would take it (R221). -/
def sourceError (kind source qual : Nat) (s : State) : State :=
  let l := s.flows.flows.map fun f =>
    if takes kind source qual f then { f with sourceErrors := satAdd 0xFFFFFFFF f.sourceErrors 1 } else f
  { s with flows := { s.flows with flows := l } }

/-- Packet mode or X-PAD, by the kind of the subchannel (Table 8-7). -/
def groupOrigin (s : State) (source : Nat) : Nat :=
  match engineAt s (source / 256 % 16) with
  | some x => if subchKind x.model (source % 256) = 3 then 1 else 0
  | none => 0

/-- A whole data group, its information byte first, in parts of 1016 bytes (Table 8-7). -/
def dataGroup (source qual : Nat) (bad : Bool) (l : List Byte) (s : State) : State :=
  let body := l.drop 1
  forEach (parts 1016 body.length 0 body) (fun p =>
    produce 0x15 source qual bad none
      ([byte (groupOrigin s source), byte ((l.headD 0).toNat % 32)] ++ le 2 body.length ++ le 2 p.1 ++ le 2 qual ++ p.2)) s

/-- Subchannel output of an engine has begun (R188). -/
def givesOutput (s : State) (kind source : Nat) : Bool :=
  !kindSubch kind || (match engineAt s (source / 256 % 16) with | some x => x.cifsStored == 16 | none => true)

/-- A data group is delivered whole, between 1 and 8191 bytes, or counted (R221, Table 8-7). -/
def groupWhole (failed : Bool) (payload : List Byte) : Bool := !failed && decide (2 ≤ payload.length ∧ payload.length ≤ 8192)

/-- `PACKET_ARRIVAL` (R339): the payload as Table 12-1 gives it; for a data group its information byte and its bytes. A dynamic label
whose segments have not all passed is not delivered (R220). -/
def execPacketArrival (kind source qual : Nat) (check : PacketCheck) (payload : List Byte) (s : State) : Host.Outcome State Fault Refusal :=
  if !sourceExists s source then .fault .absentUnit
  else if !flowKinds.contains kind || !mainReady s then .next s
  else if !givesOutput s kind source then .next s
  else if kind = 0x15 then
    if groupWhole check.failed payload then .next (dataGroup source qual check.parity payload (count 15 (flag check.parity) 0 s))
    else .next (sourceError kind source qual s)
  else if 1024 < payload.length || (kind == 0x14 && check.failed) then .next s
  else
    .next (produce kind source qual (check.failed || check.parity) (if urgentKind kind then some (rd payload 0 1, rd payload 2 1, rd payload 10 1) else none) payload (count 15 (flag check.parity) 0 s))

/-- `FLOW_DROP_RECORD` (R341): the drops since the flow's previous record, at most once per second. -/
def execFlowDropRecord (i : Nat) (s : State) : Host.Outcome State Fault Refusal :=
  match flowAt s i with
  | none => .fault .absentUnit
  | some f =>
    if decide (0 < f.dropsNew) && (match f.dropRecAt with | some t => elapsed s t 48000 | none => true) then
      .next (evFlowDrop i 0xFF f.dropsNew (updFlow i (fun f => { f with dropsNew := 0, dropRecAt := some s.now }) s))
    else .next s

end Sys2Proof.Machine
end

