-- ==== Sys2Proof/Machine/Hop.lean ====
section
/-! DEFINITION. The sample-plan hop: `SAMPLE_PLAN` (R424, R448). -/

namespace Sys2Proof.Machine

/-- The reply: the plan recorded, its nominal rate, and the pause of the last hop (Table 15-6). -/
def planReply (c : Clocks) : List Byte := byte c.recorded :: le 4 (fsOf c.recorded) ++ le 2 c.pauseUs

/-- The windows of a gain controller restart at the gap of a hop (R51); the gain is kept, and a clip in the window that is cut
ends the quiet history (R44). The maps begin anew with the bins of the new plan (R108, R110). -/
def hopInput (x : Input) : Input :=
  if x.receiving then
    { x with quietMs := if x.clipSeen then 0 else x.quietMs, clipSeen := false, clipMs := (0, 0), windows := 0, stepPending := none, binMap := [], fineMap := [] }
  else x

/-- The pause of a hop is a gap on every receiving input (R106, R131, R200), of the ticks that it touches. -/
def hopGap (now pauseUs : Nat) (x : Input) : Input := if x.receiving then gapNow ((pauseUs * 48 + 999) / 1000) now x else x

/-- The hop is made (R448): at most 60 us of pause, the plan, its band memory, the sets and the calibration. -/
def hop (plan : Nat) (s : State) : State :=
  let old := s.clocks.plan
  let d := drawNat s
  let s1 := setClocks (fun c => { c with
    plan := plan, recorded := plan, pauseUs := d.1 % 61, hops := satAdd 65535 c.hops 1 }) d.2
  let s2 := retune (planSets old plan (rememberBand s1))
  let s3 := { s2 with inputs := s2.inputs.map fun x => hopGap s.now (d.1 % 61) (hopInput x) }
  evClock 1 4 plan (forEach (List.range 6) calHop s3)

/-- A plan is recorded for the next start of reception (R424). -/
def recordPlan (plan : Nat) (s : State) : State :=
  setClocks (fun c => { c with recorded := plan, pauseUs := if s.mgr.rxRunning then c.pauseUs else 0 }) s

def bodySamplePlan (c : Call) (s : State) : Res :=
  if c.p.length = 0 then okay (planReply s.clocks) s else
  let plan := p1 c.p 0
  if plan = s.clocks.plan then
    let s1 := recordPlan plan s
    okay (planReply s1.clocks) s1
  else if s.clocks.pllS = .locking ∨ s.clocks.pllS = .coasting then fail stWrongState s
  else if s.mgr.rxRunning then
    let s1 := hop plan s
    okay (planReply s1.clocks) s1
  else
    let s1 := recordPlan plan s
    okay (planReply s1.clocks) s1

/-- A plan above 3 is an identifier that the variant does not have (Table 15-6). -/
def planIds (_ : State) (p : List Byte) : Bool := p.length == 0 || decide (p1 p 0 ≤ 3)

def cmdSamplePlan : Cmd := { opc := 0x81, len := lenIn [0, 1], ids := planIds, body := bodySamplePlan }

/-- `SAMPLE_PLAN` (R424). -/
def execSamplePlan (tag : Byte) (p : List Byte) (s : State) : Host.Outcome State Fault Refusal := hostRow cmdSamplePlan tag p s

end Sys2Proof.Machine
end

