-- ==== Sys2Proof/Machine/Link.lean ====
section
/-! DEFINITION. The control link (R350 to R378): whole packets, reads, broken transfers, self-resets, and the prompt. A row
is one transfer with its STOP, or one departure from a clean transfer (log entries 20 and 22). -/

namespace Sys2Proof.Machine

/-- A STOP: the interface listens again, and the recovery of a self-reset ends (R366, R369, Table 18-5). -/
def busStop (s : State) : State :=
  if s.link.ignoring then
    faultEnds 0xA1 0 2 (faultEnds 0xA0 0 2 { s with link := { s.link with ignoring := false } })
  else s

/-- The receipt checks on the bytes of a write (R358, R359). -/
def receiptOf (bytes : List Byte) (s : State) : State :=
  if !acceptsOpc s || bytes.isEmpty then s
  else
    let n := p1 bytes 2
    if bytes.length < 3 ∨ 250 < n ∨ bytes.length < n + 4 then count 24 1 0 s
    else if crc8 (bytes.take (n + 4)) ≠ 0 then
      count 23 1 0 (putReply { status := byte stBadCrc, tag := bytes.getD 1 0, payload := [] } s)
    else receive { opc := bytes.getD 0 0, tag := bytes.getD 1 0, param := (bytes.drop 3).take n } s

/-- `COMMAND_RECEIPT` (R357 to R359): the bytes of one write transfer after the address byte. -/
def execCommandReceipt (bytes : List Byte) (s : State) : Host.Outcome State Fault Refusal :=
  if !s.supply.backupOn then .next s
  else if s.link.ignoring then .next (busStop s)
  else .next (receiptOf bytes s)

/-- The bytes of a reply packet (R353). -/
def replyBytes (r : Reply) : List Byte :=
  let b := [r.status, r.tag, byte r.payload.length] ++ r.payload
  b ++ [crc8 b]

def idleReply : Reply := { status := byte stIdle, tag := 0, payload := [] }

/-- What a read transfer returns: the head of the FIFO, or the idle reply (R362). -/
def readBytes (s : State) : List Byte := replyBytes (s.link.fifo.headD idleReply)

/-- The head reply leaves once its CRC byte has been delivered (R363). -/
def readOf (delivered : Nat) (s : State) : State :=
  match s.link.fifo with
  | [] => s
  | r :: rs => if r.payload.length + 4 ≤ delivered then { s with link := { s.link with fifo := rs } } else s

/-- `REPLY_READ` (R362, R363): a read transfer in which this many bytes were delivered. -/
def execReplyRead (delivered : Nat) (s : State) : Host.Outcome State Fault Refusal :=
  if !s.supply.backupOn then .next s
  else if s.link.ignoring then .next (busStop s)
  else .next (readOf delivered s)

/-- A transfer is cut during a byte: a partial packet is counted, a delivered reply leaves (Table 13-2). -/
def cutTransfer (d : XferDir) (s : State) : State :=
  match d with
  | .write n => if acceptsOpc s && decide (0 < n) then count 24 1 0 s else s
  | .read n => readOf n s

/-- `BROKEN_TRANSFER` (R367, Table 13-2). -/
def execBrokenTransfer (kind : BrokenKind) (s : State) : Host.Outcome State Fault Refusal :=
  if !s.supply.backupOn then .next s else
  match kind with
  | .startDuring d => .next (if s.link.ignoring then s else cutTransfer d s)
  | .stopDuring d => .next (if s.link.ignoring then busStop s else cutTransfer d s)
  | .afterWholePacket => .next s
  | .sclHeldLow => .next s
  | .readNotAcked n => .next (if s.link.ignoring then s else readOf n s)

/-- A self-reset of the interface (R370): counted, logged, and nothing is acknowledged until a STOP. -/
def selfReset (inst code : Nat) (s : State) : State :=
  faultBegins code 0 0 0 true (count 25 1 inst { s with link := { s.link with ignoring := true } })

/-- `T_SLIM_EXPIRY` (R366): a write cut off is a partial packet; a read leaves its reply at the head. -/
def execTSlimExpiry (write : Bool) (s : State) : Host.Outcome State Fault Refusal :=
  if !s.supply.backupOn then .next s
  else .next (selfReset 0 0xA0 (if write then count 24 1 0 s else s))

/-- `SDA_HOLD_EXPIRY` (R369). -/
def execSdaHoldExpiry (write : Bool) (s : State) : Host.Outcome State Fault Refusal :=
  if !s.supply.backupOn then .next s
  else .next (selfReset 1 0xA1 (if write then count 24 1 0 s else s))

/-- `REPLY_FIFO_ENTRY` (R360): the reply that waits enters the FIFO once an entry is free. -/
def execReplyFifoEntry (s : State) : Host.Outcome State Fault Refusal :=
  match s.link.waiting with
  | none => .next s
  | some r =>
    if s.link.fifo.length < 4 then
      .next { s with link := { s.link with fifo := s.link.fifo ++ [r], waiting := none },
                     flows := confirmAll s.flows.inFlight { s.flows with inFlight := [] } }
    else .next s

/-- `PROMPT_DUE_TIMER` (R371): 20 ms after the last prompt or `EVENT_READ`. -/
def execPromptDueTimer (s : State) : Host.Outcome State Fault Refusal :=
  if canPrompt s.events && elapsed s s.events.promptBase 960 then .next { s with events := { s.events with promptDue := true } }
  else .next s

/-- The conditions in which no prompt is made (R377, R517). -/
def promptAllowed (s : State) : Bool :=
  s.supply.backupOn && !s.supply.resetnLow &&
  match s.reset_.domain with
  | .ready => s.reset_.doneQueued
  | .off => true
  | .blackout => true
  | .starting => false

/-- `PROMPT` (R372): made on an idle bus, or abandoned when SCL falls; either restarts the 20 ms schedule. -/
def execPrompt (sclFell : Bool) (s : State) : Host.Outcome State Fault Refusal :=
  if s.events.promptDue && s.events.promptEnable && promptAllowed s then
    .next { s with events := { s.events with promptDue := false, promptBase := s.now,
                                             promptsMade := s.events.promptsMade + flag (!sclFell) } }
  else .next s

/-- `GENERAL_CALL` (R352): not acknowledged; the bus is ignored until the next STOP. -/
def execGeneralCall (first : BusByte) (s : State) : Host.Outcome State Fault Refusal :=
  match first with
  | .generalCall | .startByte | .tenBit | .highSpeed | .otherTarget =>
    if s.supply.backupOn then .next { s with link := { s.link with ignoring := true } } else .next s

end Sys2Proof.Machine
end

