-- ==== Sys2Proof/Machine/Ports.lean ====
section
/-! DEFINITION. Port commands 0x50 to 0x54 (R414 to R416) and the rows of the ports (R297, R312, R316 to R318). -/

namespace Sys2Proof.Machine

def portId (_ : State) (p : List Byte) : Bool := decide (p1 p 0 ≤ 2)

/-! ### PORT_CONFIG -/

def portReply (n : Nat) (c : PortCfg) : List Byte := portBytes n c ++ [byte (usableSlots c)] ++ le 4 (bclkHz c)

/-- Data slots stand in a port's map (R301). -/
def hasData (p : Port) : Bool := (p.slotsNext.getD p.slots).any fun x => x.content == 0x30

/-- The status and wait of a start or restart: `PENDING` in target mode (R316, R416). -/
def portStarts (n : Nat) (c : PortCfg) (tag : Byte) (s : State) : Res :=
  if c.target then
    { status := stPending, payload := portReply n c, state := updPort n (fun p => { p with pendTag := some tag }) s }
  else { status := stOk, payload := portReply n c, state := updPort n (fun p => { p with pendTag := none }) s, wait := some (.port n) }

/-- `PORT_CONFIG` on a port, with the fields to apply (R316, R317, R416). -/
def portSet (n : Nat) (c : PortCfg) (tag : Byte) (p : Port) (s : State) : Res :=
  if p.st = .disabled then
    if c.enable then portStarts n c tag (updPort n (startPort (!pllAUp s.clocks) c) s)
    else okay (portReply n c) (updPort n (fun p => { p with cfg := c }) s)
  else if c = p.cfg then
    if p.st = .stopping then
      -- The port goes on as it was; a disable that waits has nothing left to wait for.
      okay (portReply n c) (finishWait (.port n) (updPort n (fun p => { p with
        st := if p.gated then .starting else p.before, before := .disabled, next := none,
        curtainUp := !p.gated && p.before == .locked, pendTag := none }) s))
    else okay (portReply n c) s
  else
    let s1 := updPort n (fun p => { p with st := .stopping, before := if p.st = .stopping then p.before else p.st, next := some c,
                                           curtainUp := false, pendTag := none }) s
    if c.enable then portStarts n c tag s1
    else { status := stOk, payload := portReply n c, state := s1, wait := some (.port n) }

def bodyPortConfig (c : Call) (s : State) : Res :=
  let n := p1 c.p 0
  match s.ports.tdm[n]? with
  | none => fail stWrongState s
  | some p =>
    if c.p.length = 1 then okay (portReply n (p.next.getD p.cfg)) s else
    let new := parsePort c.p
    if (n = 1 ∧ new.width ≠ 32 ∧ hasData p) ∨ (new.enable ∧ !synthsReady s) then fail stWrongState s
    else portSet n new c.tag p s

def cmdPortConfig : Cmd := { opc := 0x50, len := lenIn [1, 10], ids := portId, body := bodyPortConfig }

/-- `PORT_CONFIG` (R316, R317, R416). -/
def execPortConfig (tag : Byte) (p : List Byte) (s : State) : Host.Outcome State Fault Refusal := hostRow cmdPortConfig tag p s

/-! ### SLOT_MAP, STATUS_SLOT_CONFIG -/

/-- A slot's `source` names a program or a status slot of the variant (Table 11-2). -/
def slotSourceOk (s : State) (x : Slot) : Bool :=
  if namesProgram x.content then decide (x.source < s.progs.length)
  else if x.content = 0x20 then decide (x.source ≤ 3) else true

def bodySlotMap (c : Call) (s : State) : Res :=
  let n := p1 c.p 0
  match s.ports.tdm[n]? with
  | none => fail stWrongState s
  | some p =>
    let l := slotEntries c.p
    let w := (p.next.getD p.cfg).width
    if (l.any fun x => x.content == 0x30) && (n = 0 || w != 32) then fail stWrongState s
    else { status := stOk, payload := slotBytes n (slotFirst c.p) l, state := s, effects := [.slots n (slotFirst c.p) l] }

/-- LEN is 5 to 67 and 3 + 2 x `count` as received (R300, R415). -/
def slotLen (p : List Byte) : Bool := decide (5 ≤ p.length) && decide (p.length ≤ 67) && p.length == 3 + 2 * p1 p 2

def cmdSlotMap : Cmd :=
  { opc := 0x51, len := slotLen, ids := fun s p => portId s p && (slotEntries p).all (slotSourceOk s), body := bodySlotMap }

/-- `SLOT_MAP` (R300 to R303, R415). -/
def execSlotMap (tag : Byte) (p : List Byte) (s : State) : Host.Outcome State Fault Refusal := hostRow cmdSlotMap tag p s

def statusProgramsOk (s : State) (p : List Byte) : Bool :=
  (parseStatusSlot p).programs.all fun n => n == 255 || decide (n < s.progs.length)

def bodyStatusSlotConfig (c : Call) (s : State) : Res :=
  let i := p1 c.p 0
  if c.p.length = 1 then okay (statusSlotBytes i (s.ports.status.getD i StatusSlot.default)) s else
  let x := parseStatusSlot c.p
  okay (statusSlotBytes i x) { s with ports := { s.ports with status := s.ports.status.set i x } }

def cmdStatusSlotConfig : Cmd :=
  { opc := 0x52, len := lenIn [1, 11], ids := fun s p => decide (p1 p 0 ≤ 3) && (p.length == 1 || statusProgramsOk s p),
    body := bodyStatusSlotConfig }

/-- `STATUS_SLOT_CONFIG` (R307). -/
def execStatusSlotConfig (tag : Byte) (p : List Byte) (s : State) : Host.Outcome State Fault Refusal :=
  hostRow cmdStatusSlotConfig tag p s

/-! ### SPDIF_CONFIG -/

/-- 0 disabled, 1 running, 2 gated by PLL-A (Table 15-2). -/
def spdifState (x : Spdif) : Nat := if !x.running then 0 else if x.gated then 2 else 1

def bodySpdifConfig (c : Call) (s : State) : Res :=
  let x := s.ports.spdif
  if c.p.length = 0 then okay (spdifBytes (x.next.getD x.cfg) ++ [byte (spdifState x)]) s else
  let new := parseSpdif c.p
  let y := spdifSet (!pllAUp s.clocks) new x
  { status := stOk, payload := spdifBytes new ++ [byte (spdifState y)], state := s, effects := [.spdif new] }

def cmdSpdifConfig : Cmd :=
  { opc := 0x53, len := lenIn [0, 6], ids := fun s p => p.length == 0 || decide (p1 p 1 < s.progs.length), body := bodySpdifConfig }

/-- `SPDIF_CONFIG` (R311, R312). -/
def execSpdifConfig (tag : Byte) (p : List Byte) (s : State) : Host.Outcome State Fault Refusal := hostRow cmdSpdifConfig tag p s

/-! ### PORT_STATUS -/

def portStateCode : PortState → Nat
  | .disabled => 0
  | .starting => 1
  | .locked => 2
  | .lost => 3
  | .stopping => 4

/-- Position of a curtain x 255, rounded. -/
def curtainByte (x : Rat) : Byte := byte (roundRat (x * 255)).toNat

/-- The ratio of the port rate to 48 kHz in Q8.24; exact on a controller-mode port (R305). -/
def asrcRatio (c : PortCfg) (ppm : Rat) : Nat :=
  if !c.target && c.rate == 2 then 0x01000000
  else (roundRat ((rateHz c.rate : Rat) * (1 + ppm / 100000000) / 48000 * 16777216)).toNat

/-- Items of Table 11-12 for a TDM port. -/
def portStatusBytes (s : State) (n : Nat) (p : Port) : List Byte :=
  [byte (portStateCode p.st), bflag p.cfg.target, byte p.cfg.rate] ++ le 2 p.cfg.bclks ++ [byte (usableSlots p.cfg)] ++
  leS 4 p.ppm ++ le 4 (asrcRatio p.cfg p.tracked) ++ [curtainByte p.curtain, byte p.block] ++ le 4 p.glitches ++ le 4 p.losses ++
  [byte (flag (decide (0 < dataSlots p)) + 2 * flag (n == 1 && !s.flows.resend.isEmpty))]

/-- Items of Table 11-12 for SPDIF_OUT: those from `frame_bclks` to `glitches` are 0 (R324). -/
def spdifStatusBytes (x : Spdif) : List Byte :=
  [byte (if !x.running then 0 else if x.gated then 1 else 2), 0, byte x.cfg.rate] ++ List.replicate 22 0

def bodyPortStatus (c : Call) (s : State) : Res :=
  let n := p1 c.p 0
  match s.ports.tdm[n]? with
  | some p => okay (portStatusBytes s n p) s
  | none => okay (spdifStatusBytes s.ports.spdif) s

def cmdPortStatus : Cmd := { opc := 0x54, len := lenIn [1], ids := portId, body := bodyPortStatus }

/-- `PORT_STATUS` (R324). -/
def execPortStatus (tag : Byte) (p : List Byte) (s : State) : Host.Outcome State Fault Refusal := hostRow cmdPortStatus tag p s

/-! ### Rows of the ports -/

/-- Ports exist in every variant as 0, 1 (TDM) and 2 (SPDIF_OUT); a row of another number names no unit. -/
def onPort (n : Nat) (s : State) (f : Port → State) : Host.Outcome State Fault Refusal :=
  match s.ports.tdm[n]? with
  | some p => .next (f p)
  | none => .fault .absentUnit

/-- The recovery of a port's fault may take its place (R320). -/
def portRecovery (n : Nat) (s : State) : State := becomesRunnable 0x61 n (becomesRunnable 0x60 n s)

/-- No fault of the port is open, or its recovery runs. -/
def portMayLock (n : Nat) (s : State) : Bool :=
  (!faultOpen s 0x60 n || holdsSlot s 0x60 n) && (!faultOpen s 0x61 n || holdsSlot s 0x61 n)

/-- The port waits to lock: it starts, in target mode with 4 complete frames behind it, or its curtain has closed on a rate step. -/
def waitsLock (n : Nat) (s : State) (p : Port) : Bool :=
  !p.gated && (match p.st with
    | .starting => !p.cfg.target || decide (4 ≤ p.okFrames)
    | .lost => decide (4 ≤ p.okFrames)
    | .locked => faultOpen s 0x61 n && p.curtain == 0 && !p.curtainUp
    | _ => false)

/-- `PORT_LOCK` (R316): a port that waits locks, once its recovery runs. -/
def execPortLock (port : Nat) (ppm : Int) (s : State) : Host.Outcome State Fault Refusal :=
  onPort port s fun p =>
    if !waitsLock port s p then s
    else
      let s1 := portRecovery port s
      if portMayLock port s1 then lockPort port ppm s1 else s1

/-- `PORT_STOP` (R317): at the frame boundary after the port curtain has closed. -/
def execPortStop (port : Nat) (s : State) : Host.Outcome State Fault Refusal :=
  onPort port s fun p => if p.st = .stopping ∧ p.curtain = 0 then endStop port s else s

/-- A fraction of a tick. -/
def placeOf48 (place : Nat × Nat) : Rat := (place.1 : Rat) / max 1 place.2

/-- The frame of a host counts towards the lock of a port that waits for 4 of them (R316). -/
def waitFrame (completed : Bool) (p : Port) : Port := { p with okFrames := if completed then min 4 (p.okFrames + 1) else 0 }

/-- `TDM_FRAME` (R297, R303, R304, R316, R338, R342): a port that drives its slots carries a frame, a 48 kHz controller port one at each
tick; one that waits for its host counts it. -/
def execTdmFrame (port : Nat) (place : Nat × Nat) (completed : Bool) (s : State) : Host.Outcome State Fault Refusal :=
  onPort port s fun p =>
    let at_ := placeOf48 place
    if p.gated then s
    else if p.cfg.target && (p.st == .starting || p.st == .lost) then updPort port (waitFrame completed) s
    else if drivesData p && (portConverts p.cfg || onTick s.now p.frameAt at_) then tdmFrame port at_ completed s
    else s

/-- `SPDIF_FRAME` (R312). -/
def execSpdifFrame (num den : Nat) (s : State) : Host.Outcome State Fault Refusal :=
  let x := s.ports.spdif
  let at_ := placeOf48 (num, den)
  if x.running && !x.gated && (x.cfg.rate != 2 || onTick s.now x.frameAt at_) then .next (spdifFrame at_ s) else .next s

/-- One glitch (R318): the first in any 1 s raises a record with the count of the previous second. -/
def glitch (n : Nat) (p : Port) (s : State) : State :=
  let fresh := match p.glitchAt with | some t => elapsed s t 48000 | none => true
  let prev := match p.glitchAt with | some t => if elapsed s t 96000 then 0 else p.glitchSecond | none => 0
  let s1 := updPort n (fun p => { p with glitches := satAdd 0xFFFFFFFF p.glitches 1, glitchRun := p.glitchRun + 1,
                                         glitchAt := if fresh then some s.now else p.glitchAt,
                                         glitchSecond := if fresh then 1 else p.glitchSecond + 1, words := [] }) s
  if fresh then evPort n 3 prev s1 else s1

/-- A target-mode port that follows its host's frames: locked, or closing its curtain for a stop from there. -/
def followsHost (p : Port) : Bool := p.cfg.target && !p.gated && (p.st == .locked || (p.st == .stopping && p.before == .locked))

/-- `FSYNC_GLITCH` (R318): the frame is dropped; three in consecutive frames are a loss. A port that waits counts its frames afresh. -/
def execFsyncGlitch (port : Nat) (s : State) : Host.Outcome State Fault Refusal :=
  onPort port s fun p =>
    if followsHost p then
      let s1 := glitch port p s
      if 2 ≤ p.glitchRun then losePort port s1 else s1
    else if p.cfg.target then updPort port (fun p => { p with okFrames := 0 }) s
    else s

/-- `PORT_CLOCK_LOSS` (R318). -/
def execPortClockLoss (port : Nat) (s : State) : Host.Outcome State Fault Refusal :=
  onPort port s fun p =>
    if followsHost p then losePort port s
    else if p.cfg.target then updPort port (fun p => { p with okFrames := 0 }) s
    else s

/-- The measured rate lies within those of Table 11-1, to 1000 ppm (DESIGN CHOICE, log entry 157). -/
def rateAllowed (rate : Nat) (ppm : Int) : Bool :=
  let m : Int := rateHz rate * (100000000 + ppm)
  decide (32000 * 99900000 ≤ m) && decide (m ≤ 96000 * 100100000)

/-- The ASRC follows the measured rate with 1 s, over windows of 20 ms (R305, R318). -/
def trackRate (ppm : Int) (p : Port) : Port := { p with ppm := ppm, tracked := smooth 1000 20 p.tracked ppm }

/-- `RATE_STEP` (R305, R318): the rate that a port measures over 20 ms. Within 1000 ppm of its value at the last lock the ASRC follows it;
outside it is a rate step, and outside what a port may carry a loss. -/
def execRateStep (port : Nat) (ppm : Int) (s : State) : Host.Outcome State Fault Refusal :=
  onPort port s fun p =>
    if !(p.cfg.target && p.st == .locked && !p.gated) then s
    else if !rateAllowed p.cfg.rate ppm then losePort port s
    else if 100000 < (ppm - p.lockPpm).natAbs then stepRate port ppm s
    else if faultOpen s 0x61 port then updPort port (fun p => { p with ppm := ppm }) s
    else updPort port (trackRate ppm) s

end Sys2Proof.Machine
end

