-- ==== Sys2Proof/Machine/Rds.lean ====
section
/-! DEFINITION. RDS: blocks and groups, identity, accepted fields, EON, traffic and alarm conditions, flows and the
writing of station records (R144, R152 to R170), and `RDS_CONFIG`. -/

namespace Sys2Proof.Machine

/-! ### RDS_CONFIG (R155) -/

/-- A lane inside a group keeps the configuration until its group boundary. -/
def keepCfg (c : RdsCfg) (l : Lane) : Lane :=
  if l.rds.pos = 0 ∧ l.rds.ready = false then l else { l with rds := { l.rds with cfg := some (l.rds.cfg.getD c) } }

def bodyRdsConfig (c : Call) (s : State) : Res :=
  if c.p.length = 0 then okay (rdsBytes s.rds.cfg) s else
  let new := parseRds s.chip.variant c.p
  okay (rdsBytes new) { s with rds := { s.rds with cfg := new }, lanes := { s.lanes with fm := s.lanes.fm.map (keepCfg s.rds.cfg) } }

def cmdRdsConfig : Cmd := { opc := 0x22, len := lenIn [0, 10], ids := noIds, body := bodyRdsConfig }

/-- `RDS_CONFIG` (R155). -/
def execRdsConfig (tag : Byte) (p : List Byte) (s : State) : Host.Outcome State Fault Refusal := hostRow cmdRdsConfig tag p s

def laneCfg (s : State) (l : Lane) : RdsCfg := l.rds.cfg.getD s.rds.cfg

/-! ### Blocks (R153, R154) -/

/-- Position of an offset word in its group. -/
def offsetPos : RdsOffset → Option Nat
  | .a => some 0
  | .b => some 1
  | .c => some 2
  | .cPrime => some 2
  | .d => some 3
  | .e => none
  | .unknown => none

/-- Status of a block under a correction limit, in its position (Table 6-1). -/
def blockStatus (correct : Nat) (pos : Nat) (offset : RdsOffset) (err : RdsError) (inGap : Bool) : Nat :=
  if inGap || offsetPos offset != some pos then 3
  else match err with
    | .clean => 0
    | .twoBits => if 1 ≤ correct then 1 else 3
    | .burst => if 2 ≤ correct then 2 else 3
    | .uncorrectable => 3

/-- One block while synchronisation is lost: two clean blocks in sequence, 26 bits apart, acquire it (R153). The blocks of the group
that was entered midway hold their places, those not received with status 3. After D and A in sequence the group of that A is not the
first that is produced, and its A is read for no PI: the first is the next whole one (DESIGN CHOICE, log entry 153). -/
def seekBlock (info : Id16) (offset : RdsOffset) (err : RdsError) (inGap : Bool) (d : RdsDecoder) : RdsDecoder :=
  if err != .clean || inGap then { d with prev := none }
  else match offsetPos offset with
    | none => { d with prev := none }
    | some k =>
      if (d.prev.bind offsetPos).map (fun j => (j + 1) % 4) = some k then
        { RdsDecoder.none with
          synced := true, pos := (k + 1) % 4, whole := k == 3, firstGroup := true, cfg := d.cfg
          blocks := if k = 3 then [] else List.replicate k (0, 3) ++ [(info, 0)] }
      else { d with prev := some offset }

/-- Bad blocks among the last 50. -/
def badBlocks (l : List Bool) : Nat := (l.filter id).length

/-- One block while synchronisation is held. -/
def takeBlock (info : Id16) (offset : RdsOffset) (status : Nat) (d0 : RdsDecoder) : RdsDecoder :=
  let d := if d0.pos = 0 then { d0 with blocks := [], whole := true, ready := false, cfg := none } else d0
  let hist := ((status == 3) :: d.history).take 50
  if 40 < badBlocks hist then { RdsDecoder.none with cfg := d.cfg }
  else
    { d with history := hist, blocks := d.blocks ++ [(info, status)], pos := (d.pos + 1) % 4,
             cPrime := if d.pos = 2 then offset == .cPrime else d.cPrime, ready := d.pos == 3 && d.whole }

/-! ### Identity (R144, R156, R157) -/

/-- The record of the identity now in force against the one last reported (R144). Coalesced changes that end at the identity last
reported give a record of a change to itself (DESIGN CHOICE, log entry 129). -/
def emitIdentity (lane : Nat) (n : Nat) (l : Lane) (s : State) : State :=
  let i := l.ident
  let mark := updLane lane fun l => { l with ident := { l.ident with
    shown := l.ident.pi, last := if l.ident.pi.isSome then l.ident.pi else l.ident.last, recordAt := some s.now, waiting := 0 } }
  match i.pi, i.shown with
  | none, none => updLane lane (fun l => { l with ident := { l.ident with waiting := 0 } }) s
  | none, some old => evLane (laneSource lane) 5 0 old.toNat 0 0 (mark s)
  | some p, none =>
    match i.last with
    | none => updLane lane (fun l => { l with ident := { l.ident with shown := some p, last := some p, waiting := 0 } }) s
    | some old =>
      if old = p then evLane (laneSource lane) 6 0 p.toNat 0 0 (mark s)
      else evLane (laneSource lane) 4 l.smoothed.lq old.toNat p.toNat n (mark s)
  | some p, some old => evLane (laneSource lane) 4 l.smoothed.lq old.toNat p.toNat n (mark s)

/-- One identity record per 500 ms; changes within it wait (R144). -/
def noteIdentity (lane : Nat) (s : State) : State :=
  match laneAt s lane with
  | none => s
  | some l =>
    match l.ident.recordAt with
    | some t => if elapsed s t 24000 then emitIdentity lane 1 l s
                else updLane lane (fun l => { l with ident := { l.ident with waiting := l.ident.waiting + 1 } }) s
    | none => emitIdentity lane 1 l s

/-- Conditions of a lane's identity end, with what it has accepted (R158, R166, R167). -/
def dropIdentity (lane : Nat) (s : State) : State :=
  let own := ownTraffic s lane
  let s1 := endAnnWhere (fun a => onLane lane a || (a.origin == 2 && own.contains a.other)) s
  updLane lane (fun l => { l with fields := RdsFields.none, traffic := false, alarm := false, test := false, alarmOffAt := none, testOffAt := none })
    { s1 with rds := { s1.rds with eon := s1.rds.eon.filter fun x => x.lane != lane && !own.contains x.pi } }

/-- A PI is confirmed, or replaces the confirmed one. -/
def confirmPi (lane : Nat) (pi : Id16) (s : State) : State :=
  let s1 := updLane lane (fun l => { l with
      ident := { l.ident with pi := some pi, cand := none, count := 0, carriedAt := s.now }
      afOk := l.afOk || (l.afFor.any (oneProgramme s.rds.cfg pi) && decide (s.now ≤ l.startedAt + 240000)) })
    (dropIdentity lane s)
  noteIdentity lane (confirmStation pi (logIdentity false lane pi s1))

/-- One PI-carrying block of status 0 or 1 (R156). -/
def readPi (lane : Nat) (v : Id16) (s : State) : State :=
  match laneAt s lane with
  | none => s
  | some l =>
    let i := l.ident
    let n := if i.cand = some v then i.count + 1 else 1
    if i.pi = some v then
      updLane lane (fun l => { l with ident := { l.ident with cand := none, count := 0, carriedAt := s.now } }) s
    else if (if i.pi.isSome then 3 else 2) ≤ n then confirmPi lane v s
    else updLane lane (fun l => { l with ident := { l.ident with cand := some v, count := n } }) s

/-- A word of the group in progress, where its status is 0 or 1. -/
def goodBlock (d : RdsDecoder) (k : Nat) : Option Nat :=
  match d.blocks[k]? with
  | some (w, st) => if st ≤ 1 then some w.toNat else none
  | none => none

/-- The group is of version B: bit 11 of a block 2 of status 0 or 1; neither another block 2 nor offset C' makes it one (DESIGN CHOICE,
log entry 154). -/
def versionB (d : RdsDecoder) : Bool := match goodBlock d 1 with | some w => bitOf w 11 | none => false

/-- Entries of a list that is cut off are entered up to its last pair (R160). -/
def finishList (pi : Option Id16) (f : RdsFields) (s : State) : State :=
  match pi, f.afList with
  | some p, some l => mergeEntries p (listEntries s.now l) s
  | _, _ => s

/-- A block received in position, with the identity it may carry. -/
def heldBlock (lane : Nat) (info : Id16) (offset : RdsOffset) (err : RdsError) (inGap : Bool) (l : Lane) (s : State) : State :=
  let c := if l.rds.pos = 0 then s.rds.cfg else laneCfg s l
  let st := blockStatus c.correct l.rds.pos offset err inGap
  let d := takeBlock info offset st l.rds
  let s1 := updLane lane (fun l => { l with rds := d }) s
  if !d.synced then
    updLane lane (fun l => { l with fields := { l.fields with afList := none } }) (finishList l.ident.pi l.fields s1)
  else if st ≤ 1 ∧ (l.rds.pos = 0 ∨ (l.rds.pos = 2 ∧ versionB d = true)) then reselectAll (readPi lane info s1)
  else s1

/-- An FM lane that receives. -/
def rdsRuns (s : State) (l : Lane) : Bool := l.st == .running && s.mgr.rxRunning

/-- A gap with its margin of 0.5 ms touches the 26 bits of the block that ends now, 1051 ticks (R293). -/
def blockGap (s : State) (l : Lane) : Bool :=
  gapIn s l.mask (s.now - 1075) (s.now + 24) || l.gaps.any fun g => decide (s.now < g.1 + g.2 + 1075 ∧ g.1 < s.now + 24)

/-- `RDS_BLOCK` (R152 to R154, R156). A block with offset E is discarded. -/
def execRdsBlock (lane : Nat) (info : Id16) (offset : RdsOffset) (err : RdsError) (inGap : Bool) (s : State) :
    Host.Outcome State Fault Refusal :=
  match s.lanes.fm[lane]? with
  | none => .fault .absentUnit
  | some l =>
    if !rdsRuns s l then .next s
    else if l.rds.synced then (if offset = .e then .next s else .next (heldBlock lane info offset err (inGap || blockGap s l) l s))
    else .next (updLane lane (fun l => { l with rds := seekBlock info offset err (inGap || blockGap s l) l.rds }) s)

/-- `IDENTITY_LOST` (R156): no block has carried the confirmed PI for 2.0 s. -/
def execIdentityLost (lane : Nat) (s : State) : Host.Outcome State Fault Refusal :=
  match s.lanes.fm[lane]? with
  | none => .fault .absentUnit
  | some l =>
    if l.ident.pi.isSome && elapsed s l.ident.carriedAt 96000 then
      let s1 := updLane lane (fun l => { l with ident := { l.ident with pi := none, cand := none, count := 0 } }) (dropIdentity lane s)
      .next (reselectAll (noteIdentity lane s1))
    else .next s

/-- `IDENTITY_RECORD` (R144): the coalesced record at the end of 500 ms. -/
def execIdentityRecord (lane : Nat) (s : State) : Host.Outcome State Fault Refusal :=
  match s.lanes.fm[lane]? with
  | none => .fault .absentUnit
  | some l =>
    if decide (0 < l.ident.waiting) && (match l.ident.recordAt with | some t => elapsed s t 24000 | none => true) then
      .next (emitIdentity lane l.ident.waiting l s)
    else .next s

/-! ### Fields (R158) -/

/-- The same value twice in succession is accepted. -/
def feed (v : Nat) (t : Twice) : Twice := { last := some v, acc := if t.last = some v then some v else t.acc }

def feedAt (i v : Nat) (l : List Twice) : List Twice := upd l i (feed v)

/-- Bits `hi` to `lo` of a word. -/
def bits (w hi lo : Nat) : Nat := w / 2 ^ lo % 2 ^ (hi - lo + 1)

/-- Fields of block 2 and of groups 0 and 1 (R158). -/
def acceptFields (d : RdsDecoder) (f : RdsFields) : RdsFields :=
  match goodBlock d 1 with
  | none => f
  | some b =>
    let ty := bits b 15 12
    let vb := bitOf b 11
    let f1 := { f with tp := feed (bits b 10 10) f.tp, pty := feed (bits b 9 5) f.pty }
    if ty = 0 then
      let seg := bits b 1 0
      let f2 := { f1 with ta := feed (bits b 4 4) f1.ta, ms := feed (bits b 3 3) f1.ms, di := feedAt seg (bits b 2 2) f1.di }
      match goodBlock d 3 with
      | some w => { f2 with ps := feedAt seg w f2.ps }
      | none => f2
    else if ty = 1 ∧ !vb then
      let f2 := match goodBlock d 2 with
        | some c => if bits c 14 12 = 0 then { f1 with ecc := feed (bits c 7 0) f1.ecc }
                    else if bits c 14 12 = 3 then { f1 with lang := feed (bits c 7 0) f1.lang } else f1
        | none => f1
      match goodBlock d 3 with
      | some w => { f2 with pin := feed w f2.pin }
      | none => f2
    else f1

/-- The AF codes of a group 0A. -/
def afCodes (d : RdsDecoder) : List Nat :=
  match goodBlock d 1, goodBlock d 2 with
  | some b, some c => if bits b 15 12 = 0 ∧ !bitOf b 11 then [c / 256, c % 256] else []
  | _, _ => []

/-- One AF code: a count code ends a list and opens the next (R160). -/
def takeAf (lane : Nat) (pi : Id16) (s : State) (x : Nat) : State :=
  match laneAt s lane with
  | none => s
  | some l =>
    if isCount x then updLane lane (fun l => { l with fields := { l.fields with afList := some [] } }) (finishList (some pi) l.fields s)
    else updLane lane (fun l => { l with fields := { l.fields with afList := l.fields.afList.map (· ++ [x]) } }) s

/-- The accepted fields of a lane in a record (R158, R164). -/
def fillStation (c : RdsCfg) (f : RdsFields) (r : Station) : Station :=
  { r with
    tp := match f.tp.acc with | some v => v == 1 | none => r.tp
    ta := match f.ta.acc with | some v => v == 1 | none => r.ta
    ms := match f.ms.acc with | some v => v == 1 | none => r.ms
    pty := f.pty.acc.getD r.pty
    di := (List.range 4).foldl (fun m i => match (f.di[i]?).bind (·.acc) with
      -- segment 0 carries bit 3 of the DI, segment 3 bit 0
      | some v => if v = 1 then m ||| 2 ^ (3 - i) else maskMinus m (2 ^ (3 - i))
      | none => m) r.di
    ps := mapIdx (fun i x => match (f.ps[i]?).bind (·.acc) with | some v => some v | none => x) r.ps
    ecc := f.ecc.acc.or r.ecc, lang := f.lang.acc.or r.lang, pin := f.pin.acc.or r.pin, rbds := c.rbds }

/-- The group carries the confirmed PI: a PI-carrying block of status 0 or 1 shows it, and none shows another (R158). -/
def groupCarries (d : RdsDecoder) (pi : Id16) : Bool :=
  let seen := (goodBlock d 0).toList ++ (if versionB d then (goodBlock d 2).toList else [])
  !seen.isEmpty && seen.all fun w => w == pi.toNat

/-! ### EON (R162, R166) -/

def segTwice (l : List (Id16 × Nat × Twice)) (pi : Id16) (seg : Nat) : Twice :=
  match l.find? fun x => x.1 == pi && x.2.1 == seg with | some x => x.2.2 | none => Twice.none

def setSeg (l : List (Id16 × Nat × Twice)) (pi : Id16) (seg : Nat) (t : Twice) : List (Id16 × Nat × Twice) :=
  (l.filter fun x => !(x.1 == pi && x.2.1 == seg)) ++ [(pi, seg, t)]

/-- List another network in a record, oldest replaced first. -/
def addEonPi (x : Id16) (l : List Id16) : List Id16 :=
  if l.contains x then l else if l.length < 8 then l ++ [x] else l.drop 1 ++ [x]

/-- Scalar fields from EON: a record that a lane itself confirms keeps its own (R164). -/
def eonScalar (other : Id16) (f : Station → Station) (s : State) : State :=
  match stationOf s other with
  | some i => if confirmedNow s other then s else changeStation i f s
  | none => s

/-- The variants of group 14A (R162). -/
def eonVariant (lane : Nat) (other : Id16) (v c : Nat) (s : State) : State :=
  if v ≤ 3 then
    match laneAt s lane with
    | none => s
    | some l =>
      let t := feed c (segTwice l.fields.eonPs other v)
      let s1 := updLane lane (fun l => { l with fields := { l.fields with eonPs := setSeg l.fields.eonPs other v t } }) s
      match t.acc with
      | some w => eonScalar other (fun r => { r with ps := r.ps.set v (some w) }) s1
      | none => s1
  else if v = 4 then mergeEntries other (methodA s.now true false [c / 256, c % 256]) s
  else if v ≤ 9 then
    -- mapped frequency: the second code; variant 9 maps an LF or MF frequency
    mergeEntries other (methodA s.now true (v == 9) [c % 256]) s
  else if v = 13 then eonScalar other (fun r => { r with pty := bits c 15 11, ta := bits c 0 0 == 1 }) s
  else s

/-- An EON traffic announcement starts, goes on or ends (R166). -/
def eonTraffic (lane : Nat) (pi other : Id16) (ta : Bool) (s : State) : State :=
  let rest := s.rds.eon.filter fun x => !(x.lane == lane && x.pi == other)
  if ta then startAnn (eonAnn lane pi other) { s with rds := { s.rds with eon := rest ++ [{ lane := lane, pi := other, lastAt := s.now }] } }
  else endAnn (eonAnn lane pi other) { s with rds := { s.rds with eon := rest } }

/-- Groups 14A and 14B. -/
def takeEon (lane : Nat) (pi : Id16) (d : RdsDecoder) (s : State) : State :=
  match goodBlock d 1, goodBlock d 3 with
  | some b, some w =>
    if bits b 15 12 ≠ 14 then s
    else
      let other : Id16 := BitVec.ofNat 16 w
      let s1 := ensureStation other true s
      let s2 := match stationOf s1 pi with
        | some i => changeStation i (fun r => { r with eonPi := addEonPi other r.eonPi }) s1
        | none => s1
      let s3 := eonScalar other (fun r => { r with tp := bits b 4 4 == 1 }) s2
      if bitOf b 11 then eonTraffic lane pi other (bitOf b 3) s3
      else match goodBlock d 2 with
        | some c => eonVariant lane other (bits b 3 0) c s3
        | none => s3
  | _, _ => s

/-! ### Traffic and alarm (R166, R167) -/

/-- The end of a lane's own announcement ends EON announcements of its PI. -/
def trafficEdge (lane : Nat) (pi : Id16) (s : State) : State :=
  match laneAt s lane with
  | none => s
  | some l =>
    let on := l.fields.tp.acc == some 1 && l.fields.ta.acc == some 1
    if on == l.traffic then s
    else
      let s1 := updLane lane (fun l => { l with traffic := on }) s
      if on then startAnn (laneAnn lane pi false false) s1
      else
        let s2 := endAnn (laneAnn lane pi false false) s1
        endAnnWhere (fun a => a.origin == 2 && a.other == pi)
          { s2 with rds := { s2.rds with eon := s2.rds.eon.filter fun x => x.pi != pi } }

/-- PTY 31 (alarm) or 30 (test): the start edge at once; the end once another PTY has been accepted for 2.0 s. -/
def ptyEdge (lane : Nat) (pi : Id16) (test : Bool) (s : State) : State :=
  match laneAt s lane with
  | none => s
  | some l =>
    match l.fields.pty.acc with
    | none => s
    | some v =>
      let on := if test then l.test else l.alarm
      let off := if test then l.testOffAt else l.alarmOffAt
      let setOff (t : Option Nat) (l : Lane) : Lane := if test then { l with testOffAt := t } else { l with alarmOffAt := t }
      if v = (if test then 30 else 31) then
        if on then updLane lane (setOff none) s
        else startAnn (laneAnn lane pi (!test) test)
          (updLane lane (fun l => setOff none (if test then { l with test := true } else { l with alarm := true })) s)
      else if on && off.isNone then updLane lane (setOff (some s.now)) s
      else s

/-- A condition's end: another PTY has been accepted for 2.0 s. -/
def ptyEnd (lane : Nat) (pi : Id16) (test : Bool) (s : State) : State :=
  match laneAt s lane with
  | none => s
  | some l =>
    match (if test then l.testOffAt else l.alarmOffAt) with
    | none => s
    | some t =>
      if !elapsed s t 96000 then s
      else endAnn (laneAnn lane pi (!test) test)
        (updLane lane (fun l => if test then { l with test := false, testOffAt := none } else { l with alarm := false, alarmOffAt := none }) s)

/-- `ALERT_END_TIMER` (R167). -/
def execAlertEndTimer (lane : Nat) (s : State) : Host.Outcome State Fault Refusal :=
  match s.lanes.fm[lane]? with
  | none => .fault .absentUnit
  | some l =>
    match l.ident.pi with
    | none => .next s
    | some pi => .next (reselectAll (ptyEnd lane pi true (ptyEnd lane pi false s)))

/-- `EON_TA_TIMEOUT` (R166): 120 s after the last 14B with TA 1. -/
def execEonTaTimeout (lane : Nat) (s : State) : Host.Outcome State Fault Refusal :=
  match s.lanes.fm[lane]? with
  | none => .fault .absentUnit
  | some l =>
    let due := s.rds.eon.filter fun x => x.lane == lane && elapsed s x.lastAt 5760000
    let s1 := { s with rds := { s.rds with eon := s.rds.eon.filter fun x => !(x.lane == lane && elapsed s x.lastAt 5760000) } }
    .next (reselectAll (forEach due (fun x => endAnn (eonAnn lane (l.ident.pi.getD 0) x.pi)) s1))

/-! ### Groups -/

/-- The payload of an RDS group (Table 6-4). -/
def groupPayload (l : Lane) : List Byte :=
  let d := l.rds
  let word (k : Nat) : List Byte := match d.blocks[k]? with | some b => le 2 b.1.toNat | none => [0, 0]
  let st (k : Nat) : Nat := match d.blocks[k]? with | some b => b.2 | none => 3
  word 0 ++ word 1 ++ word 2 ++ word 3 ++ [byte (st 0 + 4 * st 1 + 16 * st 2 + 64 * st 3),
    byte (flag d.cPrime + 2 * flag d.firstGroup + 4 * flag l.pilot), byte l.raw.lq, 0]

/-- A group is delivered under `flow_quality` and `group_mask` (R155, R170). -/
def groupDelivered (c : RdsCfg) (d : RdsDecoder) : Bool :=
  let quality := if c.flowQuality = 0 then true
    else if c.flowQuality = 1 then d.blocks.all fun b => b.2 != 3 else d.blocks.all fun b => b.2 == 0
  match d.blocks[1]? with
  | some (w, st) =>
    if st = 3 then c.groupMask == 0xFFFFFFFF && c.flowQuality == 0
    else quality && c.groupMask.getLsbD (2 * bits w.toNat 15 12 + bits w.toNat 11 11)
  | none => false

/-- The fields, lists and conditions of a group that carries the lane's identity (R158 to R167). -/
def takeGroup (lane : Nat) (pi : Id16) (l : Lane) (s : State) : State :=
  let d := l.rds
  let s1 := takeEon lane pi d ((afCodes d).foldl (takeAf lane pi) (updLane lane (fun l => { l with fields := acceptFields d l.fields }) s))
  let s2 := match stationOf s1 pi, laneAt s1 lane with
    | some i, some k =>
      let s0 := changeStation i (fun r => { r with seenAt := s1.now }) s1
      if bestLane s1 pi = some lane then changeStation i (fillStation (laneCfg s l) k.fields) s0 else s0
    | _, _ => s1
  ptyEdge lane pi true (ptyEdge lane pi false (trafficEdge lane pi s2))

/-- The group boundary of a lane: the next group starts with the configuration in force. -/
def endGroup (lane : Nat) : State → State :=
  updLane lane fun l => { l with rds := { l.rds with blocks := [], ready := false, firstGroup := false, cfg := none } }

/-- `RDS_GROUP` (R155, R158 to R162, R166, R167, R170): a whole group of a synchronised lane. -/
def execRdsGroup (lane : Nat) (s : State) : Host.Outcome State Fault Refusal :=
  match s.lanes.fm[lane]? with
  | none => .fault .absentUnit
  | some l =>
    if !(rdsRuns s l && l.rds.ready) then .next s
    else
      let s1 := if groupDelivered (laneCfg s l) l.rds then produce 0x01 (laneSource lane) 0xFFFF false none (groupPayload l) s else s
      let s2 := match l.ident.pi with
        | some pi => if groupCarries l.rds pi then takeGroup lane pi l s1 else s1
        | none => s1
      .next (reselectAll (endGroup lane s2))

/-! ### Writing records (R165) -/

/-- `STATION_RECORD_WRITE` (R165): a changed record is written, no oftener than every 10 s, while VMAIN allows. -/
def execStationRecordWrite (index : Nat) (s : State) : Host.Outcome State Fault Refusal :=
  match s.rds.stations[index]? with
  | none => .fault .absentUnit
  | some r =>
    let free := match r.writtenAt with | some t => elapsed s t 480000 | none => true
    if mainReady s && s.rds.cfg.dbStore && r.changedAt.isSome && free && !s.supply.sag then
      let q := { r with changedAt := none, writtenAt := some s.now }
      .next { s with rds := { s.rds with stations := s.rds.stations.set index q },
                     retained := { s.retained with
                       stations := s.retained.stations.set index (some q)
                       badStations := s.retained.badStations.filter (· ≠ index) } }
    else .next s

end Sys2Proof.Machine
end

