-- ==== Sys2Proof/Machine/Opcodes.lean ====
section
/-! DEFINITION. The opcode map (Tables 14-2, 14-5, 14-8 and chapter 15) and the rows that execute a packet of any opcode:
undefined opcodes (R379), cues (R29 to R35) and the reapplication of a scene (R485). -/

namespace Sys2Proof.Machine

/-- Every command of the device. -/
def allCmds : List Cmd :=
  [cmdNop, cmdIdentify, cmdEventRead, cmdEventMask, cmdStageReset, cmdPatchLoad, cmdPatchCommit, cmdTimeRead, cmdCueSet,
   cmdCueCancel, cmdCueList] ++
  [cmdBandPlan, cmdRxStart, cmdRxStop, cmdFrontendGain, cmdAntennaFeed, cmdDiversitySet, cmdScanPolicy, cmdLaneAssign,
   cmdLaneRelease, cmdLaneList, cmdLaneStatus, cmdFmParams, cmdAmParams, cmdRdsConfig, cmdDabEngineAssign,
   cmdDabEngineRelease, cmdDabEngineStatus, cmdSoftbitMode] ++
  [cmdServiceList, cmdServiceInfo, cmdAnnouncementPolicy, cmdAlertPolicy, cmdProgramSet, cmdProgramStatus, cmdLinkPolicy,
   cmdDelayStoreConfig, cmdCurtain, cmdPortConfig, cmdSlotMap, cmdStatusSlotConfig, cmdSpdifConfig, cmdPortStatus] ++
  [cmdFlowOpen, cmdFlowClose, cmdFlowShape, cmdClassShape, cmdEgressConfig, cmdFlowStats, cmdMailboxRead, cmdCalPolicy,
   cmdCalRun, cmdCalStatus, cmdCalTableRead, cmdRefConfig, cmdSamplePlan, cmdClockOut, cmdSyncArm, cmdFreqTrim,
   cmdClockStatus] ++
  [cmdPowerPolicy, cmdCapacityStatus, cmdGhost, cmdSupplyStatus, cmdLifecycleRead, cmdLifecycleAdvance, cmdRetainedWipe,
   cmdFaultLogRead, cmdCounters, cmdTemperature, cmdSnapshot, cmdSelftest]

/-- The command of an opcode. -/
def cmdOf (opc : Byte) : Option Cmd := allCmds.find? fun k => k.opc == opc

/-! ### Undefined opcodes (R379) -/

/-- `UNKNOWN_OPCODE`, and no effect. -/
def runUnknown (tag : Byte) (s : State) : State := putReply { status := byte stUnknown, tag := tag, payload := [] } s

/-- The packet would be executed by this row. -/
def packetRuns (pkt : Packet) (s : State) : Bool :=
  match s.link.queue with
  | [] => managerFree s && acceptsOpc s && decide (pkt.param.length ≤ 250)
  | h :: _ => managerFree s && h == pkt

/-- A vendor test opcode: a defined one of which the manual gives no effect (Table 17-10); with the main domain off it is
refused like any other defined opcode (R489). -/
def vendorRow (pkt : Packet) (s : State) : Host.Outcome State Fault Refusal :=
  if packetRuns pkt s && !domainRefuses s pkt.opc then .refused .vendorTest
  else .next (packetRow (putReply { status := byte stWrongState, tag := pkt.tag, payload := [] }) pkt s)

/-- `UNDEFINED_OPCODE` (R379). An opcode that the map defines is executed as its command. -/
def execUndefinedOpcode (opc tag : Byte) (p : List Byte) (s : State) : Host.Outcome State Fault Refusal :=
  let pkt : Packet := { opc := opc, tag := tag, param := p }
  match cmdOf opc with
  | some k => hostRow k tag p s
  | none => if vendorOpcode s opc then vendorRow pkt s else .next (packetRow (runUnknown tag) pkt s)

/-! ### Instances that a command names (R35) -/

/-- An instance: its kind and its identifier. Kind 0 lane, 1 engine, 2 program, 3 flow, 4 input, 5 port. -/
abbrev Subject := Nat × Nat

/-- A source code names a lane or an engine (Table 12-2). -/
def sourceSubject (x : Nat) : List Subject := if x < 0x100 then [(0, x)] else if x / 0x1000 = 1 then [(1, x % 0x1000 / 256)] else []

/-- Instances that the fields of a packet name; a selector is none. -/
def subjects (k : Packet) : List Subject :=
  let o := k.opc.toNat
  let p := k.param
  let n := p1 p 0
  if p.isEmpty then []
  else if o = 0x10 ∨ o = 0x13 ∨ o = 0x72 ∨ o = 0x73 ∨ o = 0xA3 then [(4, n)]
  else if o = 0x14 then (if p.length = 1 then [] else [(4, p1 p 1)])
  else if o = 0x71 then ((List.range 6).filter (bitOf n)).map fun i => (4, i)
  else if o = 0x15 then [(n, p1 p 1)]
  else if o = 0x19 ∨ o = 0x1A ∨ o = 0x1C ∨ o = 0x20 ∨ o = 0x21 then (if n = 0xFF then [] else [(0, n)])
  else if o = 0x28 ∨ o = 0x29 ∨ o = 0x2A ∨ o = 0x2B then (if n = 0xFF then [] else [(1, n)])
  else if o = 0x40 then (2, n) :: (if p1 p 1 ≠ 0 ∧ p1 p 2 < 2 then [(0, p1 p 3)] else [])
  else if o = 0x32 ∨ o = 0x41 ∨ o = 0x42 ∨ o = 0x43 ∨ o = 0x44 then [(2, n)]
  else if o = 0x50 ∨ o = 0x54 then [(5, n)]
  else if o = 0x51 then (5, n) :: ((slotEntries p).filter fun x => namesProgram x.content).map fun x => (2, x.source)
  else if o = 0x52 then ((parseStatusSlot p).programs.filter (· != 255)).map fun x => (2, x)
  else if o = 0x53 then [(5, 2), (2, p1 p 1)]
  else if o = 0x60 then (3, rd p 0 2) :: sourceSubject (rd p 3 2)
  else if o = 0x61 ∨ o = 0x62 ∨ o = 0x65 then [(3, rd p 0 2)]
  else []

/-- Instances that a command which waits is changing. -/
def waitSubjects (s : State) (pkt : Packet) : Wait → List Subject
  | .lane id => [(0, id)]
  | .engine e => [(1, e)]
  | .port n => [(5, n)]
  | .reception => if pkt.opc = 0x11 then ((List.range 6).filter (inputEnabled s)).map fun i => (4, i) else []
  | .relock => []

/-- The host command that executes is changing an instance that the cue's command names (R35). -/
def cueBlocked (s : State) (pkt : Packet) : Bool :=
  match s.mgr.executing with
  | none => false
  | some e => (subjects pkt).any fun x => (subjects e.packet ++ waitSubjects s e.packet e.wait).contains x

/-! ### Cues (R29 to R33) -/

/-- The cue that is executed next: earliest target, then lowest identifier (R30), of those that wait for no command (R35). -/
def nextCue (s : State) : Option Cue :=
  (sortBy (fun a b => decide (ticksTo s a.target < ticksTo s b.target ∨ (ticksTo s a.target = ticksTo s b.target ∧ a.id ≤ b.id)))
    (s.cues.filter fun c => cueDue s c && !cueBlocked s c.packet)).head?

/-- Cues that are due and wait for the executing command are late from then on (R35). -/
def markBlocked (s : State) : State :=
  { s with cues := s.cues.map fun c => if cueDue s c && cueBlocked s c.packet then { c with late := true } else c }

/-- The cue is late (R29, R31, R35). -/
def cueLate (s : State) (c : Cue) : Bool :=
  c.late || (if isAudioCue c.packet then !inFuture s c.target else decide (ticksTo s c.target < -48))

/-- Audio effects wait for a target that is still to come; those of a late cue apply as its command ends (R29). -/
def holdEffects (c : Cue) (l : List AudioEffect) (s : State) : State :=
  if inFuture s c.target && !c.late then { s with held := s.held ++ l.map fun e => { cue := c.id, target := c.target, effect := e } }
  else applyEffects l s

/-- A carried command ends: its effects, the scene, and its record; or it waits (R33). -/
def finishCue (c : Cue) (late : Bool) (r : Res) (before : State) : State :=
  let s1 := holdEffects c r.effects r.state
  let s := if mainReady s1 then markScene before s1 else s1
  gateMain r.gate (match r.wait with
  | some w =>
    { s with mgr := { s.mgr with cueExec := some { packet := c.packet, cue := some c.id, late := late, execDfc := stampDfc before,
                                                   wait := w, payload := r.payload } } }
  | none => if r.silent then s else reportCue c.id late c.packet r.status (stampDfc before) r.payload s)

/-- The carried command executes; the cue is no longer pending. -/
def fireCue (c : Cue) (s : State) : State :=
  let s1 := { s with cues := s.cues.filter fun x => x.id != c.id }
  match cmdOf c.packet.opc with
  | some k => finishCue c (cueLate s c) (serve k { tag := c.packet.tag, p := c.packet.param, cue := some c.id, scene := false } s1) s1
  | none => reportCue c.id (cueLate s c) c.packet stUnknown (stampDfc s1) [] s1

/-- `CUE_FIRE` (R29 to R35). -/
def execCueFire (s : State) : Host.Outcome State Fault Refusal :=
  if !mainReady s || s.mgr.cueExec.isSome then .next s else
  let s1 := markBlocked s
  match nextCue s1 with
  | none => .next s1
  | some c => if vendorOpcode s c.packet.opc then .refused .vendorTest else .next (fireCue c s1)

/-- Ticks from an output sample to the frame that carries it (R304 to R306, R312). -/
def carryLag (s : State) (e : AudioEffect) : Nat :=
  match e with
  | .slots n _ _ => match s.ports.tdm[n]? with | some p => if portConverts p.cfg then 48 else 0 | none => 0
  | .spdif _ => if s.ports.spdif.cfg.rate = 2 then 1 else 48
  | _ => 0

/-- The held effects whose target sample has come, or the frame that carries it (R29, R303, R312). -/
def effectDue (s : State) (h : HeldEffect) : Bool := !inFuture s (h.target + BitVec.ofNat 32 (carryLag s h.effect))

/-- `AUDIO_CUE_EFFECT` (R29): on the output sample at the target. -/
def execAudioCueEffect (s : State) : Host.Outcome State Fault Refusal :=
  let l := s.held.filter (effectDue s)
  if l.isEmpty then .next s
  else .next (markScene s (applyEffects (l.map (·.effect)) { s with held := s.held.filter fun h => !effectDue s h }))

/-! ### Scene reapplication (R484, R485) -/

/-- The scene does not wait for a command (R485): what it starts begins as far as the capacity carries it (R282). -/
def settle (w : Wait) (s : State) : State :=
  match w with
  | .lane _ | .engine _ | .reception => if capacityMet s then beginAll s else s
  | .port _ | .relock => s

/-- One packet of the scene, and whether it was skipped. -/
def applyPacket (pkt : Packet) (s : State) : State × Bool :=
  match cmdOf pkt.opc with
  | none => (s, true)
  | some k =>
    let r := serve k { tag := pkt.tag, p := pkt.param, cue := none, scene := true } s
    let s1 := applyEffects r.effects r.state
    let s2 := match r.wait with | some w => settle w s1 | none => s1
    (if mainReady s2 then markScene s s2 else s2, !(r.status == stOk || r.status == stPending))

/-- Every packet in order, with the opcode and first PARAM byte of the first 16 skipped. -/
def applyScene (l : List Packet) (s : State) : State × List (Byte × Byte) :=
  l.foldl (fun x pkt =>
    let r := applyPacket pkt x.1
    (r.1, if r.2 && decide (x.2.length < 16) then x.2 ++ [(pkt.opc, pkt.param.headD 0)] else x.2)) (s, [])

/-- The code of the outcome when nothing is applied (R484). -/
def sceneBar (s : State) : Option Nat :=
  match s.retained.scene with
  | none => some 0
  | some x => if !x.ok || s.reset_.sceneBarred then some 4 else if s.reset_.skipScene then some 3 else none

def causeCode : ResetCause → Nat
  | .cold => 0
  | .resetn => 1
  | .command => 2
  | .watchdog => 3
  | .mainReturn => 4
  | .ramError => 5
  | .thermal => 6

/-- `EV_RESET_DONE` (Table 14-10). -/
def evResetDone (cause scene : Nat) (skipped : List (Byte × Byte)) : State → State :=
  raise 19 ([byte cause, byte scene, byte skipped.length, 0] ++ skipped.flatMap fun x => [x.1, x.2])

/-- The reset ends: its record, what waited for it, and the feed lines under their modes (R484, R485, R508, R514). -/
def endReset (scene : Nat) (skipped : List (Byte × Byte)) (s : State) : State :=
  let s1 := { s with reset_ := { s.reset_ with reapplying := false, doneQueued := true, doneAt := s.now, sceneBarred := false } }
  refreshFeeds (releaseHeld (completeResetFaults (evResetDone (causeCode s.reset_.cause) scene skipped s1)))

/-- The scene is applied, or barred. -/
def reapply (s : State) : State :=
  match sceneBar s, s.retained.scene with
  | some code, _ => endReset code [] s
  | none, some x =>
    let r := applyScene x.packets s
    endReset (if r.2.isEmpty then 1 else 2) r.2 r.1
  | none, none => endReset 0 [] s

/-- `SCENE_REAPPLICATION` (R485). -/
def execSceneReapplication (s : State) : Host.Outcome State Fault Refusal :=
  if mainReady s && s.reset_.reapplying then .next (reapply s) else .next s

end Sys2Proof.Machine
end

