-- ==== Sys2Proof/Machine/Timeline.lean ====
section
/-! DEFINITION. One period of the 48 kHz timeline: `DFC_TICK` (R27, R248, R314, R315, R336), with the audio of every program. -/

namespace Sys2Proof.Machine

/-- Every curtain that moves goes one step: the whole way in `downMs` or `upMs` (R314). -/
def tickCurtain (c : Curtain) : Curtain :=
  match c.moving with
  | none => c
  | some true => { c with pos := min 1 (c.pos + 1 / (48 * c.upMs : Nat)) }
  | some false => { c with pos := max 0 (c.pos - 1 / (48 * c.downMs : Nat)) }

/-- A curtain that waits for its source opens at the first valid sample of the program (R234, R260); under the host's hold a switch ends
there (R262). -/
def openWhenValid (p : Program) : Program :=
  if !p.running || !p.out.valid then p
  else if p.curtain.held then { p with curtain := { p.curtain with switching := p.curtain.switching && !p.curtain.after.isEmpty } }
  else if p.curtain.waitValid then
    { p with curtain := { p.curtain with waitValid := false, moving := if p.curtain.pos = 1 then none else some true } }
  else p

/-- The read point moves to the tracked offset by at most 100 ppm of the audio rate (R248). -/
def moveTau (p : Program) : Program :=
  { p with tau := p.tau + max (-1 / 10000) (min (1 / 10000) ((p.tauTarget : Rat) - p.tau)) }

/-- The sample of the tick goes out behind the program curtain (R314); under a closed curtain it is not valid (Table 11-6). -/
def sendSample (p : Program) : Program :=
  { p with sent := ((if p.running then (curtainGain p.curtain.pos, { p.out with valid := p.out.valid && decide (0 < p.curtain.pos) })
                     else (0, Sample.silent)) :: p.sent).take 97 }

def tickProgram (p : Program) : Program := sendSample (openWhenValid { moveTau p with curtain := tickCurtain p.curtain })

/-- The recovery of PLL-A completes when its ports have restarted with their curtains open (Table 16-6, R316). -/
def portsRestarted (s : State) : State :=
  if s.clocks.pllA = .locked ∧ holdsSlot s 0x50 0 ∧ portsOpen s then faultEnds 0x50 0 2 s else s

/-- A port's recovery completes when its curtain is open again (R316 step 3). -/
def portsRecovered (s : State) : State :=
  forEach (List.range s.ports.tdm.length) (fun n s =>
    match s.ports.tdm[n]? with
    | some p => if p.st = .locked ∧ p.curtainUp = true ∧ p.curtain = 1 then faultEnds 0x60 n 2 (faultEnds 0x61 n 2 s) else s
    | none => s) s

/-- A period of a timeline that runs. -/
def tickRunning (s : State) : State :=
  let s1 := mixAll s
  portsRecovered <| portsRestarted { s1 with
    time := { s1.time with dfc := s1.time.dfc + 1 }
    progs := s1.progs.map tickProgram
    ports := { s1.ports with tdm := s1.ports.tdm.map tickPort, spdif := tickSpdif s1.ports.spdif }
    flows := tickBuckets s1.flows }

/-- The timer of R473 counts while the main domain is off. -/
def tickOff (s : State) : State :=
  { s with reset_ := { s.reset_ with offTicks := satAdd 0xFFFFFFFF s.reset_.offTicks 1 } }

/-- The timeline has a source and the main domain has its control core (R28, R452). -/
def timelineTicks (s : State) : Bool := !mainOff s && s.time.started && s.time.source != .held

/-- `DFC_TICK` (R27): the DFC counts when the timeline runs, and the timer of R473 while the main domain is off. -/
def execDfcTick (s : State) : Host.Outcome State Fault Refusal :=
  let s1 := { s with now := s.now + 1 }
  if mainOff s then .next (tickOff s1) else if timelineTicks s then .next (tickRunning s1) else .next s1

end Sys2Proof.Machine
end

