-- ==== Sys2Proof/Machine/Dispatch.lean ====
section
/-! DEFINITION. The dispatcher: one arm for each row of the table. -/

namespace Sys2Proof.Machine

def exec (i : Instr) (s : State) : Host.Outcome State Fault Refusal :=
  match i with
  | .nop tag p => Sys2Proof.Machine.execNop tag p s
  | .identify tag p => Sys2Proof.Machine.execIdentify tag p s
  | .eventRead tag p => Sys2Proof.Machine.execEventRead tag p s
  | .eventMask tag p => Sys2Proof.Machine.execEventMask tag p s
  | .stageReset tag p => Sys2Proof.Machine.execStageReset tag p s
  | .patchLoad tag p => Sys2Proof.Machine.execPatchLoad tag p s
  | .patchCommit tag p => Sys2Proof.Machine.execPatchCommit tag p s
  | .timeRead tag p => Sys2Proof.Machine.execTimeRead tag p s
  | .cueSet tag p => Sys2Proof.Machine.execCueSet tag p s
  | .cueCancel tag p => Sys2Proof.Machine.execCueCancel tag p s
  | .cueList tag p => Sys2Proof.Machine.execCueList tag p s
  | .undefinedOpcode opc tag p => Sys2Proof.Machine.execUndefinedOpcode opc tag p s
  | .bandPlan tag p => Sys2Proof.Machine.execBandPlan tag p s
  | .rxStart tag p => Sys2Proof.Machine.execRxStart tag p s
  | .rxStop tag p => Sys2Proof.Machine.execRxStop tag p s
  | .frontendGain tag p => Sys2Proof.Machine.execFrontendGain tag p s
  | .antennaFeed tag p => Sys2Proof.Machine.execAntennaFeed tag p s
  | .diversitySet tag p => Sys2Proof.Machine.execDiversitySet tag p s
  | .scanPolicy tag p => Sys2Proof.Machine.execScanPolicy tag p s
  | .laneAssign tag p => Sys2Proof.Machine.execLaneAssign tag p s
  | .laneRelease tag p => Sys2Proof.Machine.execLaneRelease tag p s
  | .laneList tag p => Sys2Proof.Machine.execLaneList tag p s
  | .laneStatus tag p => Sys2Proof.Machine.execLaneStatus tag p s
  | .fmParams tag p => Sys2Proof.Machine.execFmParams tag p s
  | .amParams tag p => Sys2Proof.Machine.execAmParams tag p s
  | .rdsConfig tag p => Sys2Proof.Machine.execRdsConfig tag p s
  | .dabEngineAssign tag p => Sys2Proof.Machine.execDabEngineAssign tag p s
  | .dabEngineRelease tag p => Sys2Proof.Machine.execDabEngineRelease tag p s
  | .dabEngineStatus tag p => Sys2Proof.Machine.execDabEngineStatus tag p s
  | .softbitMode tag p => Sys2Proof.Machine.execSoftbitMode tag p s
  | .serviceList tag p => Sys2Proof.Machine.execServiceList tag p s
  | .serviceInfo tag p => Sys2Proof.Machine.execServiceInfo tag p s
  | .announcementPolicy tag p => Sys2Proof.Machine.execAnnouncementPolicy tag p s
  | .alertPolicy tag p => Sys2Proof.Machine.execAlertPolicy tag p s
  | .programStop tag p => Sys2Proof.Machine.execProgramStop tag p s
  | .programStart tag p => Sys2Proof.Machine.execProgramStart tag p s
  | .programAddMember tag p => Sys2Proof.Machine.execProgramAddMember tag p s
  | .programRemoveMember tag p => Sys2Proof.Machine.execProgramRemoveMember tag p s
  | .programStatus tag p => Sys2Proof.Machine.execProgramStatus tag p s
  | .linkPolicy tag p => Sys2Proof.Machine.execLinkPolicy tag p s
  | .delayStoreConfig tag p => Sys2Proof.Machine.execDelayStoreConfig tag p s
  | .curtainCloseAndHold tag p => Sys2Proof.Machine.execCurtainCloseAndHold tag p s
  | .curtainReleaseAndOpen tag p => Sys2Proof.Machine.execCurtainReleaseAndOpen tag p s
  | .curtainSetTimes tag p => Sys2Proof.Machine.execCurtainSetTimes tag p s
  | .portConfig tag p => Sys2Proof.Machine.execPortConfig tag p s
  | .slotMap tag p => Sys2Proof.Machine.execSlotMap tag p s
  | .statusSlotConfig tag p => Sys2Proof.Machine.execStatusSlotConfig tag p s
  | .spdifConfig tag p => Sys2Proof.Machine.execSpdifConfig tag p s
  | .portStatus tag p => Sys2Proof.Machine.execPortStatus tag p s
  | .flowOpen tag p => Sys2Proof.Machine.execFlowOpen tag p s
  | .flowClose tag p => Sys2Proof.Machine.execFlowClose tag p s
  | .flowShape tag p => Sys2Proof.Machine.execFlowShape tag p s
  | .classShape tag p => Sys2Proof.Machine.execClassShape tag p s
  | .egressConfig tag p => Sys2Proof.Machine.execEgressConfig tag p s
  | .flowStats tag p => Sys2Proof.Machine.execFlowStats tag p s
  | .mailboxRead tag p => Sys2Proof.Machine.execMailboxRead tag p s
  | .calPolicy tag p => Sys2Proof.Machine.execCalPolicy tag p s
  | .calRun tag p => Sys2Proof.Machine.execCalRun tag p s
  | .calStatus tag p => Sys2Proof.Machine.execCalStatus tag p s
  | .calTableRead tag p => Sys2Proof.Machine.execCalTableRead tag p s
  | .refConfig tag p => Sys2Proof.Machine.execRefConfig tag p s
  | .samplePlan tag p => Sys2Proof.Machine.execSamplePlan tag p s
  | .clockOut tag p => Sys2Proof.Machine.execClockOut tag p s
  | .syncArm tag p => Sys2Proof.Machine.execSyncArm tag p s
  | .freqTrim tag p => Sys2Proof.Machine.execFreqTrim tag p s
  | .clockStatus tag p => Sys2Proof.Machine.execClockStatus tag p s
  | .powerPolicy tag p => Sys2Proof.Machine.execPowerPolicy tag p s
  | .capacityStatus tag p => Sys2Proof.Machine.execCapacityStatus tag p s
  | .ghostLightConfig tag p => Sys2Proof.Machine.execGhostLightConfig tag p s
  | .ghostLightEnter tag p => Sys2Proof.Machine.execGhostLightEnter tag p s
  | .ghostLightLeave tag p => Sys2Proof.Machine.execGhostLightLeave tag p s
  | .supplyStatus tag p => Sys2Proof.Machine.execSupplyStatus tag p s
  | .lifecycleRead tag p => Sys2Proof.Machine.execLifecycleRead tag p s
  | .lifecycleAdvance tag p => Sys2Proof.Machine.execLifecycleAdvance tag p s
  | .retainedWipe tag p => Sys2Proof.Machine.execRetainedWipe tag p s
  | .faultLogRead tag p => Sys2Proof.Machine.execFaultLogRead tag p s
  | .integrityCounters tag p => Sys2Proof.Machine.execIntegrityCounters tag p s
  | .temperatureRead tag p => Sys2Proof.Machine.execTemperatureRead tag p s
  | .spectrumSnapshot tag p => Sys2Proof.Machine.execSpectrumSnapshot tag p s
  | .selftest tag p => Sys2Proof.Machine.execSelftest tag p s
  | .commandReceipt bytes => Sys2Proof.Machine.execCommandReceipt bytes s
  | .replyRead delivered => Sys2Proof.Machine.execReplyRead delivered s
  | .brokenTransfer kind => Sys2Proof.Machine.execBrokenTransfer kind s
  | .tSlimExpiry write => Sys2Proof.Machine.execTSlimExpiry write s
  | .sdaHoldExpiry write => Sys2Proof.Machine.execSdaHoldExpiry write s
  | .replyFifoEntry => Sys2Proof.Machine.execReplyFifoEntry s
  | .promptDueTimer => Sys2Proof.Machine.execPromptDueTimer s
  | .prompt sclFell => Sys2Proof.Machine.execPrompt sclFell s
  | .dfcTick => Sys2Proof.Machine.execDfcTick s
  | .cueFire => Sys2Proof.Machine.execCueFire s
  | .audioCueEffect => Sys2Proof.Machine.execAudioCueEffect s
  | .decisionPoint obs => Sys2Proof.Machine.execDecisionPoint obs s
  | .fineMapUpdate high low => Sys2Proof.Machine.execFineMapUpdate high low s
  | .binMapUpdate input powers => Sys2Proof.Machine.execBinMapUpdate input powers s
  | .capacityMeasurement rings => Sys2Proof.Machine.execCapacityMeasurement rings s
  | .powerWindow mw => Sys2Proof.Machine.execPowerWindow mw s
  | .sheddingPass => Sys2Proof.Machine.execSheddingPass s
  | .restore => Sys2Proof.Machine.execRestore s
  | .derateDecay => Sys2Proof.Machine.execDerateDecay s
  | .inputFifoDrop input => Sys2Proof.Machine.execInputFifoDrop input s
  | .underrun program obs => Sys2Proof.Machine.execUnderrun program obs s
  | .memberReturn program slot => Sys2Proof.Machine.execMemberReturn program slot s
  | .sensorRead sensors backup => Sys2Proof.Machine.execSensorRead sensors backup s
  | .thermalRestart => Sys2Proof.Machine.execThermalRestart s
  | .gainWindow64us input clipped samples => Sys2Proof.Machine.execGainWindow64us input clipped samples s
  | .gainWindow1ms input rms => Sys2Proof.Machine.execGainWindow1ms input rms s
  | .feedFault line => Sys2Proof.Machine.execFeedFault line s
  | .feedRetry line => Sys2Proof.Machine.execFeedRetry line s
  | .rotationIntervalEnd input obs => Sys2Proof.Machine.execRotationIntervalEnd input obs s
  | .overlapEnd input rmsDiff meanDiff => Sys2Proof.Machine.execOverlapEnd input rmsDiff meanDiff s
  | .subWindowEnd input obs => Sys2Proof.Machine.execSubWindowEnd input obs s
  | .evaluationWindowEnd input obs => Sys2Proof.Machine.execEvaluationWindowEnd input obs s
  | .selectionChange input => Sys2Proof.Machine.execSelectionChange input s
  | .calRetry input obs => Sys2Proof.Machine.execCalRetry input obs s
  | .calIntervalTrigger input => Sys2Proof.Machine.execCalIntervalTrigger input s
  | .laneUpdate lane figs => Sys2Proof.Machine.execLaneUpdate lane figs s
  | .pilotStateChange lane obs => Sys2Proof.Machine.execPilotStateChange lane obs s
  | .syncLoopLockChange lane obs => Sys2Proof.Machine.execSyncLoopLockChange lane obs s
  | .processingStart => Sys2Proof.Machine.execProcessingStart s
  | .drainingEnd engine id => Sys2Proof.Machine.execDrainingEnd engine id s
  | .rdsBlock lane info offset err inGap => Sys2Proof.Machine.execRdsBlock lane info offset err inGap s
  | .rdsGroup lane => Sys2Proof.Machine.execRdsGroup lane s
  | .identityLost lane => Sys2Proof.Machine.execIdentityLost lane s
  | .identityRecord lane => Sys2Proof.Machine.execIdentityRecord lane s
  | .eonTaTimeout lane => Sys2Proof.Machine.execEonTaTimeout lane s
  | .alertEndTimer lane => Sys2Proof.Machine.execAlertEndTimer lane s
  | .stationRecordWrite index => Sys2Proof.Machine.execStationRecordWrite index s
  | .dabFrame engine obs => Sys2Proof.Machine.execDabFrame engine obs s
  | .cifBoundary engine obs => Sys2Proof.Machine.execCifBoundary engine obs s
  | .softbitConversionEnd engine => Sys2Proof.Machine.execSoftbitConversionEnd engine s
  | .modelObjectTimeout engine => Sys2Proof.Machine.execModelObjectTimeout engine s
  | .engineAbandon engine => Sys2Proof.Machine.execEngineAbandon engine s
  | .announcementTimeout engine cluster => Sys2Proof.Machine.execAnnouncementTimeout engine cluster s
  | .decoderFirstValidSample decoder => Sys2Proof.Machine.execDecoderFirstValidSample decoder s
  | .announcementSourceReady program => Sys2Proof.Machine.execAnnouncementSourceReady program s
  | .curtainClosed program => Sys2Proof.Machine.execCurtainClosed program s
  | .curtainOpened program => Sys2Proof.Machine.execCurtainOpened program s
  | .endDelayExpiry program => Sys2Proof.Machine.execEndDelayExpiry program s
  | .refinement program frac => Sys2Proof.Machine.execRefinement program frac s
  | .alignmentFailed program => Sys2Proof.Machine.execAlignmentFailed program s
  | .searchRestart program => Sys2Proof.Machine.execSearchRestart program s
  | .tracking program frac => Sys2Proof.Machine.execTracking program frac s
  | .memberDelayMeasure program slot frac => Sys2Proof.Machine.execMemberDelayMeasure program slot frac s
  | .pageRequestGrant => Sys2Proof.Machine.execPageRequestGrant s
  | .noDabMemberTimeout program => Sys2Proof.Machine.execNoDabMemberTimeout program s
  | .crossfadeEnd program => Sys2Proof.Machine.execCrossfadeEnd program s
  | .portLock port ppm => Sys2Proof.Machine.execPortLock port ppm s
  | .portStop port => Sys2Proof.Machine.execPortStop port s
  | .tdmFrame port place completed => Sys2Proof.Machine.execTdmFrame port place completed s
  | .spdifFrame num den => Sys2Proof.Machine.execSpdifFrame num den s
  | .fsyncGlitch port => Sys2Proof.Machine.execFsyncGlitch port s
  | .portClockLoss port => Sys2Proof.Machine.execPortClockLoss port s
  | .rateStep port ppm => Sys2Proof.Machine.execRateStep port ppm s
  | .packetArrival kind source qualifier check payload => Sys2Proof.Machine.execPacketArrival kind source qualifier check payload s
  | .flowDropRecord flow => Sys2Proof.Machine.execFlowDropRecord flow s
  | .referenceAbsent => Sys2Proof.Machine.execReferenceAbsent s
  | .referencePresent => Sys2Proof.Machine.execReferencePresent s
  | .buildOutComplete synth stepPs coastErr => Sys2Proof.Machine.execBuildOutComplete synth stepPs coastErr s
  | .pllLossOfLock synth => Sys2Proof.Machine.execPllLossOfLock synth s
  | .pllLock synth => Sys2Proof.Machine.execPllLock synth s
  | .pllSRelockRetry locked => Sys2Proof.Machine.execPllSRelockRetry locked s
  | .trimStep => Sys2Proof.Machine.execTrimStep s
  | .syncCapture => Sys2Proof.Machine.execSyncCapture s
  | .syncInstant => Sys2Proof.Machine.execSyncInstant s
  | .sagWarning mv => Sys2Proof.Machine.execSagWarning mv s
  | .sagCleared mv => Sys2Proof.Machine.execSagCleared mv s
  | .switchOver vmain vbak => Sys2Proof.Machine.execSwitchOver vmain vbak s
  | .switchBack mv => Sys2Proof.Machine.execSwitchBack mv s
  | .hardHalt vmain vbak => Sys2Proof.Machine.execHardHalt vmain vbak s
  | .mainDomainReturn mv => Sys2Proof.Machine.execMainDomainReturn mv s
  | .backupPowerOn addr1 addr0 vmain vbak => Sys2Proof.Machine.execBackupPowerOn addr1 addr0 vmain vbak s
  | .backupLoss => Sys2Proof.Machine.execBackupLoss s
  | .vioLevelChange mv => Sys2Proof.Machine.execVioLevelChange mv s
  | .resetnLow ns => Sys2Proof.Machine.execResetnLow ns s
  | .resetnRelease addr1 addr0 => Sys2Proof.Machine.execResetnRelease addr1 addr0 s
  | .watchdogExpiry => Sys2Proof.Machine.execWatchdogExpiry s
  | .firmwareRamError addr => Sys2Proof.Machine.execFirmwareRamError addr s
  | .deviceReady obs => Sys2Proof.Machine.execDeviceReady obs s
  | .sceneReapplication => Sys2Proof.Machine.execSceneReapplication s
  | .sceneCapture => Sys2Proof.Machine.execSceneCapture s
  | .ghostLightEntry => Sys2Proof.Machine.execGhostLightEntry s
  | .watchStateChange obs => Sys2Proof.Machine.execWatchStateChange obs s
  | .alertLogWrite => Sys2Proof.Machine.execAlertLogWrite s
  | .scrub mem corrected bad => Sys2Proof.Machine.execScrub mem corrected bad s
  | .integrityRecord index => Sys2Proof.Machine.execIntegrityRecord index s
  | .recoveryRunnable code inst => Sys2Proof.Machine.execRecoveryRunnable code inst s
  | .faultLogWrite => Sys2Proof.Machine.execFaultLogWrite s
  | .boundaryScan drive => Sys2Proof.Machine.execBoundaryScan drive s
  | .vmainRiseAfterBackupOnlyStart mv => Sys2Proof.Machine.execVmainRiseAfterBackupOnlyStart mv s
  | .generalCall first => Sys2Proof.Machine.execGeneralCall first s

end Sys2Proof.Machine
end

