-- ==== Sys2Proof/Safety.lean ====
section
/-! DEFINITION. What claims about the block are said in: when a host packet is executed at once, what an answered command
leaves, the bounds that the manual puts on the block's queues and logs, and the host command that a row carries. -/

namespace Sys2Proof.Machine

/-! ### A host packet and its answer -/

/-- The stage manager is free, the command queue is empty, OPC is acknowledged, and the packet is a whole one (R35, R353,
R357, R360): the row executes at once (log entry 21). -/
def HostTurn (s : State) (p : List Byte) : Prop :=
  s.link.queue = [] ∧ managerFree s = true ∧ acceptsOpc s = true ∧ p.length ≤ 250

/-- `HostTurn` with the main domain ready and a life cycle that bars nothing (R489, Table 17-10). -/
def MainTurn (s : State) (p : List Byte) : Prop :=
  HostTurn s p ∧ s.reset_.domain = .ready ∧ s.chip.life ≠ .retired

/-- `u` with one reply at the end of the reply FIFO (R360). -/
def replied (u : State) (status : Nat) (tag : Byte) (payload : List Byte) : State :=
  { u with link := { u.link with fifo := u.link.fifo ++ [{ status := byte status, tag := tag, payload := payload }] } }

/-- `t` is `u` with the reply of a status in the FIFO (or waiting for an entry, R360), the scene marked changed or not (R482). -/
def Answered (t : State) (status : Nat) (tag : Byte) (payload : List Byte) (u : State) : Prop :=
  ∃ v, (v = u ∨ v = sceneChange u) ∧ t = putReply { status := byte status, tag := tag, payload := payload } v

/-- The call that a host packet makes of its command. -/
def hostCall (tag : Byte) (p : List Byte) : Call := { tag := tag, p := p, cue := none, scene := false }

/-- The opcodes that the opcode map defines (Tables 14-2, 14-5, 14-8 and chapter 15). -/
def opcodeMap : List Byte :=
  [0x00, 0x01, 0x02, 0x03, 0x04, 0x05, 0x06, 0x07, 0x08, 0x09, 0x0A, 0x10, 0x11, 0x12, 0x13, 0x14, 0x15, 0x18, 0x19, 0x1A,
   0x1B, 0x1C, 0x20, 0x21, 0x22, 0x28, 0x29, 0x2A, 0x2B, 0x30, 0x31, 0x32, 0x33, 0x40, 0x41, 0x42, 0x43, 0x44, 0x50, 0x51] ++
  [0x52, 0x53, 0x54, 0x60, 0x61, 0x62, 0x63, 0x64, 0x65, 0x66, 0x70, 0x71, 0x72, 0x73, 0x80, 0x81, 0x82, 0x83, 0x84, 0x85,
   0x90, 0x91, 0x92, 0x93, 0x94, 0x95, 0x96, 0xA0, 0xA1, 0xA2, 0xA3, 0xA4]

/-- The stage manager holds a command that has started and not completed. -/
def holdExecuting (e : Executing) (s : State) : State := { s with mgr := { s.mgr with executing := some e } }

/-- `t` is `u` with a command executed up to its last step and no reply yet (R282, R386): the packet, what it waits for and its
payload are held. -/
def Waiting (t : State) (pkt : Packet) (w : Wait) (payload : List Byte) (u : State) : Prop :=
  ∃ v, (v = u ∨ v = sceneChange u) ∧
    t = holdExecuting { packet := pkt, cue := none, late := false, execDfc := stampDfc u, wait := w, payload := payload } v

/-- `t` is `u` but for what reports alone write: event records with their prompt and mirror, integrity counters, the records
and recoveries of the fault log (R389, R507, R519). -/
def Reports (u t : State) : Prop := t = { u with events := t.events, integ := t.integ }

/-- `Reports`, and what a recovery of rank 6 does to its TDM port when it is aborted or starts again: the port is gated or freed, and
keeps its configuration, slots, losses and what waits for its stop (R320, R513). -/
def Handles (u t : State) : Prop :=
  t = { u with events := t.events, integ := t.integ, ports := { u.ports with tdm := t.ports.tdm } } ∧
  let kept (p : Port) := (p.cfg, p.next, p.slots, p.slotsNext, p.losses)
  t.ports.tdm.map kept = u.ports.tdm.map kept

/-! ### Bounds (R5, R390, R519, R522) -/

/-- The command queue, the reply FIFO, the event queue, the staging buffer and the fault log hold no more than the manual
gives them. -/
def Bounded (s : State) : Prop :=
  s.link.queue.length ≤ 4 ∧ s.link.fifo.length ≤ 4 ∧ s.events.queue.length ≤ 255 ∧ s.integ.staging.length ≤ 16 ∧
  s.retained.ring.length ≤ 256

/-- The number of each kind of unit and record is the manual's (R2, R4, Tables 0-1, 1-2, 3-5, 6-3, 12-6, 18-3): no command
and no event makes one or loses one. -/
def Shaped (s : State) : Prop :=
  s.inputs.length = 6 ∧ s.feeds.length = 4 ∧ s.cal.inputs.length = 6 ∧ s.lanes.fm.length = s.chip.variant.fmLanes ∧
  s.lanes.am.length = s.chip.variant.amLanes ∧ s.dab.engines.length = s.chip.variant.engines ∧
  s.decoders.length = s.chip.variant.programs ∧ s.progs.length = s.chip.variant.programs ∧
  s.flows.flows.length = s.chip.variant.flows ∧ s.flows.classes.length = 4 ∧ s.ports.tdm.length = 2 ∧
  s.ports.status.length = 4 ∧ s.clocks.outs.length = 4 ∧ s.clocks.band.length = 4 ∧ s.integ.counters.length = 32 ∧
  s.integ.recorded.length = 32 ∧ s.rds.stations.length = 512 ∧ s.retained.stations.length = 512 ∧
  s.retained.tables.length = 18 ∧ s.retained.band.length = 4

/-- The two together: an invariant of the machine. -/
def Fits (s : State) : Prop := Bounded s ∧ Shaped s

/-! ### The host command of a row -/

/-- The command of the opcode map, the TAG and the PARAM bytes that a host row sends; none for a row of another kind and
for `UNDEFINED_OPCODE`. -/
def hostCommand : Instr → Option (Cmd × Byte × List Byte)
  | .nop tag p => some (cmdNop, tag, p)
  | .identify tag p => some (cmdIdentify, tag, p)
  | .eventRead tag p => some (cmdEventRead, tag, p)
  | .eventMask tag p => some (cmdEventMask, tag, p)
  | .stageReset tag p => some (cmdStageReset, tag, p)
  | .patchLoad tag p => some (cmdPatchLoad, tag, p)
  | .patchCommit tag p => some (cmdPatchCommit, tag, p)
  | .timeRead tag p => some (cmdTimeRead, tag, p)
  | .cueSet tag p => some (cmdCueSet, tag, p)
  | .cueCancel tag p => some (cmdCueCancel, tag, p)
  | .cueList tag p => some (cmdCueList, tag, p)
  | .bandPlan tag p => some (cmdBandPlan, tag, p)
  | .rxStart tag p => some (cmdRxStart, tag, p)
  | .rxStop tag p => some (cmdRxStop, tag, p)
  | .frontendGain tag p => some (cmdFrontendGain, tag, p)
  | .antennaFeed tag p => some (cmdAntennaFeed, tag, p)
  | .diversitySet tag p => some (cmdDiversitySet, tag, p)
  | .scanPolicy tag p => some (cmdScanPolicy, tag, p)
  | .laneAssign tag p => some (cmdLaneAssign, tag, p)
  | .laneRelease tag p => some (cmdLaneRelease, tag, p)
  | .laneList tag p => some (cmdLaneList, tag, p)
  | .laneStatus tag p => some (cmdLaneStatus, tag, p)
  | .fmParams tag p => some (cmdFmParams, tag, p)
  | .amParams tag p => some (cmdAmParams, tag, p)
  | .rdsConfig tag p => some (cmdRdsConfig, tag, p)
  | .dabEngineAssign tag p => some (cmdDabEngineAssign, tag, p)
  | .dabEngineRelease tag p => some (cmdDabEngineRelease, tag, p)
  | .dabEngineStatus tag p => some (cmdDabEngineStatus, tag, p)
  | .softbitMode tag p => some (cmdSoftbitMode, tag, p)
  | .serviceList tag p => some (cmdServiceList, tag, p)
  | .serviceInfo tag p => some (cmdServiceInfo, tag, p)
  | .announcementPolicy tag p => some (cmdAnnouncementPolicy, tag, p)
  | .alertPolicy tag p => some (cmdAlertPolicy, tag, p)
  | .programStop tag p => some (cmdProgramSet, tag, (setByte p 1 0))
  | .programStart tag p => some (cmdProgramSet, tag, (setByte p 1 1))
  | .programAddMember tag p => some (cmdProgramSet, tag, (setByte p 1 2))
  | .programRemoveMember tag p => some (cmdProgramSet, tag, (setByte p 1 3))
  | .programStatus tag p => some (cmdProgramStatus, tag, p)
  | .linkPolicy tag p => some (cmdLinkPolicy, tag, p)
  | .delayStoreConfig tag p => some (cmdDelayStoreConfig, tag, p)
  | .curtainCloseAndHold tag p => some (cmdCurtain, tag, (setByte p 1 0))
  | .curtainReleaseAndOpen tag p => some (cmdCurtain, tag, (setByte p 1 1))
  | .curtainSetTimes tag p => some (cmdCurtain, tag, (setByte p 1 2))
  | .portConfig tag p => some (cmdPortConfig, tag, p)
  | .slotMap tag p => some (cmdSlotMap, tag, p)
  | .statusSlotConfig tag p => some (cmdStatusSlotConfig, tag, p)
  | .spdifConfig tag p => some (cmdSpdifConfig, tag, p)
  | .portStatus tag p => some (cmdPortStatus, tag, p)
  | .flowOpen tag p => some (cmdFlowOpen, tag, p)
  | .flowClose tag p => some (cmdFlowClose, tag, p)
  | .flowShape tag p => some (cmdFlowShape, tag, p)
  | .classShape tag p => some (cmdClassShape, tag, p)
  | .egressConfig tag p => some (cmdEgressConfig, tag, p)
  | .flowStats tag p => some (cmdFlowStats, tag, p)
  | .mailboxRead tag p => some (cmdMailboxRead, tag, p)
  | .calPolicy tag p => some (cmdCalPolicy, tag, p)
  | .calRun tag p => some (cmdCalRun, tag, p)
  | .calStatus tag p => some (cmdCalStatus, tag, p)
  | .calTableRead tag p => some (cmdCalTableRead, tag, p)
  | .refConfig tag p => some (cmdRefConfig, tag, p)
  | .samplePlan tag p => some (cmdSamplePlan, tag, p)
  | .clockOut tag p => some (cmdClockOut, tag, p)
  | .syncArm tag p => some (cmdSyncArm, tag, p)
  | .freqTrim tag p => some (cmdFreqTrim, tag, p)
  | .clockStatus tag p => some (cmdClockStatus, tag, p)
  | .powerPolicy tag p => some (cmdPowerPolicy, tag, p)
  | .capacityStatus tag p => some (cmdCapacityStatus, tag, p)
  | .ghostLightConfig tag p => some (cmdGhost, tag, (setByte p 9 0))
  | .ghostLightEnter tag p => some (cmdGhost, tag, (setByte p 9 1))
  | .ghostLightLeave tag p => some (cmdGhost, tag, (setByte p 9 2))
  | .supplyStatus tag p => some (cmdSupplyStatus, tag, p)
  | .lifecycleRead tag p => some (cmdLifecycleRead, tag, p)
  | .lifecycleAdvance tag p => some (cmdLifecycleAdvance, tag, p)
  | .retainedWipe tag p => some (cmdRetainedWipe, tag, p)
  | .faultLogRead tag p => some (cmdFaultLogRead, tag, p)
  | .integrityCounters tag p => some (cmdCounters, tag, p)
  | .temperatureRead tag p => some (cmdTemperature, tag, p)
  | .spectrumSnapshot tag p => some (cmdSnapshot, tag, p)
  | .selftest tag p => some (cmdSelftest, tag, p)
  | .undefinedOpcode _ _ _ | .commandReceipt _ | .replyRead _ | .brokenTransfer _ | .tSlimExpiry _ | .sdaHoldExpiry _
  | .replyFifoEntry | .promptDueTimer | .prompt _ | .dfcTick | .cueFire | .audioCueEffect | .decisionPoint _
  | .fineMapUpdate _ _ | .binMapUpdate _ _ | .capacityMeasurement _ | .powerWindow _ | .sheddingPass | .restore
  | .derateDecay | .inputFifoDrop _ | .underrun _ _ | .memberReturn _ _ | .sensorRead _ _ | .thermalRestart
  | .gainWindow64us _ _ _ | .gainWindow1ms _ _ | .feedFault _ | .feedRetry _ | .rotationIntervalEnd _ _
  | .overlapEnd _ _ _ | .subWindowEnd _ _ | .evaluationWindowEnd _ _ | .selectionChange _ | .calRetry _ _
  | .calIntervalTrigger _ | .laneUpdate _ _ | .pilotStateChange _ _ | .syncLoopLockChange _ _ | .processingStart
  | .drainingEnd _ _ | .rdsBlock _ _ _ _ _ | .rdsGroup _ | .identityLost _ | .identityRecord _ | .eonTaTimeout _
  | .alertEndTimer _ | .stationRecordWrite _ | .dabFrame _ _ | .cifBoundary _ _ | .softbitConversionEnd _
  | .modelObjectTimeout _ | .engineAbandon _ | .announcementTimeout _ _ | .decoderFirstValidSample _
  | .announcementSourceReady _ | .curtainClosed _ | .curtainOpened _ | .endDelayExpiry _ | .refinement _ _
  | .alignmentFailed _ | .searchRestart _ | .tracking _ _ | .memberDelayMeasure _ _ _ | .pageRequestGrant
  | .noDabMemberTimeout _ | .crossfadeEnd _ | .portLock _ _ | .portStop _ | .tdmFrame _ _ _ | .spdifFrame _ _
  | .fsyncGlitch _ | .portClockLoss _ | .rateStep _ _ | .packetArrival _ _ _ _ _ | .flowDropRecord _
  | .referenceAbsent | .referencePresent | .buildOutComplete _ _ _ | .pllLossOfLock _ | .pllLock _
  | .pllSRelockRetry _ | .trimStep | .syncCapture | .syncInstant | .sagWarning _ | .sagCleared _ | .switchOver _ _
  | .switchBack _ | .hardHalt _ _ | .mainDomainReturn _ | .backupPowerOn _ _ _ _ | .backupLoss | .vioLevelChange _
  | .resetnLow _ | .resetnRelease _ _ | .watchdogExpiry | .firmwareRamError _ | .deviceReady _ | .sceneReapplication
  | .sceneCapture | .ghostLightEntry | .watchStateChange _ | .alertLogWrite | .scrub _ _ _ | .integrityRecord _
  | .recoveryRunnable _ _ | .faultLogWrite | .boundaryScan _ | .vmainRiseAfterBackupOnlyStart _ | .generalCall _ => none

end Sys2Proof.Machine
end

