-- ==== Sys2Proof/Certificates/Slice0/Obligations.lean ====
section
/-! DEFINITION. The statements about the model: what the manual says of its commands and events, for the provers. -/

open Sys2Proof Sys2Proof.Machine

/-- For every state whose queue of waiting commands is c followed by rest, a step is exec of c on the state with the queue
rest. (95_what_each_step_holds.md) -/
def Obligations.StepRunsFrontCommand : Prop :=
  ∀ (s : State) (c : Instr) (rest : List Instr), s.pending = c :: rest → step s = exec c { s with pending := rest }

/-- With no command waiting, a step answers the same state. The spec gives no such step: it is the model's choice, log entry
1. (95_what_each_step_holds.md) -/
def Obligations.EmptyQueueIdles : Prop :=
  ∀ s : State, s.pending = [] → step s = .next s

/-- Whichever command runs and in whichever state, if exec answers a next state then that state has the same queue of
waiting commands: only step takes commands from it. (95_what_each_step_holds.md) -/
def Obligations.CommandsLeaveTheWaitingQueue : Prop :=
  ∀ (c : Instr) (s t : State), exec c s = .next t → t.pending = s.pending

/-- From every state, a step that answers a next state leaves the variant as it is, and the code of the life-cycle state (0
FOUNDRY to 3 RETIRED) is not lower than before. (00_scope.md (R2), 17_supplies_resets_ghost_light_lifecycle.md, life cycle
(Table 17-10)) -/
def Obligations.VariantStaysAndLifeCycleNeverGoesBack : Prop :=
  ∀ s t : State, step s = .next t → t.chip.variant = s.chip.variant ∧ lifeCode s.chip.life ≤ lifeCode t.chip.life

/-- From every state in which the command queue and the reply FIFO hold at most 4, the event queue at most 255 ordinary
records, the staging buffer at most 16 and the fault log at most 256, and in which the variant has its number of inputs,
feed lines, lanes, engines, decoders, programs, flows, classes, ports, status slots, clock outputs, counters, station
records and calibration tables, a step that answers a next state leaves a state of the same kind. (00_scope.md (R5),
01_receiving_the_band_as_a_whole.md, Table 1-2, 18_integrity_and_fault_precedence.md, fault log) -/
def Obligations.StepKeepsBoundsAndUnitCounts : Prop :=
  ∀ s t : State, Fits s → step s = .next t → Fits t

/-- State.reset satisfies the invariant of StepKeepsBoundsAndUnitCounts, for the variant that the model names (log entry 3).
(00_scope.md (R5), 01_receiving_the_band_as_a_whole.md, Table 1-2) -/
def Obligations.ResetMeetsBoundsAndUnitCounts : Prop :=
  Fits State.reset

/-- State.reset has no waiting command, no queued host command, reply, event record or cue; DFC 0 and epoch 0; the event
mask 0x800FFFFF with the prompt enabled and no mirror; every lane, engine and flow free; every program stopped; every input
not receiving with the default gain settings and the FM band plan of Table 4-2; port A and port B disabled; policy
Performance with power cap 3500 mW and ceiling 850 mV; every integrity counter 0; the retained bank wiped; the watch off;
and the main domain starting with cause cold. The variant, life-cycle state, supply voltages, address and the instant are
the model's choice (log entries 3 to 8). (00_scope.md (R11), 14_commands_system_reception_services.md, defaults,
17_supplies_resets_ghost_light_lifecycle.md, cold reset) -/
def Obligations.ResetStateHoldsGivenValues : Prop :=
  State.reset.pending = [] ∧ State.reset.link.queue = [] ∧ State.reset.link.fifo = [] ∧ State.reset.cues = [] ∧
  State.reset.events.queue = [] ∧ State.reset.events.overflow = none ∧ State.reset.events.mask = 0x800FFFFF ∧
  State.reset.events.promptEnable = true ∧ State.reset.events.mirrorGpio = 255 ∧
  State.reset.time.dfc = 0 ∧ State.reset.time.epoch = 0 ∧
  (∀ l ∈ State.reset.lanes.fm ++ State.reset.lanes.am, l = Lane.free) ∧ (∀ e ∈ State.reset.dab.engines, e = Engine.free) ∧
  (∀ f ∈ State.reset.flows.flows, f = Flow.free) ∧ (∀ p ∈ State.reset.progs, p = Program.stopped) ∧
  (∀ i < 6, ∃ x, State.reset.inputs[i]? = some x ∧ x.receiving = false ∧ x.plan = BandPlan.default ∧ x.gcfg = GainCfg.default i) ∧
  (∀ p ∈ State.reset.ports.tdm, p.st = .disabled) ∧ State.reset.cap.economy = false ∧ State.reset.cap.capMw = 3500 ∧
  State.reset.cap.ceiling = 850 ∧ (∀ n ∈ State.reset.integ.counters, n = 0) ∧ State.reset.retained = Retained.wiped ∧
  State.reset.ghost.watch = .off ∧ State.reset.reset_.domain = .starting ∧ State.reset.reset_.cause = .cold

/-- For every variant: 96, 48 or 24 FM lanes by tier; half as many AM lanes in W parts and none in V parts; 16, 8 or 4 DAB
engines and programs; 512, 256 or 128 flows; inputs HB2 and HB3 are absent in tier 24 parts, LB0 and LB1 in V parts, and no
others. (00_scope.md, Table 0-1 and R4, 01_receiving_the_band_as_a_whole.md, Table 1-2) -/
def Obligations.UnitCountsOfTheVariant : Prop :=
  ∀ v : Variant,
    v.fmLanes = (match v.tier with | .t96 => 96 | .t48 => 48 | .t24 => 24) ∧
    v.amLanes = (if v.whole then v.fmLanes / 2 else 0) ∧
    v.engines = (match v.tier with | .t96 => 16 | .t48 => 8 | .t24 => 4) ∧ v.programs = v.engines ∧
    v.flows = (match v.tier with | .t96 => 512 | .t48 => 256 | .t24 => 128) ∧
    (∀ i, v.bonded i = true ↔ i < 2 ∨ ((i = 2 ∨ i = 3) ∧ v.tier ≠ .t24) ∨ ((i = 4 ∨ i = 5) ∧ v.whole = true))

/-- For every row of a host command of the opcode map, when the stage manager is free and the queue empty: the row answers a
next state with one reply with an empty payload and nothing else changed: LOCKED_LIFECYCLE where the life cycle bars the
opcode; else BAD_LENGTH where the LEN is not permitted; else NOT_IN_VARIANT where an identifier is not of the variant; else
WRONG_STATE where the main domain is off or in blackout and the opcode is not one of Table 17-6.
(14_commands_system_reception_services.md, Table 14-1, 17_supplies_resets_ghost_light_lifecycle.md (R489, Table 17-6)) -/
def Obligations.ExecutionChecksInTableOrder : Prop :=
  ∀ (i : Instr) (k : Cmd) (tag : Byte) (p : List Byte) (s : State), hostCommand i = some (k, tag, p) → HostTurn s p →
    (lockedLife s k.opc = true → exec i s = .next (replied s stLocked tag [])) ∧
    (lockedLife s k.opc = false → k.len p = false → exec i s = .next (replied s stBadLength tag [])) ∧
    (lockedLife s k.opc = false → k.len p = true → k.ids s p = false → exec i s = .next (replied s stNotInVariant tag [])) ∧
    (lockedLife s k.opc = false → k.len p = true → k.ids s p = true → domainRefuses s k.opc = true →
      exec i s = .next (replied s stWrongState tag []))

/-- For every row of a host command other than PATCH_COMMIT (whose failure the model also remembers, R394), executed at
once: where its status is neither OK nor PENDING, the next state is the same state with one reply of that status, the TAG of
the packet and no payload. (14_commands_system_reception_services.md, after Table 14-1 (R381)) -/
def Obligations.FailedCommandHasNoEffect : Prop :=
  ∀ (i : Instr) (k : Cmd) (tag : Byte) (p : List Byte) (s : State), hostCommand i = some (k, tag, p) → HostTurn s p → k.opc ≠ 0x06 →
    (serve k (hostCall tag p) s).status ≠ stOk → (serve k (hostCall tag p) s).status ≠ stPending →
    exec i s = .next (replied s (serve k (hostCall tag p) s).status tag [])

/-- For every row of a host command: when OPC is acknowledged, the packet is a whole one and the stage manager is not free,
the packet is put at the end of the command queue and nothing else changes; with four commands queued, the next state has
one reply QUEUE_FULL more and nothing else changes. (13_control_link.md, receipt checks (R359),
01_receiving_the_band_as_a_whole.md, stage manager (R35)) -/
def Obligations.BusyManagerQueuesHostCommand : Prop :=
  ∀ (i : Instr) (k : Cmd) (tag : Byte) (p : List Byte) (s : State), hostCommand i = some (k, tag, p) →
    acceptsOpc s = true → p.length ≤ 250 → managerFree s = false →
    (s.link.queue.length < 4 → exec i s = .next { s with link := { s.link with
      queue := s.link.queue ++ [{ opc := k.opc, tag := tag, param := p }] } }) ∧
    (4 ≤ s.link.queue.length → exec i s = .next (replied s stQueueFull tag []))

/-- An opcode that the opcode map does not define, executed at once, has the single effect of a reply UNKNOWN_OPCODE with an
empty payload. Opcodes 0xF0 to 0xFF outside FIELD are vendor tests, to which the manual gives no effect: with the main
domain off or in blackout they complete with WRONG_STATE, otherwise the model refuses them by name.
(14_commands_system_reception_services.md, Table 14-1, 15_commands_programs_ports_flows_clocks_power.md (R411),
17_supplies_resets_ghost_light_lifecycle.md, Table 17-10) -/
def Obligations.UndefinedOpcodeIsRefusedByName : Prop :=
  ∀ (opc tag : Byte) (p : List Byte) (s : State), opc ∉ opcodeMap → HostTurn s p →
    (¬(0xF0 ≤ opc.toNat ∧ s.chip.life ≠ .field) → exec (.undefinedOpcode opc tag p) s = .next (replied s stUnknown tag [])) ∧
    (0xF0 ≤ opc.toNat ∧ s.chip.life ≠ .field →
      (s.reset_.domain = .off ∨ s.reset_.domain = .blackout → exec (.undefinedOpcode opc tag p) s = .next (replied s stWrongState tag [])) ∧
      (s.reset_.domain ≠ .off ∧ s.reset_.domain ≠ .blackout → exec (.undefinedOpcode opc tag p) s = .refused .vendorTest))

/-- For every row of a host command of the opcode map, whatever its PARAM bytes and whatever comes of it: when the stage
manager is free, the command queue empty, OPC acknowledged and LEN at most 250, the row answers the state in which that
command has been run: checks, effects, audio effects, scene mark, and the reply or the wait.
(01_receiving_the_band_as_a_whole.md, stage manager (R35), 13_control_link.md (R360)) -/
def Obligations.HostRowRunsItsCommand : Prop :=
  ∀ (i : Instr) (k : Cmd) (tag : Byte) (p : List Byte) (s : State), hostCommand i = some (k, tag, p) → HostTurn s p →
    exec i s = .next (finishHost k.opc (hostCall tag p) (serve k (hostCall tag p) s) s)

/-- Executed at once, each of these six commands answers the same state with one reply OK that carries its report; the main
domain may be ready, off or in blackout. (14_commands_system_reception_services.md, Tables 14-2 to 14-4,
15_commands_programs_ports_flows_clocks_power.md, LIFECYCLE_READ, SUPPLY_STATUS, TEMPERATURE_READ,
17_supplies_resets_ghost_light_lifecycle.md, Table 17-6) -/
def Obligations.BackupReadsReportAndChangeNothing : Prop :=
  ∀ (tag : Byte) (s : State), HostTurn s [] →
    exec (.nop tag []) s = .next (replied s stOk tag []) ∧
    exec (.identify tag []) s = .next (replied s stOk tag (identifyBytes s)) ∧
    exec (.timeRead tag []) s = .next (replied s stOk tag (timeBytes s)) ∧
    exec (.supplyStatus tag []) s = .next (replied s stOk tag (supplyBytes s)) ∧
    exec (.lifecycleRead tag []) s = .next (replied s stOk tag (lifeBytes s.chip)) ∧
    exec (.temperatureRead tag []) s = .next (replied s stOk tag (temperatureBytes s))

/-- With the main domain ready, executed at once and naming a unit that the variant has, each of CUE_LIST, LANE_LIST,
LANE_STATUS, DAB_ENGINE_STATUS, SERVICE_LIST, SERVICE_INFO of a known station, PROGRAM_STATUS, PORT_STATUS, FLOW_STATS,
CAL_STATUS, CLOCK_STATUS, CAPACITY_STATUS and SPECTRUM_SNAPSHOT of a receiving input answers the same state with one reply
OK; DAB_ENGINE_STATUS of a subchannel 64 to 254 ends with NOT_IN_VARIANT. (14_commands_system_reception_services.md, Tables
14-6 to 14-8, 15_commands_programs_ports_flows_clocks_power.md, status commands) -/
def Obligations.MainDomainReadsReportAndChangeNothing : Prop :=
  ∀ (tag : Byte) (p : List Byte) (s : State), MainTurn s p →
    (p.length = 1 → exec (.cueList tag p) s = .next (replied s stOk tag (bodyCueList (hostCall tag p) s).payload)) ∧
    (p.length = 1 → exec (.laneList tag p) s = .next (replied s stOk tag (bodyLaneList (hostCall tag p) s).payload)) ∧
    (∀ l, p.length = 1 → laneAt s (p1 p 0) = some l →
      exec (.laneStatus tag p) s = .next (replied s stOk tag (laneStatusBytes s (p1 p 0) l))) ∧
    (∀ x, p.length = 2 → engineAt s (p1 p 0) = some x → p1 p 1 = 0xFF →
      exec (.dabEngineStatus tag p) s = .next (replied s stOk tag (engineStatusBytes s x))) ∧
    (∀ x, p.length = 2 → engineAt s (p1 p 0) = some x → p1 p 1 < 64 →
      exec (.dabEngineStatus tag p) s = .next (replied s stOk tag (subchBytes s (p1 p 0) x.model (p1 p 1)))) ∧
    (p.length = 2 → 64 ≤ p1 p 1 → p1 p 1 < 0xFF → exec (.dabEngineStatus tag p) s = .next (replied s stNotInVariant tag [])) ∧
    (p.length = 3 → exec (.serviceList tag p) s = .next (replied s stOk tag (bodyServiceList (hostCall tag p) s).payload)) ∧
    (∀ r, serviceInfoLen p = true → domainFm p = true →
      s.rds.stations.find? (fun x => x.valid && x.pi == BitVec.ofNat 16 (rd p 1 2)) = some r →
      exec (.serviceInfo tag p) s = .next (replied s stOk tag (stationBytes s r))) ∧
    (∀ e x k, serviceInfoLen p = true → domainFm p = false → resolve s (infoKey p) = some e → engineAt s e = some x →
      compOf s e (infoKey p) = some k → exec (.serviceInfo tag p) s = .next (replied s stOk tag (dabRecord e x.model k))) ∧
    (∀ x, p.length = 1 → progAt s (p1 p 0) = some x →
      exec (.programStatus tag p) s = .next (replied s stOk tag (programStatusBytes s (p1 p 0) x))) ∧
    (∀ x, p.length = 1 → p1 p 0 ≤ 2 → s.ports.tdm[p1 p 0]? = some x →
      exec (.portStatus tag p) s = .next (replied s stOk tag (portStatusBytes s (p1 p 0) x))) ∧
    (p.length = 1 → p1 p 0 ≤ 2 → s.ports.tdm[p1 p 0]? = none →
      exec (.portStatus tag p) s = .next (replied s stOk tag (spdifStatusBytes s.ports.spdif))) ∧
    (∀ f, p.length = 2 → flowAt s (rd p 0 2) = some f → exec (.flowStats tag p) s = .next (replied s stOk tag (flowStatsBytes f))) ∧
    (p.length = 1 → bonded s (p1 p 0) = true → exec (.calStatus tag p) s = .next (replied s stOk tag (calStatusBytes s (p1 p 0)))) ∧
    (p = [] → exec (.clockStatus tag p) s = .next (replied s stOk tag (clockStatusBytes s))) ∧
    (p = [] → exec (.capacityStatus tag p) s = .next (replied s stOk tag (capacityBytes s))) ∧
    (p.length = 5 → bonded s (p1 p 0) = true → (inputAt s (p1 p 0)).receiving = true →
      exec (.spectrumSnapshot tag p) s = .next (replied s stOk tag (bodySnapshot (hostCall tag p) s).payload))

/-- Executed at once: CAL_TABLE_READ of a table whose CRC is good (or that was never written), and INTEGRITY_COUNTERS of LEN
2, leave the state as it is; FAULT_LOG_READ (in every domain state) leaves it as it is but for the count of records that
fail their CRC; SELFTEST changes nothing but the model's draw counter, and its result bits are free values (log entry 17).
(15_commands_programs_ports_flows_clocks_power.md, diagnostics, 18_integrity_and_fault_precedence.md, fault log) -/
def Obligations.DiagnosticReadsAnswer : Prop :=
  ∀ (tag : Byte) (p : List Byte) (s : State),
    (MainTurn s p → p.length = 5 → bonded s (p1 p 0) = true →
      (let t := tableAt s (p1 p 0) (readPlan s (p1 p 0) (p1 p 1)); t.ok = true ∨ t.initialised = false) →
      exec (.calTableRead tag p) s = .next (replied s stOk tag (bodyCalTableRead (hostCall tag p) s).payload)) ∧
    (HostTurn s p → p.length = 2 →
      (∃ v, exec (.faultLogRead tag p) s = .next v ∧
          Answered v stOk tag (bodyFaultLogRead (hostCall tag p) s).payload (countBadRecords s))) ∧
    (MainTurn s p → p.length = 2 → exec (.integrityCounters tag p) s = .next (replied s stOk tag (bodyCounters (hostCall tag p) s).payload)) ∧
    (MainTurn s p → p.length ≤ 1 →
      ∃ pl, pl.length = 4 ∧ pl.headD 0 = byte ((if p.length = 0 then 0x0F else p1 p 0) % 16) ∧
        (∃ v, exec (.selftest tag p) s = .next v ∧
          Answered v stOk tag pl { s with draws := s.draws + 1 }))

/-- With the main domain ready and executed at once, INTEGRITY_COUNTERS clamps first to 31 and reduces count to the counters
from first onward; the reply carries first, count and those counters, and with clear 1 each returned counter is 0 afterwards
and every other counter is unchanged. (R437) -/
def Obligations.IntegrityCountersClearOnlyTheReturned : Prop :=
  ∀ (tag : Byte) (p : List Byte) (s : State) (first n : Nat), MainTurn s p → (p.length = 2 ∨ p.length = 3) → s.integ.counters.length = 32 →
    first = min 31 (p1 p 0) → n = min (32 - first) (clampNat 1 60 (p1 p 1)) →
    ∃ u, (∃ v, exec (.integrityCounters tag p) s = .next v ∧
          Answered v stOk tag ([byte first, byte n, 0, 0] ++ ((s.integ.counters.drop first).take n).flatMap (le 4)) u) ∧
      (∀ i < 32, u.integ.counters.getD i 0 = if p.length = 3 ∧ p1 p 2 = 1 ∧ first ≤ i ∧ i < first + n then 0 else s.integ.counters.getD i 0) ∧
      (¬(p.length = 3 ∧ p1 p 2 = 1) → u = s)

/-- Executed at once, in every domain state. EVENT_READ: the records in its reply are a front part of the unread list, at
most as many as asked, and leave the queue; the prompt schedule restarts at this instant; only the event registers change.
EVENT_MASK of LEN 6: mask, prompt enable and mirror GPIO take the written values and no record is lost; of LEN 0: nothing
changes. (14_commands_system_reception_services.md, EVENT_READ and EVENT_MASK (R391), 13_control_link.md, prompt (R371)) -/
def Obligations.EventCommandsReadAndMask : Prop :=
  ∀ (tag : Byte) (p : List Byte) (s : State), HostTurn s p →
    (p.length ≤ 1 → ∃ e taken rest, unreadList s.events = taken ++ rest ∧ unreadList e = rest ∧
      taken.length ≤ (if p.length = 0 then 31 else clampNat 1 31 (p1 p 0)) ∧ e.promptBase = s.now ∧
      e.mask = s.events.mask ∧ e.promptEnable = s.events.promptEnable ∧ e.mirrorGpio = s.events.mirrorGpio ∧
      (∃ v, exec (.eventRead tag p) s = .next v ∧
          Answered v stOk tag (le 2 rest.length ++ le 4 (summaryOf e) ++ taken.flatMap unreadBytes) { s with events := e })) ∧
    (p.length = 6 → ∃ e, e.mask = maskField p ∧ e.promptEnable = boolOf true (p1 p 4) ∧ e.mirrorGpio = mirrorField p ∧
      e.queue = s.events.queue ∧ e.overflow = s.events.overflow ∧
      (∃ v, exec (.eventMask tag p) s = .next v ∧
          Answered v stOk tag (eventMaskBytes e) { s with events := e })) ∧
    (p.length = 0 → exec (.eventMask tag p) s = .next (replied s stOk tag (eventMaskBytes s.events)))

/-- With the main domain ready, executed at once. STAGE_RESET with LEN 0 or 1 answers no reply: the domain is starting, of
cause command, with empty command queue, reply FIFO and cues, every lane and engine free and every program stopped, and the
scene is skipped where skip_scene is 1. PATCH_LOAD at a legal offset writes its bytes into the image and reports the image
length. PATCH_COMMIT of an image whose length, CRC-32 and signature pass commits it with its version; otherwise it ends with
WRONG_STATE. Both end with WRONG_STATE once reception has been started since the reset.
(14_commands_system_reception_services.md, STAGE_RESET, PATCH_LOAD, PATCH_COMMIT (R392 to R394),
17_supplies_resets_ghost_light_lifecycle.md (R476)) -/
def Obligations.StageResetAndPatchCommands : Prop :=
  ∀ (tag : Byte) (p : List Byte) (s : State), MainTurn s p →
    (p.length ≤ 1 → ∃ t, exec (.stageReset tag p) s = .next t ∧ t.reset_.domain = .starting ∧ t.reset_.cause = .command ∧
      t.reset_.skipScene = (p1 p 0 == 1 && p.length == 1) ∧ t.link.queue = [] ∧ t.link.fifo = [] ∧ t.cues = [] ∧
      t.lanes = Lanes.reset s.chip.variant ∧ t.dab = Dab.reset s.chip.variant ∧ (∀ x ∈ t.progs, x = Program.stopped)) ∧
    (5 ≤ p.length → p.length ≤ 248 → s.mgr.rxStartedSinceReset = false → offsetLegal s.mgr (rd p 0 4) = true →
      rd p 0 4 + (p.length - 4) ≤ 65536 →
      (∃ v, exec (.patchLoad tag p) s = .next v ∧
          Answered v stOk tag (le 4 (loadImage s.mgr.patch (p.drop 4) (rd p 0 4)).length) { s with mgr := { s.mgr with patch := loadImage s.mgr.patch (p.drop 4) (rd p 0 4), commitFailed := s.mgr.commitFailed && rd p 0 4 != 0 } })) ∧
    (∀ m, p.length = 8 → s.mgr.rxStartedSinceReset = false →
      m = (if patchPasses s.mgr.patch p then { s.mgr with committed := true, patchVersion := Config.patchVersion s.mgr.patch, commitFailed := false }
        else { s.mgr with commitFailed := true }) →
      (∃ v, exec (.patchCommit tag p) s = .next v ∧
          Answered v (if patchPasses s.mgr.patch p then stOk else stWrongState) tag (if patchPasses s.mgr.patch p then le 2 (Config.patchVersion s.mgr.patch).toNat ++ le 2 Config.romVersion.toNat else []) { s with mgr := m })) ∧
    (s.mgr.rxStartedSinceReset = true →
      (5 ≤ p.length → p.length ≤ 248 → exec (.patchLoad tag p) s = .next (replied s stWrongState tag [])) ∧
      (p.length = 8 → exec (.patchCommit tag p) s = .next (replied s stWrongState tag [])))

/-- With the main domain ready and executed at once, a CUE_SET that passes the checks of the carried packet stores one cue
under the asked identifier, or under the lowest one that is not pending for 0xFF, with its target and carried packet, marked
late where the target is not in the future, or an audio cue has less than 2 ms to it (R29); the reply reports identifier,
target, the DFC and whether the target was already past, and nothing else changes.
(14_commands_system_reception_services.md, CUE_SET (R395), 01_receiving_the_band_as_a_whole.md (R31)) -/
def Obligations.CueSetStoresTheCarriedCommand : Prop :=
  ∀ (tag : Byte) (p : List Byte) (s : State), MainTurn s p → 9 ≤ p.length → cueId (p1 p 0) = true → carriedCheck s p = stOk →
    ∃ c : Cue, c.id = (if p1 p 0 = 0xFF then (freeCue s).getD 0 else p1 p 0) ∧ c.target = BitVec.ofNat 32 (rd p 1 4) ∧
      c.packet.opc = (carried p).getD 0 0 ∧ c.packet.tag = (carried p).getD 1 0 ∧ c.packet.param = ((carried p).drop 3).take (p1 (carried p) 2) ∧
      c.late = (!inFuture s c.target || (isAudioCue c.packet && decide (ticksTo s c.target < 96))) ∧
      (∃ v, exec (.cueSet tag p) s = .next v ∧
          Answered v stOk tag (byte c.id :: le 4 c.target.toNat ++ le 4 s.time.dfc.toNat ++ [bflag (!inFuture s c.target)]) { s with cues := insertCue c s.cues })

/-- With the main domain ready and executed at once, CUE_CANCEL of an identifier leaves every other cue and removes that
one; of 0xFF it removes all. The reply reports how many cues went (0 for one that is not pending, with status OK). No event
record is raised and nothing else changes. (14_commands_system_reception_services.md, CUE_CANCEL (R396)) -/
def Obligations.CueCancelRemovesPendingCues : Prop :=
  ∀ (tag : Byte) (p : List Byte) (s : State), MainTurn s p → p.length = 1 → cueId (p1 p 0) = true →
    (∃ v, exec (.cueCancel tag p) s = .next v ∧
          Answered v stOk tag [byte (p1 p 0), byte (s.cues.length - (s.cues.filter fun q => p1 p 0 != 0xFF && q.id != p1 p 0).length)] { s with cues := s.cues.filter fun q => p1 p 0 != 0xFF && q.id != p1 p 0 })

/-- With the main domain ready and executed at once. BAND_PLAN of LEN 7 outside reception records the plan of the input and
restarts its receivers; FRONTEND_GAIN and ANTENNA_FEED of LEN 6 set the gain fields and the feed line; each query form (LEN
1) only reports. RX_START with locked synthesizers, an enabled input and the demand admitted starts reception, every enabled
input then receives or waits for the capacity, and the command completes when the capacity is met, or waits for it; while
receiving it only reports. RX_STOP with no program running ends reception and no input receives.
(14_commands_system_reception_services.md, Table 14-6, 02_rf_inputs_and_sampling.md (R43, R58), 04_channelizer_and_lanes.md
(R107 to R109)) -/
def Obligations.ReceptionCommandsTakeEffect : Prop :=
  ∀ (tag : Byte) (p : List Byte) (s : State), MainTurn s p →
    (p.length = 7 → bonded s (p1 p 0) = true → s.mgr.rxRunning = false →
      (∃ v, exec (.bandPlan tag p) s = .next v ∧
          Answered v stOk tag (bandReply (setBandPlan (p1 p 0) (parseBandPlan p) s) (p1 p 0)) (setBandPlan (p1 p 0) (parseBandPlan p) s)) ∧
      (s.inputs.length = 6 → p1 p 0 < 6 → (inputAt (setBandPlan (p1 p 0) (parseBandPlan p) s) (p1 p 0)).plan = parseBandPlan p)) ∧
    (p.length = 1 → bonded s (p1 p 0) = true → exec (.bandPlan tag p) s = .next (replied s stOk tag (bandReply s (p1 p 0)))) ∧
    (p.length = 6 → bonded s (p1 p 0) = true →
      (∃ v, exec (.frontendGain tag p) s = .next v ∧
          Answered v stOk tag (gainReply (setGainCfg (p1 p 0) (parseGain (p1 p 0) p) s) (p1 p 0)) (setGainCfg (p1 p 0) (parseGain (p1 p 0) p) s)) ∧
      (s.inputs.length = 6 → p1 p 0 < 6 → (inputAt (setGainCfg (p1 p 0) (parseGain (p1 p 0) p) s) (p1 p 0)).gcfg = parseGain (p1 p 0) p)) ∧
    (p.length = 1 → bonded s (p1 p 0) = true → exec (.frontendGain tag p) s = .next (replied s stOk tag (gainReply s (p1 p 0)))) ∧
    (p.length = 6 → feedIds s p = true → (∃ v, exec (.antennaFeed tag p) s = .next v ∧
          Answered v stOk tag (feedReply (setFeed (p1 p 0) (parseFeed p) s) (p1 p 0)) (setFeed (p1 p 0) (parseFeed p) s)) ∧
      (s.feeds.length = 4 → p1 p 0 < 4 → ∃ f, (setFeed (p1 p 0) (parseFeed p) s).feeds[p1 p 0]? = some f ∧ f.input = (parseFeed p).input ∧
        f.mode = (parseFeed p).mode ∧ f.retryMs = (parseFeed p).retryMs ∧ f.retryMax = (parseFeed p).retryMax ∧ f.latched = false ∧ f.retries = 0)) ∧
    (p.length = 1 → feedIds s p = true → exec (.antennaFeed tag p) s = .next (replied s stOk tag (feedReply s (p1 p 0)))) ∧
    (p = [] → s.mgr.rxRunning = false → synthsReady s = true → (List.range 6).any (inputEnabled s) = true →
      admits s (demand (startReception s) - demand s) = true →
      (startReception s).mgr.rxRunning = true ∧
      (s.inputs.length = 6 → ∀ i < 6, inputEnabled (startReception s) i = true →
        (inputAt (startReception s) i).receiving = true ∨ (inputAt (startReception s) i).waiting = true) ∧
      (capacityMet (startReception s) = true →
        (∃ v, exec (.rxStart tag p) s = .next v ∧
          Answered v stOk tag (startReply (startReception s)) (startReception s))) ∧
      (capacityMet (startReception s) = false → (∃ v, exec (.rxStart tag p) s = .next v ∧
          Waiting v { opc := 0x11, tag := tag, param := p } .reception (startReply (startReception s)) (startReception s)))) ∧
    (p = [] → s.mgr.rxRunning = true → exec (.rxStart tag p) s = .next (replied s stOk tag (startReply s))) ∧
    (p = [] → s.mgr.rxRunning = true → s.progs.any (·.running) = false →
      (stopReception s).mgr.rxRunning = false ∧ (∀ i < 6, (inputAt (stopReception s) i).receiving = false) ∧
      (∃ v, exec (.rxStop tag p) s = .next v ∧
          Answered v stOk tag [] (finishWait .reception (stopReception s))))

/-- With the main domain ready, executed at once, naming a free lane of the variant, an antenna set that is not empty after
R113 and a cost that the fabric admits: the lane stands in the wings with owner host, the clamped frequency, the effective
set, the pin and the default parameters. With start 1 (in the wings) the command completes; otherwise processing is ordered
and the command waits for it. The same for DAB_ENGINE_ASSIGN. (01_receiving_the_band_as_a_whole.md, Table 1-3 and R21,
04_channelizer_and_lanes.md (R113, R119), 07_dab_engines.md (R172, R173), 10_fabric_capacity_and_admission.md (R281, R282))
-/
def Obligations.LaneAssignmentTakesAFreeLane : Prop :=
  ∀ (tag : Byte) (p : List Byte) (s : State), MainTurn s p →
    (∀ l, p.length = 8 → p1 p 0 ≠ 0xFF → laneAt s (p1 p 0) = some l → l.st = .free → (askLane s (p1 p 0) p).mask ≠ 0 →
      admits s (laneRaise s (p1 p 0) (askLane s (p1 p 0) p).mask) = true →
      laneAt (putLane (p1 p 0) .host (askLane s (p1 p 0) p).freq (askLane s (p1 p 0) p).mask (askLane s (p1 p 0) p).pin
        (askLane s (p1 p 0) p).start none s) (p1 p 0) = some (assignedLane s (isAm (p1 p 0)) .host (askLane s (p1 p 0) p).freq (askLane s (p1 p 0) p).mask
        (askLane s (p1 p 0) p).pin (askLane s (p1 p 0) p).start none) ∧
      ((askLane s (p1 p 0) p).start = true → (∃ v, exec (.laneAssign tag p) s = .next v ∧
          Answered v stOk tag (laneReply (p1 p 0) (askLane s (p1 p 0) p) 1) (putLane (p1 p 0) .host (askLane s (p1 p 0) p).freq (askLane s (p1 p 0) p).mask (askLane s (p1 p 0) p).pin true none s))) ∧
      ((askLane s (p1 p 0) p).start = false → (∃ v, exec (.laneAssign tag p) s = .next v ∧
          Waiting v { opc := 0x19, tag := tag, param := p } (.lane (p1 p 0)) (laneReply (p1 p 0) (askLane s (p1 p 0) p) 2) (putLane (p1 p 0) .host (askLane s (p1 p 0) p).freq (askLane s (p1 p 0) p).mask (askLane s (p1 p 0) p).pin false none s)))) ∧
    (∀ x, p.length = 9 → p1 p 0 ≠ 0xFF → engineAt s (p1 p 0) = some x → x.st = .free → (askEngine s p).mask ≠ 0 →
      engineAdmits s (p1 p 0) x (askEngine s p).mask = true →
      (∀ b, ∃ y, engineAt (putEngine (p1 p 0) .host (askEngine s p).block (askEngine s p).freq (askEngine s p).mask (askEngine s p).pin b s) (p1 p 0) =
        some y ∧ y.st = .wings ∧ y.owner = .host ∧ y.block = (askEngine s p).block ∧ y.freq = (askEngine s p).freq ∧
        y.mask = (askEngine s p).mask ∧ y.pinned = (askEngine s p).pin ∧ y.starting = !b ∧ y.exact = s.dab.defaultExact) ∧
      ((askEngine s p).start = true → (∃ v, exec (.dabEngineAssign tag p) s = .next v ∧
          Answered v stOk tag (engineReply (p1 p 0) (askEngine s p) s.dab.defaultExact 1) (putEngine (p1 p 0) .host (askEngine s p).block (askEngine s p).freq (askEngine s p).mask (askEngine s p).pin true s))) ∧
      ((askEngine s p).start = false → (∃ v, exec (.dabEngineAssign tag p) s = .next v ∧
          Waiting v { opc := 0x28, tag := tag, param := p } (.engine (p1 p 0)) (engineReply (p1 p 0) (askEngine s p) s.dab.defaultExact 2) (putEngine (p1 p 0) .host (askEngine s p).block (askEngine s p).freq (askEngine s p).mask (askEngine s p).pin false s))))

/-- With the main domain ready, executed at once and naming a lane (engine) that is not the only source of a running
program: from the wings it becomes free, from running it drains with its frequency, inputs and owner as they are and no
assignment pending, a free one stays free, a draining one loses its pending assignment, no flow on a live one stays open, no
other lane (engine) changes, and the reply gives its state. Where it is the only source, the command ends with WRONG_STATE
and changes nothing. (01_receiving_the_band_as_a_whole.md, Table 1-3, 04_channelizer_and_lanes.md, LANE_RELEASE,
07_dab_engines.md (R173)) -/
def Obligations.ReleaseFreesOrDrains : Prop :=
  ∀ (tag : Byte) (p : List Byte) (s : State), MainTurn s p → p.length = 1 →
    (∀ l, laneAt s (p1 p 0) = some l → (liveState l.st && soleSource s (p1 p 0)) = false →
      ∃ t u, exec (.laneRelease tag p) s = .next t ∧
        Answered t stOk tag [byte (p1 p 0), byte (if l.st = .free ∨ l.st = .wings then 0 else 3)] u ∧
        (∀ k, k ≠ p1 p 0 → laneAt u k = laneAt s k) ∧
        (l.st = .free → laneAt u (p1 p 0) = some l) ∧ (l.st = .wings → laneAt u (p1 p 0) = some Lane.free) ∧
        (l.st = .running → ∃ m, laneAt u (p1 p 0) = some m ∧ m.st = .draining ∧ m.freq = l.freq ∧ m.mask = l.mask ∧ m.owner = l.owner ∧ m.pend = none) ∧
        (l.st = .draining → laneAt u (p1 p 0) = some { l with pend := none }) ∧
        (liveState l.st = true → ∀ f ∈ u.flows.flows, f.source = laneSource (p1 p 0) → f.st ≠ .opened)) ∧
    (∀ l, laneAt s (p1 p 0) = some l → (liveState l.st && soleSource s (p1 p 0)) = true →
      exec (.laneRelease tag p) s = .next (replied s stWrongState tag [])) ∧
    (∀ x, engineAt s (p1 p 0) = some x → (liveState x.st && soleEngine s (p1 p 0)) = false →
      ∃ t u, exec (.dabEngineRelease tag p) s = .next t ∧
        Answered t stOk tag [byte (p1 p 0), byte (if x.st = .free ∨ x.st = .wings then 0 else 3)] u ∧
        (∀ k, k ≠ p1 p 0 → engineAt u k = engineAt s k) ∧
        (x.st = .free → engineAt u (p1 p 0) = some x) ∧ (x.st = .wings → engineAt u (p1 p 0) = some Engine.free) ∧
        (x.st = .running → ∃ y, engineAt u (p1 p 0) = some y ∧ y.st = .draining ∧ y.freq = x.freq ∧ y.mask = x.mask ∧ y.owner = x.owner ∧ y.pend = none) ∧
        (x.st = .draining → engineAt u (p1 p 0) = some { x with pend := none, shares := sharesOf x.exact }) ∧
        (liveState x.st = true → ∀ f ∈ u.flows.flows, f.source / 256 = 0x10 + p1 p 0 → f.st ≠ .opened)) ∧
    (∀ x, engineAt s (p1 p 0) = some x → (liveState x.st && soleEngine s (p1 p 0)) = true →
      exec (.dabEngineRelease tag p) s = .next (replied s stWrongState tag []))

/-- With the main domain ready and executed at once. FM_PARAMS (AM_PARAMS) of a live lane keep the new parameters for the
lane's next 10 ms update; of 0xFF they set the defaults of later assignments. RDS_CONFIG sets the device's RDS
configuration. SOFTBIT_MODE of a live engine sets its mode where the shares suffice. DIVERSITY_SET of a live lane or engine
sets the effective set where the fabric admits it. SCAN_POLICY is held for the next fine-map update. In each case everything
else stays. (14_commands_system_reception_services.md, Tables 14-6 and 14-7, 05_fm_and_am_lanes.md (R132),
06_rds_and_alternative_frequencies.md (R155), 07_dab_engines.md (R191), 04_channelizer_and_lanes.md (R125)) -/
def Obligations.ReceiverParametersAreSet : Prop :=
  ∀ (tag : Byte) (p : List Byte) (s : State), MainTurn s p →
    (∀ l, p.length = 5 → p1 p 0 < 0x80 → laneAt s (p1 p 0) = some l → liveState l.st = true →
      (∃ v, exec (.fmParams tag p) s = .next v ∧
          Answered v stOk tag (fmBytes (p1 p 0) (parseFm p)) (setLane (p1 p 0) { l with fmNext := some (parseFm p) } s))) ∧
    (p.length = 5 → p1 p 0 = 0xFF → (∃ v, exec (.fmParams tag p) s = .next v ∧
          Answered v stOk tag (fmBytes 0xFF (parseFm p)) { s with lanes := { s.lanes with fmDefault := parseFm p } })) ∧
    (∀ l, p.length = 7 → 0x80 ≤ p1 p 0 → p1 p 0 ≠ 0xFF → laneAt s (p1 p 0) = some l → liveState l.st = true →
      (∃ v, exec (.amParams tag p) s = .next v ∧
          Answered v stOk tag (amBytes (p1 p 0) (parseAm p)) (setLane (p1 p 0) { l with amNext := some (parseAm p) } s))) ∧
    (p.length = 7 → p1 p 0 = 0xFF → (∃ v, exec (.amParams tag p) s = .next v ∧
          Answered v stOk tag (amBytes 0xFF (parseAm p)) { s with lanes := { s.lanes with amDefault := parseAm p } })) ∧
    (p.length = 10 → (∃ v, exec (.rdsConfig tag p) s = .next v ∧
          Answered v stOk tag (rdsBytes (parseRds s.chip.variant p)) { s with rds := { s.rds with cfg := parseRds s.chip.variant p }, lanes := { s.lanes with fm := s.lanes.fm.map (keepCfg s.rds.cfg) } })) ∧
    (∀ x, p.length = 2 → engineAt s (p1 p 0) = some x → liveState x.st = true → sharesOf (boolOf false (p1 p 1)) - x.shares ≤ sharesFree s →
      p1 p 0 ≠ 0xFF → ∃ pl, (∃ v, exec (.softbitMode tag p) s = .next v ∧
          Answered v stOk tag pl (updEngine (p1 p 0) (setSoftbit (boolOf false (p1 p 1))) s))) ∧
    (p.length = 2 → p1 p 0 = 0xFF → ∃ pl, (∃ v, exec (.softbitMode tag p) s = .next v ∧
          Answered v stOk tag pl { s with dab := { s.dab with defaultExact := boolOf false (p1 p 1) } })) ∧
    (∀ l m, p.length = 3 → diversityTarget p ≠ 1 → p1 p 1 < 0x80 → laneAt s (p1 p 1) = some l → liveState l.st = true →
      m = highMask s s.clocks.plan 1 l.freq (p1 p 2) → m ≠ 0 → m ≠ l.mask → admits s (laneRaise s (p1 p 1) m) = true →
      (∃ v, exec (.diversitySet tag p) s = .next v ∧
          Answered v stOk tag (diversityReply 0 (p1 p 1) m (laneCost false (antennas m))) (setLaneMask (p1 p 1) m (forgetShed false (p1 p 1) s)))) ∧
    (p.length = 10 → (∃ v, exec (.scanPolicy tag p) s = .next v ∧
          Answered v stOk tag (scanBytes (parseScan s.chip.variant p)) { s with scan := { s.scan with next := some (parseScan s.chip.variant p) } }))

/-- With the main domain ready, executed at once and naming a program of the variant: ANNOUNCEMENT_POLICY sets the
announcement policy of the program and its selection is made anew; ALERT_POLICY sets the device-wide policy and every
selection is made anew; LINK_POLICY records the link policy that applies from the next decision point (R267);
DELAY_STORE_CONFIG sets the class of the next reservation and changes nothing else. Their query forms only report.
(08_dab_services_and_audio_decoding.md (R223, R230), 09_linking_alignment_blending.md (R237, R255, R267)) -/
def Obligations.PolicyCommandsOfProgramsAndAlerts : Prop :=
  ∀ (tag : Byte) (p : List Byte) (s : State), MainTurn s p →
    (p.length = 9 → programExists s (p1 p 0) = true →
      (∃ pl, (∃ v, exec (.announcementPolicy tag p) s = .next v ∧
          Answered v stOk tag pl (reselect (p1 p 0) (updProgram (p1 p 0) (fun x => { x with ann := parseAnn p }) s)))) ∧
      (∃ y, progAt (reselect (p1 p 0) (updProgram (p1 p 0) (fun x => { x with ann := parseAnn p }) s)) (p1 p 0) = some y ∧ y.ann = parseAnn p)) ∧
    (p.length = 8 → (∃ pl, (∃ v, exec (.alertPolicy tag p) s = .next v ∧
          Answered v stOk tag pl (reselectAll { s with alerts := { s.alerts with policy := parseAlert s.chip.variant p } }))) ∧
      (reselectAll { s with alerts := { s.alerts with policy := parseAlert s.chip.variant p } }).alerts.policy = parseAlert s.chip.variant p) ∧
    (∀ x, p.length = 12 → progAt s (p1 p 0) = some x → (∃ v, exec (.linkPolicy tag p) s = .next v ∧
          Answered v stOk tag (linkBytes (p1 p 0) (parseLink p)) (updProgram (p1 p 0) (fun x => { x with policyNext := some (parseLink p) }) s))) ∧
    (∀ x, p.length = 2 → progAt s (p1 p 0) = some x →
      (∃ v, exec (.delayStoreConfig tag p) s = .next v ∧
          Answered v stOk tag (storeReply (p1 p 0) (enumOf [0, 1] 0 (p1 p 1)) x (pagesFree s)) (updProgram (p1 p 0) (fun x => { x with clsCfg := enumOf [0, 1] 0 (p1 p 1) }) s))) ∧
    (∀ x, p.length = 1 → progAt s (p1 p 0) = some x →
      exec (.announcementPolicy tag p) s = .next (replied s stOk tag (annReply (p1 p 0) s)) ∧
      exec (.linkPolicy tag p) s = .next (replied s stOk tag (linkBytes (p1 p 0) (x.policyNext.getD x.policy))) ∧
      exec (.delayStoreConfig tag p) s = .next (replied s stOk tag (storeReply (p1 p 0) x.clsCfg x (pagesFree s)))) ∧
    (p = [] → exec (.alertPolicy tag p) s = .next (replied s stOk tag (alertReply s)))

/-- With the main domain ready, executed at once on a program of the variant. Start of a DAB component: the group is formed
with the source as primary member, which is heard at once, or at the closed instant where a selection is on air. Stop of a
running program closes its curtain and ends the group at the closed instant, so at once where the curtain is closed already;
of a stopped one it only reports. Add of a source that is already a member only reports its slot; of a DAB component with a
free slot and the blend cost admitted, it takes the lowest free slot. Remove of a member other than the primary takes it
alone out, and a removed automatic member is excluded. (09_linking_alignment_blending.md (R233, R234),
15_commands_programs_ports_flows_clocks_power.md, PROGRAM_SET) -/
def Obligations.ProgramActionsFormAndChangeTheGroup : Prop :=
  ∀ (tag : Byte) (p : List Byte) (s : State) (x : Program), MainTurn s p → p.length = 11 → progAt s (p1 p 0) = some x →
    (x.running = true → x.curtain.pos = 0 → ∃ u y, (∃ v, exec (.programStop tag p) s = .next v ∧
          Answered v stOk tag (setReply (p1 p 0) 0 noSource 0xFF 0) u) ∧
      progAt u (p1 p 0) = some y ∧ y.running = false ∧ y.members = List.replicate 12 none) ∧
    (x.running = true → x.curtain.pos ≠ 0 → (∃ v, exec (.programStop tag p) s = .next v ∧
          Answered v stOk tag (setReply (p1 p 0) 0 noSource 0xFF (programState x)) (updProgram (p1 p 0) (fun y => { y with curtain := { x.curtain with after := x.curtain.after ++ [.stop], moving := some false, waitValid := false } }) s))) ∧
    (x.running = false → exec (.programStop tag p) s = .next (replied s stOk tag (setReply (p1 p 0) 0 noSource 0xFF 0))) ∧
    ((parseSource p).kind = 2 → ∃ pl u y m, (∃ v, exec (.programStart tag p) s = .next v ∧
          Answered v stOk tag pl u) ∧ progAt u (p1 p 0) = some y ∧ y.running = true ∧
      y.excluded = [] ∧ y.policy = x.policy ∧ memberAt y 0 = some m ∧ m.src = parseSource p ∧ m.origin = 0 ∧ (∀ j, j ≠ 0 → memberAt y j = none) ∧
      (∀ k, k ≠ p1 p 0 → ∀ q, progAt s k = some q → ∃ r, progAt u k = some r ∧ r.running = q.running ∧ r.members = q.members)) ∧
    (∀ i, x.running = true → (parseSource p).kind = 2 → slotOfSource x (parseSource p) = some i →
      exec (.programAddMember tag p) s = .next (replied s stOk tag (setReply (p1 p 0) 2 (parseSource p) i (programState x)))) ∧
    (∀ i, x.running = true → (parseSource p).kind = 2 → slotOfSource x (parseSource p) = none → blendAdmitted s x = true →
      (slotsOf x).length < x.policy.maxMembers → freeSlot x = some i → i < x.members.length →
      ∃ pl u y m, (∃ v, exec (.programAddMember tag p) s = .next v ∧
          Answered v stOk tag pl u) ∧ progAt u (p1 p 0) = some y ∧ y.running = true ∧
        memberAt y i = some m ∧ m.src = parseSource p ∧ m.origin = 1 ∧ (∀ j, j ≠ i → memberAt y j = memberAt x j)) ∧
    (∀ i m, (parseSource p).kind = 2 → slotOfSource x (parseSource p) = some (i + 1) → memberAt x (i + 1) = some m →
      ∃ pl u y, (∃ v, exec (.programRemoveMember tag p) s = .next v ∧
          Answered v stOk tag pl u) ∧ progAt u (p1 p 0) = some y ∧
        (∀ j, (memberAt y j).map (·.src) = if j = i + 1 then none else (memberAt x j).map (·.src)) ∧
        y.excluded = if m.origin = 2 then x.excluded ++ [parseSource p] else x.excluded)

/-- With the main domain ready, executed at once on a program of the variant: each action sets close and open times (clamped
as Table 11-9 gives); close and hold sets the hold and closes the curtain of a running program, release clears the hold and
opens it unless something waits for the closed instant or for the first valid sample, a stopped program takes the hold only,
and action 2 leaves hold and movement alone. (11_audio_ports.md (R313, R314)) -/
def Obligations.CurtainCommandsMoveTheCurtain : Prop :=
  ∀ (tag : Byte) (p : List Byte) (s : State) (x : Program) (k : Curtain), MainTurn s p → p.length = 6 → progAt s (p1 p 0) = some x →
    k = { x.curtain with downMs := curtainMs (rd p 2 2), upMs := curtainMs (rd p 4 2) } →
    (∃ v, exec (.curtainSetTimes tag p) s = .next v ∧
          Answered v stOk tag (curtainReply (p1 p 0) 2 k k.held) (updProgram (p1 p 0) (fun y => { y with curtain := k }) s)) ∧
    (∃ v, exec (.curtainCloseAndHold tag p) s = .next v ∧
          Answered v stOk tag (curtainReply (p1 p 0) 0 k true) (updProgram (p1 p 0) (fun y => { y with curtain := { k with held := true, moving := if x.running = false then k.moving else if k.pos = 0 then none else some false } }) s)) ∧
    (∃ v, exec (.curtainReleaseAndOpen tag p) s = .next v ∧
          Answered v stOk tag (curtainReply (p1 p 0) 1 k false) (updProgram (p1 p 0) (fun y => { y with curtain := { k with held := false, moving := if x.running = false ∨ k.waitValid = true ∨ k.after ≠ [] then k.moving else if k.pos = 1 then none else some true } }) s))

/-- With the main domain ready and executed at once. PORT_CONFIG enabling a disabled port in controller mode with ready
synthesizers starts it and waits for its lock; in target mode it ends with PENDING and the port starts; without enable it
records the fields. SLOT_MAP whose contents the port admits sets exactly the named slots (from the next frame on a locked
port). STATUS_SLOT_CONFIG sets one status slot. SPDIF_CONFIG sets the output. The query forms report. (11_audio_ports.md
(R296, R300, R307, R311, R316)) -/
def Obligations.PortCommandsConfigureOutputs : Prop :=
  ∀ (tag : Byte) (p : List Byte) (s : State), MainTurn s p →
    (∀ x, p.length = 10 → p1 p 0 ≤ 2 → s.ports.tdm[p1 p 0]? = some x → x.st = .disabled →
      (p1 p 0 = 1 ∧ (parsePort p).width ≠ 32 ∧ hasData x = true) = False → (parsePort p).enable = true → synthsReady s = true →
      ((parsePort p).target = false → (∃ v, exec (.portConfig tag p) s = .next v ∧
          Waiting v { opc := 0x50, tag := tag, param := p } (.port (p1 p 0)) (portReply (p1 p 0) (parsePort p)) (updPort (p1 p 0) (fun q => { q with pendTag := none }) (updPort (p1 p 0) (startPort (!pllAUp s.clocks) (parsePort p)) s)))) ∧
      ((parsePort p).target = true → (∃ v, exec (.portConfig tag p) s = .next v ∧
          Answered v stPending tag (portReply (p1 p 0) (parsePort p)) (updPort (p1 p 0) (fun q => { q with pendTag := some tag }) (updPort (p1 p 0) (startPort (!pllAUp s.clocks) (parsePort p)) s))))) ∧
    (∀ x, p.length = 10 → p1 p 0 ≤ 2 → s.ports.tdm[p1 p 0]? = some x → x.st = .disabled → (parsePort p).enable = false →
      (p1 p 0 = 1 ∧ (parsePort p).width ≠ 32 ∧ hasData x = true) = False →
      (∃ v, exec (.portConfig tag p) s = .next v ∧
          Answered v stOk tag (portReply (p1 p 0) (parsePort p)) (updPort (p1 p 0) (fun q => { q with cfg := parsePort p }) s))) ∧
    (∀ x, p.length = 1 → p1 p 0 ≤ 2 → s.ports.tdm[p1 p 0]? = some x →
      exec (.portConfig tag p) s = .next (replied s stOk tag (portReply (p1 p 0) (x.next.getD x.cfg)))) ∧
    (∀ x, slotLen p = true → cmdSlotMap.ids s p = true → s.ports.tdm[p1 p 0]? = some x →
      (((slotEntries p).any fun y => y.content == 0x30) && (p1 p 0 = 0 || (x.next.getD x.cfg).width != 32)) = false →
      (∃ v, exec (.slotMap tag p) s = .next v ∧
          Answered v stOk tag (slotBytes (p1 p 0) (slotFirst p) (slotEntries p)) (updPort (p1 p 0) (putSlots (slotFirst p) (slotEntries p)) s))) ∧
    (p.length = 11 → p1 p 0 ≤ 3 → statusProgramsOk s p = true →
      (∃ v, exec (.statusSlotConfig tag p) s = .next v ∧
          Answered v stOk tag (statusSlotBytes (p1 p 0) (parseStatusSlot p)) { s with ports := { s.ports with status := s.ports.status.set (p1 p 0) (parseStatusSlot p) } })) ∧
    (p.length = 1 → p1 p 0 ≤ 3 → exec (.statusSlotConfig tag p) s =
      .next (replied s stOk tag (statusSlotBytes (p1 p 0) (s.ports.status.getD (p1 p 0) StatusSlot.default)))) ∧
    (p.length = 6 → p1 p 1 < s.progs.length →
      (∃ v, exec (.spdifConfig tag p) s = .next v ∧
          Answered v stOk tag (spdifBytes (parseSpdif p) ++ [byte (spdifState (spdifSet (!pllAUp s.clocks) (parseSpdif p) s.ports.spdif))]) { s with ports := { s.ports with spdif := spdifSet (!pllAUp s.clocks) (parseSpdif p) s.ports.spdif } }))

/-- With the main domain ready, executed at once on a flow of the variant: FLOW_OPEN whose class comes to urgent for another
kind, and FLOW_SHAPE of an open or closing flow of another kind with class urgent, answer the same state with one reply
WRONG_STATE; kinds 0x20 and 0x21 are opened with any class, on a free flow and their own source. (R326) -/
def Obligations.UrgentClassIsForUrgentKindsOnly : Prop :=
  ∀ (tag : Byte) (p : List Byte) (s : State) (f : Flow), MainTurn s p → flowAt s (rd p 0 2) = some f →
    ((p.length = 8 ∨ p.length = 16) → sourceExists s (rd p 3 2) = true →
      ((openedFlow p).cls = 0 → (openedFlow p).kind ≠ 0x20 → (openedFlow p).kind ≠ 0x21 →
        exec (.flowOpen tag p) s = .next (replied s stWrongState tag [])) ∧
      (f.st = .free → ((openedFlow p).kind = 0x20 ∨ (openedFlow p).kind = 0x21) → kindMatches (openedFlow p).kind (openedFlow p).source = true →
        (∃ v, exec (.flowOpen tag p) s = .next v ∧
          Answered v stOk tag (flowOpenBytes (rd p 0 2) (openedFlow p)) (updFlow (rd p 0 2) (fun _ => openedFlow p) s)))) ∧
    (p.length = 11 → f.st ≠ .free → classField (p1 p 2) = 0 → f.kind ≠ 0x20 → f.kind ≠ 0x21 →
      exec (.flowShape tag p) s = .next (replied s stWrongState tag [])) ∧
    (p.length = 11 → f.st ≠ .free → (f.kind = 0x20 ∨ f.kind = 0x21) → ∃ pl u h, (∃ v, exec (.flowShape tag p) s = .next v ∧
          Answered v stOk tag pl u) ∧ flowAt u (rd p 0 2) = some h ∧
      h.shapeNext = some (rateQps (rd p 3 4), burstField (rd p 7 2)) ∧ h.limit = limitField (rd p 9 2) ∧ h.kind = f.kind ∧
      h.clsNext = (if classField (p1 p 2) = 0xFF then f.clsNext else some (classField (p1 p 2))))

/-- With the main domain ready, executed at once on a flow (class) of the variant. FLOW_OPEN of a free flow with a defined
kind, a matching live source and a class it may take opens it with the parameters asked, or those of Table 12-1 for LEN 8.
FLOW_CLOSE of an open flow makes it closing with a closure packet behind what is drained; of a free flow it returns
WRONG_STATE. FLOW_SHAPE sets the limit at once and, as CLASS_SHAPE does, gives rate and burst to the next tick of the DFC
(R337). EGRESS_CONFIG chooses the path. MAILBOX_READ returns the words of the mailbox path, or none on the port path; their
fragments are sent when the reply enters the FIFO (R345). (12_data_flows_and_egress.md (R325, R330, R336, R337, R341, R345),
15_commands_programs_ports_flows_clocks_power.md (R418)) -/
def Obligations.FlowCommandsOpenCloseAndShape : Prop :=
  ∀ (tag : Byte) (p : List Byte) (s : State), MainTurn s p →
    (∀ f, (p.length = 8 ∨ p.length = 16) → flowAt s (rd p 0 2) = some f → sourceExists s (rd p 3 2) = true → f.st = .free →
      flowKinds.contains (openedFlow p).kind = true → kindMatches (openedFlow p).kind (openedFlow p).source = true →
      sourceLive s (openedFlow p).source = true → ((openedFlow p).cls ≠ 0 ∨ urgentKind (openedFlow p).kind = true) →
      (openedFlow p).st = .opened ∧
      (∃ v, exec (.flowOpen tag p) s = .next v ∧
          Answered v stOk tag (flowOpenBytes (rd p 0 2) (openedFlow p)) (updFlow (rd p 0 2) (fun _ => openedFlow p) s))) ∧
    (∀ f, (p.length = 2 ∨ p.length = 3) → flowAt s (rd p 0 2) = some f → f.st = .opened →
      ∃ pl, (∃ v, exec (.flowClose tag p) s = .next v ∧
          Answered v stOk tag pl (updFlow (rd p 0 2) (fun _ => closeFlow s.time.dfc 0 (boolOf false (p1 p 2)) f) s))) ∧
    (∀ f, (p.length = 2 ∨ p.length = 3) → flowAt s (rd p 0 2) = some f → f.st = .free →
      exec (.flowClose tag p) s = .next (replied s stWrongState tag [])) ∧
    (∀ f, p.length = 11 → flowAt s (rd p 0 2) = some f → f.st ≠ .free → classField (p1 p 2) ≠ 0 →
      ∃ pl u h, (∃ v, exec (.flowShape tag p) s = .next v ∧
          Answered v stOk tag pl u) ∧ u = { s with flows := u.flows } ∧ flowAt u (rd p 0 2) = some h ∧
        h.shapeNext = some (rateQps (rd p 3 4), burstField (rd p 7 2)) ∧ h.limit = limitField (rd p 9 2) ∧ h.rate = f.rate ∧ h.tokens = f.tokens ∧
        h.clsNext = (if classField (p1 p 2) = 0xFF then f.clsNext else some (classField (p1 p 2))) ∧
        (∀ k q, k ≠ rd p 0 2 → flowAt s k = some q → q.held = [] → flowAt u k = some q)) ∧
    (∀ b c, p.length = 7 → s.flows.classes[p1 p 0]? = some b → c = { b with shapeNext := some (rateQps (rd p 1 4), burstField (rd p 5 2)) } →
      (∃ v, exec (.classShape tag p) s = .next v ∧
          Answered v stOk tag (classReply (p1 p 0) c) { s with flows := { s.flows with classes := s.flows.classes.set (p1 p 0) c } })) ∧
    (p.length = 1 → (∃ pl, (∃ v, exec (.egressConfig tag p) s = .next v ∧
          Answered v stOk tag pl { s with flows := changePath (boolOf false (p1 p 0)) s.flows })) ∧
      (changePath (boolOf false (p1 p 0)) s.flows).mailbox = boolOf false (p1 p 0)) ∧
    (p.length ≤ 1 → s.flows.mailbox = false → exec (.mailboxRead tag p) s = .next (replied s stOk tag [])) ∧
    (p.length ≤ 1 → s.flows.mailbox = true → (∃ v, exec (.mailboxRead tag p) s = .next v ∧
          Answered v stOk tag (((fillWords (mailboxWords p) s.flows).1.flatMap (·.words)).flatMap (le 4)) { s with flows := if s.link.fifo.length < 4 then confirmAll (fillWords (mailboxWords p) s.flows).1 (fillWords (mailboxWords p) s.flows).2
        else { (fillWords (mailboxWords p) s.flows).2 with
          inFlight := (fillWords (mailboxWords p) s.flows).2.inFlight ++ (fillWords (mailboxWords p) s.flows).1 } }))

/-- With the main domain ready and executed at once on a flow of the variant: FLOW_OPEN of LEN 8 opens the flow with rate,
burst and queue limit of Table 12-1 for its kind; FLOW_CLOSE on a free flow answers WRONG_STATE and changes nothing;
FLOW_STATS on a free flow answers OK with state 0 and every other item 0. (R418) -/
def Obligations.FreeFlowIsWrongStateToCloseAndReadsZero : Prop :=
  ∀ (tag : Byte) (p : List Byte) (s : State) (f : Flow), MainTurn s p → flowAt s (rd p 0 2) = some f →
    (p.length = 8 → sourceExists s (rd p 3 2) = true → f.st = .free → flowKinds.contains (openedFlow p).kind = true →
      kindMatches (openedFlow p).kind (openedFlow p).source = true → sourceLive s (openedFlow p).source = true →
      ((openedFlow p).cls ≠ 0 ∨ urgentKind (openedFlow p).kind = true) →
      ∃ g pl, g.rate = kindRate (p1 p 2) ∧ g.burst = kindBurst (p1 p 2) ∧ g.limit = 32 ∧ g.kind = p1 p 2 ∧ g.st = .opened ∧
        (∃ v, exec (.flowOpen tag p) s = .next v ∧
          Answered v stOk tag pl (updFlow (rd p 0 2) (fun _ => g) s))) ∧
    ((p.length = 2 ∨ p.length = 3) → f.st = .free → exec (.flowClose tag p) s = .next (replied s stWrongState tag [])) ∧
    (p.length = 2 → f = Flow.free → exec (.flowStats tag p) s = .next (replied s stOk tag (flowStatsBytes Flow.free)) ∧
      ∀ b ∈ flowStatsBytes Flow.free, b = 0)

/-- With the main domain ready and executed at once. CAL_RUN whose named inputs are all receiving and not frozen triggers a
run on each and answers OK with the mask of those inputs; with any named input frozen or not receiving, or none named, it
answers WRONG_STATE and no run is made due. CAL_POLICY of LEN 6 sets the policy, freezing and thawing inputs; of LEN 0 it
reports. (03_live_calibration.md (R91, R92, R93)) -/
def Obligations.CalibrationCommandsTriggerRuns : Prop :=
  ∀ (tag : Byte) (p : List Byte) (s : State), MainTurn s p →
    (p.length = 1 → (namedInputs s p).isEmpty = false → (∀ i ∈ namedInputs s p, calFrozen s i = false ∧ calReceiving s i = true) →
      (∃ v, exec (.calRun tag p) s = .next v ∧
          Answered v stOk tag [byte (maskOf (namedInputs s p))] (forEach (namedInputs s p) (fun i u => calTrigger i true u) s)) ∧
      (∀ i ∈ namedInputs s p, i < s.cal.inputs.length → (calAt (forEach (namedInputs s p) (fun i u => calTrigger i true u) s) i).run ≠ .idle)) ∧
    (p.length = 1 → (∃ i ∈ namedInputs s p, calFrozen s i = true ∨ calReceiving s i = false) →
      exec (.calRun tag p) s = .next (replied s stWrongState tag [])) ∧
    (p.length = 6 → (∃ v, exec (.calPolicy tag p) s = .next v ∧
          Answered v stOk tag (calPolicyReply (setCalPolicy (parseCal s.chip.variant p) s)) (setCalPolicy (parseCal s.chip.variant p) s)) ∧ (setCalPolicy (parseCal s.chip.variant p) s).cal.policy = parseCal s.chip.variant p) ∧
    (p.length = 0 → exec (.calPolicy tag p) s = .next (replied s stOk tag (calPolicyReply s)))

/-- With the main domain ready and executed at once. REF_CONFIG naming the configuration in force only reports; a change
with nothing running relocks the synthesizers and waits for both locks where a reference is there. SAMPLE_PLAN outside
reception records the plan; in reception with PLL-S locked it makes the hop. CLOCK_OUT sets its output. SYNC_ARM arms or
disarms, and returns WRONG_STATE to arm without PLL-A locked. FREQ_TRIM sets the target: within 200 units of the present
trim it takes effect at once, otherwise it ends with PENDING. (16_clocks_and_synthesis.md (R456, R458),
15_commands_programs_ports_flows_clocks_power.md (R424, R426, R427)) -/
def Obligations.ClockCommandsConfigureTheSynthesizers : Prop :=
  ∀ (tag : Byte) (p : List Byte) (s : State), MainTurn s p →
    (p.length = 8 → sameRef s.clocks (parseRef p) = true → exec (.refConfig tag p) s = .next (replied s stOk tag (refReply s.clocks))) ∧
    (∀ u, p.length = 8 → sameRef s.clocks (parseRef p) = false → clocksIdle s = true →
      u = faultEnds 0x50 0 6 (faultEnds 0x41 0 6 (faultEnds 0x40 0 6 (changeRef (parseRef p) s))) →
      sameRef u.clocks (parseRef p) = true ∧ u.clocks.pllS = .locking ∧ u.clocks.pllA = .locking ∧
      (refUp u.clocks = true → (∃ v, exec (.refConfig tag p) s = .next v ∧
          Waiting v { opc := 0x80, tag := tag, param := p } .relock (refReply u.clocks) u)) ∧
      (refUp u.clocks = false → (∃ v, exec (.refConfig tag p) s = .next v ∧
          Answered v stOk tag (refReply u.clocks) u))) ∧
    (p.length = 1 → planIds s p = true → (p1 p 0 = s.clocks.plan ∨ s.clocks.pllS ≠ .locking ∧ s.clocks.pllS ≠ .coasting ∧ s.mgr.rxRunning = false) →
      (∃ v, exec (.samplePlan tag p) s = .next v ∧
          Answered v stOk tag (planReply (recordPlan (p1 p 0) s).clocks) (recordPlan (p1 p 0) s)) ∧
      (recordPlan (p1 p 0) s).clocks.recorded = p1 p 0) ∧
    (p.length = 1 → planIds s p = true → p1 p 0 ≠ s.clocks.plan → s.clocks.pllS ≠ .locking → s.clocks.pllS ≠ .coasting → s.mgr.rxRunning = true →
      (∃ v, exec (.samplePlan tag p) s = .next v ∧
          Answered v stOk tag (planReply (hop (p1 p 0) s).clocks) (hop (p1 p 0) s)) ∧
      (hop (p1 p 0) s).clocks.plan = p1 p 0 ∧ (hop (p1 p 0) s).clocks.recorded = p1 p 0 ∧ (hop (p1 p 0) s).clocks.hops = satAdd 65535 s.clocks.hops 1) ∧
    (p.length = 6 → p1 p 0 ≤ 3 → (∃ v, exec (.clockOut tag p) s = .next v ∧
          Answered v stOk tag (clockOutReply s.clocks (p1 p 0) (parseClockOut s.clocks p)) (setClocks gateOutputs (updOut (p1 p 0) (fun _ => parseClockOut s.clocks p) s))) ∧
      (s.clocks.outs.length = 4 → ∃ g, (setClocks gateOutputs (updOut (p1 p 0) (fun _ => parseClockOut s.clocks p) s)).clocks.outs[p1 p 0]? =
        some { parseClockOut s.clocks p with gated := g })) ∧
    (p.length = 1 → s.clocks.pllA ≠ .locked → boolOf false (p1 p 0) = true → exec (.syncArm tag p) s = .next (replied s stWrongState tag [])) ∧
    (∀ t, p.length = 5 → t = (if boolOf false (p1 p 4) then s.clocks.target + clampInt (-20000) 20000 (rdS p 0 4) else clampInt (-20000) 20000 (rdS p 0 4)) →
      -20000 ≤ t → t ≤ 20000 →
      (∀ x, x = (if s.clocks.pllS = .locked then t else s.clocks.trim) → (t - s.clocks.trim).natAbs ≤ 200 →
        ∃ pl, (∃ v, exec (.freqTrim tag p) s = .next v ∧
          Answered v stOk tag pl (trimmedIf (decide (x ≠ s.clocks.trim)) (setClocks (fun k => { k with target := t, trim := x, trimTag := none, stepAt := s.now }) s)))) ∧
      (200 < (t - s.clocks.trim).natAbs → ∃ pl, (∃ v, exec (.freqTrim tag p) s = .next v ∧
          Answered v stPending tag pl (setClocks (fun k => { k with target := t, trimTag := some tag }) s))))

/-- With the main domain ready and executed at once, SYNC_ARM of LEN 1 that is not refused leaves DFC, epoch, edge count and
source of the timeline as they were; LEN 0 only reports. (15_commands_programs_ports_flows_clocks_power.md (R426)) -/
def Obligations.SyncArmTouchesArmingOnly : Prop :=
  ∀ (tag : Byte) (p : List Byte) (s : State), MainTurn s p →
    (p.length = 1 → (boolOf false (p1 p 0) = false ∨ s.clocks.pllA = .locked) → ∃ t, t.armed = boolOf false (p1 p 0) ∧ t.dfc = s.time.dfc ∧
      t.epoch = s.time.epoch ∧ t.edges = s.time.edges ∧ t.source = s.time.source ∧
      (∃ v, exec (.syncArm tag p) s = .next v ∧
          Answered v stOk tag (syncReply t) { s with time := t })) ∧
    (p.length = 0 → exec (.syncArm tag p) s = .next (replied s stOk tag (syncReply s.time)))

/-- Executed at once. POWER_POLICY is held for the next 1 ms measurement. GHOST_LIGHT_CONFIG action 0 takes the
configuration; action 1 with a watch configured gates a ready main domain after its reply, and the watch starts; action 2 in
ghost light with the supply good starts the main domain and places no reply. LIFECYCLE_ADVANCE naming the next state with
the confirmation, outside ghost light and without a sag, moves the life cycle, wipes both domains and places no reply.
RETAINED_WIPE with the confirmation wipes the retained bank. (10_fabric_capacity_and_admission.md (R276),
17_supplies_resets_ghost_light_lifecycle.md (R486, R487, R496 to R499), 18_integrity_and_fault_precedence.md (R500),
15_commands_programs_ports_flows_clocks_power.md, POWER_POLICY to RETAINED_WIPE (R431, R432)) -/
def Obligations.PowerLifeAndRetentionCommands : Prop :=
  ∀ (tag : Byte) (p : List Byte) (s : State),
    (MainTurn s p → p.length = 6 → ∃ pl, (∃ v, exec (.powerPolicy tag p) s = .next v ∧
          Answered v stOk tag pl (setCap (fun k => { k with next := some (parsePower p) }) s))) ∧
    (HostTurn s p → p.length = 10 →
      (∃ v, exec (.ghostLightConfig tag p) s = .next v ∧
          Answered v stOk tag (ghostReply (setGhost (parseGhost (setByte p 9 0)) s) 0) (setGhost (parseGhost (setByte p 9 0)) s)) ∧
      (setGhost (parseGhost (setByte p 9 0)) s).ghost.cfg = parseGhost (setByte p 9 0)) ∧
    (MainTurn s p → p.length = 10 → watchSet (parseGhost p) = true → (setGhost (parseGhost p) s).reset_.domain = .ready →
      ∃ t, exec (.ghostLightEnter tag p) s = .next t ∧ t.reset_.domain = .off ∧ t.reset_.offCause = .command ∧
        t.ghost.watch = .acquiring ∧ t.ghost.cfg = parseGhost p ∧ t.clocks.pllN = .locking) ∧
    (HostTurn s p → p.length = 10 → s.ghost.watch ≠ .off → cannotLeave s = false →
      ∃ t, exec (.ghostLightLeave tag p) s = .next t ∧ t = startMain .mainReturn false (setGhost (parseGhost (setByte p 9 2)) s) ∧
        t.reset_.domain = .starting ∧ t.reset_.cause = .mainReturn ∧ t.link.queue = [] ∧ t.link.fifo = []) ∧
    (∀ next, MainTurn s p → p.length = 3 → nextLife s.chip.life = some next → p1 p 0 = lifeCode next → rd p 1 2 = 0x5A3C →
      s.ghost.watch = .off → s.supply.sag = false →
      ∃ t, exec (.lifecycleAdvance tag p) s = .next t ∧ t.chip.life = next ∧ t.chip.variant = s.chip.variant ∧ t.chip.oemWritten = false ∧
        t.retained = Retained.wiped ∧ t.link.queue = [] ∧ t.link.fifo = [] ∧ t.link.address = s.link.address ∧
        t.lanes = Lanes.reset s.chip.variant) ∧
    (MainTurn s p → p.length = 2 → rd p 0 2 = 0x5A3C → s.supply.sag = false →
      (wipeRetained s).retained = Retained.wiped ∧ (∃ v, exec (.retainedWipe tag p) s = .next v ∧
          Answered v stOk tag (le 2 252) (wipeRetained s)))

/-- With the interface powered and acknowledging. COMMAND_RECEIPT of a packet with a good CRC and an acknowledged OPC, with
fewer than four queued, puts the packet at the end of the command queue and changes nothing else; with a bad CRC it places
one BAD_CRC and counts index 23; of fewer bytes it counts index 24 and changes nothing else. REPLY_READ delivering the whole
head reply removes it; fewer bytes leave the FIFO as it was. BROKEN_TRANSFER in a write counts index 24, in a read removes a
reply delivered whole, after a whole packet changes nothing. REPLY_FIFO_ENTRY moves the waiting reply to a free entry, and
the fragments it carries count as sent (R345). (13_control_link.md (R357, R358, R359, R360, R362, R363, R367, Table 13-2))
-/
def Obligations.LinkTransfersMoveWholePackets : Prop :=
  ∀ s : State, s.supply.backupOn = true →
    (∀ bytes, s.link.ignoring = false → acceptsOpc s = true → 4 ≤ bytes.length → p1 bytes 2 ≤ 250 → p1 bytes 2 + 4 ≤ bytes.length →
      (crc8 (bytes.take (p1 bytes 2 + 4)) = 0 → s.link.queue.length < 4 → exec (.commandReceipt bytes) s = .next { s with link := { s.link with
        queue := s.link.queue ++ [{ opc := bytes.getD 0 0, tag := bytes.getD 1 0, param := (bytes.drop 3).take (p1 bytes 2) }] } }) ∧
      (crc8 (bytes.take (p1 bytes 2 + 4)) ≠ 0 → ∃ t, exec (.commandReceipt bytes) s = .next t ∧ Reports (replied s stBadCrc (bytes.getD 1 0) []) t)) ∧
    (∀ bytes, s.link.ignoring = false → acceptsOpc s = true → bytes ≠ [] → (bytes.length < 3 ∨ bytes.length < p1 bytes 2 + 4) →
      ∃ t, exec (.commandReceipt bytes) s = .next t ∧ t = count 24 1 0 s ∧ t.link = s.link) ∧
    (∀ r rs n, s.link.ignoring = false → s.link.fifo = r :: rs →
      (r.payload.length + 4 ≤ n → exec (.replyRead n) s = .next { s with link := { s.link with fifo := rs } }) ∧
      (n < r.payload.length + 4 → exec (.replyRead n) s = .next s)) ∧
    (∀ n, s.link.ignoring = false → s.link.fifo = [] → exec (.replyRead n) s = .next s) ∧
    (∀ n, s.link.ignoring = false → acceptsOpc s = true → 0 < n → exec (.brokenTransfer (.startDuring (.write n))) s = .next (count 24 1 0 s) ∧
      exec (.brokenTransfer (.stopDuring (.write n))) s = .next (count 24 1 0 s)) ∧
    (∀ r rs n, s.link.ignoring = false → s.link.fifo = r :: rs → r.payload.length + 4 ≤ n →
      exec (.brokenTransfer (.stopDuring (.read n))) s = .next { s with link := { s.link with fifo := rs } } ∧
      exec (.brokenTransfer (.startDuring (.read n))) s = .next { s with link := { s.link with fifo := rs } } ∧
      exec (.brokenTransfer (.readNotAcked n)) s = .next { s with link := { s.link with fifo := rs } }) ∧
    (exec (.brokenTransfer .afterWholePacket) s = .next s ∧ exec (.brokenTransfer .sclHeldLow) s = .next s) ∧
    (∀ r, s.link.waiting = some r → s.link.fifo.length < 4 →
      exec .replyFifoEntry s = .next { s with link := { s.link with fifo := s.link.fifo ++ [r], waiting := none },
                                              flows := confirmAll s.flows.inFlight { s.flows with inFlight := [] } }) ∧
    (s.link.waiting = none → exec .replyFifoEntry s = .next s)

/-- With the interface powered. T_SLIM_EXPIRY and SDA_HOLD_EXPIRY leave the interface ignoring the bus, with queue and FIFO
as they were, and fault 0xA0 or 0xA1 open; nothing else changes but records and counters. GENERAL_CALL leaves it ignoring
and changes nothing else. While it ignores, a transfer moves no packet and only its STOP makes it listen again.
PROMPT_DUE_TIMER 20 ms after the last prompt, with the prompt enabled and an unread record that may prompt, makes a prompt
due; PROMPT makes it or abandons it, and restarts the schedule. (13_control_link.md (R352, R366, R369, R370, R371, R372,
R377), 18_integrity_and_fault_precedence.md, Table 18-5) -/
def Obligations.BusTimeoutsWaitForAStopAndPromptsAreMade : Prop :=
  ∀ s : State, s.supply.backupOn = true →
    (∀ w, ∃ t, exec (.tSlimExpiry w) s = .next t ∧ Reports { s with link := { s.link with ignoring := true } } t ∧ faultOpen t 0xA0 0 = true) ∧
    (∀ w, ∃ t, exec (.sdaHoldExpiry w) s = .next t ∧ Reports { s with link := { s.link with ignoring := true } } t ∧ faultOpen t 0xA1 0 = true) ∧
    (∀ b, exec (.generalCall b) s = .next { s with link := { s.link with ignoring := true } }) ∧
    (s.link.ignoring = true →
      (∀ bytes, ∃ t, exec (.commandReceipt bytes) s = .next t ∧ Handles { s with link := { s.link with ignoring := false } } t) ∧
      (∀ n, ∃ t, exec (.replyRead n) s = .next t ∧ Handles { s with link := { s.link with ignoring := false } } t) ∧
      (∀ d, exec (.brokenTransfer (.startDuring d)) s = .next s)) ∧
    (s.events.promptEnable = true → anyPrompt s.events = true → s.events.promptBase + 960 ≤ s.now →
      exec .promptDueTimer s = .next { s with events := { s.events with promptDue := true } }) ∧
    (s.now < s.events.promptBase + 960 → exec .promptDueTimer s = .next s) ∧
    (∀ fell n, s.events.promptDue = true → s.events.promptEnable = true → s.supply.resetnLow = false →
      (s.reset_.domain = .off ∨ s.reset_.domain = .blackout ∨ (s.reset_.domain = .ready ∧ s.reset_.doneQueued = true)) →
      n = (if fell then s.events.promptsMade else s.events.promptsMade + 1) →
      exec (.prompt fell) s = .next { s with events := { s.events with promptDue := false, promptBase := s.now, promptsMade := n } })

/-- DFC_TICK adds one to the DFC of a timeline that runs and to nothing else of the timeline, lanes and decoders give one
sample, and every token bucket is refilled with the shape then in force (R336, R337); with the main domain off it counts the
time off instead. With the main domain ready and no cue executing, CUE_FIRE marks the due cues that a command in execution
holds back, and takes the first due cue that none holds back: where its command fails, or completes at once, the cue is gone
and one EV_CUE has its status and the DFC of execution; with no such cue nothing else changes. AUDIO_CUE_EFFECT applies
exactly the held effects whose target has come, a slot map or SPDIF change when the frame that carries the target sample
comes (R303, R312). (00_scope.md (R15), 01_receiving_the_band_as_a_whole.md (R27, R29, R30, R33),
17_supplies_resets_ghost_light_lifecycle.md (R473)) -/
def Obligations.TimelineTicksAndCuesFire : Prop :=
  ∀ s : State,
    (s.reset_.domain ≠ .off → s.time.started = true → s.time.source ≠ .held → ∃ t, exec .dfcTick s = .next t ∧ t.now = s.now + 1 ∧
      t.time = { s.time with dfc := s.time.dfc + 1 } ∧ t.progs.length = s.progs.length ∧
      (∀ id, laneAt t id = (laneAt s id).map (popLane { s with now := s.now + 1 } (isAm id))) ∧ t.flows = tickBuckets s.flows ∧
      t.decoders = s.decoders.map popDecoder ∧ t.dab = s.dab ∧ t.link = s.link ∧ t.cues = s.cues ∧ t.mgr = s.mgr ∧ t.clocks = s.clocks ∧ t.retained = s.retained) ∧
    (s.reset_.domain = .off → exec .dfcTick s =
      .next { s with now := s.now + 1, reset_ := { s.reset_ with offTicks := satAdd 0xFFFFFFFF s.reset_.offTicks 1 } }) ∧
    (s.reset_.domain ≠ .off → (s.time.started = false ∨ s.time.source = .held) → exec .dfcTick s = .next { s with now := s.now + 1 }) ∧
    (∀ u c k st v, u = markBlocked s → s.reset_.domain = .ready → s.mgr.cueExec = none → nextCue u = some c → cmdOf c.packet.opc = some k →
      v = { u with cues := u.cues.filter (fun x => x.id != c.id) } →
      serve k { tag := c.packet.tag, p := c.packet.param, cue := some c.id, scene := false } v = fail st v →
      exec .cueFire s = .next (evCue c.id (flag (cueLate u c)) c.packet.opc c.packet.tag st s.time.dfc [] v)) ∧
    (∀ u c k r v, u = markBlocked s → s.reset_.domain = .ready → s.mgr.cueExec = none → nextCue u = some c → cmdOf c.packet.opc = some k →
      v = { u with cues := u.cues.filter (fun x => x.id != c.id) } →
      serve k { tag := c.packet.tag, p := c.packet.param, cue := some c.id, scene := false } v = r →
      r.effects = [] → r.wait = none → r.silent = false → r.gate = false → r.state.reset_.domain = .ready →
      ∃ w, exec .cueFire s = .next (evCue c.id (flag (cueLate u c)) c.packet.opc c.packet.tag r.status s.time.dfc r.payload w) ∧
        (w = r.state ∨ w = sceneChange r.state)) ∧
    (s.mgr.executing = none → markBlocked s = s) ∧
    (s.reset_.domain = .ready → s.mgr.cueExec = none → nextCue (markBlocked s) = none → exec .cueFire s = .next (markBlocked s)) ∧
    ((s.reset_.domain ≠ .ready ∨ s.mgr.cueExec ≠ none) → exec .cueFire s = .next s) ∧
    (∀ e, s.held = [e] → dfcAfter (e.target + BitVec.ofNat 32 (carryLag s e.effect)) s.time.dfc = false → ∃ t, exec .audioCueEffect s = .next t ∧
      (t = applyEffect e.effect { s with held := [] } ∨ t = sceneChange (applyEffect e.effect { s with held := [] }))) ∧
    ((∀ e ∈ s.held, dfcAfter (e.target + BitVec.ofNat 32 (carryLag s e.effect)) s.time.dfc = true) → exec .audioCueEffect s = .next s)

/-- With the main domain ready. CAPACITY_MEASUREMENT takes the slowest ring as the capacity at the present VCORE and any
policy that was asked for, but is discarded while VCORE slews and 50 microseconds after (R273). POWER_WINDOW records the
input power, and under Performance changes nothing else but the count of windows under the cap; under Economy a window over
the cap takes V_cap to VCORE - 5 mV, while the cap is unattainable not below what the demand needs (R278). SHEDDING_PASS in
a shortfall that still stands with the slot of fault 0x70 free runs one pass and counts it; with no shortfall, or while a
command executes, nothing changes. RESTORE after 10 s of headroom gives the most recently shed instance its antennas back
and takes it off the list. DERATE_DECAY after 10 s without a drop lowers the derate by one and changes nothing else.
(01_receiving_the_band_as_a_whole.md (R35), 10_fabric_capacity_and_admission.md (R273, R276, R278, R283, R284, R290, R292))
-/
def Obligations.CapacityRowsMeasureShedAndRestore : Prop :=
  ∀ s : State, s.reset_.domain = .ready →
    (∀ rings, slewed s = true → exec (.capacityMeasurement rings) s = .next s) ∧
    (∀ rings, slewed s = false → ∃ t, exec (.capacityMeasurement rings) s = .next t ∧ t.cap.cmeas = Config.capacityOfRing (rings.foldl max 0) ∧
      t.cap.measuredAt = s.cap.vcore ∧ t.cap.next = none ∧ t.cap.powerMw = s.cap.powerMw ∧
      (∀ x, s.cap.next = some x → t.cap.economy = x.economy ∧ t.cap.capMw = x.capMw ∧ t.cap.ceiling = x.ceiling ∧ t.cap.restore = x.restore) ∧
      Handles { s with cap := t.cap } t) ∧
    (∀ mw, s.cap.economy = false → exec (.powerWindow mw) s = .next { s with cap := { s.cap with powerMw := mw, underCap := 0 } }) ∧
    (∀ mw, s.cap.economy = true → ∃ t, exec (.powerWindow mw) s = .next t ∧ t.cap.powerMw = mw ∧ t = { s with cap := t.cap } ∧
      (s.cap.capMw < mw → t.cap.vcap = if s.cap.unattainable = true then max (max 600 (s.cap.vcore - 5)) (vFor (demand s) s) else max 600 (s.cap.vcore - 5))) ∧
    ((s.cap.shortfall = false ∨ shortNow s = false) → exec .sheddingPass s = .next s) ∧
    (s.mgr.executing = none → s.mgr.cueExec = none → s.cap.shortfall = true → shortNow s = true → s.cap.overcommitted = false → passSettled s = true →
      (faultOpen s 0x70 0 = false ∨ holdsSlot (becomesRunnable 0x70 0 s) 0x70 0 = true) → ∃ t, exec .sheddingPass s = .next t ∧
      t.cap.shedPasses = min 65535 (s.cap.shedPasses + 1) ∧ t.clocks = s.clocks ∧ t.inputs = s.inputs ∧ t.ports.spdif = s.ports.spdif ∧ t.cues = s.cues) ∧
    (∀ x since, s.mgr.executing = none → s.mgr.cueExec = none → s.cap.restore = true → s.cap.restoreList.getLast? = some x → s.cap.restoreSince = some since → s.cap.restoredAt = none →
      since + 480000 ≤ s.now → restoreFits s = true → admits s (entryCost s x) = true → ∃ t, exec .restore s = .next t ∧
      t.cap.restoreList = s.cap.restoreList.dropLast ∧ t.cap.restoredAt = some s.now ∧ t.progs = s.progs ∧ t.link = s.link) ∧
    (decides s = false → exec .sheddingPass s = .next s ∧ exec .restore s = .next s) ∧
    (0 < s.cap.derate → s.cap.derateAt + 480000 ≤ s.now →
      exec .derateDecay s = .next { s with cap := { s.cap with derate := s.cap.derate - 1, derateAt := s.now } })

/-- On a bonded input that receives with PLL-S giving its clock: a gain change that waited for samples is made at the first
window; GAIN_WINDOW_64US with fewer than 4 clipped samples, or in fixed mode, keeps the gain, and with 4 or more in
automatic mode takes 3 dB off within the limits; GAIN_WINDOW_1MS records the RMS and in fixed mode keeps the gain;
BIN_MAP_UPDATE stores the map, compensated for gain steps, and its DFC and changes nothing else. FINE_MAP_UPDATE during
reception stores the fine map likewise and puts the scan policy in force. FEED_FAULT of an enabled line disables it, starts
its wait and raises EV_ANT_FAULT reason 0; of a disabled one notes the level, with a record unless the line waits or is
latched. FEED_RETRY before its time changes nothing. SENSOR_READ of a gated domain records the readings. THERMAL_RESTART
starts the main domain with cause 6. (02_rf_inputs_and_sampling.md (R44, R45, R60), 04_channelizer_and_lanes.md (R110),
10_fabric_capacity_and_admission.md (R279), 18_integrity_and_fault_precedence.md (R515)) -/
def Obligations.FrontEndRowsMoveGainFeedsAndMaps : Prop :=
  ∀ s : State,
    (∀ i c n u, bonded s i = true → i < s.inputs.length → (inputAt s i).receiving = true → pllSUp s.clocks = true → u = firstStep i s →
      ∃ t, exec (.gainWindow64us i c n) s = .next t ∧ ((inputAt s i).gainDue = false → u = s) ∧
      ((c < 4 ∨ (inputAt s i).gcfg.fixedMode = true) → (inputAt t i).gain = (inputAt u i).gain) ∧
      (4 ≤ c → (inputAt s i).gcfg.fixedMode = false → (inputAt t i).gain = limitGain (inputAt s i).gcfg (((inputAt u i).gain : Int) - 3)) ∧
      (∀ j, j ≠ i → inputAt t j = inputAt s j) ∧ (inputAt t i).gcfg = (inputAt s i).gcfg ∧ Reports { s with inputs := t.inputs } t) ∧
    (∀ i rms, bonded s i = true → i < s.inputs.length → (inputAt s i).receiving = true → pllSUp s.clocks = true → ∃ t, exec (.gainWindow1ms i rms) s = .next t ∧
      (inputAt t i).rms = rms ∧ ((inputAt s i).gcfg.fixedMode = true → (inputAt t i).gain = (inputAt (firstStep i s) i).gain) ∧
      (∀ j, j ≠ i → inputAt t j = inputAt s j) ∧ Reports { s with inputs := t.inputs, cal := t.cal } t) ∧
    (∀ i l, bonded s i = true → (inputAt s i).receiving = true → pllSUp s.clocks = true → exec (.binMapUpdate i l) s =
      .next (updInput i (fun x => { x with binMap := l.map (compensated x), binDfc := s.time.dfc }) s)) ∧
    (∀ i l high low, s.mgr.rxRunning = true → i < s.inputs.length → (inputAt s i).receiving = true → high ++ low = [(i, l)] → ∃ t, exec (.fineMapUpdate high low) s = .next t ∧
      (inputAt t i).fineMap = l.map (compensated (inputAt s i)) ∧ (inputAt t i).fineDfc = s.time.dfc ∧ (∀ j, j ≠ i → inputAt t j = inputAt s j) ∧
      t.scan.policy = scanInForce s ∧ t.scan.next = none ∧ t.clocks = s.clocks ∧ t.reset_ = s.reset_) ∧
    (∀ high low, s.mgr.rxRunning = false → exec (.fineMapUpdate high low) s = .next s) ∧
    (∀ n f, n < feedLines s.chip.variant → s.feeds[n]? = some f → f.enabled = true → ∃ t g, exec (.feedFault n) s = .next t ∧ t.feeds = s.feeds.set n g ∧
      g.enabled = false ∧ g.faultLow = true ∧ g.waitSince = some s.now ∧ g.latched = f.latched ∧ g.mode = f.mode ∧
      (f.enabledAt = none → g.retries = f.retries) ∧ Reports { s with feeds := t.feeds } t) ∧
    (∀ n f, n < feedLines s.chip.variant → s.feeds[n]? = some f → f.enabled = false →
      exec (.feedFault n) s = .next (if f.latched = true ∨ f.waitSince ≠ none then { s with feeds := s.feeds.set n { f with faultLow := true } }
        else evAntFault n 0 f.retries { s with feeds := s.feeds.set n { f with faultLow := true } })) ∧
    (∀ n f t, n < feedLines s.chip.variant → s.feeds[n]? = some f → f.waitSince = some t → t + 48 * f.retryMs ≤ s.now →
      holdsSlot (becomesRunnable 0x90 n s) 0x90 n = true → ∃ u g, exec (.feedRetry n) s = .next u ∧ u.feeds = s.feeds.set n g ∧ g.waitSince = none ∧
      (f.retryMax ≤ f.retries → g.latched = true ∧ g.enabled = f.enabled) ∧
      (f.retries < f.retryMax → g.enabled = feedWanted s n f ∧ g.latched = f.latched) ∧ Handles { s with feeds := u.feeds } u) ∧
    (∀ n f t, n < feedLines s.chip.variant → s.feeds[n]? = some f → f.waitSince = some t → s.now < t + 48 * f.retryMs → exec (.feedRetry n) s = .next s) ∧
    (∀ l b, s.reset_.domain = .off → ∃ t, exec (.sensorRead l b) s = .next t ∧ t.thermal = { s.thermal with sensors := l, backup := b } ∧
      t = { s with thermal := t.thermal, reset_ := { s.reset_ with coolSince := t.reset_.coolSince } }) ∧
    (∀ l b, s.reset_.domain = .ready → maxInt l < 1808 → s.cap.thermalHeld = false → ∃ t, exec (.sensorRead l b) s = .next t ∧
      t.thermal = { sensors := l, backup := b, tripReads := 0, judged := if decides s = true then roundDiv l.sum (max 1 l.length) else s.thermal.judged } ∧ t.cap = s.cap ∧ t.reset_ = s.reset_ ∧ t.events = s.events) ∧
    (∀ since, s.supply.backupOn = true → s.reset_.domain = .off → s.reset_.offCause = .thermal → s.reset_.coolSince = some since → since + 48000 ≤ s.now →
      s.supply.resetnLow = false → s.thermal.backup ≤ 1840 → 2970 < s.supply.vmain → ∃ t, exec .thermalRestart s = .next t ∧
      t.reset_.domain = .starting ∧ t.reset_.cause = .thermal ∧ t.reset_.offCause = .none ∧ t.ghost.watch = .off ∧ t.chip = s.chip)

/-- On a program of the variant. UNDERRUN of a member of a running program marks it underrun, raises EV_LINK reason 8 with
its slot at the first of them, counts the late pairs and notes from when the samples are on time again. MEMBER_RETURN of an
analogue member 100 ms on time clears the mark, before that it changes nothing; each leaves every other member and program
alone. CROSSFADE_END once the fade is over clears it, and moves the output to the new member of an analogue path.
CROSSFADE_END where the path has no anchor makes the new member the anchor. MEMBER_DELAY_MEASURE of a member that is due and
not the anchor records the delay that correlation finds within 50 ms, interpolated by the operand (log entry 137), or that
it has none, and keeps the old one below the peak threshold; one that is not due changes nothing. NO_DAB_MEMBER_TIMEOUT of a
running program 60 s without DAB member turns alignment off. DECISION_POINT changes nothing but programs, decoders, events,
the selected alarm and the manager. (09_linking_alignment_blending.md, crossfades, members and alignment,
08_dab_services_and_audio_decoding.md, underrun) -/
def Obligations.MemberRowsMarkUnderrunsAndRetirePaths : Prop :=
  ∀ (s : State) (n : Nat) (p : Program), progAt s n = some p →
    (∀ k m late bad, memberAt p k = some m → p.running = true → ∃ m1, m1.underrun = true ∧ m1.goodSince = none ∧
      m1.onTimeSince = some (max (m.onTimeSince.getD 0) (s.now + 1 + max 1 (late + bad))) ∧ m1.src = m.src ∧ m1.delta = m.delta ∧ m1.origin = m.origin ∧
      (m.underrun = false → exec (.underrun n ⟨k, late, bad⟩) s =
        .next (countLate n late bad (evLink n 8 k 0 [] 0 { s with progs := s.progs.set n { p with members := p.members.set k (some m1) } }))) ∧
      (m.underrun = true → exec (.underrun n ⟨k, late, bad⟩) s =
        .next (countLate n late bad { s with progs := s.progs.set n { p with members := p.members.set k (some m1) } }))) ∧
    (∀ late bad, Reports s (countLate n late bad s)) ∧
    (∀ k m t, memberAt p k = some m → m.underrun = true → m.src.kind ≠ 2 → m.onTimeSince = some t → t + 4800 ≤ s.now →
      exec (.memberReturn n k) s = .next { s with progs := s.progs.set n { p with members := p.members.set k (some { m with underrun := false, delta := if p.anchorA = some k then m.delta else none, measuredAt := if p.anchorA = some k then m.measuredAt else none }) } }) ∧
    (∀ k m t, memberAt p k = some m → m.onTimeSince = some t → s.now < t + 4800 → exec (.memberReturn n k) s = .next s) ∧
    (∀ f, p.fade = some f → s.now < f.start + 48 * f.ms → exec (.crossfadeEnd n) s = .next s) ∧
    (∀ f m, p.fade = some f → f.start + 48 * f.ms ≤ s.now → f.reversed = false → f.output = false → memberAt p f.new = some m → m.src.kind ≠ 2 → p.anchorA ≠ none →
      exec (.crossfadeEnd n) s = .next { s with progs := s.progs.set n { p with fade := none, selA := some f.new } }) ∧
    (∀ f m, p.fade = some f → f.start + 48 * f.ms ≤ s.now → f.reversed = false → f.output = false → memberAt p f.new = some m → m.src.kind ≠ 2 → p.anchorA = none →
      ∃ t q, exec (.crossfadeEnd n) s = .next t ∧ progAt t n = some q ∧ q.fade = none ∧ q.selA = some f.new ∧ q.anchorA = some f.new ∧ t = { s with progs := t.progs }) ∧
    (∀ f, p.fade = some f → f.start + 48 * f.ms ≤ s.now → f.reversed = false → f.output = true →
      exec (.crossfadeEnd n) s = .next { s with progs := s.progs.set n { p with fade := none, outDab := !p.outDab } }) ∧
    (∀ k m i a frac, memberAt p k = some m → (if m.src.kind = 2 then p.anchorD else p.anchorA) = some i → i ≠ k → memberAt p i = some a →
      measureDue s m = true → ∃ q, exec (.memberDelayMeasure n k frac) s = .next { s with progs := s.progs.set n q } ∧
      (k < p.members.length → memberAt q k = some { m with measuredAt := some s.now, delta := ((memberDelta frac a.trace m.trace).filter (·.ok)).elim m.delta (fun o => if o.ticks.natAbs ≤ 2400 then some (-o.ticks) else none) })) ∧
    (∀ k m frac, memberAt p k = some m → measureDue s m = false → exec (.memberDelayMeasure n k frac) s = .next s) ∧
    (∀ since, p.running = true → pathSlots p true = [] → p.noDabSince = some since → since + 2880000 ≤ s.now → ∃ t q,
      exec (.noDabMemberTimeout n) s = .next t ∧ progAt t n = some q ∧ q.align = .off ∧ q.wasAligned = false ∧ t.lanes = s.lanes ∧ t.link = s.link) ∧
    (s.reset_.domain = .ready → ∀ obs, ∃ t, exec (.decisionPoint obs) s = .next t ∧ t = { s with events := t.events, mgr := t.mgr, decoders := t.decoders, progs := t.progs, alerts := t.alerts })

/-- C_lim is the estimated capacity at V_eff less the derate in percent. On an input that samples, INPUT_FIFO_DROP counts
the input's index, notes the gap of one block in the stream of the input and adds 2 to the derate, to at most 20, from this
instant; on an input that does not sample nothing changes. DERATE_DECAY lowers a positive derate by 1 once 10 s have passed
since the last drop or decay; before that, or at 0, nothing changes. Whatever lowered C_lim, a measurement that is not
discarded (R273) and leaves the demand with its margin above C_lim leaves a shortfall. (R292) -/
def Obligations.FifoDropsDerateByTwoPercent : Prop :=
  ∀ s : State, capLim s = capEst s (vEff s.cap) * ((100 - s.cap.derate : Nat) : Rat) / 100 ∧
    (∀ i, bonded s i = true → (inputAt s i).receiving = true → pllSUp s.clocks = true → ∃ t, exec (.inputFifoDrop i) s = .next t ∧
      t.cap = { s.cap with derate := min 20 (s.cap.derate + 2), derateAt := s.now, fifoDrops := satAdd 0xFFFFFFFF s.cap.fifoDrops 1 } ∧
      (i < 6 → s.integ.counters.length = 32 → t.integ.counters.getD (6 + i) 0 = satAdd 0xFFFFFFFF (s.integ.counters.getD (6 + i) 0) 1) ∧
      t.inputs = upd s.inputs i (gapNow (blockTicks i) s.now) ∧ t.progs = s.progs ∧ t.lanes = s.lanes ∧ t.link = s.link) ∧
    (∀ i, bonded s i = true → ((inputAt s i).receiving = false ∨ pllSUp s.clocks = false) → exec (.inputFifoDrop i) s = .next s) ∧
    (0 < s.cap.derate → s.cap.derateAt + 480000 ≤ s.now →
      exec .derateDecay s = .next { s with cap := { s.cap with derate := s.cap.derate - 1, derateAt := s.now } }) ∧
    ((s.cap.derate = 0 ∨ s.now < s.cap.derateAt + 480000) → exec .derateDecay s = .next s) ∧
    (∀ rings, s.reset_.domain = .ready → slewed s = false → ∃ t, exec (.capacityMeasurement rings) s = .next t ∧ (t.cap.shortfall = true ∨ plusTenth (demand t) ≤ capLim t))

/-- On a bonded high-band input that receives and rotates. SUB_WINDOW_END before the 16th counts the sub-window, moves no
sub-lane but the rehearsed one and no position. ROTATION_INTERVAL_END after 16 sub-windows begins the overlap with every
position as it was. OVERLAP_END of a swap that passes puts the rehearsed sub-lane at the swap position, withdraws its
occupant, moves to the next position and clears the failures; one that fails keeps every position, counts a failure, and at
the third stops the rotation and names the suspect. Every other input keeps its calibration state. (03_live_calibration.md
(R72, R73, R74, R76, R77, R79)) -/
def Obligations.RotationRowsRehearseAndSwap : Prop :=
  ∀ (s : State) (i : Nat), bonded s i = true → i < 4 → i < s.cal.inputs.length → calReceiving s i = true → (calAt s i).rotating = true →
    (∀ o, (calAt s i).inOverlap = false → (calAt s i).subWin < 16 → ∃ t, exec (.subWindowEnd i o) s = .next t ∧ (calAt t i).subWin = (calAt s i).subWin + 1 ∧
      (calAt t i).occ = (calAt s i).occ ∧ (calAt t i).pos = (calAt s i).pos ∧ (calAt t i).understudy = (calAt s i).understudy ∧
      (∀ n, n ≠ (calAt s i).understudy → subAt (calAt t i).work n = subAt (calAt s i).work n) ∧
      (∀ j, j ≠ i → calAt t j = calAt s j) ∧ Reports { s with cal := t.cal } t) ∧
    (∀ o, (calAt s i).inOverlap = false → (calAt s i).subWin = 16 → ∃ t, exec (.rotationIntervalEnd i o) s = .next t ∧ (calAt t i).inOverlap = true ∧
      (calAt t i).occ = (calAt s i).occ ∧ (calAt t i).pos = (calAt s i).pos ∧ (calAt t i).understudy = (calAt s i).understudy ∧
      (∀ n, n ≠ (calAt s i).understudy → subAt (calAt t i).work n = subAt (calAt s i).work n) ∧
      (∀ j, j ≠ i → calAt t j = calAt s j) ∧ t.inputs = s.inputs ∧ t.lanes = s.lanes ∧ t.link = s.link) ∧
    (∀ r m, (calAt s i).inOverlap = true → r ≤ 20 → m ≤ 128 → ∃ t, exec (.overlapEnd i r m) s = .next t ∧
      (calAt t i).occ = (calAt s i).occ.set (calAt s i).pos (calAt s i).understudy ∧
      (calAt t i).understudy = (calAt s i).occ.getD (calAt s i).pos 0 ∧ (calAt t i).pos = ((calAt s i).pos + 1) % 16 ∧
      (calAt t i).swapFails = 0 ∧ (calAt t i).inOverlap = false ∧ (calAt t i).subWin = 0 ∧ (calAt t i).work = (calAt s i).work ∧
      (∀ j, j ≠ i → calAt t j = calAt s j) ∧ t = { s with cal := t.cal }) ∧
    (∀ r m, (calAt s i).inOverlap = true → (20 < r ∨ 128 < m) → ∃ t, exec (.overlapEnd i r m) s = .next t ∧
      (calAt t i).occ = (calAt s i).occ ∧ (calAt t i).pos = (calAt s i).pos ∧ (calAt t i).inOverlap = false ∧
      ((calAt s i).swapFails < 2 → (calAt t i).swapFails = (calAt s i).swapFails + 1 ∧ (calAt t i).rotating = true) ∧
      (2 ≤ (calAt s i).swapFails → (calAt t i).rotating = false ∧ (calAt t i).suspect = some (calAt s i).understudy) ∧
      (∀ j, j ≠ i → calAt t j = calAt s j) ∧ Reports { s with cal := t.cal } t)

/-- On a bonded input that receives and is not frozen. EVALUATION_WINDOW_END of a low-band input counts a failing window of
a run and goes on with it, until the eighth. SELECTION_CHANGE applies the first pending comparator choice and leaves the
others pending; with none left it puts the pending offset and gain in force; a capacitor choice takes an open gain.
CAL_RETRY of a deferred run whose time has come and whose tests pass makes the run due again; before its time nothing
changes. CAL_INTERVAL_TRIGGER makes an idle input due once max_interval has passed, and changes nothing before, or while a
command executes (R35). (03_live_calibration.md (R82, R83, R84, R85, R90, R94)) -/
def Obligations.CalibrationRowsTriggerRetryAndSelect : Prop :=
  ∀ (s : State) (i : Nat), bonded s i = true → i < s.cal.inputs.length → calReceiving s i = true → calFrozen s i = false →
    (∀ o c, 4 ≤ i → calAt s i = c → c.run = .running → c.runFirst = false → validMask s i o.valid ≠ 0 → c.runFails < 7 → c.runLen < 31 →
      exec (.evaluationWindowEnd i o) s = .next (updCal i (fun x => { x with runLen := c.runLen + 1, tSum := c.tSum + tDie s, tCount := c.tCount + 1, runFails := c.runFails + 1, reasons := validMask s i o.valid, failMask := validMask s i o.valid }) s)) ∧
    (∀ o, 4 ≤ i → (calAt s i).run = .idle → validMask s i o.valid ≠ 0 →
      exec (.evaluationWindowEnd i o) s = .next (updCal i (fun x => { x with reasons := validMask s i o.valid }) s)) ∧
    (∀ n v rest, 4 ≤ i → (calAt s i).pendingSel = (true, n, v) :: rest → ∃ w, w.comps = (calAt s i).work.comps.set n v ∧ w.caps = (calAt s i).work.caps ∧
      w.gain = (calAt s i).work.gain ∧ exec (.selectionChange i) s = .next (updCal i (fun c => { c with work := w, pendingSel := rest }) s)) ∧
    (∀ n v rest, 4 ≤ i → (calAt s i).pendingSel = (false, n, v) :: rest → ∃ w, w.caps = (calAt s i).work.caps.set n v ∧ w.comps = (calAt s i).work.comps ∧
      w.offset = (calAt s i).work.offset ∧
      exec (.selectionChange i) s = .next (updCal i (fun c => { c with work := w, pendingSel := rest }) { s with draws := s.draws + 1 })) ∧
    (∀ a b, 4 ≤ i → (calAt s i).pendingSel = [] → (calAt s i).pendingOffGain = some (a, b) → ∃ w, w.offset = a ∧ w.gain = b ∧ w.comps = (calAt s i).work.comps ∧
      w.caps = (calAt s i).work.caps ∧ exec (.selectionChange i) s = .next (updCal i (fun c => { c with work := w, pendingOffGain := none }) s)) ∧
    (∀ o, (calAt s i).run = .deferred → (calAt s i).retryAt ≤ s.now → validMask s i o = 0 → (4 ≤ i ∨ (calAt s i).rotating = true) → faultOpen s 0x80 i = false →
      exec (.calRetry i o) s = .next (updCal i (fun c => { c with retryAt := s.now + 48000, reasons := 0, run := .due, deferredSince := none }) s)) ∧
    (∀ o, ((calAt s i).run ≠ .deferred ∨ s.now < (calAt s i).retryAt) → exec (.calRetry i o) s = .next s) ∧
    (∀ since, (calAt s i).run = .idle → s.mgr.executing = none → s.mgr.cueExec = none → since = (if (calAt s i).lastTMeas.isSome then (calAt s i).lastAt else (calAt s i).startedAt) →
      (since + 48000 * s.cal.policy.maxInterval ≤ s.now → ∃ t, exec (.calIntervalTrigger i) s = .next t ∧ (calAt t i).run = .due ∧ (calAt t i).byCommand = false ∧
        (calAt t i).work = (calAt s i).work ∧ (∀ j, j ≠ i → calAt t j = calAt s j) ∧ t = { s with cal := t.cal }) ∧
      (s.now < since + 48000 * s.cal.policy.maxInterval → exec (.calIntervalTrigger i) s = .next s)) ∧
    (decides s = false → exec (.calIntervalTrigger i) s = .next s)

/-- LANE_UPDATE of a running lane takes its CNR from the figure given, LQ from the three figures, its offset as the mean of
the latest ten, the parameters asked for since the last update, and in the first update the smoothed figures equal to the
raw ones; with a gap in it, or without reception, it conceals and keeps every figure; no other lane changes. The pilot and
loop flags of a running lane follow the thresholds and spans of R136 and R147 and nothing else changes. PROCESSING_START
with the capacity met starts every lane and engine that waits in the wings, every input that waits and every antenna held
back, and changes no other; without it nothing changes (R282). DRAINING_END frees a draining lane or engine with no pending
assignment; otherwise the pending assignment of the host takes effect with the inputs it named: in the wings if it asked for
them, else running, or in the wings until the capacity is met. (01_receiving_the_band_as_a_whole.md (R20, R21),
04_channelizer_and_lanes.md (R127), 05_fm_and_am_lanes.md (R132, R136, R142, R147), 10_fabric_capacity_and_admission.md
(R282)) -/
def Obligations.LaneRowsUpdateStartAndDrain : Prop :=
  ∀ (s : State), Shaped s →
    (∀ id f l, laneAt s id = some l → l.st = .running → s.mgr.rxRunning = true → laneGap s (isAm id) f l = false → ∃ t m, exec (.laneUpdate id f) s = .next t ∧
      laneAt t id = some m ∧ m.raw.cnr = cnrByte (f.cnr : Rat) ∧ m.raw.lq = lqByte m.raw.cnr m.raw.mpImp m.raw.adj ∧ (l.first = true → m.smoothed = m.raw) ∧
      m.first = false ∧ m.concealing = false ∧ m.freqOffset = meanInt m.offsets ∧ m.offsets.length ≤ 10 ∧ m.levels.length = (if isAm id = true then 2 else 4) ∧
      m.fm = l.fmNext.getD l.fm ∧ m.am = l.amNext.getD l.am ∧ m.fmNext = none ∧ m.amNext = none ∧ m.audio.length ≤ 960 ∧
      m.st = .running ∧ m.freq = l.freq ∧ m.mask = l.mask ∧ m.owner = l.owner ∧ m.pinned = l.pinned ∧
      m.ident = l.ident ∧ (∀ k, k ≠ id → laneAt t k = laneAt s k) ∧ t.progs = s.progs ∧ t.dab = s.dab ∧ t.cap = s.cap) ∧
    (∀ id f l, laneAt s id = some l → l.st = .running → s.mgr.rxRunning = true → laneGap s (isAm id) f l = true → ∃ t m, exec (.laneUpdate id f) s = .next t ∧
      laneAt t id = some m ∧ m.valid = false ∧ m.concealing = true ∧ m.raw = l.raw ∧ m.smoothed = l.smoothed ∧ m.mute = l.mute ∧ m.freqOffset = l.freqOffset ∧
      m.fmNext = l.fmNext ∧ m.amNext = l.amNext ∧ m.audioRms = l.audioRms ∧
      (∀ k, k ≠ id → laneAt t k = laneAt s k) ∧ t.progs = s.progs ∧ t.dab = s.dab ∧ t.cap = s.cap) ∧
    (∀ id f l, laneAt s id = some l → l.st = .running → s.mgr.rxRunning = false → ∃ t m, exec (.laneUpdate id f) s = .next t ∧
      laneAt t id = some m ∧ m.valid = false ∧ m.concealing = true ∧ m.raw = l.raw ∧ m.audio = l.audio ∧ (∀ k, k ≠ id → laneAt t k = laneAt s k)) ∧
    (∀ id o l, s.lanes.fm[id]? = some l → id < 0x80 → l.st = .running → exec (.pilotStateChange id o) s =
      .next { s with lanes := { s.lanes with fm := s.lanes.fm.set id { l with pilot := pilotAfter o l.raw.cnr l.pilot } } }) ∧
    (∀ o c was, ((o.locked = true ∨ 80 ≤ c) → 2000 ≤ o.least → 50 ≤ o.ms → pilotAfter o c was = true) ∧
      ((o.locked = false ∨ o.most < 1000) → o.least < 2000 → 20 ≤ o.ms → pilotAfter o c was = false) ∧ (o.ms < 20 → pilotAfter o c was = was)) ∧
    (∀ id o l, s.lanes.am[id]? = some l → l.st = .running → exec (.syncLoopLockChange (id + 0x80) o) s =
      .next { s with lanes := { s.lanes with am := s.lanes.am.set id { l with loop := loopAfter o l.raw.cnr l.loop } } }) ∧
    (∀ o c was, ((o.most ≤ 20 ∨ (80 ≤ c ∧ o.drift ≤ 1000)) → 100 ≤ o.ms → o.offset.natAbs ≤ 100 → loopAfter o c was = true) ∧
      (60 < o.least → 20 < o.most → c < 80 → 50 ≤ o.ms → loopAfter o c was = false) ∧ (o.ms < 50 → loopAfter o c was = was)) ∧
    (s.reset_.domain = .ready → capacityMet s = true → ∃ t, exec .processingStart s = .next t ∧
      (∀ id l, laneAt s id = some l → laneAt t id = some (if l.st = .wings ∧ l.starting = true then
        { l with st := .running, starting := false, first := true, startedAt := s.now, doneTag := none, held := 0 } else { l with held := 0 })) ∧
      (∀ e x, engineAt s e = some x → ∃ y, engineAt t e = some y ∧ y.held = 0 ∧ y.freq = x.freq ∧ y.mask = x.mask ∧ y.owner = x.owner ∧ y.model = x.model ∧
        (x.st = .wings ∧ x.starting = true → y.st = .running ∧ y.starting = false ∧ y.acq = .nullSearch ∧ y.startedAt = s.now ∧ y.doneTag = none) ∧
        (¬(x.st = .wings ∧ x.starting = true) → y.st = x.st ∧ y.starting = x.starting ∧ y.acq = x.acq ∧ y.doneTag = x.doneTag)) ∧
      (∀ i < 6, (inputAt t i).receiving = ((inputAt s i).receiving || (inputAt s i).waiting)) ∧ t.progs = s.progs ∧ t.cap = s.cap) ∧
    (capacityMet s = false → exec .processingStart s = .next s) ∧
    (∀ id l, laneAt s id = some l → l.st = .draining → l.pend = none → ∃ t, exec (.drainingEnd false id) s = .next t ∧
      laneAt t id = some Lane.free ∧ (∀ k, k ≠ id → laneAt t k = laneAt s k) ∧ t.dab = s.dab ∧ t.progs = s.progs ∧ t.events = s.events) ∧
    (∀ id l p, laneAt s id = some l → l.st = .draining → l.pend = some p → p.owner = .host →
      laneMask s s.clocks.plan id p.freq p.asked ≠ 0 → ∃ t m, exec (.drainingEnd false id) s = .next t ∧ laneAt t id = some m ∧
      m.freq = p.freq ∧ m.mask = laneMask s s.clocks.plan id p.freq p.asked ∧ m.pinned = p.pin ∧ m.owner = .host ∧
      (p.start = true → m.st = .wings ∧ m.starting = false) ∧
      (p.start = false → (m.st = .running ∧ m.starting = false ∧ m.doneTag = none) ∨ (m.st = .wings ∧ m.starting = true ∧ m.doneTag = some (p.opc, p.tag))) ∧
      (∀ k, k ≠ id → laneAt t k = laneAt s k) ∧ t.dab = s.dab ∧ t.progs = s.progs) ∧
    (∀ e x, engineAt s e = some x → x.st = .draining → x.pend = none → ∃ t, exec (.drainingEnd true e) s = .next t ∧
      engineAt t e = some Engine.free ∧ (∀ k, k ≠ e → engineAt t k = engineAt s k) ∧ t.lanes = s.lanes ∧ t.progs = s.progs ∧ t.events = s.events)

/-- On an FM lane of the variant. RDS_BLOCK of a running lane without synchronisation moves its decoder as two clean
adjacent blocks in sequence, with no gap of an input in them, require; while synchronised offset E is discarded; a block
that fails leaves the identity; the confirmed PI in block 1 renews it. RDS_GROUP of a whole group ends it. IDENTITY_LOST
after 2.0 s clears identity and accepted fields; before it changes nothing. IDENTITY_RECORD raises the coalesced EV_LANE
reason 4. EON_TA_TIMEOUT drops exactly this lane's entries older than 120 s. ALERT_END_TIMER ends an alarm 2.0 s after
another PTY. STATION_RECORD_WRITE copies a changed record to the retained bank. (05_fm_and_am_lanes.md (R144),
06_rds_and_alternative_frequencies.md (R153, R154, R156, R158, R165, R166, R167, R170)) -/
def Obligations.RdsRowsFollowBlocksIdentityAndRecords : Prop :=
  ∀ (s : State) (n : Nat) (l : Lane), Shaped s → s.lanes.fm[n]? = some l →
    (∀ w o e g, l.st = .running → s.mgr.rxRunning = true → l.rds.synced = false →
      exec (.rdsBlock n w o e g) s = .next { s with lanes := { s.lanes with fm := s.lanes.fm.set n { l with rds := seekBlock w o e (g || blockGap s l) l.rds } } } ∧
      ((seekBlock w o e (g || blockGap s l) l.rds).synced = true ↔ e = .clean ∧ g = false ∧ blockGap s l = false ∧
        ∃ q j k, l.rds.prev = some q ∧ offsetPos q = some j ∧ offsetPos o = some k ∧ k = (j + 1) % 4)) ∧
    (∀ w e g, l.rds.synced = true → exec (.rdsBlock n w .e e g) s = .next s) ∧
    (∀ w o g d, l.st = .running → s.mgr.rxRunning = true → l.rds.synced = true → o ≠ .e → d = takeBlock w o 3 l.rds → d.synced = true →
      exec (.rdsBlock n w o .uncorrectable g) s = .next { s with lanes := { s.lanes with fm := s.lanes.fm.set n { l with rds := d } } }) ∧
    (∀ w, l.st = .running → s.mgr.rxRunning = true → l.rds.synced = true → l.rds.pos = 0 → (takeBlock w .a 0 l.rds).synced = true → blockGap s l = false → l.ident.pi = some w →
      ∃ t m, exec (.rdsBlock n w .a .clean false) s = .next t ∧ t.lanes.fm[n]? = some m ∧
      m.ident = { l.ident with cand := none, count := 0, carriedAt := s.now } ∧ m.rds = takeBlock w .a 0 l.rds ∧ m.freq = l.freq ∧
      (∀ k, k ≠ n → t.lanes.fm[k]? = s.lanes.fm[k]?) ∧ t.lanes.am = s.lanes.am) ∧
    (l.st = .running → s.mgr.rxRunning = true → l.rds.ready = true → ∃ t m, exec (.rdsGroup n) s = .next t ∧ t.lanes.fm[n]? = some m ∧
      m.rds = { l.rds with blocks := [], ready := false, firstGroup := false, cfg := none } ∧ m.ident = l.ident ∧ m.freq = l.freq ∧ m.st = .running ∧
      (∀ k, k ≠ n → t.lanes.fm[k]? = s.lanes.fm[k]?) ∧ t.dab = s.dab) ∧
    (l.rds.ready = false → exec (.rdsGroup n) s = .next s) ∧
    (∀ p, l.ident.pi = some p → l.ident.carriedAt + 96000 ≤ s.now → ∃ t m, exec (.identityLost n) s = .next t ∧ t.lanes.fm[n]? = some m ∧
      m.ident.pi = none ∧ m.ident.cand = none ∧ m.fields = RdsFields.none ∧ m.traffic = false ∧ m.alarm = false ∧ m.freq = l.freq ∧ m.st = l.st ∧
      (∀ k, k ≠ n → t.lanes.fm[k]? = s.lanes.fm[k]?) ∧ t.dab = s.dab) ∧
    (s.now < l.ident.carriedAt + 96000 → exec (.identityLost n) s = .next s) ∧
    (∀ p q since, 0 < l.ident.waiting → l.ident.recordAt = some since → since + 24000 ≤ s.now → l.ident.pi = some p → l.ident.shown = some q →
      exec (.identityRecord n) s = .next (evLane n 4 l.smoothed.lq q.toNat p.toNat l.ident.waiting (updLane n (fun l => { l with ident := { l.ident with shown := some p, last := some p, recordAt := some s.now, waiting := 0 } }) s))) ∧
    (l.ident.waiting = 0 → exec (.identityRecord n) s = .next s) ∧
    (∃ t, exec (.eonTaTimeout n) s = .next t ∧ t.rds.eon = s.rds.eon.filter (fun x => !(x.lane == n && decide (x.lastAt + 5760000 ≤ s.now))) ∧
      t.lanes = s.lanes ∧ t.rds.stations = s.rds.stations ∧ t.rds.cfg = s.rds.cfg) ∧
    (∀ p since, l.ident.pi = some p → l.alarmOffAt = some since → since + 96000 ≤ s.now → l.testOffAt = none → ∃ t m, exec (.alertEndTimer n) s = .next t ∧
      t.lanes.fm[n]? = some m ∧ m = { l with alarm := false, alarmOffAt := none } ∧ (∀ k, k ≠ n → t.lanes.fm[k]? = s.lanes.fm[k]?)) ∧
    (∀ i r c q, s.rds.stations[i]? = some r → s.reset_.domain = .ready → s.rds.cfg.dbStore = true → r.changedAt = some c → s.supply.sag = false →
      r.writtenAt = none → q = { r with changedAt := none, writtenAt := some s.now } → exec (.stationRecordWrite i) s = .next { s with rds := { s.rds with stations := s.rds.stations.set i q }, retained := { s.retained with stations := s.retained.stations.set i (some q), badStations := s.retained.badStations.filter (· ≠ i) } })

/-- On an engine of the variant. DAB_FRAME of a running engine: a dip without a peak moves the null search to PRS sync, a
PRS below the threshold moves back, the third failing frame in a row while locked moves to hold; levels are those of the
frame, a gap in it changes no state, and the offset follows it by at most 500 Hz a frame while locked; an engine that does
not run changes nothing. CIF_BOUNDARY while locked counts the CIF modulo 5000 and stores it, with those skipped as erased,
up to 16. The end of a conversion gives its share back. MODEL_OBJECT_TIMEOUT prunes what was not heard for 10 s.
ENGINE_ABANDON releases a scan engine unlocked after 5 s and bars its block. ANNOUNCEMENT_TIMEOUT drops its cluster.
DECODER_FIRST_VALID_SAMPLE sets the valid flag. (07_dab_engines.md (R175, R176, R177, R178, R180, R183, R188, R189, R191),
08_dab_services_and_audio_decoding.md (R204, R215, R222)) -/
def Obligations.DabRowsAcquireStoreAndTimeOut : Prop :=
  ∀ (s : State) (e : Nat) (x : Engine), engineAt s e = some x →
    (∀ o, x.st = .running → s.mgr.rxRunning = true → ∃ t y, exec (.dabFrame e o) s = .next t ∧ engineAt t e = some y ∧
      y.levels = (frameIn s x o).levels ∧ y.clockPpm = o.clockPpm ∧ y.st = .running ∧ y.freq = x.freq ∧ y.mask = x.mask ∧ y.owner = x.owner ∧
      (x.acq = .nullSearch → (frameIn s x o).anyGap = false → peakSeen (frameIn s x o) x = none → y.acq = if nullDip o.windows = true then .prsSync else .nullSearch) ∧
      (x.acq = .prsSync → (frameIn s x o).anyGap = false → peakSeen (frameIn s x o) x = none →
        rhoAtLeast (30 / 100) (frameIn s x o).base o.ref = false → y.acq = .nullSearch ∧ y.freqOffset = 0) ∧
      (x.acq = .locked → (frameIn s x o).anyGap = false → frameFails (frameIn s x o) = true → x.failed = 2 →
        y.acq = .hold ∧ y.freqOffset = x.freqOffset + clampInt (-500) 500 o.fine) ∧
      (x.acq = .locked → (frameIn s x o).anyGap = true → y.acq = .locked ∧ y.failed = x.failed ∧ y.freqOffset = x.freqOffset + clampInt (-500) 500 o.fine) ∧
      (∀ k, k ≠ e → engineAt t k = engineAt s k) ∧ t.lanes = s.lanes ∧ t.inputs = s.inputs) ∧
    (∀ o, x.st ≠ .running → exec (.dabFrame e o) s = .next s) ∧
    (∀ o, x.st = .running → s.mgr.rxRunning = true → (x.acq = .locked ∨ x.acq = .hold) → occurs x.model = false → ∃ t y, exec (.cifBoundary e o) s = .next t ∧
      engineAt t e = some y ∧ y.model.cif = (x.model.cif + 1) % 5000 ∧ y.cifsStored = min 16 (x.cifsStored + skipped x + 1) ∧ y.store.length ≤ 16 ∧
      y.exact = x.modeNext.getD x.exact ∧ y.modeNext = none ∧ y.acq = x.acq ∧ (∀ k, k ≠ e → engineAt t k = engineAt s k) ∧ t.lanes = s.lanes) ∧
    (∀ o, x.st ≠ .running → exec (.cifBoundary e o) s = .next s) ∧
    (x.converting = true → x.modeNext = none → exec (.softbitConversionEnd e) s =
      .next (updEngine e (fun y => { y with converting := false, shares := sharesOf x.exact }) s)) ∧
    (x.converting = false → exec (.softbitConversionEnd e) s = .next s) ∧
    (x.acq = .locked → ∃ t y, exec (.modelObjectTimeout e) s = .next t ∧ engineAt t e = some y ∧ y.model = prune x ∧
      (∀ v ∈ y.model.services, x.lockedFrames < v.seen + objectFrames ∧ v ∈ x.model.services) ∧ y.acq = .locked ∧
      (∀ k, k ≠ e → engineAt t k = engineAt s k) ∧ t.lanes = s.lanes) ∧
    (x.acq ≠ .locked → exec (.modelObjectTimeout e) s = .next s) ∧
    (x.st = .running → x.owner = .scan → engineRank s e x = 5 → x.acq ≠ .locked → x.acq ≠ .hold → x.startedAt + 240000 ≤ s.now → ∃ t y,
      exec (.engineAbandon e) s = .next t ∧ engineAt t e = some y ∧ y.st = .draining ∧ y.pend = none ∧ (x.freq, s.now + 1440000) ∈ t.scan.barred ∧
      (∀ k, k ≠ e → engineAt t k = engineAt s k) ∧ t.lanes = s.lanes) ∧
    (x.owner ≠ .scan → exec (.engineAbandon e) s = .next s) ∧
    (∀ c k, x.model.clusters.find? (·.id == c) = some k → (k.usedAt + 96000 ≤ s.now → ∃ t y, exec (.announcementTimeout e c) s = .next t ∧
      engineAt t e = some y ∧ y = { x with model := { x.model with clusters := x.model.clusters.filter (·.id != c) } } ∧ t.lanes = s.lanes) ∧
      (s.now < k.usedAt + 96000 → exec (.announcementTimeout e c) s = .next s)) ∧
    (∀ i d b, s.decoders[i]? = some d → d.engine = some b → d.valid = false → ∃ t, exec (.decoderFirstValidSample i) s = .next t ∧
      t.decoders = s.decoders.set i { d with valid := true } ∧ t.progs.length = s.progs.length ∧ t = { s with decoders := t.decoders, progs := t.progs })

/-- On a program of the variant. CURTAIN_OPENED of an opening curtain that has reached 1 ends the movement and changes
nothing else; CURTAIN_CLOSED before 0 changes nothing, and at 0 of a curtain with nothing waiting ends the movement.
CURTAIN_CLOSED with a stop waiting stops the program, keeping its policies, hold and curtain times, with every other curtain
and lane alone. ANNOUNCEMENT_SOURCE_READY of a selection that is ready begins its takeover; of none changes nothing.
END_DELAY_EXPIRY before the delay has passed, or with nothing on air, changes nothing.
(08_dab_services_and_audio_decoding.md (R226, R227, R228), 09_linking_alignment_blending.md (R234, R260), 11_audio_ports.md
(R314)) -/
def Obligations.CurtainRowsMakeTheWaitingChange : Prop :=
  ∀ (s : State) (n : Nat) (p : Program), progAt s n = some p →
    (p.curtain.pos = 1 → p.curtain.moving = some true → exec (.curtainOpened n) s =
      .next { s with progs := s.progs.set n { p with curtain := { p.curtain with moving := none, switching := false } } }) ∧
    (p.curtain.pos ≠ 1 → exec (.curtainOpened n) s = .next s) ∧
    (p.curtain.pos ≠ 0 → exec (.curtainClosed n) s = .next s) ∧
    (p.curtain.pos = 0 → p.curtain.moving = some false → p.curtain.after = [] → exec (.curtainClosed n) s =
      .next (reselectAll { s with progs := s.progs.set n { p with curtain := { p.curtain with moving := none } } })) ∧
    (p.curtain.pos = 0 → p.curtain.moving = some false → p.curtain.after = [.stop] → ∃ t q, exec (.curtainClosed n) s = .next t ∧ progAt t n = some q ∧
      q.running = false ∧ q.members = List.replicate 12 none ∧ q.pages = 0 ∧ q.policy = p.policy ∧ q.ann = p.ann ∧ q.curtain.held = p.curtain.held ∧
      q.curtain.downMs = p.curtain.downMs ∧ q.curtain.upMs = p.curtain.upMs ∧ q.curtain.pos = 0 ∧ q.curtain.moving = none ∧
      t.lanes = s.lanes ∧ t.dab = s.dab ∧ t.ports = s.ports) ∧
    (selection p = none → exec (.announcementSourceReady n) s = .next s) ∧
    (∀ h, selection p = some h → p.running = true → h.onAir = false → selectionReady s h = true → p.curtain.after = [] → p.curtain.pos ≠ 0 →
      exec (.announcementSourceReady n) s = .next (reselectAll { s with progs := s.progs.set n { p with curtain :=
        { p.curtain with after := [.takeAnnouncement], moving := some false, waitValid := false } } })) ∧
    (∀ h since, p.holding = some h → h.endedAt = some since → s.now < since + 48 * h.delayMs → exec (.endDelayExpiry n) s = .next s) ∧
    (p.holding = none → exec (.endDelayExpiry n) s = .next s) ∧
    (∀ h since, p.holding = some h → h.onAir = true → h.endedAt = some since → since + 48 * h.delayMs ≤ s.now → p.nextHold = none → p.curtain.after = [] →
      p.curtain.pos ≠ 0 → bestAlarm s n = none → bestAnn s p = none → exec (.endDelayExpiry n) s = .next (reselectAll { s with progs := s.progs.set n { p with curtain :=
        { p.curtain with after := [.returnNormal], moving := some false, waitValid := false } } }))

/-- On a program of the variant. REFINEMENT, once 0.5 s of audio has passed, correlates within 1 ms of the coarse lag, the
peak interpolated by the operand (log entry 137): accepted, it makes the program aligned with tau as measured, otherwise it
returns to the search. ALIGNMENT_FAILED before 3.0 s changes nothing, and of a program never aligned it raises EV_LINK
reason 3, fails the search and frees the pages. SEARCH_RESTART 30 s after a failure searches again where both paths have
members and DAB is valid. TRACKING, every 2 s, correlates within 2 ms of tau and moves its target, a first weak estimate is
only counted, and a window with a gap in it is only noted (R267); the loudness offset is taken over each such window (R250).
PAGE_REQUEST_GRANT gives the first waiting program its pages when they are free, and changes nothing else.
(09_linking_alignment_blending.md (R246, R247, R248, R249, R253, R254)) -/
def Obligations.AlignmentRowsSearchRefineTrackAndGrant : Prop :=
  ∀ (s : State) (n : Nat) (p : Program), progAt s n = some p →
    (∀ o t lag c frac, p.align = .refining t lag c → c + 24000 ≤ s.now → refineAbout 500 (48 * lag) 1 frac p = some o → accepted o = true → p.pages = 0 →
      p.outDab = false → ∃ u q, exec (.refinement n frac) s = .next u ∧ progAt u n = some q ∧ q.align = .aligned ∧ q.tau = (o.ticks : Rat) ∧ q.tauTarget = o.ticks ∧ q.wasAligned = true ∧
      q.members = p.members ∧ q.selA = p.selA ∧ q.selD = p.selD ∧ (∀ k, k ≠ n → progAt u k = progAt s k) ∧ u.lanes = s.lanes) ∧
    (∀ t lag c frac, p.align = .refining t lag c → s.now < c + 24000 → exec (.refinement n frac) s = .next s) ∧
    (∀ t lag c frac, p.align = .refining t lag c → c + 24000 ≤ s.now → (refineAbout 500 (48 * lag) 1 frac p).any accepted = false →
      exec (.refinement n frac) s = .next { s with progs := s.progs.set n { p with align := .searching t } }) ∧
    (∀ t lag c, (p.align = .searching t ∨ p.align = .refining t lag c) → s.now < t + 144000 → exec (.alignmentFailed n) s = .next s) ∧
    (∀ t lag c, (p.align = .searching t ∨ p.align = .refining t lag c) → t + 144000 ≤ s.now → p.wasAligned = false → ∃ u, exec (.alignmentFailed n) s = .next u ∧
      progAt u n = some { p with align := .failed s.now, pages := 0, request := none, recordSince := none, unaligned := false, store := DelayStore.none } ∧
      (∀ k, k ≠ n → progAt u k = progAt s k) ∧ u.events = (evLink n 3 0 0 [] 0 s).events ∧ u.lanes = s.lanes) ∧
    (∀ t, p.align = .failed t → t + 1440000 ≤ s.now → exec (.searchRestart n) s = .next { s with progs := s.progs.set n { p with
      align := if p.policy.align && bothPaths p && p.dabValidAt.isSome then .searching s.now else .off } }) ∧
    (∀ t, p.align = .failed t → s.now < t + 1440000 → exec (.searchRestart n) s = .next s) ∧
    (∀ o frac, p.align = .aligned → p.trackedAt + 96000 ≤ s.now → refineAbout 2000 (roundRat p.tau) 2 frac p = some o → o.ok = true →
      -96 ≤ (o.ticks : Rat) - p.tau → (o.ticks : Rat) - p.tau ≤ 96 → o.ticks ≤ 288000 → p.pages = 0 → p.outDab = false → ∃ q,
      exec (.tracking n frac) s = .next { s with progs := s.progs.set n q } ∧ q.tauTarget = o.ticks ∧ q.tau = p.tau ∧ q.badTracks = 0 ∧ q.align = .aligned ∧
      q.members = p.members ∧ q.trackedAt = s.now ∧ q.loud = loudOf (loudnessAt 2000 (roundRat p.tau) p) p.loud) ∧
    (∀ o frac, p.align = .aligned → p.trackedAt + 96000 ≤ s.now → refineAbout 2000 (roundRat p.tau) 2 frac p = some o → o.ok = false → p.badTracks = 0 →
      exec (.tracking n frac) s = .next { s with progs := s.progs.set n { p with badTracks := 1, trackedAt := s.now, loud := loudOf (loudnessAt 2000 (roundRat p.tau) p) p.loud } }) ∧
    (∀ frac, p.align = .aligned → p.trackedAt + 96000 ≤ s.now → refineAbout 2000 (roundRat p.tau) 2 frac p = none →
      exec (.tracking n frac) s = .next { s with progs := s.progs.set n { p with trackedAt := s.now, loud := loudOf (loudnessAt 2000 (roundRat p.tau) p) p.loud } }) ∧
    (∀ frac, (p.align ≠ .aligned ∨ s.now < p.trackedAt + 96000) → exec (.tracking n frac) s = .next s) ∧
    (∀ pages t, firstWaiting s = some n → p.request = some (pages, t) → p.pages ≤ pages → (pages - p.pages ≤ pagesFree s → exec .pageRequestGrant s =
      .next { s with progs := s.progs.set n { p with pages := pages, request := none, unaligned := false, recordSince := some (p.recordSince.getD s.now) } }) ∧
      (pagesFree s < pages - p.pages → exec .pageRequestGrant s = .next s)) ∧
    (firstWaiting s = none → exec .pageRequestGrant s = .next s)

/-- On a TDM port. PORT_LOCK of a starting port that is not gated, in target mode after 4 correct frames, with no fault of
the port open, locks it and opens its curtain; the other port is unchanged. PORT_STOP of a stopping port with a closed
curtain and no waiting change disables it. TDM_FRAME of a locked port, at 48 kHz of the device's clock once a tick, takes
the waiting slots, counts the block modulo 192 and changes only ports and flows; of a starting target port it counts the
correct frames. FSYNC_GLITCH of a locked target port counts a glitch, PORT_CLOCK_LOSS loses the port with curtain closed,
RATE_STEP beyond 1000 ppm of the rate at lock closes its curtain, within it the tracked rate follows; a port in controller
mode ignores them. SPDIF_FRAME of a running output that stays enabled counts its block modulo 192 and carries two subframes,
the first with preamble Z at the start of a block. (11_audio_ports.md (R303, R309, R312, R316, R317, R318)) -/
def Obligations.PortRowsLockStopAndRunFrames : Prop :=
  ∀ (s : State) (n : Nat) (p : Port), s.ports.tdm[n]? = some p →
    (∀ ppm v, p.st = .starting → p.gated = false → (p.cfg.target = true → 4 ≤ p.okFrames) → faultOpen s 0x60 n = false → faultOpen s 0x61 n = false →
      v = (if p.cfg.target then ppm else 0) → ∃ t q, exec (.portLock n ppm) s = .next t ∧
      t.ports.tdm = s.ports.tdm.set n q ∧
      q = { p with st := .locked, curtainUp := true, glitchRun := 0, okFrames := 0, ppm := v, lockPpm := v, tracked := v, pendTag := none } ∧
      t.ports.spdif = s.ports.spdif ∧ t.progs = s.progs ∧ t.flows = s.flows ∧ t.clocks = s.clocks ∧
      (∀ e, s.mgr.executing = some e → e.wait = .port n → t.mgr.executing = none)) ∧
    (∀ ppm, (p.gated = true ∨ (p.st = .starting ∧ p.cfg.target = true ∧ p.okFrames < 4)) → exec (.portLock n ppm) s = .next s) ∧
    (∀ x b, p.st = .starting → p.cfg.target = true → p.gated = false → exec (.tdmFrame n x b) s =
      .next { s with ports := { s.ports with tdm := s.ports.tdm.set n { p with okFrames := if b then min 4 (p.okFrames + 1) else 0 } } }) ∧
    (p.st = .stopping → p.curtain = 0 → p.next = none → p.cfg.enable = false → faultOpen s 0x60 n = false → faultOpen s 0x61 n = false → ∃ t, exec (.portStop n) s = .next t ∧
      t.ports.tdm = s.ports.tdm.set n (stopPort p.cfg p) ∧ (stopPort p.cfg p).st = .disabled ∧ t.ports.spdif = s.ports.spdif ∧ t.progs = s.progs ∧ t.flows = s.flows) ∧
    (p.st ≠ .stopping → exec (.portStop n) s = .next s) ∧
    (∀ x b, p.st = .locked → p.gated = false → (portConverts p.cfg = true ∨ (x.1 = 0 ∧ p.frameAt ≠ some s.now)) → ∃ t q, exec (.tdmFrame n x b) s = .next t ∧ t.ports.tdm = s.ports.tdm.set n q ∧
      q.slots = p.slotsNext.getD p.slots ∧ q.slotsNext = none ∧ q.block = (p.block + 1) % 192 ∧ q.st = .locked ∧ q.cfg = p.cfg ∧
      q.frameAt = some s.now ∧ q.words.length = usableSlots p.cfg ⊓ q.slots.length ∧ (n ≠ 1 → t.flows = if b = true then admitAll s.flows else s.flows) ∧ t = { s with ports := t.ports, flows := t.flows }) ∧
    (∀ x b, (p.st = .disabled ∨ (portConverts p.cfg = false ∧ p.frameAt = some s.now ∧ p.cfg.target = false)) → exec (.tdmFrame n x b) s = .next s) ∧
    (p.cfg.target = true → p.st = .locked → p.gated = false → p.glitchRun < 2 → ∃ t q, exec (.fsyncGlitch n) s = .next t ∧ t.ports.tdm = s.ports.tdm.set n q ∧
      q.glitches = satAdd 0xFFFFFFFF p.glitches 1 ∧ q.glitchRun = p.glitchRun + 1 ∧ q.st = .locked ∧ q.slots = p.slots ∧ q.cfg = p.cfg ∧
      t.progs = s.progs ∧ t.clocks = s.clocks) ∧
    (p.cfg.target = true → p.st = .locked → p.gated = false → faultOpen s 0x61 n = false → ∃ t q, exec (.portClockLoss n) s = .next t ∧ t.ports.tdm = s.ports.tdm.set n q ∧ q.st = .lost ∧ q.curtain = 0 ∧
      q.curtainUp = false ∧ q.losses = satAdd 0xFFFFFFFF p.losses 1 ∧ q.cfg = p.cfg ∧ q.slots = p.slots ∧ t.progs = s.progs ∧ t.clocks = s.clocks) ∧
    (∀ ppm, p.cfg.target = true → p.st = .locked → p.gated = false → rateAllowed p.cfg.rate ppm = true → 100000 < (ppm - p.lockPpm).natAbs →
      ∃ t, exec (.rateStep n ppm) s = .next t ∧
      t.ports.tdm = s.ports.tdm.set n { p with curtainUp := false, ppm := ppm } ∧ Reports { s with ports := t.ports } t) ∧
    (∀ ppm, p.cfg.target = true → p.st = .locked → p.gated = false → rateAllowed p.cfg.rate ppm = true → (ppm - p.lockPpm).natAbs ≤ 100000 → faultOpen s 0x61 n = false →
      exec (.rateStep n ppm) s = .next { s with ports := { s.ports with tdm := s.ports.tdm.set n { p with ppm := ppm, tracked := smooth 1000 20 p.tracked ppm } } }) ∧
    (p.cfg.target = false → exec (.fsyncGlitch n) s = .next s ∧ exec (.portClockLoss n) s = .next s ∧ ∀ ppm, exec (.rateStep n ppm) s = .next s) ∧
    (∀ num den, s.ports.spdif.running = true → s.ports.spdif.gated = false → s.ports.spdif.cfg.enable = true → s.ports.spdif.next = none →
      (s.ports.spdif.cfg.rate ≠ 2 ∨ (num = 0 ∧ s.ports.spdif.frameAt ≠ some s.now)) → ∃ x,
      exec (.spdifFrame num den) s = .next { s with ports := { s.ports with spdif := x } } ∧ x.block = (s.ports.spdif.block + 1) % 192 ∧ x.running = true ∧
      x.cfg = s.ports.spdif.cfg ∧ x.curtain = s.ports.spdif.curtain ∧
      x.frameAt = some s.now ∧ ∃ u w, x.frame = some (u, w) ∧ u.preamble = (if s.ports.spdif.block = 0 then .z else .x) ∧ w.preamble = .y) ∧
    (s.ports.spdif.running = false → ∀ num den, exec (.spdifFrame num den) s = .next s)

/-- With the main domain ready. PACKET_ARRIVAL of a defined kind other than 0x15, of a source that exists and at most 1024
bytes, and whose source gives output, with room in the pool, adds one numbered packet with its timestamp to every open flow
of that kind and source whose class is urgent, whose queue is below its limit and that holds nothing back, unless it repeats
the dynamic label that the flow has; bit 0 of its flags says that it failed a check or a word of it failed parity, which is
counted, bit 1 that packets before it were dropped; a dynamic label whose check failed is withheld (R220); flows of another
kind or source, and all else, are unchanged. A failed data group only counts a source error on the flows that would take it.
FLOW_DROP_RECORD of a flow with new drops and no record in the last second raises EV_FLOW_DROP reason 0xFF with them and
clears the count; with no new drops it changes nothing. (12_data_flows_and_egress.md (R327, R329, R339, R341),
08_dab_services_and_audio_decoding.md (R220, R221), 18_integrity_and_fault_precedence.md (R504)) -/
def Obligations.FlowRowsQueuePacketsAndReportDrops : Prop :=
  ∀ s : State, s.reset_.domain = .ready →
    (∀ kind src q failed bad l, sourceExists s src = true → flowKinds.contains kind = true → givesOutput s kind src = true → kind ≠ 0x15 → (kind = 0x14 → failed = false) → l.length ≤ 1024 →
      poolUsed s.flows + s.flows.flows.length * (12 + l.length) ≤ 2097152 → ∃ t,
      exec (.packetArrival kind src q ⟨failed, bad⟩ l) s = .next t ∧ Reports { s with flows := { s.flows with flows := t.flows.flows } } t ∧
      (bad = false → t.integ = s.integ ∧ t.events = s.events) ∧
      t.flows.flows.length = s.flows.flows.length ∧
      (∀ i f, flowAt s i = some f → takes kind src q f = false → flowAt t i = some f) ∧
      (∀ i f, flowAt s i = some f → takes kind src q f = true → repeats kind l f = false → f.queue.length < f.limit → f.cls = 0 → f.held = [] → ∃ g k, flowAt t i = some g ∧
        g.queue = f.queue ++ [k] ∧ k.kind = kind ∧ k.source = src ∧ k.dfc = s.time.dfc ∧ k.seq = f.pktSeq ∧ k.payload = l ∧ k.flags = flag (failed || bad) ||| (if f.dropMark then 2 else 0) ∧ g.dropMark = false ∧
        g.pktSeq = (f.pktSeq + 1) % 65536 ∧ g.st = .opened)) ∧
    (∀ src q bad l, sourceExists s src = true → givesOutput s 0x15 src = true → exec (.packetArrival 0x15 src q ⟨true, bad⟩ l) s =
      .next { s with flows := { s.flows with flows := s.flows.flows.map (fun f => if takes 0x15 src q f then { f with sourceErrors := satAdd 0xFFFFFFFF f.sourceErrors 1 } else f) } }) ∧
    (∀ kind src q failed bad l, sourceExists s src = true → (flowKinds.contains kind = false ∨ givesOutput s kind src = false) →
      exec (.packetArrival kind src q ⟨failed, bad⟩ l) s = .next s) ∧
    (∀ i f, flowAt s i = some f → 0 < f.dropsNew → f.dropRecAt = none → exec (.flowDropRecord i) s =
      .next (evFlowDrop i 0xFF f.dropsNew { s with flows := { s.flows with flows := s.flows.flows.set i { f with dropsNew := 0, dropRecAt := some s.now } } })) ∧
    (∀ i f t, flowAt s i = some f → f.dropRecAt = some t → s.now < t + 48000 → exec (.flowDropRecord i) s = .next s) ∧
    (∀ i f, flowAt s i = some f → f.dropsNew = 0 → exec (.flowDropRecord i) s = .next s)

/-- Outside a gated main domain with no watch. REFERENCE_ABSENT makes locked synthesizers coast and keeps the DFC.
REFERENCE_PRESENT brings the reference back: with a coasting synthesizer in build-out, else present. BUILD_OUT_COMPLETE
locks the synthesizer it names with its offset. PLL_LOSS_OF_LOCK of PLL-S makes it relock with fault 0x41 open, of PLL-A
gates it with every port and opens fault 0x50, of PLL-N makes it relock. PLL_LOCK with the reference present and no fault of
the synthesizer open locks it; the first lock of PLL-A sets the DFC to 0 and moves the epoch unless the reset was cold.
PLL_S_RELOCK_RETRY locks PLL-S or leaves it locking. Ports move only as the recovery of a port does (R513, R320).
(16_clocks_and_synthesis.md (R444, R460, R461, R462, R463, R466, R467), 01_receiving_the_band_as_a_whole.md (R27)) -/
def Obligations.ReferenceAndSynthesizerRowsMoveTheClocks : Prop :=
  ∀ s : State,
    (s.reset_.domain = .ready → s.clocks.ref ≠ .absent → ∃ t, exec .referenceAbsent s = .next t ∧ t.clocks.ref = .absent ∧
      t.clocks.pllS = (if s.clocks.pllS = .locked ∨ s.clocks.pllS = .hopping then .coasting else s.clocks.pllS) ∧
      t.clocks.pllA = (if s.clocks.pllA = .locked then .coasting else s.clocks.pllA) ∧ t.clocks.plan = s.clocks.plan ∧ t.time.dfc = s.time.dfc ∧
      t.time.epoch = s.time.epoch ∧ t.time.inUse = false ∧ t.lanes = s.lanes ∧ t.progs = s.progs ∧ t.retained = s.retained ∧
      t.ports.spdif = s.ports.spdif ∧ ((∀ r ∈ s.integ.recoveries, r.rank ≠ 6) → t.ports = s.ports)) ∧
    (s.clocks.ref = .absent → exec .referenceAbsent s = .next s) ∧
    (s.reset_.domain = .ready → s.clocks.ref = .absent → ∃ t, exec .referencePresent s = .next t ∧
      t.clocks.ref = (if s.clocks.pllS = .coasting ∨ s.clocks.pllA = .coasting then .buildOut else .present) ∧ t.clocks.pllS = s.clocks.pllS ∧
      t.clocks.pllA = s.clocks.pllA ∧ t.time.dfc = s.time.dfc ∧ t.time.epoch = s.time.epoch ∧ t.lanes = s.lanes ∧ t.progs = s.progs ∧
      t.ports.spdif = s.ports.spdif ∧ ((∀ r ∈ s.integ.recoveries, r.rank ≠ 6) → t.ports = s.ports)) ∧
    (s.clocks.ref ≠ .absent → exec .referencePresent s = .next s) ∧
    (∀ ps err, s.clocks.ref = .buildOut → s.clocks.pllS = .coasting → ∃ t, exec (.buildOutComplete .s ps err) s = .next t ∧ t.clocks.pllS = .locked ∧
      t.clocks.offS = ps ∧ t.clocks.pllA = s.clocks.pllA ∧ t.clocks.ref = (if s.clocks.pllA = .coasting then .buildOut else .present) ∧ t.lanes = s.lanes) ∧
    (∀ ps err, s.clocks.ref = .buildOut → s.clocks.pllA = .coasting → ∃ t, exec (.buildOutComplete .a ps err) s = .next t ∧ t.clocks.pllA = .locked ∧
      t.clocks.offA = ps ∧ t.clocks.pllS = s.clocks.pllS ∧ t.clocks.ref = (if s.clocks.pllS = .coasting then .buildOut else .present) ∧ t.lanes = s.lanes) ∧
    (s.clocks.pllS = .locked → s.clocks.ref ≠ .absent → ∃ t, exec (.pllLossOfLock .s) s = .next t ∧ t.clocks.pllS = .locking ∧ faultOpen t 0x41 0 = true ∧
      t.clocks.pllA = s.clocks.pllA ∧ t.lanes = s.lanes ∧ t.progs = s.progs ∧
      t.ports.spdif = s.ports.spdif ∧ ((∀ r ∈ s.integ.recoveries, r.rank ≠ 6) → t.ports = s.ports)) ∧
    (s.clocks.pllA = .locked → s.clocks.ref = .present → ∃ t, exec (.pllLossOfLock .a) s = .next t ∧ t.clocks.pllA = .gated ∧ faultOpen t 0x50 0 = true ∧
      t.clocks.pllS = s.clocks.pllS ∧ t.ports.tdm = s.ports.tdm.map gatePort ∧ t.time.dfc = s.time.dfc ∧ t.lanes = s.lanes ∧ t.progs = s.progs) ∧
    (s.clocks.pllN = .locked → ∃ t, exec (.pllLossOfLock .n) s = .next t ∧ Reports { s with clocks := { s.clocks with pllN := .locking } } t) ∧
    (s.clocks.pllS = .locking → s.clocks.ref ≠ .absent → faultOpen s 0x41 0 = false → ∃ t, exec (.pllLock .s) s = .next t ∧ t.clocks.pllS = .locked ∧
      t.clocks.pllA = s.clocks.pllA ∧ (s.clocks.pllA = .locked → t.clocks.startLocked = true) ∧ t.lanes = s.lanes ∧ t.progs = s.progs ∧ t.ports = s.ports) ∧
    ((s.clocks.pllA = .locking ∨ s.clocks.pllA = .gated) → s.clocks.ref = .present → faultOpen s 0x50 0 = false → ∃ t, exec (.pllLock .a) s = .next t ∧
      t.clocks.pllA = .locked ∧ t.time.started = true ∧ (s.time.started = true → t.time.dfc = s.time.dfc ∧ t.time.epoch = s.time.epoch) ∧
      (s.time.started = false → t.time.dfc = 0 ∧ t.time.epoch = if s.time.coldLock then s.time.epoch else s.time.epoch + 1) ∧ t.lanes = s.lanes ∧ t.progs = s.progs) ∧
    (s.clocks.pllN = .locking → s.clocks.ref ≠ .absent → ∃ t, exec (.pllLock .n) s = .next t ∧ t.clocks = { s.clocks with pllN := .locked } ∧
      t.ghost.watch = s.ghost.watch ∧ t.lanes = s.lanes) ∧
    (∀ b, s.clocks.pllS = .locking → faultOpen s 0x41 0 = true → s.clocks.ref ≠ .absent → holdsSlot (becomesRunnable 0x41 0 s) 0x41 0 = true → ∃ t,
      exec (.pllSRelockRetry b) s = .next t ∧ t.clocks.pllS = (if b then .locked else .locking) ∧ t.clocks.pllA = s.clocks.pllA ∧ t.lanes = s.lanes)

/-- TRIM_STEP with PLL-S locked, 1 ms after the last step, moves the trim toward its target by at most 200 units and stops
there, raising EV_CMD_DONE for a pending FREQ_TRIM when it arrives; engines settle their clock figure anew (R197) and no
assignment changes; at its target nothing changes. SYNC_CAPTURE of an armed edge with the reference there disarms, and
changes nothing else; without arming nothing changes. SYNC_INSTANT after a capture sets the DFC to 0, adds one to the epoch
and to the edge count, zeroes the build-out offsets, cancels every pending cue and releases every held effect.
(16_clocks_and_synthesis.md (R457, R458, R463), 15_commands_programs_ports_flows_clocks_power.md (R427),
01_receiving_the_band_as_a_whole.md (R27, R29, R34)) -/
def Obligations.TrimAndSyncRowsMoveTrimAndTimeline : Prop :=
  ∀ s : State,
    (∀ t, s.clocks.pllS = .locked → s.clocks.trim ≠ s.clocks.target → s.clocks.stepAt + 48 ≤ s.now → s.clocks.trimTag = none →
      t = s.clocks.trim + clampInt (-200) 200 (s.clocks.target - s.clocks.trim) →
      exec .trimStep s = .next (afterTrim { s with clocks := { s.clocks with trim := t, stepAt := s.now, trimTag := none } }) ∧ (t - s.clocks.trim).natAbs ≤ 200 ∧
      (t - s.clocks.target).natAbs < (s.clocks.trim - s.clocks.target).natAbs) ∧
    (∀ tag, s.clocks.pllS = .locked → s.clocks.trim ≠ s.clocks.target → s.clocks.stepAt + 48 ≤ s.now → s.clocks.trimTag = some tag →
      (s.clocks.target - s.clocks.trim).natAbs ≤ 200 → exec .trimStep s =
        .next (evCmdDone 0x84 tag stOk (afterTrim { s with clocks := { s.clocks with trim := s.clocks.target, stepAt := s.now, trimTag := none } }))) ∧
    (∀ e x, engineAt s e = some x → x.st ≠ .free → ∃ y, engineAt (afterTrim s) e = some y ∧ y.clockSince = x.clockSince.map (fun _ => s.now) ∧
      y.acq = x.acq ∧ y.st = x.st ∧ y.freq = x.freq) ∧
    ((afterTrim s).clocks = s.clocks ∧ (afterTrim s).progs = s.progs ∧ (afterTrim s).inputs = s.inputs) ∧
    (s.clocks.trim = s.clocks.target → exec .trimStep s = .next s) ∧
    (s.time.armed = true → s.clocks.ref ≠ .absent → exec .syncCapture s = .next { s with time := { s.time with armed := false, captured := true } }) ∧
    (s.time.armed = false → exec .syncCapture s = .next s) ∧
    (s.time.captured = true → ∃ t, exec .syncInstant s = .next t ∧ t.time.dfc = 0 ∧ t.time.epoch = s.time.epoch + 1 ∧
      t.time.edges = satAdd 65535 s.time.edges 1 ∧ t.time.captured = false ∧ t.time.armed = s.time.armed ∧ t.clocks.offS = 0 ∧ t.clocks.offA = 0 ∧
      t.clocks.plan = s.clocks.plan ∧ t.clocks.pllA = s.clocks.pllA ∧ t.cues = [] ∧ t.held = [] ∧ t.lanes = s.lanes ∧ t.link = s.link ∧ t.inputs = s.inputs) ∧
    (s.time.captured = false → exec .syncInstant s = .next s)

/-- With the backup domain powered. SAG_WARNING below 2.92 V raises EV_SUPPLY reason 0 and marks the sag, and at 2.92 V or
above changes nothing. SAG_CLEARED above 2.97 V ends the sag and writes what waited; at 2.97 V or below changes nothing.
SWITCH_OVER below 2.85 V moves the backup domain to VBAK, counts it and raises reason 2. SWITCH_BACK above 2.90 V moves it
back and changes nothing else. VIO_LEVEL_CHANGE sets the level, from 2.4 V the 3.3 V thresholds and below 1.4 V the release
of the outputs. (17_supplies_resets_ghost_light_lifecycle.md (R469, R471, Table 17-2)) -/
def Obligations.SupplyRowsFollowTheThresholds : Prop :=
  ∀ s : State, s.supply.backupOn = true →
    (∀ mv, s.supply.sag = false → mv < 2920 →
      exec (.sagWarning mv) s = .next (evSupply 0 { s with supply := { s.supply with vmain := mv, sag := true } })) ∧
    (∀ mv, 2920 ≤ mv → exec (.sagWarning mv) s = .next s) ∧
    (∀ mv, s.supply.sag = true → 2970 < mv → ∃ t, exec (.sagCleared mv) s = .next t ∧ t.supply = { s.supply with vmain := mv, sag := false } ∧
      (∀ i < 6, (calAt t i).writeWaits = none) ∧ t.lanes = s.lanes ∧ t.progs = s.progs ∧ t.link = s.link ∧ t.reset_ = s.reset_) ∧
    (∀ mv, mv ≤ 2970 → exec (.sagCleared mv) s = .next s) ∧
    (∀ mv vbak, s.supply.onVbak = false → mv < 2850 → exec (.switchOver mv vbak) s = .next (evSupply 2
      { s with supply := { s.supply with vmain := mv, vbak := vbak, onVbak := true, switchovers := satAdd 65535 s.supply.switchovers 1 } })) ∧
    (∀ mv vbak, 2850 ≤ mv → exec (.switchOver mv vbak) s = .next s) ∧
    (∀ mv, s.supply.onVbak = true → 2900 < mv → exec (.switchBack mv) s = .next { s with supply := { s.supply with vmain := mv, onVbak := false } }) ∧
    (∀ mv, mv ≤ 2900 → exec (.switchBack mv) s = .next s) ∧
    (∀ mv, ∃ t, exec (.vioLevelChange mv) s = .next t ∧ t.supply = { s.supply with vio := mv, vio33 := decide (2400 ≤ mv), ioTristate := decide (mv < 1400) } ∧
      Reports { s with supply := t.supply } t)

/-- HARD_HALT below 2.70 V of a running main domain gates it: links, cues, lanes and programs are as after reset, the
retained bank stays unless a write of a table is in progress (log entry 128), and the halt is counted; of one already gated
records the voltages. MAIN_DOMAIN_RETURN above 2.97 V after a hard halt starts it with cause 4 and ends the watch.
BACKUP_POWER_ON makes a cold reset with the address of the ADDR balls: retained bank and log wiped, fuses kept, the main
domain starting when VMAIN is above 2.97 V and RESETN high. BACKUP_LOSS stops every domain.
VMAIN_RISE_AFTER_BACKUP_ONLY_START above 2.97 V starts the main domain with cause 0.
(17_supplies_resets_ghost_light_lifecycle.md (R471, R472, R473, R474, R475, R479, R487), 13_control_link.md (R350, R375)) -/
def Obligations.HaltAndBackupRowsStopAndStartTheDomains : Prop :=
  ∀ s : State,
    (∀ mv vb, s.supply.backupOn = true → s.reset_.domain = .ready → mv < 2700 → ∃ t, exec (.hardHalt mv vb) s = .next t ∧ t.reset_.domain = .off ∧
      t.reset_.offCause = .hardHalt ∧ t.reset_.offTicks = 0 ∧ t.supply = { s.supply with vmain := mv, vbak := vb, halts := satAdd 65535 s.supply.halts 1 } ∧
      t.link.queue = [] ∧ t.link.fifo = [] ∧ t.link.address = s.link.address ∧ t.cues = [] ∧ t.held = [] ∧ t.lanes = Lanes.reset s.chip.variant ∧
      t.progs = List.replicate s.chip.variant.programs Program.stopped ∧ t.retained = (cutWrite s).retained ∧ (s.retained.writing = none → t.retained = s.retained) ∧ t.chip = s.chip ∧ t.ghost = s.ghost ∧
      faultOpen t 0x10 0 = true) ∧
    (∀ mv vb, s.supply.backupOn = true → 2700 ≤ mv → exec (.hardHalt mv vb) s = .next s) ∧
    (∀ mv, s.supply.backupOn = true → s.reset_.domain = .off → s.reset_.offCause = .hardHalt → s.supply.resetnLow = false → 2970 < mv → ∃ t,
      exec (.mainDomainReturn mv) s = .next t ∧ t.reset_.domain = .starting ∧ t.reset_.cause = .mainReturn ∧ t.reset_.offCause = .none ∧ t.ghost.watch = .off ∧
      t.supply = { s.supply with vmain := mv } ∧ t.chip = s.chip ∧ t.retained.stations = s.retained.stations ∧ t.retained.scene = s.retained.scene) ∧
    (∀ mv, mv ≤ 2970 → exec (.mainDomainReturn mv) s = .next s) ∧
    (∀ a b mv vb, s.supply.backupOn = false → ∃ t, exec (.backupPowerOn a b mv vb) s = .next t ∧ t.link.address = 0x30 + 2 * flag a + flag b ∧
      t.retained = Retained.wiped ∧ t.chip = { s.chip with oemWritten := false } ∧ t.supply.backupOn = true ∧ t.supply.vmain = mv ∧ t.supply.vbak = vb ∧
      t.link.queue = [] ∧ t.link.fifo = [] ∧ t.events.queue = [] ∧ t.events.mask = 0x800FFFFF ∧ t.lanes = Lanes.reset s.chip.variant ∧
      (t.reset_.domain = .starting ↔ 2970 < mv ∧ s.supply.resetnLow = false) ∧ (t.reset_.domain = .starting ∨ t.reset_.domain = .off) ∧ t.reset_.cause = .cold) ∧
    (∀ a b mv vb, s.supply.backupOn = true → exec (.backupPowerOn a b mv vb) s = .next s) ∧
    (s.supply.backupOn = true → ∃ t, exec .backupLoss s = .next t ∧ t.supply.backupOn = false ∧ t.reset_.domain = .off ∧ t.retained = Retained.wiped ∧
      t.chip.life = s.chip.life ∧ t.chip.variant = s.chip.variant ∧ t.link.queue = [] ∧ t.clocks.pllA = .off) ∧
    (s.supply.backupOn = false → exec .backupLoss s = .next s) ∧
    (∀ mv, s.supply.backupOn = true → s.reset_.domain = .off → s.reset_.offCause = .backupOnly → s.supply.resetnLow = false → 2970 < mv → ∃ t,
      exec (.vmainRiseAfterBackupOnlyStart mv) s = .next t ∧ t.reset_.domain = .starting ∧ t.reset_.cause = .cold ∧ t.supply = { s.supply with vmain := mv } ∧
      t.chip = s.chip ∧ t.link.address = s.link.address) ∧
    (∀ mv, mv ≤ 2970 → exec (.vmainRiseAfterBackupOnlyStart mv) s = .next s)

/-- With the backup domain powered. RESETN_LOW of 1 us or more gates the main domain until RESETN_RELEASE starts it with
cause 1 and the sampled address; shorter than 200 ns it has no effect, and between them the outcome is open. WATCHDOG_EXPIRY
and FIRMWARE_RAM_ERROR of a running control core start it again with cause 3 or 5, nothing queued. DEVICE_READY makes the
domain ready, its scene still to be reapplied, or leads to blackout when the ROM or a wipe failed. SCENE_REAPPLICATION ends
the reset; without a scene it changes no lane and no program. SCENE_CAPTURE of a changed scene that is due writes it to the
retained bank. (17_supplies_resets_ghost_light_lifecycle.md (R476, R478, R479, R481, R482, R484, R485),
18_integrity_and_fault_precedence.md (R517, R518), 13_control_link.md (R350, R375)) -/
def Obligations.ResetRowsWipeStartAndReapplyTheScene : Prop :=
  ∀ s : State, s.supply.backupOn = true →
    (∀ ns, s.supply.resetnLow = false → 1000 ≤ ns → s.reset_.domain = .ready → ∃ t, exec (.resetnLow ns) s = .next t ∧ t.supply = { s.supply with resetnLow := true } ∧
      t.reset_.domain = .off ∧ t.reset_.offCause = .resetn ∧ t.link.queue = [] ∧ t.link.fifo = [] ∧ t.cues = [] ∧ t.lanes = Lanes.reset s.chip.variant ∧
      t.retained = s.retained ∧ t.chip = s.chip ∧ t.ghost = s.ghost) ∧
    (∀ ns, ns < 200 → exec (.resetnLow ns) s = .next s) ∧
    (∀ ns, s.supply.resetnLow = false → 200 ≤ ns → ns < 1000 → ∃ t, exec (.resetnLow ns) s = .next t ∧ t.draws = s.draws + 1 ∧ t.supply = s.supply ∧
      (t = { s with draws := s.draws + 1 } ∨ t.reset_.domain = .starting)) ∧
    (∀ a b, s.supply.resetnLow = true → s.reset_.offCause = .resetn → 2700 ≤ s.supply.vmain → ∃ t, exec (.resetnRelease a b) s = .next t ∧
      t.reset_.domain = .starting ∧ t.reset_.cause = .resetn ∧ t.link.address = 0x30 + 2 * flag a + flag b ∧ t.supply = { s.supply with resetnLow := false } ∧
      t.chip = s.chip ∧ t.ghost.cfg = s.ghost.cfg) ∧
    (∀ a b, s.supply.resetnLow = true → s.supply.vmain < 2700 →
      exec (.resetnRelease a b) s = .next { s with supply := { s.supply with resetnLow := false } }) ∧
    (s.reset_.domain = .ready → ∃ t, exec .watchdogExpiry s = .next t ∧ t.reset_.domain = .starting ∧ t.reset_.cause = .watchdog ∧ t.link.queue = [] ∧
      t.link.fifo = [] ∧ t.cues = [] ∧ t.progs = List.replicate s.chip.variant.programs Program.stopped ∧ t.chip = s.chip ∧ 1 ≤ t.reset_.coreChain) ∧
    (∀ addr, s.reset_.domain = .ready → ∃ t, exec (.firmwareRamError addr) s = .next t ∧ t.reset_.domain = .starting ∧ t.reset_.cause = .ramError ∧
      t.link.queue = [] ∧ t.link.fifo = [] ∧ t.cues = [] ∧ t.chip = s.chip ∧ 1 ≤ t.reset_.coreChain) ∧
    (∀ o, s.reset_.domain = .starting → o.wipeFailed = none → o.romOk = true → s.reset_.coreChain < 3 → ∃ t, exec (.deviceReady o) s = .next t ∧
      t.reset_.domain = .ready ∧ t.reset_.reapplying = true ∧ t.reset_.cause = s.reset_.cause ∧ t.cap.cmeas = Config.capacityOfRing (o.cmeasRings.foldl max 0) ∧
      t.chip = s.chip ∧ t.link.address = s.link.address ∧ t.supply = s.supply) ∧
    (∀ o, s.reset_.domain = .starting → o.wipeFailed = none → o.romOk = false → ∃ t, exec (.deviceReady o) s = .next t ∧ t.reset_.domain = .blackout ∧
      t.reset_.blackoutCode = some 0x33 ∧ t.reset_.reapplying = false ∧ t.chip = s.chip ∧ t.retained = s.retained) ∧
    (∀ o region, s.reset_.domain = .starting → o.wipeFailed = some region → ∃ t, exec (.deviceReady o) s = .next t ∧ t.reset_.domain = .blackout ∧
      t.reset_.blackoutCode = some 0x32 ∧ t.chip = s.chip) ∧
    (s.reset_.domain = .ready → s.reset_.reapplying = true → ∃ t, exec .sceneReapplication s = .next t ∧ t.reset_.reapplying = false ∧ t.reset_.doneQueued = true ∧
      (s.retained.scene = none → t.lanes = s.lanes ∧ t.progs = s.progs ∧ t.dab = s.dab ∧ t.reset_.doneAt = s.now ∧ t.mgr = s.mgr ∧ ((∀ r ∈ s.integ.recoveries, r.rank ≠ 6) → t.ports = s.ports))) ∧
    (s.reset_.reapplying = false → exec .sceneReapplication s = .next s) ∧
    (captureDue s = true → ∃ t x, exec .sceneCapture s = .next t ∧ t.retained.scene = some x ∧ x.ok = true ∧ x.packets = (sceneOf s).packets ∧
      x.dfc = s.time.dfc ∧ t.mgr.sceneChanged = none ∧ t.mgr.sceneCapturedAt = some s.now ∧ t = { s with retained := { s.retained with scene := some x }, mgr := t.mgr }) ∧
    (s.supply.sag = true → exec .sceneCapture s = .next s)

/-- GHOST_LIGHT_ENTRY after a hard halt with auto set, a watch configured and power for it starts the watch and leaves the
main domain gated; with auto clear nothing changes. WATCH_STATE_CHANGE with no watch changes nothing; with PLL-N locked an
expected identity takes an acquiring or lost watch to watching with that identity and raises EV_GHOST_LIGHT reason 3; a use
of FIG 0/19 on a DAB watch is kept for its cluster; the loss of a watch makes it lost; while PLL-N is unlocked an identity
changes nothing. ALERT_LOG_WRITE of a changed log marks it written, and changes nothing else.
(17_supplies_resets_ghost_light_lifecycle.md (R486, R488, R490, R491, R493), 08_dab_services_and_audio_decoding.md (R222),
16_clocks_and_synthesis.md (R466)) -/
def Obligations.GhostLightRowsWatchAndLog : Prop :=
  ∀ s : State,
    (s.supply.backupOn = true → s.reset_.domain = .off → s.reset_.offCause = .hardHalt → s.ghost.watch = .off → s.ghost.cfg.auto = true → watchSet s.ghost.cfg = true →
      2500 ≤ s.supply.vbak → ∃ t, exec .ghostLightEntry s = .next t ∧ t.ghost.watch = .acquiring ∧ t.ghost.sentinel = true ∧ t.ghost.cfg = s.ghost.cfg ∧
      t.clocks = { s.clocks with pllN := .locking } ∧ t.reset_ = s.reset_ ∧ t.retained = s.retained ∧ t.link = s.link) ∧
    (s.ghost.cfg.auto = false → exec .ghostLightEntry s = .next s) ∧
    (∀ o, s.ghost.watch = .off → exec (.watchStateChange o) s = .next s) ∧
    (∀ id, (s.ghost.watch = .acquiring ∨ s.ghost.watch = .lost) → s.clocks.pllN = .locked → (s.ghost.cfg.expectId = 0 ∨ s.ghost.cfg.expectId = id) → ∃ u,
      exec (.watchStateChange (.identity id)) s = .next (evGhost 3 u) ∧ u.ghost.watch = .watching ∧ u.ghost.identity = some id ∧ u.ghost.cfg = s.ghost.cfg ∧
      u.retained.alertLog.identity = some id ∧ u.reset_ = s.reset_ ∧ u.clocks = s.clocks ∧ u.link = s.link) ∧
    (∀ id, s.ghost.watch ≠ .off → s.clocks.pllN ≠ .locked → exec (.watchStateChange (.identity id)) s = .next s) ∧
    (s.ghost.watch = .watching → ∃ u, exec (.watchStateChange .lost) s = .next (evGhost 2 u) ∧ u.ghost.watch = .lost ∧ u.ghost.cfg = s.ghost.cfg ∧
      u.reset_ = s.reset_ ∧ u.clocks = s.clocks ∧ u.link = s.link) ∧
    (s.ghost.watch = .acquiring → exec (.watchStateChange .lost) s = .next s) ∧
    (∀ c a i w r, s.ghost.watch = .watching → s.clocks.pllN = .locked → s.ghost.cfg.watch = 2 → s.ghost.clusters.length < 16 → ∃ t k,
      exec (.watchStateChange (.switching c a i w r)) s = .next t ∧ t.ghost.clusters = k :: s.ghost.clusters.filter (·.id != c) ∧
      k.id = c ∧ k.asw = a ∧ k.subch = i ∧ k.new = w ∧ k.region = r ∧ k.usedAt = s.now ∧ t.ghost.cfg = s.ghost.cfg ∧ t.reset_ = s.reset_ ∧ t.clocks = s.clocks) ∧
    (s.supply.backupOn = true → s.retained.alertLog.changed = true → exec .alertLogWrite s =
      .next { s with retained := { s.retained with alertLog := { s.retained.alertLog with changed := false, ok := true } } }) ∧
    (s.retained.alertLog.changed = false → exec .alertLogWrite s = .next s)

/-- SCRUB, also as reads of the general buffers (log entry 135), with no uncorrectable word counts the corrected ones and
changes nothing but records; an uncorrectable word under a queued packet sets bit 0 of its flags; one of firmware RAM resets
the main domain with cause 5, and one in a calibration table fails that table. INTEGRITY_RECORD of a counter whose record is
due raises EV_INTEGRITY with its present value, otherwise changes nothing. RECOVERY_RUNNABLE of an open fault that may
begin, with no other recovery running and not aborted by one still open, gives it the recovery slot; one that may not begin
changes nothing. FAULT_LOG_WRITE moves the staged records to the log, of which the last 256 stay; during a sag it writes
nothing. BOUNDARY_SCAN sets the scan and the mirror only. (18_integrity_and_fault_precedence.md (R500, R501, R502, R505,
R507, R508, R511, R512, R513, R519, R522), 17_supplies_resets_ghost_light_lifecycle.md (R498)) -/
def Obligations.IntegrityRowsCountRecordAndLog : Prop :=
  ∀ s : State,
    (∀ x n, s.supply.backupOn = true → exec (.scrub (.retained x) n false) s = .next (count 20 n 0 s) ∧ Reports s (count 20 n 0 s)) ∧
    (∀ x n, s.reset_.domain = .ready → exec (.scrub (.firmware x) n false) s = .next (count 18 n 0 s) ∧ Reports s (count 18 n 0 s)) ∧
    (∀ x n, s.reset_.domain = .ready → exec (.scrub (.buffers x) n false) s = .next (count 16 n 0 s) ∧ Reports s (count 16 n 0 s)) ∧
    (∀ n i j f k, s.reset_.domain = .ready → flowAt s i = some f → f.queue[j]? = some k → ∃ t, exec (.scrub (.buffers (.packet i j)) n true) s = .next t ∧
      t.flows = { s.flows with flows := s.flows.flows.set i { f with queue := f.queue.set j { k with flags := (k.flags ||| 1) } } } ∧
      Reports { s with flows := t.flows } t) ∧
    (∀ n addr, s.reset_.domain = .ready → ∃ t, exec (.scrub (.firmware addr) n true) s = .next t ∧ t.reset_.domain = .starting ∧ t.reset_.cause = .ramError ∧
      t.chip = s.chip ∧ t.link.fifo = []) ∧
    (∀ n i x, s.supply.backupOn = true → i < 16 → s.retained.tables[i]? = some x → x.ok = true → ∃ t, exec (.scrub (.retained i) n true) s = .next t ∧
      t.retained = { s.retained with tables := s.retained.tables.set i { x with ok := false } } ∧ Reports { s with retained := t.retained } t) ∧
    (∀ i, recordDue s i = true → exec (.integrityRecord i) s = .next (raiseCounter i s)) ∧
    (∀ i, recordDue s i = false → exec (.integrityRecord i) s = .next s) ∧
    (∀ code inst, mayBegin s code inst = false → exec (.recoveryRunnable code inst) s = .next s) ∧
    (∀ code inst, mayBegin s code inst = true → faultOpen s code inst = true → runningRec s = none →
      (∀ r, recAt s code inst = some r → mayStart s r = true) → ∃ t, exec (.recoveryRunnable code inst) s = .next t ∧
      holdsSlot t code inst = true ∧ Handles s t) ∧
    (s.supply.backupOn = true → s.supply.sag = false → s.integ.staging ≠ [] → exec .faultLogWrite s = .next { s with retained := { s.retained with ring := lastRecords (s.retained.ring ++ s.integ.staging) }, integ := { s.integ with staging := [] } } ∧
      (lastRecords (s.retained.ring ++ s.integ.staging)).length ≤ 256) ∧
    (s.supply.sag = true → exec .faultLogWrite s = .next s) ∧
    (∀ b, ∃ t, exec (.boundaryScan b) s = .next t ∧ t = { s with integ := { s.integ with scan := b }, events := { s.events with mirror := t.events.mirror } })

/-- A fused-off unit has no events (R2, R17), so a row that names an input, feed line, lane, engine, decoder, program, port
or flow which the state does not hold stops by name. That it is a fault is the model's choice (log entry 23); every row of a
unit that exists completes. (00_scope.md (R2, R4), 01_receiving_the_band_as_a_whole.md (R17)) -/
def Obligations.AbsentUnitsAreRefusedByName : Prop :=
  ∀ s : State,
    (∀ i, bonded s i = false → (∀ c n, exec (.gainWindow64us i c n) s = .fault .absentUnit) ∧ (∀ r, exec (.gainWindow1ms i r) s = .fault .absentUnit) ∧
      (∀ l, exec (.binMapUpdate i l) s = .fault .absentUnit) ∧ exec (.inputFifoDrop i) s = .fault .absentUnit ∧
      exec (.calIntervalTrigger i) s = .fault .absentUnit ∧ (∀ o, exec (.calRetry i o) s = .fault .absentUnit) ∧
      (∀ o, exec (.evaluationWindowEnd i o) s = .fault .absentUnit) ∧ (∀ o, exec (.subWindowEnd i o) s = .fault .absentUnit)) ∧
    (∀ n, feedLines s.chip.variant ≤ n → exec (.feedFault n) s = .fault .absentUnit ∧ exec (.feedRetry n) s = .fault .absentUnit) ∧
    (∀ n, s.lanes.fm.length ≤ n → exec (.rdsGroup n) s = .fault .absentUnit ∧ exec (.identityLost n) s = .fault .absentUnit ∧
      (∀ o, exec (.pilotStateChange n o) s = .fault .absentUnit)) ∧
    (∀ e, s.dab.engines.length ≤ e → (∀ o, exec (.dabFrame e o) s = .fault .absentUnit) ∧ (∀ o, exec (.cifBoundary e o) s = .fault .absentUnit) ∧
      exec (.engineAbandon e) s = .fault .absentUnit ∧ exec (.drainingEnd true e) s = .fault .absentUnit) ∧
    (∀ n, s.progs.length ≤ n → exec (.curtainClosed n) s = .fault .absentUnit ∧ exec (.crossfadeEnd n) s = .fault .absentUnit ∧
      ∀ frac, exec (.tracking n frac) s = .fault .absentUnit) ∧
    (∀ n, s.decoders.length ≤ n → exec (.decoderFirstValidSample n) s = .fault .absentUnit) ∧
    (∀ n, s.ports.tdm.length ≤ n → exec (.portStop n) s = .fault .absentUnit ∧ exec (.portClockLoss n) s = .fault .absentUnit) ∧
    (∀ n, s.flows.flows.length ≤ n → exec (.flowDropRecord n) s = .fault .absentUnit)
end

