-- ==== Sys2Proof/Laws/Shape.lean ====
section
/-! SUPPORT. How a record update meets the invariant `Fits`: what the updated fields have to satisfy. -/

namespace Sys2Proof.Machine

@[simp] theorem fits_mk (pending : List Instr) (now draws : Nat) (chip : Chip) (supply : Supply) (reset_ : Reset) (thermal : Thermal)
    (link : Link) (events : Events) (time : Timeline) (clocks : Clocks) (cues : List Cue) (held : List HeldEffect) (mgr : Manager)
    (inputs : List Input) (feeds : List Feed) (cal : Cal) (lanes : Lanes) (rds : Rds) (scan : Scan) (dab : Dab)
    (decoders : List Decoder) (progs : List Program) (alerts : Alerts) (cap : Capacity) (ports : Ports) (flows : Flows)
    (ghost : Ghost) (retained : Retained) (integ : Integrity) :
    Fits ⟨pending, now, draws, chip, supply, reset_, thermal, link, events, time, clocks, cues, held, mgr, inputs, feeds, cal,
      lanes, rds, scan, dab, decoders, progs, alerts, cap, ports, flows, ghost, retained, integ⟩ ↔
    (link.queue.length ≤ 4 ∧ link.fifo.length ≤ 4 ∧ events.queue.length ≤ 255 ∧ integ.staging.length ≤ 16 ∧ retained.ring.length ≤ 256) ∧
    inputs.length = 6 ∧ feeds.length = 4 ∧ cal.inputs.length = 6 ∧ lanes.fm.length = chip.variant.fmLanes ∧
    lanes.am.length = chip.variant.amLanes ∧ dab.engines.length = chip.variant.engines ∧
    decoders.length = chip.variant.programs ∧ progs.length = chip.variant.programs ∧
    flows.flows.length = chip.variant.flows ∧ flows.classes.length = 4 ∧ ports.tdm.length = 2 ∧
    ports.status.length = 4 ∧ clocks.outs.length = 4 ∧ clocks.band.length = 4 ∧ integ.counters.length = 32 ∧
    integ.recorded.length = 32 ∧ rds.stations.length = 512 ∧ retained.stations.length = 512 ∧ retained.tables.length = 18 ∧ retained.band.length = 4 := Iff.rfl

section
variable {s : State} (h : Fits s)
include h
@[simp] theorem fits_queue : s.link.queue.length ≤ 4 := h.1.1
@[simp] theorem fits_fifo : s.link.fifo.length ≤ 4 := h.1.2.1
@[simp] theorem fits_events : s.events.queue.length ≤ 255 := h.1.2.2.1
@[simp] theorem fits_staging : s.integ.staging.length ≤ 16 := h.1.2.2.2.1
@[simp] theorem fits_ring : s.retained.ring.length ≤ 256 := h.1.2.2.2.2
@[simp] theorem fits_inputs : s.inputs.length = 6 := h.2.1
@[simp] theorem fits_feeds : s.feeds.length = 4 := h.2.2.1
@[simp] theorem fits_cal : s.cal.inputs.length = 6 := h.2.2.2.1
@[simp] theorem fits_fm : s.lanes.fm.length = s.chip.variant.fmLanes := h.2.2.2.2.1
@[simp] theorem fits_am : s.lanes.am.length = s.chip.variant.amLanes := h.2.2.2.2.2.1
@[simp] theorem fits_engines : s.dab.engines.length = s.chip.variant.engines := h.2.2.2.2.2.2.1
@[simp] theorem fits_decoders : s.decoders.length = s.chip.variant.programs := h.2.2.2.2.2.2.2.1
@[simp] theorem fits_progs : s.progs.length = s.chip.variant.programs := h.2.2.2.2.2.2.2.2.1
@[simp] theorem fits_flows : s.flows.flows.length = s.chip.variant.flows := h.2.2.2.2.2.2.2.2.2.1
@[simp] theorem fits_classes : s.flows.classes.length = 4 := h.2.2.2.2.2.2.2.2.2.2.1
@[simp] theorem fits_tdm : s.ports.tdm.length = 2 := h.2.2.2.2.2.2.2.2.2.2.2.1
@[simp] theorem fits_status : s.ports.status.length = 4 := h.2.2.2.2.2.2.2.2.2.2.2.2.1
@[simp] theorem fits_outs : s.clocks.outs.length = 4 := h.2.2.2.2.2.2.2.2.2.2.2.2.2.1
@[simp] theorem fits_band : s.clocks.band.length = 4 := h.2.2.2.2.2.2.2.2.2.2.2.2.2.2.1
@[simp] theorem fits_counters : s.integ.counters.length = 32 := h.2.2.2.2.2.2.2.2.2.2.2.2.2.2.2.1
@[simp] theorem fits_recorded : s.integ.recorded.length = 32 := h.2.2.2.2.2.2.2.2.2.2.2.2.2.2.2.2.1
@[simp] theorem fits_stations : s.rds.stations.length = 512 := h.2.2.2.2.2.2.2.2.2.2.2.2.2.2.2.2.2.1
@[simp] theorem fits_bank : s.retained.stations.length = 512 := h.2.2.2.2.2.2.2.2.2.2.2.2.2.2.2.2.2.2.1
@[simp] theorem fits_tables : s.retained.tables.length = 18 := h.2.2.2.2.2.2.2.2.2.2.2.2.2.2.2.2.2.2.2.1
@[simp] theorem fits_kept : s.retained.band.length = 4 := h.2.2.2.2.2.2.2.2.2.2.2.2.2.2.2.2.2.2.2.2
end

@[simp] theorem length_upd {α : Type} (l : List α) (i : Nat) (f : α → α) : (upd l i f).length = l.length := by
  unfold upd; split <;> simp

@[simp] theorem length_mapIdx' {α β : Type} (f : Nat → α → β) (l : List α) : (mapIdx f l).length = l.length := by
  simp [mapIdx]

@[simp] theorem ite_pending (c : Prop) [Decidable c] (a b : State) :
    (if c then a else b).pending = if c then a.pending else b.pending := apply_ite ..

@[simp] theorem ite_chip (c : Prop) [Decidable c] (a b : State) :
    (if c then a else b).chip = if c then a.chip else b.chip := apply_ite ..

@[simp] theorem ite_fits (c : Prop) [Decidable c] (a b : State) (ha : Fits a) (hb : Fits b) : Fits (if c then a else b) := by
  split <;> assumption

theorem foldl_inv {α β : Type} (P : β → Prop) (l : List α) (f : β → α → β) (b : β) (h : P b) (hf : ∀ b x, P b → P (f b x)) :
    P (l.foldl f b) := by
  induction l generalizing b with
  | nil => exact h
  | cons x l ih => exact ih _ (hf _ _ h)

/-! Folds: what each step keeps, the fold keeps. -/

@[simp] theorem foldl_pending {α : Type} (l : List α) (f : State → α → State) (s : State)
    (h : ∀ s x, (f s x).pending = s.pending) : (l.foldl f s).pending = s.pending := by
  induction l generalizing s with
  | nil => rfl
  | cons x l ih => simp [ih, h]

@[simp] theorem foldl_chip {α : Type} (l : List α) (f : State → α → State) (s : State)
    (h : ∀ s x, (f s x).chip = s.chip) : (l.foldl f s).chip = s.chip := by
  induction l generalizing s with
  | nil => rfl
  | cons x l ih => simp [ih, h]

@[simp] theorem foldl_fits {α : Type} (l : List α) (f : State → α → State) (s : State) (hs : Fits s)
    (h : ∀ s x, Fits s → Fits (f s x)) : Fits (l.foldl f s) := by
  induction l generalizing s with
  | nil => exact hs
  | cons x l ih => exact ih _ (h _ _ hs)

@[simp] theorem forEach_pending {α : Type} (l : List α) (f : α → State → State) (s : State)
    (h : ∀ x s, (f x s).pending = s.pending) : (forEach l f s).pending = s.pending :=
  foldl_pending l _ s fun s x => h x s

@[simp] theorem forEach_chip {α : Type} (l : List α) (f : α → State → State) (s : State)
    (h : ∀ x s, (f x s).chip = s.chip) : (forEach l f s).chip = s.chip :=
  foldl_chip l _ s fun s x => h x s

@[simp] theorem forEach_fits {α : Type} (l : List α) (f : α → State → State) (s : State) (hs : Fits s)
    (h : ∀ x s, Fits s → Fits (f x s)) : Fits (forEach l f s) :=
  foldl_fits l _ s hs fun s x => h x s

theorem forEach_keeps {α : Type} (l : List α) (f : α → State → State) (s : State)
    (h : ∀ x s, (f x s).pending = s.pending ∧ (f x s).chip = s.chip) :
    (forEach l f s).pending = s.pending ∧ (forEach l f s).chip = s.chip :=
  ⟨forEach_pending _ _ _ fun x s => (h x s).1, forEach_chip _ _ _ fun x s => (h x s).2⟩

theorem foldl_keeps {α : Type} (l : List α) (f : State → α → State) (s : State)
    (h : ∀ s x, (f s x).pending = s.pending ∧ (f s x).chip = s.chip) :
    (l.foldl f s).pending = s.pending ∧ (l.foldl f s).chip = s.chip :=
  ⟨foldl_pending _ _ _ fun s x => (h s x).1, foldl_chip _ _ _ fun s x => (h s x).2⟩

end Sys2Proof.Machine
end

