-- ==== Sys2Proof/Laws/FrameOps.lean ====
section
/-! SUPPORT. What each shared operation and each row leaves: `_keeps`, the queue of commands and the part; `_fits`, the
invariant `Fits`. Operations of Ops.lean, FlowOps.lean, Scene.lean, Recovery.lean, AnnounceOps.lean, CalOps.lean, ProgramOps.lean, FeedOps.lean, ResetOps.lean, Serve.lean. -/

set_option linter.all false

namespace Sys2Proof.Machine

/-! ### Ops -/

@[simp] theorem refreshMirror_keeps (s : State) : (refreshMirror s).pending = s.pending ∧ (refreshMirror s).chip = s.chip := by
  unfold refreshMirror; simp
@[simp] theorem refreshMirror_fits (s : State) (h : Fits s) : Fits (refreshMirror s) := by
  unfold refreshMirror; simp [h]
@[simp] theorem raise_keeps (bit : Nat) (body : List Byte) (s : State) : (raise bit body s).pending = s.pending ∧ (raise bit body s).chip = s.chip := by
  unfold raise; simp
@[simp] theorem raise_fits (bit : Nat) (body : List Byte) (s : State) (h : Fits s) : Fits (raise bit body s) := by
  unfold raise enqueue
  have := fits_events h
  refine refreshMirror_fits _ ?_
  split
  · next hl => simp [h]; omega
  · split <;> simp [h]
@[simp] theorem evCmdDone_keeps (opc : Byte) (tag : Byte) (status : Nat) (a : State) : (evCmdDone opc tag status a).pending = a.pending ∧ (evCmdDone opc tag status a).chip = a.chip := by
  unfold evCmdDone; simp
@[simp] theorem evCmdDone_fits (opc : Byte) (tag : Byte) (status : Nat) (a : State) (h : Fits a) : Fits (evCmdDone opc tag status a) := by
  unfold evCmdDone; simp [h]
@[simp] theorem evLane_keeps (source : Nat) (reason : Nat) (detail : Nat) (a : Nat) (b : Nat) (c : Int) (x1 : State) : (evLane source reason detail a b c x1).pending = x1.pending ∧ (evLane source reason detail a b c x1).chip = x1.chip := by
  unfold evLane; simp
@[simp] theorem evLane_fits (source : Nat) (reason : Nat) (detail : Nat) (a : Nat) (b : Nat) (c : Int) (x1 : State) (h : Fits x1) : Fits (evLane source reason detail a b c x1) := by
  unfold evLane; simp [h]
@[simp] theorem evService_keeps (engine : Nat) (reason : Nat) (eid : Id16) (sid : Id32) (scids : Nat) (value : Int) (a : State) : (evService engine reason eid sid scids value a).pending = a.pending ∧ (evService engine reason eid sid scids value a).chip = a.chip := by
  unfold evService; simp
@[simp] theorem evService_fits (engine : Nat) (reason : Nat) (eid : Id16) (sid : Id32) (scids : Nat) (value : Int) (a : State) (h : Fits a) : Fits (evService engine reason eid sid scids value a) := by
  unfold evService; simp [h]
@[simp] theorem evLink_keeps (program : Nat) (reason : Nat) (a : Nat) (b : Nat) (key : List Byte) (c : Int) (x1 : State) : (evLink program reason a b key c x1).pending = x1.pending ∧ (evLink program reason a b key c x1).chip = x1.chip := by
  unfold evLink; simp
@[simp] theorem evLink_fits (program : Nat) (reason : Nat) (a : Nat) (b : Nat) (key : List Byte) (c : Int) (x1 : State) (h : Fits x1) : Fits (evLink program reason a b key c x1) := by
  unfold evLink; simp [h]
@[simp] theorem evCalDone_keeps (input : Nat) (plan : Nat) (x1 : Int) (len : Nat) (flags : Nat) (a : State) : (evCalDone input plan x1 len flags a).pending = a.pending ∧ (evCalDone input plan x1 len flags a).chip = a.chip := by
  unfold evCalDone; simp
@[simp] theorem evCalDone_fits (input : Nat) (plan : Nat) (x1 : Int) (len : Nat) (flags : Nat) (a : State) (h : Fits a) : Fits (evCalDone input plan x1 len flags a) := by
  unfold evCalDone; simp [h]
@[simp] theorem evCalDeferred_keeps (input : Nat) (reasons : Nat) (a : State) : (evCalDeferred input reasons a).pending = a.pending ∧ (evCalDeferred input reasons a).chip = a.chip := by
  unfold evCalDeferred; simp
@[simp] theorem evCalDeferred_fits (input : Nat) (reasons : Nat) (a : State) (h : Fits a) : Fits (evCalDeferred input reasons a) := by
  unfold evCalDeferred; simp [h]
@[simp] theorem evClock_keeps (clock : Nat) (reason : Nat) (value : Int) (a : State) : (evClock clock reason value a).pending = a.pending ∧ (evClock clock reason value a).chip = a.chip := by
  unfold evClock; simp
@[simp] theorem evClock_fits (clock : Nat) (reason : Nat) (value : Int) (a : State) (h : Fits a) : Fits (evClock clock reason value a) := by
  unfold evClock; simp [h]
@[simp] theorem evSupply_keeps (reason : Nat) (s : State) : (evSupply reason s).pending = s.pending ∧ (evSupply reason s).chip = s.chip := by
  unfold evSupply; simp
@[simp] theorem evSupply_fits (reason : Nat) (s : State) (h : Fits s) : Fits (evSupply reason s) := by
  unfold evSupply; simp [h]
@[simp] theorem evThermal_keeps (reason : Nat) (tj : Int) (a : State) : (evThermal reason tj a).pending = a.pending ∧ (evThermal reason tj a).chip = a.chip := by
  unfold evThermal; simp
@[simp] theorem evThermal_fits (reason : Nat) (tj : Int) (a : State) (h : Fits a) : Fits (evThermal reason tj a) := by
  unfold evThermal; simp [h]
@[simp] theorem evPort_keeps (port : Nat) (reason : Nat) (value : Int) (a : State) : (evPort port reason value a).pending = a.pending ∧ (evPort port reason value a).chip = a.chip := by
  unfold evPort; simp
@[simp] theorem evPort_fits (port : Nat) (reason : Nat) (value : Int) (a : State) (h : Fits a) : Fits (evPort port reason value a) := by
  unfold evPort; simp [h]
@[simp] theorem evFlowDrop_keeps (flow : Nat) (reason : Nat) (drops : Nat) (a : State) : (evFlowDrop flow reason drops a).pending = a.pending ∧ (evFlowDrop flow reason drops a).chip = a.chip := by
  unfold evFlowDrop; simp
@[simp] theorem evFlowDrop_fits (flow : Nat) (reason : Nat) (drops : Nat) (a : State) (h : Fits a) : Fits (evFlowDrop flow reason drops a) := by
  unfold evFlowDrop; simp [h]
@[simp] theorem evIntegrity_keeps (index : Nat) (inst : Nat) (count : Nat) (a : State) : (evIntegrity index inst count a).pending = a.pending ∧ (evIntegrity index inst count a).chip = a.chip := by
  unfold evIntegrity; simp
@[simp] theorem evIntegrity_fits (index : Nat) (inst : Nat) (count : Nat) (a : State) (h : Fits a) : Fits (evIntegrity index inst count a) := by
  unfold evIntegrity; simp [h]
@[simp] theorem evCue_keeps (cue : Nat) (qflags : Nat) (opc : Byte) (tag : Byte) (status : Nat) (exec : Dfc) (reply : List Byte) (a : State) : (evCue cue qflags opc tag status exec reply a).pending = a.pending ∧ (evCue cue qflags opc tag status exec reply a).chip = a.chip := by
  unfold evCue; simp
@[simp] theorem evCue_fits (cue : Nat) (qflags : Nat) (opc : Byte) (tag : Byte) (status : Nat) (exec : Dfc) (reply : List Byte) (a : State) (h : Fits a) : Fits (evCue cue qflags opc tag status exec reply a) := by
  unfold evCue; simp [h]
@[simp] theorem evGhost_keeps (reason : Nat) (s : State) : (evGhost reason s).pending = s.pending ∧ (evGhost reason s).chip = s.chip := by
  unfold evGhost; simp
@[simp] theorem evGhost_fits (reason : Nat) (s : State) (h : Fits s) : Fits (evGhost reason s) := by
  unfold evGhost; simp [h]
@[simp] theorem evSyncLost_keeps (reason : Nat) (a : State) : (evSyncLost reason a).pending = a.pending ∧ (evSyncLost reason a).chip = a.chip := by
  unfold evSyncLost; simp
@[simp] theorem evSyncLost_fits (reason : Nat) (a : State) (h : Fits a) : Fits (evSyncLost reason a) := by
  unfold evSyncLost; simp [h]
@[simp] theorem evAntFault_keeps (line : Nat) (reason : Nat) (retries : Nat) (a : State) : (evAntFault line reason retries a).pending = a.pending ∧ (evAntFault line reason retries a).chip = a.chip := by
  unfold evAntFault; simp
@[simp] theorem evAntFault_fits (line : Nat) (reason : Nat) (retries : Nat) (a : State) (h : Fits a) : Fits (evAntFault line reason retries a) := by
  unfold evAntFault; simp [h]
@[simp] theorem putReply_keeps (r : Reply) (s : State) : (putReply r s).pending = s.pending ∧ (putReply r s).chip = s.chip := by
  unfold putReply; (repeat' split) <;> simp
@[simp] theorem putReply_fits (r : Reply) (s : State) (h : Fits s) : Fits (putReply r s) := by
  unfold putReply; try dsimp only
  repeat' first | with_reducible assumption | intro _ | with_reducible refine forEach_fits _ _ _ ?_ ?_ | with_reducible refine foldl_fits _ _ _ ?_ ?_ | split | (simp (maxDischargeDepth := 20) [*]; done)
@[simp] theorem raiseCounter_keeps (i : Nat) (s : State) : (raiseCounter i s).pending = s.pending ∧ (raiseCounter i s).chip = s.chip := by
  unfold raiseCounter; simp
@[simp] theorem raiseCounter_fits (i : Nat) (s : State) (h : Fits s) : Fits (raiseCounter i s) := by
  unfold raiseCounter; simp [h]
@[simp] theorem count_keeps (i : Nat) (n : Nat) (inst : Nat) (s : State) : (count i n inst s).pending = s.pending ∧ (count i n inst s).chip = s.chip := by
  unfold count; (try dsimp only); (repeat' split) <;> simp_all
@[simp] theorem count_fits (i : Nat) (n : Nat) (inst : Nat) (s : State) (h : Fits s) : Fits (count i n inst s) := by
  unfold count; try dsimp only
  repeat' first | with_reducible assumption | intro _ | with_reducible refine forEach_fits _ _ _ ?_ ?_ | with_reducible refine foldl_fits _ _ _ ?_ ?_ | with_reducible refine raiseCounter_fits _ _ ?_ | split | (simp (maxDischargeDepth := 20) [*]; done)
@[simp] theorem logPhase_keeps (rank : Nat) (code : Nat) (phase : Nat) (other : Nat) (detailA : Nat) (detailB : Int) (s : State) : (logPhase rank code phase other detailA detailB s).pending = s.pending ∧ (logPhase rank code phase other detailA detailB s).chip = s.chip := by
  unfold logPhase; (try dsimp only); (repeat' split) <;> simp_all
@[simp] theorem logPhase_fits (rank : Nat) (code : Nat) (phase : Nat) (other : Nat) (detailA : Nat) (detailB : Int) (s : State) (h : Fits s) : Fits (logPhase rank code phase other detailA detailB s) := by
  unfold logPhase; dsimp only
  have hb := fits_staging h
  split
  · simp [h]
  · next h1 =>
    by_cases h0 : s.integ.logLost = 0
    · simp only [h0, if_true, h1, if_false]; simp [h]; omega
    · simp only [h0, if_false, List.length_append, List.length_cons, List.length_nil]
      split
      · refine count_fits _ _ _ _ ?_; simp [h]; omega
      · simp [h]; omega
@[simp] theorem setLane_keeps (id : Nat) (l : Lane) (s : State) : (setLane id l s).pending = s.pending ∧ (setLane id l s).chip = s.chip := by
  unfold setLane; (repeat' split) <;> simp
@[simp] theorem setLane_fits (id : Nat) (l : Lane) (s : State) (h : Fits s) : Fits (setLane id l s) := by
  unfold setLane; (repeat' split) <;> simp [h]
@[simp] theorem updLane_keeps (id : Nat) (f : Lane → Lane) (s : State) : (updLane id f s).pending = s.pending ∧ (updLane id f s).chip = s.chip := by
  unfold updLane; (repeat' split) <;> simp
@[simp] theorem updLane_fits (id : Nat) (f : Lane → Lane) (s : State) (h : Fits s) : Fits (updLane id f s) := by
  unfold updLane; (repeat' split) <;> simp [h]
@[simp] theorem updEngine_keeps (x1 : Nat) (f : Engine → Engine) (s : State) : (updEngine x1 f s).pending = s.pending ∧ (updEngine x1 f s).chip = s.chip := by
  unfold updEngine; simp
@[simp] theorem updEngine_fits (x1 : Nat) (f : Engine → Engine) (s : State) (h : Fits s) : Fits (updEngine x1 f s) := by
  unfold updEngine; simp [h]
@[simp] theorem gapEngines_keeps (x1 : Engine → Bool) (s : State) : (gapEngines x1 s).pending = s.pending ∧ (gapEngines x1 s).chip = s.chip := by
  unfold gapEngines; simp
@[simp] theorem gapEngines_fits (x1 : Engine → Bool) (s : State) (h : Fits s) : Fits (gapEngines x1 s) := by
  unfold gapEngines; simp [h]
@[simp] theorem updProgram_keeps (n : Nat) (f : Program → Program) (s : State) : (updProgram n f s).pending = s.pending ∧ (updProgram n f s).chip = s.chip := by
  unfold updProgram; simp
@[simp] theorem updProgram_fits (n : Nat) (f : Program → Program) (s : State) (h : Fits s) : Fits (updProgram n f s) := by
  unfold updProgram; simp [h]
@[simp] theorem updInput_keeps (i : Nat) (f : Input → Input) (s : State) : (updInput i f s).pending = s.pending ∧ (updInput i f s).chip = s.chip := by
  unfold updInput; simp
@[simp] theorem updInput_fits (i : Nat) (f : Input → Input) (s : State) (h : Fits s) : Fits (updInput i f s) := by
  unfold updInput; simp [h]
@[simp] theorem updFeed_keeps (i : Nat) (f : Feed → Feed) (s : State) : (updFeed i f s).pending = s.pending ∧ (updFeed i f s).chip = s.chip := by
  unfold updFeed; simp
@[simp] theorem updFeed_fits (i : Nat) (f : Feed → Feed) (s : State) (h : Fits s) : Fits (updFeed i f s) := by
  unfold updFeed; simp [h]
@[simp] theorem updCal_keeps (i : Nat) (f : CalInput → CalInput) (s : State) : (updCal i f s).pending = s.pending ∧ (updCal i f s).chip = s.chip := by
  unfold updCal; simp
@[simp] theorem updCal_fits (i : Nat) (f : CalInput → CalInput) (s : State) (h : Fits s) : Fits (updCal i f s) := by
  unfold updCal; simp [h]
@[simp] theorem updPort_keeps (n : Nat) (f : Port → Port) (s : State) : (updPort n f s).pending = s.pending ∧ (updPort n f s).chip = s.chip := by
  unfold updPort; simp
@[simp] theorem updPort_fits (n : Nat) (f : Port → Port) (s : State) (h : Fits s) : Fits (updPort n f s) := by
  unfold updPort; simp [h]
@[simp] theorem updFlow_keeps (n : Nat) (f : Flow → Flow) (s : State) : (updFlow n f s).pending = s.pending ∧ (updFlow n f s).chip = s.chip := by
  unfold updFlow; simp
@[simp] theorem updFlow_fits (n : Nat) (f : Flow → Flow) (s : State) (h : Fits s) : Fits (updFlow n f s) := by
  unfold updFlow; simp [h]
@[simp] theorem updDecoder_keeps (n : Nat) (f : Decoder → Decoder) (s : State) : (updDecoder n f s).pending = s.pending ∧ (updDecoder n f s).chip = s.chip := by
  unfold updDecoder; simp
@[simp] theorem updDecoder_fits (n : Nat) (f : Decoder → Decoder) (s : State) (h : Fits s) : Fits (updDecoder n f s) := by
  unfold updDecoder; simp [h]
@[simp] theorem updOut_keeps (n : Nat) (f : ClockOutput → ClockOutput) (s : State) : (updOut n f s).pending = s.pending ∧ (updOut n f s).chip = s.chip := by
  unfold updOut; simp
@[simp] theorem updOut_fits (n : Nat) (f : ClockOutput → ClockOutput) (s : State) (h : Fits s) : Fits (updOut n f s) := by
  unfold updOut; simp [h]
@[simp] theorem sceneChange_keeps (s : State) : (sceneChange s).pending = s.pending ∧ (sceneChange s).chip = s.chip := by
  unfold sceneChange; simp
@[simp] theorem sceneChange_fits (s : State) (h : Fits s) : Fits (sceneChange s) := by
  unfold sceneChange; simp [h]
@[simp] theorem drawBool_keeps (s : State) : (drawBool s).2.pending = s.pending ∧ (drawBool s).2.chip = s.chip := by
  unfold drawBool; simp
@[simp] theorem drawBool_fits (s : State) (h : Fits s) : Fits (drawBool s).2 := by
  unfold drawBool; simp [h]
@[simp] theorem drawNat_keeps (s : State) : (drawNat s).2.pending = s.pending ∧ (drawNat s).2.chip = s.chip := by
  unfold drawNat; simp
@[simp] theorem drawNat_fits (s : State) (h : Fits s) : Fits (drawNat s).2 := by
  unfold drawNat; simp [h]
@[simp] theorem fail_keeps (status : Nat) (s : State) : (fail status s).state.pending = s.pending ∧ (fail status s).state.chip = s.chip := by
  unfold fail; simp
@[simp] theorem fail_fits (status : Nat) (s : State) (h : Fits s) : Fits (fail status s).state := by
  unfold fail; simp [h]
@[simp] theorem okay_keeps (payload : List Byte) (s : State) : (okay payload s).state.pending = s.pending ∧ (okay payload s).state.chip = s.chip := by
  unfold okay; simp
@[simp] theorem okay_fits (payload : List Byte) (s : State) (h : Fits s) : Fits (okay payload s).state := by
  unfold okay; simp [h]

/-! ### FlowOps -/

/-! What the arbitration leaves of the numbers of flows and classes. -/

@[simp] theorem moveClasses_len (f : Flows) : (moveClasses f).flows.length = f.flows.length ∧ (moveClasses f).classes.length = f.classes.length := by
  simp [moveClasses]
@[simp] theorem startPacket_len (f : Flows) (c : Nat) : (startPacket f c).flows.length = f.flows.length ∧
    (startPacket f c).classes.length = f.classes.length := by
  unfold startPacket; (repeat' split) <;> simp
@[simp] theorem sendFragment_len (f : Flows) (c r : Nat) : (sendFragment f c r).2.flows.length = f.flows.length ∧
    (sendFragment f c r).2.classes.length = f.classes.length := by
  unfold sendFragment; dsimp only; (repeat' split) <;> simp
@[simp] theorem arbitrate_len (k r : Nat) (f : Flows) : (arbitrate k r f).2.flows.length = f.flows.length ∧
    (arbitrate k r f).2.classes.length = f.classes.length := by
  induction k generalizing r f with
  | zero => exact ⟨rfl, rfl⟩
  | succ k ih =>
    unfold arbitrate
    split
    · exact ⟨rfl, rfl⟩
    · split
      · exact ⟨rfl, rfl⟩
      · next c _ =>
        have hs := sendFragment_len (startPacket f c) c r
        have hp := startPacket_len f c
        split
        · next g e => rw [e] at hs; exact ⟨hs.1.trans hp.1, hs.2.trans hp.2⟩
        · next x g e => rw [e] at hs; have := ih (r - x.words.length) g; exact ⟨this.1.trans (hs.1.trans hp.1), this.2.trans (hs.2.trans hp.2)⟩
@[simp] theorem takeBack_len (x : Fragment) (p : FlowPacket) (f : Flows) : (takeBack x p f).flows.length = f.flows.length ∧
    (takeBack x p f).classes.length = f.classes.length := by simp [takeBack]
@[simp] theorem discardPending_len (f : Flows) : (discardPending f).flows.length = f.flows.length ∧
    (discardPending f).classes.length = f.classes.length := by
  unfold discardPending; dsimp only
  refine foldl_inv (fun g : Flows => g.flows.length = f.flows.length ∧ g.classes.length = f.classes.length) _ _ _ (by simp) fun g x h => ?_
  split <;> simp [h]
@[simp] theorem placeResend_len (r : Nat) (f : Flows) : (placeResend r f).2.flows.length = f.flows.length ∧
    (placeResend r f).2.classes.length = f.classes.length := by
  unfold placeResend; split
  · refine ⟨?_, rfl⟩
    exact foldl_inv (fun (l : List Flow) => l.length = f.flows.length) _ _ _ rfl fun l x h => by simp [h]
  · simp
@[simp] theorem confirmFragment_len (f : Flows) (x : Fragment) : (confirmFragment f x).flows.length = f.flows.length ∧
    (confirmFragment f x).classes.length = f.classes.length := by
  unfold confirmFragment; dsimp only; (repeat' split) <;> simp
@[simp] theorem admitAll_len (f : Flows) : (admitAll f).flows.length = f.flows.length ∧ (admitAll f).classes.length = f.classes.length := by
  unfold admitAll
  refine foldl_inv (fun g : Flows => g.flows.length = f.flows.length ∧ g.classes.length = f.classes.length) _ _ _ ⟨rfl, rfl⟩ fun g i h => ?_
  (repeat' split) <;> simp [h]
@[simp] theorem confirmAll_len (l : List Fragment) (f : Flows) : (confirmAll l f).flows.length = f.flows.length ∧
    (confirmAll l f).classes.length = f.classes.length := by
  unfold confirmAll
  simp only [admitAll_len]
  refine foldl_inv (fun g : Flows => g.flows.length = f.flows.length ∧ g.classes.length = f.classes.length) _ _ _ ⟨rfl, rfl⟩ fun g x h => ?_
  simp [h]
@[simp] theorem fillWords_len (r : Nat) (f : Flows) : (fillWords r f).2.flows.length = f.flows.length ∧
    (fillWords r f).2.classes.length = f.classes.length := by
  unfold fillWords; simp

@[simp] theorem produceAt_keeps (dfc : Dfc) (kind : Nat) (source : Nat) (qual : Nat) (failed : Bool) (key : Option (Nat × Nat × Nat)) (payload : List Byte) (s : State) : (produceAt dfc kind source qual failed key payload s).pending = s.pending ∧ (produceAt dfc kind source qual failed key payload s).chip = s.chip := by
  unfold produceAt; (try dsimp only); refine forEach_keeps _ _ _ fun _ _ => ?_; (try dsimp only); (repeat' split) <;> simp
@[simp] theorem produceAt_fits (dfc : Dfc) (kind : Nat) (source : Nat) (qual : Nat) (failed : Bool) (key : Option (Nat × Nat × Nat)) (payload : List Byte) (s : State) (h : Fits s) : Fits (produceAt dfc kind source qual failed key payload s) := by
  unfold produceAt; try dsimp only
  repeat' first | with_reducible assumption | intro _ | with_reducible refine forEach_fits _ _ _ ?_ ?_ | with_reducible refine foldl_fits _ _ _ ?_ ?_ | with_reducible refine updFlow_fits _ _ _ ?_ | split | (simp (maxDischargeDepth := 20) [*]; done)
@[simp] theorem produce_keeps (kind : Nat) (source : Nat) (qual : Nat) (failed : Bool) (key : Option (Nat × Nat × Nat)) (payload : List Byte) (s : State) : (produce kind source qual failed key payload s).pending = s.pending ∧ (produce kind source qual failed key payload s).chip = s.chip := by
  unfold produce; simp
@[simp] theorem produce_fits (kind : Nat) (source : Nat) (qual : Nat) (failed : Bool) (key : Option (Nat × Nat × Nat)) (payload : List Byte) (s : State) (h : Fits s) : Fits (produce kind source qual failed key payload s) := by
  unfold produce; simp [h]
@[simp] theorem deviceClose_keeps (i : Nat) (reason : Nat) (s : State) : (deviceClose i reason s).pending = s.pending ∧ (deviceClose i reason s).chip = s.chip := by
  unfold deviceClose; (repeat' split) <;> simp
@[simp] theorem deviceClose_fits (i : Nat) (reason : Nat) (s : State) (h : Fits s) : Fits (deviceClose i reason s) := by
  unfold deviceClose; (repeat' split) <;> simp [h]
@[simp] theorem closeWhere_keeps (x1 : Flow → Bool) (reason : Nat) (s : State) : (closeWhere x1 reason s).pending = s.pending ∧ (closeWhere x1 reason s).chip = s.chip := by
  unfold closeWhere; (try dsimp only); refine forEach_keeps _ _ _ fun _ _ => ?_; (try dsimp only); (repeat' split) <;> simp
@[simp] theorem closeWhere_fits (x1 : Flow → Bool) (reason : Nat) (s : State) (h : Fits s) : Fits (closeWhere x1 reason s) := by
  unfold closeWhere; try dsimp only
  repeat' first | with_reducible assumption | intro _ | with_reducible refine forEach_fits _ _ _ ?_ ?_ | with_reducible refine foldl_fits _ _ _ ?_ ?_ | with_reducible refine deviceClose_fits _ _ _ ?_ | split | (simp (maxDischargeDepth := 20) [*]; done)
@[simp] theorem closeLaneFlows_keeps (lane : Nat) (reason : Nat) (a : State) : (closeLaneFlows lane reason a).pending = a.pending ∧ (closeLaneFlows lane reason a).chip = a.chip := by
  unfold closeLaneFlows; simp
@[simp] theorem closeLaneFlows_fits (lane : Nat) (reason : Nat) (a : State) (h : Fits a) : Fits (closeLaneFlows lane reason a) := by
  unfold closeLaneFlows; simp [h]
@[simp] theorem closeEngineFlows_keeps (x1 : Nat) (reason : Nat) (a : State) : (closeEngineFlows x1 reason a).pending = a.pending ∧ (closeEngineFlows x1 reason a).chip = a.chip := by
  unfold closeEngineFlows; simp
@[simp] theorem closeEngineFlows_fits (x1 : Nat) (reason : Nat) (a : State) (h : Fits a) : Fits (closeEngineFlows x1 reason a) := by
  unfold closeEngineFlows; simp [h]
@[simp] theorem closeSubchFlows_keeps (x1 : Nat) (subch : Nat) (reason : Nat) (a : State) : (closeSubchFlows x1 subch reason a).pending = a.pending ∧ (closeSubchFlows x1 subch reason a).chip = a.chip := by
  unfold closeSubchFlows; simp
@[simp] theorem closeSubchFlows_fits (x1 : Nat) (subch : Nat) (reason : Nat) (a : State) (h : Fits a) : Fits (closeSubchFlows x1 subch reason a) := by
  unfold closeSubchFlows; simp [h]

/-! ### Scene -/

@[simp] theorem markScene_keeps (a s : State) : (markScene a s).pending = s.pending ∧ (markScene a s).chip = s.chip := by
  unfold markScene; split <;> simp
@[simp] theorem markScene_fits (before : State) (after : State) (h : Fits after) : Fits (markScene before after) := by
  unfold markScene; (repeat' split) <;> simp [h]

/-! ### Recovery -/

@[simp] theorem setRecs_keeps (l : List Recovery) (s : State) : (setRecs l s).pending = s.pending ∧ (setRecs l s).chip = s.chip := by
  unfold setRecs; simp
@[simp] theorem setRecs_fits (l : List Recovery) (s : State) (h : Fits s) : Fits (setRecs l s) := by
  unfold setRecs; simp [h]
@[simp] theorem updRec_keeps (code : Nat) (inst : Nat) (f : Recovery → Recovery) (s : State) : (updRec code inst f s).pending = s.pending ∧ (updRec code inst f s).chip = s.chip := by
  unfold updRec; simp
@[simp] theorem updRec_fits (code : Nat) (inst : Nat) (f : Recovery → Recovery) (s : State) (h : Fits s) : Fits (updRec code inst f s) := by
  unfold updRec; simp [h]
@[simp] theorem logRec_keeps (r : Recovery) (phase : Nat) (other : Nat) (s : State) : (logRec r phase other s).pending = s.pending ∧ (logRec r phase other s).chip = s.chip := by
  unfold logRec; (repeat' split) <;> simp
@[simp] theorem logRec_fits (r : Recovery) (phase : Nat) (other : Nat) (s : State) (h : Fits s) : Fits (logRec r phase other s) := by
  unfold logRec; (repeat' split) <;> simp [h]
@[simp] theorem freePort_keeps (r : Recovery) (s : State) : (freePort r s).pending = s.pending ∧ (freePort r s).chip = s.chip := by
  unfold freePort; simp
@[simp] theorem freePort_fits (r : Recovery) (s : State) (h : Fits s) : Fits (freePort r s) := by
  unfold freePort; simp [h]
@[simp] theorem startRec_keeps (r : Recovery) (s : State) : (startRec r s).pending = s.pending ∧ (startRec r s).chip = s.chip := by
  unfold startRec; (repeat' split) <;> simp
@[simp] theorem startRec_fits (r : Recovery) (s : State) (h : Fits s) : Fits (startRec r s) := by
  unfold startRec; try dsimp only
  repeat' first | with_reducible assumption | intro _ | with_reducible refine forEach_fits _ _ _ ?_ ?_ | with_reducible refine foldl_fits _ _ _ ?_ ?_ | with_reducible refine logRec_fits _ _ _ _ ?_ | with_reducible refine updRec_fits _ _ _ _ ?_ | with_reducible refine freePort_fits _ _ ?_ | split | (simp (maxDischargeDepth := 20) [*]; done)
@[simp] theorem abortRec_keeps (r : Recovery) (rank : Nat) (s : State) : (abortRec r rank s).pending = s.pending ∧ (abortRec r rank s).chip = s.chip := by
  unfold abortRec; simp
@[simp] theorem abortRec_fits (r : Recovery) (rank : Nat) (s : State) (h : Fits s) : Fits (abortRec r rank s) := by
  unfold abortRec; try dsimp only
  repeat' first | with_reducible assumption | intro _ | with_reducible refine forEach_fits _ _ _ ?_ ?_ | with_reducible refine foldl_fits _ _ _ ?_ ?_ | with_reducible refine updPort_fits _ _ _ ?_ | with_reducible refine logRec_fits _ _ _ _ ?_ | with_reducible refine updRec_fits _ _ _ _ ?_ | split | (simp (maxDischargeDepth := 20) [*]; done)
@[simp] theorem queueRec_keeps (r : Recovery) (rank : Nat) (s : State) : (queueRec r rank s).pending = s.pending ∧ (queueRec r rank s).chip = s.chip := by
  unfold queueRec; simp
@[simp] theorem queueRec_fits (r : Recovery) (rank : Nat) (s : State) (h : Fits s) : Fits (queueRec r rank s) := by
  unfold queueRec; simp [h]
@[simp] theorem becomesRunnable_keeps (code : Nat) (inst : Nat) (s : State) : (becomesRunnable code inst s).pending = s.pending ∧ (becomesRunnable code inst s).chip = s.chip := by
  unfold becomesRunnable; (repeat' split) <;> simp
@[simp] theorem becomesRunnable_fits (code : Nat) (inst : Nat) (s : State) (h : Fits s) : Fits (becomesRunnable code inst s) := by
  unfold becomesRunnable; try dsimp only
  repeat' first | with_reducible assumption | intro _ | with_reducible refine forEach_fits _ _ _ ?_ ?_ | with_reducible refine foldl_fits _ _ _ ?_ ?_ | with_reducible refine queueRec_fits _ _ _ ?_ | with_reducible refine updRec_fits _ _ _ _ ?_ | with_reducible refine abortRec_fits _ _ _ ?_ | with_reducible refine startRec_fits _ _ ?_ | split | (simp (maxDischargeDepth := 20) [*]; done)
@[simp] theorem faultBegins_keeps (code : Nat) (inst : Nat) (a : Nat) (b : Int) (ready : Bool) (s : State) : (faultBegins code inst a b ready s).pending = s.pending ∧ (faultBegins code inst a b ready s).chip = s.chip := by
  unfold faultBegins; (try dsimp only); (repeat' split) <;> simp_all
@[simp] theorem faultBegins_fits (code : Nat) (inst : Nat) (a : Nat) (b : Int) (ready : Bool) (s : State) (h : Fits s) : Fits (faultBegins code inst a b ready s) := by
  unfold faultBegins; try dsimp only
  repeat' first | with_reducible assumption | intro _ | with_reducible refine forEach_fits _ _ _ ?_ ?_ | with_reducible refine foldl_fits _ _ _ ?_ ?_ | with_reducible refine logRec_fits _ _ _ _ ?_ | with_reducible refine queueRec_fits _ _ _ ?_ | with_reducible refine updRec_fits _ _ _ _ ?_ | with_reducible refine abortRec_fits _ _ _ ?_ | with_reducible refine setRecs_fits _ _ ?_ | with_reducible refine becomesRunnable_fits _ _ _ ?_ | split | (simp (maxDischargeDepth := 20) [*]; done)
@[simp] theorem slotFree_keeps (s : State) : (slotFree s).pending = s.pending ∧ (slotFree s).chip = s.chip := by
  unfold slotFree; (repeat' split) <;> simp
@[simp] theorem slotFree_fits (s : State) (h : Fits s) : Fits (slotFree s) := by
  unfold slotFree; (repeat' split) <;> simp [h]
@[simp] theorem faultEnds_keeps (code : Nat) (inst : Nat) (phase : Nat) (s : State) : (faultEnds code inst phase s).pending = s.pending ∧ (faultEnds code inst phase s).chip = s.chip := by
  unfold faultEnds; (repeat' split) <;> simp
@[simp] theorem faultEnds_fits (code : Nat) (inst : Nat) (phase : Nat) (s : State) (h : Fits s) : Fits (faultEnds code inst phase s) := by
  unfold faultEnds; try dsimp only
  repeat' first | with_reducible assumption | intro _ | with_reducible refine forEach_fits _ _ _ ?_ ?_ | with_reducible refine foldl_fits _ _ _ ?_ ?_ | with_reducible refine slotFree_fits _ ?_ | with_reducible refine logRec_fits _ _ _ _ ?_ | with_reducible refine setRecs_fits _ _ ?_ | split | (simp (maxDischargeDepth := 20) [*]; done)
@[simp] theorem endMainFaults_keeps (s : State) : (endMainFaults s).pending = s.pending ∧ (endMainFaults s).chip = s.chip := by
  unfold endMainFaults; simp
@[simp] theorem endMainFaults_fits (s : State) (h : Fits s) : Fits (endMainFaults s) := by
  unfold endMainFaults; try dsimp only
  repeat' first | with_reducible assumption | intro _ | with_reducible refine forEach_fits _ _ _ ?_ ?_ | with_reducible refine foldl_fits _ _ _ ?_ ?_ | with_reducible refine logRec_fits _ _ _ _ ?_ | with_reducible refine setRecs_fits _ _ ?_ | split | (simp (maxDischargeDepth := 20) [*]; done)
@[simp] theorem completeResetFaults_keeps (s : State) : (completeResetFaults s).pending = s.pending ∧ (completeResetFaults s).chip = s.chip := by
  unfold completeResetFaults; simp
@[simp] theorem completeResetFaults_fits (s : State) (h : Fits s) : Fits (completeResetFaults s) := by
  unfold completeResetFaults; try dsimp only
  repeat' first | with_reducible assumption | intro _ | with_reducible refine forEach_fits _ _ _ ?_ ?_ | with_reducible refine foldl_fits _ _ _ ?_ ?_ | with_reducible refine slotFree_fits _ ?_ | with_reducible refine logRec_fits _ _ _ _ ?_ | with_reducible refine setRecs_fits _ _ ?_ | split | (simp (maxDischargeDepth := 20) [*]; done)
@[simp] theorem closeBlackoutFaults_keeps (s : State) : (closeBlackoutFaults s).pending = s.pending ∧ (closeBlackoutFaults s).chip = s.chip := by
  unfold closeBlackoutFaults; simp
@[simp] theorem closeBlackoutFaults_fits (s : State) (h : Fits s) : Fits (closeBlackoutFaults s) := by
  unfold closeBlackoutFaults; try dsimp only
  repeat' first | with_reducible assumption | intro _ | with_reducible refine forEach_fits _ _ _ ?_ ?_ | with_reducible refine foldl_fits _ _ _ ?_ ?_ | with_reducible refine slotFree_fits _ ?_ | with_reducible refine logRec_fits _ _ _ _ ?_ | with_reducible refine setRecs_fits _ _ ?_ | split | (simp (maxDischargeDepth := 20) [*]; done)

/-! ### AnnounceOps -/

@[simp] theorem evAnnounce_keeps (a : Announce) (start : Bool) (x1 : State) : (evAnnounce a start x1).pending = x1.pending ∧ (evAnnounce a start x1).chip = x1.chip := by
  unfold evAnnounce; simp
@[simp] theorem evAnnounce_fits (a : Announce) (start : Bool) (x1 : State) (h : Fits x1) : Fits (evAnnounce a start x1) := by
  unfold evAnnounce; simp [h]
@[simp] theorem flowEdge_keeps (a : Announce) (start : Bool) (x1 : State) : (flowEdge a start x1).pending = x1.pending ∧ (flowEdge a start x1).chip = x1.chip := by
  unfold flowEdge; simp
@[simp] theorem flowEdge_fits (a : Announce) (start : Bool) (x1 : State) (h : Fits x1) : Fits (flowEdge a start x1) := by
  unfold flowEdge; simp [h]
@[simp] theorem updLog_keeps (f : AlertLog → AlertLog) (s : State) : (updLog f s).pending = s.pending ∧ (updLog f s).chip = s.chip := by
  unfold updLog; simp
@[simp] theorem updLog_fits (f : AlertLog → AlertLog) (s : State) (h : Fits s) : Fits (updLog f s) := by
  unfold updLog; simp [h]
@[simp] theorem logIdentity_keeps (dab : Bool) (unit : Nat) (id : Id16) (s : State) : (logIdentity dab unit id s).pending = s.pending ∧ (logIdentity dab unit id s).chip = s.chip := by
  unfold logIdentity; (repeat' split) <;> simp
@[simp] theorem logIdentity_fits (dab : Bool) (unit : Nat) (id : Id16) (s : State) (h : Fits s) : Fits (logIdentity dab unit id s) := by
  unfold logIdentity; (repeat' split) <;> simp [h]
@[simp] theorem raiseEdge_keeps (a : Announce) (start : Bool) (s : State) : (raiseEdge a start s).pending = s.pending ∧ (raiseEdge a start s).chip = s.chip := by
  unfold raiseEdge; (repeat' split) <;> simp
@[simp] theorem raiseEdge_fits (a : Announce) (start : Bool) (s : State) (h : Fits s) : Fits (raiseEdge a start s) := by
  unfold raiseEdge; try dsimp only
  repeat' first | with_reducible assumption | intro _ | with_reducible refine forEach_fits _ _ _ ?_ ?_ | with_reducible refine foldl_fits _ _ _ ?_ ?_ | with_reducible refine evAnnounce_fits _ _ _ ?_ | with_reducible refine flowEdge_fits _ _ _ ?_ | with_reducible refine updLog_fits _ _ ?_ | split | (simp (maxDischargeDepth := 20) [*]; done)
@[simp] theorem startAnn_keeps (a : Announce) (s : State) : (startAnn a s).pending = s.pending ∧ (startAnn a s).chip = s.chip := by
  unfold startAnn; (repeat' split) <;> simp
@[simp] theorem startAnn_fits (a : Announce) (s : State) (h : Fits s) : Fits (startAnn a s) := by
  unfold startAnn; (repeat' split) <;> simp [h]
@[simp] theorem endAnn_keeps (a : Announce) (s : State) : (endAnn a s).pending = s.pending ∧ (endAnn a s).chip = s.chip := by
  unfold endAnn; (repeat' split) <;> simp
@[simp] theorem endAnn_fits (a : Announce) (s : State) (h : Fits s) : Fits (endAnn a s) := by
  unfold endAnn; (repeat' split) <;> simp [h]
@[simp] theorem endAnnWhere_keeps (x1 : Announce → Bool) (s : State) : (endAnnWhere x1 s).pending = s.pending ∧ (endAnnWhere x1 s).chip = s.chip := by
  unfold endAnnWhere; simp
@[simp] theorem endAnnWhere_fits (x1 : Announce → Bool) (s : State) (h : Fits s) : Fits (endAnnWhere x1 s) := by
  unfold endAnnWhere; try dsimp only
  repeat' first | with_reducible assumption | intro _ | with_reducible refine forEach_fits _ _ _ ?_ ?_ | with_reducible refine foldl_fits _ _ _ ?_ ?_ | with_reducible refine endAnn_fits _ _ ?_ | split | (simp (maxDischargeDepth := 20) [*]; done)

/-! ### CalOps -/

@[simp] theorem writeEntry_keeps (i : Nat) (plan : Nat) (x1 : CalEntry) (s : State) : (writeEntry i plan x1 s).pending = s.pending ∧ (writeEntry i plan x1 s).chip = s.chip := by
  unfold writeEntry; (try dsimp only); (repeat' split) <;> simp_all
@[simp] theorem writeEntry_fits (i : Nat) (plan : Nat) (x1 : CalEntry) (s : State) (h : Fits s) : Fits (writeEntry i plan x1 s) := by
  unfold writeEntry; try dsimp only
  repeat' first | with_reducible assumption | intro _ | with_reducible refine forEach_fits _ _ _ ?_ ?_ | with_reducible refine foldl_fits _ _ _ ?_ ?_ | with_reducible refine count_fits _ _ _ _ ?_ | split | (simp (maxDischargeDepth := 20) [*]; done)
@[simp] theorem flushWrite_keeps (i : Nat) (s : State) : (flushWrite i s).pending = s.pending ∧ (flushWrite i s).chip = s.chip := by
  unfold flushWrite; (repeat' split) <;> simp
@[simp] theorem flushWrite_fits (i : Nat) (s : State) (h : Fits s) : Fits (flushWrite i s) := by
  unfold flushWrite; (repeat' split) <;> simp [h]
@[simp] theorem flushWrites_keeps (a : State) : (flushWrites a).pending = a.pending ∧ (flushWrites a).chip = a.chip := by
  unfold flushWrites; simp
@[simp] theorem flushWrites_fits (a : State) (h : Fits a) : Fits (flushWrites a) := by
  unfold flushWrites; try dsimp only
  repeat' first | with_reducible assumption | intro _ | with_reducible refine forEach_fits _ _ _ ?_ ?_ | with_reducible refine foldl_fits _ _ _ ?_ ?_ | with_reducible refine flushWrite_fits _ _ ?_ | with_reducible refine forEach_fits _ _ _ ?_ ?_ | split | (simp (maxDischargeDepth := 20) [*]; done)
@[simp] theorem deferRun_keeps (i : Nat) (mask : Nat) (s : State) : (deferRun i mask s).pending = s.pending ∧ (deferRun i mask s).chip = s.chip := by
  unfold deferRun; simp
@[simp] theorem deferRun_fits (i : Nat) (mask : Nat) (s : State) (h : Fits s) : Fits (deferRun i mask s) := by
  unfold deferRun; try dsimp only
  repeat' first | with_reducible assumption | intro _ | with_reducible refine forEach_fits _ _ _ ?_ ?_ | with_reducible refine foldl_fits _ _ _ ?_ ?_ | with_reducible refine updCal_fits _ _ _ ?_ | with_reducible refine faultBegins_fits _ _ _ _ _ _ ?_ | with_reducible refine evCalDeferred_fits _ _ _ ?_ | split | (simp (maxDischargeDepth := 20) [*]; done)
@[simp] theorem changeReasons_keeps (i : Nat) (mask : Nat) (s : State) : (changeReasons i mask s).pending = s.pending ∧ (changeReasons i mask s).chip = s.chip := by
  unfold changeReasons; (repeat' split) <;> simp
@[simp] theorem changeReasons_fits (i : Nat) (mask : Nat) (s : State) (h : Fits s) : Fits (changeReasons i mask s) := by
  unfold changeReasons; try dsimp only
  repeat' first | with_reducible assumption | intro _ | with_reducible refine forEach_fits _ _ _ ?_ ?_ | with_reducible refine foldl_fits _ _ _ ?_ ?_ | with_reducible refine updCal_fits _ _ _ ?_ | with_reducible refine evCalDeferred_fits _ _ _ ?_ | with_reducible refine updRec_fits _ _ _ _ ?_ | split | (simp (maxDischargeDepth := 20) [*]; done)
@[simp] theorem endDeferral_keeps (i : Nat) (phase : Nat) (run : RunState) (s : State) : (endDeferral i phase run s).pending = s.pending ∧ (endDeferral i phase run s).chip = s.chip := by
  unfold endDeferral; simp
@[simp] theorem endDeferral_fits (i : Nat) (phase : Nat) (run : RunState) (s : State) (h : Fits s) : Fits (endDeferral i phase run s) := by
  unfold endDeferral; simp [h]
@[simp] theorem calTrigger_keeps (i : Nat) (byCommand : Bool) (s : State) : (calTrigger i byCommand s).pending = s.pending ∧ (calTrigger i byCommand s).chip = s.chip := by
  unfold calTrigger; (repeat' split) <;> simp
@[simp] theorem calTrigger_fits (i : Nat) (byCommand : Bool) (s : State) (h : Fits s) : Fits (calTrigger i byCommand s) := by
  unfold calTrigger; (repeat' split) <;> simp [h]
@[simp] theorem tempTrigger_keeps (before : Int) (i : Nat) (s : State) : (tempTrigger before i s).pending = s.pending ∧ (tempTrigger before i s).chip = s.chip := by
  unfold tempTrigger; (try dsimp only); (repeat' split) <;> simp_all
@[simp] theorem tempTrigger_fits (before : Int) (i : Nat) (s : State) (h : Fits s) : Fits (tempTrigger before i s) := by
  unfold tempTrigger; try dsimp only
  repeat' first | with_reducible assumption | intro _ | with_reducible refine forEach_fits _ _ _ ?_ ?_ | with_reducible refine foldl_fits _ _ _ ?_ ?_ | with_reducible refine calTrigger_fits _ _ _ ?_ | split | (simp (maxDischargeDepth := 20) [*]; done)
@[simp] theorem tempTriggers_keeps (before : Int) (a : State) : (tempTriggers before a).pending = a.pending ∧ (tempTriggers before a).chip = a.chip := by
  unfold tempTriggers; simp
@[simp] theorem tempTriggers_fits (before : Int) (a : State) (h : Fits a) : Fits (tempTriggers before a) := by
  unfold tempTriggers; try dsimp only
  repeat' first | with_reducible assumption | intro _ | with_reducible refine forEach_fits _ _ _ ?_ ?_ | with_reducible refine foldl_fits _ _ _ ?_ ?_ | with_reducible refine tempTrigger_fits _ _ _ ?_ | with_reducible refine forEach_fits _ _ _ ?_ ?_ | split | (simp (maxDischargeDepth := 20) [*]; done)
@[simp] theorem completeRun_keeps (i : Nat) (length : Nat) (settled : Bool) (s : State) : (completeRun i length settled s).pending = s.pending ∧ (completeRun i length settled s).chip = s.chip := by
  unfold completeRun; (try dsimp only); (repeat' split) <;> simp_all
@[simp] theorem completeRun_fits (i : Nat) (length : Nat) (settled : Bool) (s : State) (h : Fits s) : Fits (completeRun i length settled s) := by
  unfold completeRun; try dsimp only
  repeat' first | with_reducible assumption | intro _ | with_reducible refine forEach_fits _ _ _ ?_ ?_ | with_reducible refine foldl_fits _ _ _ ?_ ?_ | with_reducible refine updCal_fits _ _ _ ?_ | with_reducible refine writeEntry_fits _ _ _ _ ?_ | with_reducible refine calTrigger_fits _ _ _ ?_ | with_reducible refine evCalDone_fits _ _ _ _ _ _ ?_ | split | (simp (maxDischargeDepth := 20) [*]; done)
@[simp] theorem calStart_keeps (i : Nat) (s : State) : (calStart i s).pending = s.pending ∧ (calStart i s).chip = s.chip := by
  unfold calStart; (try dsimp only); (repeat' split) <;> simp_all
@[simp] theorem calStart_fits (i : Nat) (s : State) (h : Fits s) : Fits (calStart i s) := by
  unfold calStart; try dsimp only
  repeat' first | with_reducible assumption | intro _ | with_reducible refine forEach_fits _ _ _ ?_ ?_ | with_reducible refine foldl_fits _ _ _ ?_ ?_ | with_reducible refine updCal_fits _ _ _ ?_ | with_reducible refine calTrigger_fits _ _ _ ?_ | with_reducible refine endDeferral_fits _ _ _ _ ?_ | split | (simp (maxDischargeDepth := 20) [*]; done)
@[simp] theorem calStop_keeps (i : Nat) (s : State) : (calStop i s).pending = s.pending ∧ (calStop i s).chip = s.chip := by
  unfold calStop; (try dsimp only); (repeat' split) <;> simp_all
@[simp] theorem calStop_fits (i : Nat) (s : State) (h : Fits s) : Fits (calStop i s) := by
  unfold calStop; try dsimp only
  repeat' first | with_reducible assumption | intro _ | with_reducible refine forEach_fits _ _ _ ?_ ?_ | with_reducible refine foldl_fits _ _ _ ?_ ?_ | with_reducible refine changeReasons_fits _ _ _ ?_ | with_reducible refine updCal_fits _ _ _ ?_ | with_reducible refine deferRun_fits _ _ _ ?_ | split | (simp (maxDischargeDepth := 20) [*]; done)
@[simp] theorem calFreeze_keeps (i : Nat) (s : State) : (calFreeze i s).pending = s.pending ∧ (calFreeze i s).chip = s.chip := by
  unfold calFreeze; (repeat' split) <;> simp
@[simp] theorem calFreeze_fits (i : Nat) (s : State) (h : Fits s) : Fits (calFreeze i s) := by
  unfold calFreeze; (repeat' split) <;> simp [h]
@[simp] theorem calThaw_keeps (i : Nat) (s : State) : (calThaw i s).pending = s.pending ∧ (calThaw i s).chip = s.chip := by
  unfold calThaw; (try dsimp only); (repeat' split) <;> simp_all
@[simp] theorem calThaw_fits (i : Nat) (s : State) (h : Fits s) : Fits (calThaw i s) := by
  unfold calThaw; try dsimp only
  repeat' first | with_reducible assumption | intro _ | with_reducible refine forEach_fits _ _ _ ?_ ?_ | with_reducible refine foldl_fits _ _ _ ?_ ?_ | with_reducible refine updCal_fits _ _ _ ?_ | with_reducible refine calTrigger_fits _ _ _ ?_ | split | (simp (maxDischargeDepth := 20) [*]; done)
@[simp] theorem setCalPolicy_keeps (p : CalPolicy) (s : State) : (setCalPolicy p s).pending = s.pending ∧ (setCalPolicy p s).chip = s.chip := by
  unfold setCalPolicy; (try dsimp only); (repeat' split) <;> simp_all
@[simp] theorem setCalPolicy_fits (p : CalPolicy) (s : State) (h : Fits s) : Fits (setCalPolicy p s) := by
  unfold setCalPolicy; try dsimp only
  repeat' first | with_reducible assumption | intro _ | with_reducible refine forEach_fits _ _ _ ?_ ?_ | with_reducible refine foldl_fits _ _ _ ?_ ?_ | with_reducible refine calFreeze_fits _ _ ?_ | with_reducible refine calThaw_fits _ _ ?_ | with_reducible refine forEach_fits _ _ _ ?_ ?_ | split | (simp (maxDischargeDepth := 20) [*]; done)
@[simp] theorem calHop_keeps (i : Nat) (s : State) : (calHop i s).pending = s.pending ∧ (calHop i s).chip = s.chip := by
  unfold calHop; (repeat' split) <;> simp
@[simp] theorem calHop_fits (i : Nat) (s : State) (h : Fits s) : Fits (calHop i s) := by
  unfold calHop; (repeat' split) <;> simp [h]
@[simp] theorem calSync_keeps (s : State) : (calSync s).pending = s.pending ∧ (calSync s).chip = s.chip := by
  unfold calSync; simp
@[simp] theorem calSync_fits (s : State) (h : Fits s) : Fits (calSync s) := by
  unfold calSync; simp [h]

/-! ### ProgramOps -/

theorem lend_keeps {n : Nat} {key : Source} {s t : State} (e : lend n key s = some t) : t.pending = s.pending ∧ t.chip = s.chip := by
  unfold lend at e; (repeat' split at e) <;> simp at e <;> subst e <;> simp
theorem lend_fits {n : Nat} {key : Source} {s t : State} (e : lend n key s = some t) (h : Fits s) : Fits t := by
  unfold lend at e; (repeat' split at e) <;> simp at e <;> subst e <;> simp [h]

@[simp] theorem releaseLoans_keeps (n : Nat) (x1 : Source → Bool) (s : State) : (releaseLoans n x1 s).pending = s.pending ∧ (releaseLoans n x1 s).chip = s.chip := by
  unfold releaseLoans; simp
@[simp] theorem releaseLoans_fits (n : Nat) (x1 : Source → Bool) (s : State) (h : Fits s) : Fits (releaseLoans n x1 s) := by
  unfold releaseLoans; simp [h]
@[simp] theorem loseLoan_keeps (d : Decoder) (s : State) : (loseLoan d s).pending = s.pending ∧ (loseLoan d s).chip = s.chip := by
  unfold loseLoan; (repeat' split) <;> simp
@[simp] theorem loseLoan_fits (d : Decoder) (s : State) (h : Fits s) : Fits (loseLoan d s) := by
  unfold loseLoan; (repeat' split) <;> simp [h]
@[simp] theorem takeOwn_keeps (n : Nat) (s : State) : (takeOwn n s).pending = s.pending ∧ (takeOwn n s).chip = s.chip := by
  unfold takeOwn; (repeat' split) <;> simp
@[simp] theorem takeOwn_fits (n : Nat) (s : State) (h : Fits s) : Fits (takeOwn n s) := by
  unfold takeOwn; (repeat' split) <;> simp [h]
@[simp] theorem releaseOwn_keeps (n : Nat) (s : State) : (releaseOwn n s).pending = s.pending ∧ (releaseOwn n s).chip = s.chip := by
  unfold releaseOwn; (repeat' split) <;> simp
@[simp] theorem releaseOwn_fits (n : Nat) (s : State) (h : Fits s) : Fits (releaseOwn n s) := by
  unfold releaseOwn; (repeat' split) <;> simp [h]
@[simp] theorem assignOwn_keeps (n : Nat) (s : State) : (assignOwn n s).pending = s.pending ∧ (assignOwn n s).chip = s.chip := by
  unfold assignOwn; (repeat' split) <;> simp
@[simp] theorem assignOwn_fits (n : Nat) (s : State) (h : Fits s) : Fits (assignOwn n s) := by
  unfold assignOwn; (repeat' split) <;> simp [h]
@[simp] theorem fitOwn_keeps (n : Nat) (s : State) : (fitOwn n s).pending = s.pending ∧ (fitOwn n s).chip = s.chip := by
  unfold fitOwn; (repeat' split) <;> simp
@[simp] theorem fitOwn_fits (n : Nat) (s : State) (h : Fits s) : Fits (fitOwn n s) := by
  unfold fitOwn; (repeat' split) <;> simp [h]
@[simp] theorem updAlign_keeps (n : Nat) (a : AlignState) (x1 : State) : (updAlign n a x1).pending = x1.pending ∧ (updAlign n a x1).chip = x1.chip := by
  unfold updAlign; simp
@[simp] theorem updAlign_fits (n : Nat) (a : AlignState) (x1 : State) (h : Fits x1) : Fits (updAlign n a x1) := by
  unfold updAlign; simp [h]
@[simp] theorem dropPages_keeps (n : Nat) (a : State) : (dropPages n a).pending = a.pending ∧ (dropPages n a).chip = a.chip := by
  unfold dropPages; simp
@[simp] theorem dropPages_fits (n : Nat) (a : State) (h : Fits a) : Fits (dropPages n a) := by
  unfold dropPages; simp [h]
@[simp] theorem setCurtain_keeps (n : Nat) (f : Curtain → Curtain) (a : State) : (setCurtain n f a).pending = a.pending ∧ (setCurtain n f a).chip = a.chip := by
  unfold setCurtain; simp
@[simp] theorem setCurtain_fits (n : Nat) (f : Curtain → Curtain) (a : State) (h : Fits a) : Fits (setCurtain n f a) := by
  unfold setCurtain; simp [h]
@[simp] theorem reopen_keeps (n : Nat) (a : State) : (reopen n a).pending = a.pending ∧ (reopen n a).chip = a.chip := by
  unfold reopen; simp
@[simp] theorem reopen_fits (n : Nat) (a : State) (h : Fits a) : Fits (reopen n a) := by
  unfold reopen; simp [h]
@[simp] theorem leaveAll_keeps (n : Nat) (p : Program) (s : State) : (leaveAll n p s).pending = s.pending ∧ (leaveAll n p s).chip = s.chip := by
  unfold leaveAll; (try dsimp only); refine forEach_keeps _ _ _ fun _ _ => ?_; (try dsimp only); (repeat' split) <;> simp
@[simp] theorem leaveAll_fits (n : Nat) (p : Program) (s : State) (h : Fits s) : Fits (leaveAll n p s) := by
  unfold leaveAll; try dsimp only
  repeat' first | with_reducible assumption | intro _ | with_reducible refine forEach_fits _ _ _ ?_ ?_ | with_reducible refine foldl_fits _ _ _ ?_ ?_ | with_reducible refine evLink_fits _ _ _ _ _ _ _ ?_ | with_reducible refine forEach_fits _ _ _ ?_ ?_ | split | (simp (maxDischargeDepth := 20) [*]; done)
@[simp] theorem endProgram_keeps (n : Nat) (s : State) : (endProgram n s).pending = s.pending ∧ (endProgram n s).chip = s.chip := by
  unfold endProgram; (repeat' split) <;> simp
@[simp] theorem endProgram_fits (n : Nat) (s : State) (h : Fits s) : Fits (endProgram n s) := by
  unfold endProgram; try dsimp only
  repeat' first | with_reducible assumption | intro _ | with_reducible refine forEach_fits _ _ _ ?_ ?_ | with_reducible refine foldl_fits _ _ _ ?_ ?_ | with_reducible refine sceneChange_fits _ ?_ | with_reducible refine leaveAll_fits _ _ _ ?_ | with_reducible refine releaseOwn_fits _ _ ?_ | with_reducible refine updProgram_fits _ _ _ ?_ | with_reducible refine releaseLoans_fits _ _ _ ?_ | split | (simp (maxDischargeDepth := 20) [*]; done)
@[simp] theorem takeHolding_keeps (n : Nat) (p : Program) (alarmOverride : Bool) (s : State) : (takeHolding n p alarmOverride s).pending = s.pending ∧ (takeHolding n p alarmOverride s).chip = s.chip := by
  unfold takeHolding; (try dsimp only); (repeat' split) <;> simp_all
@[simp] theorem takeHolding_fits (n : Nat) (p : Program) (alarmOverride : Bool) (s : State) (h : Fits s) : Fits (takeHolding n p alarmOverride s) := by
  unfold takeHolding; try dsimp only
  repeat' first | with_reducible assumption | intro _ | with_reducible refine forEach_fits _ _ _ ?_ ?_ | with_reducible refine foldl_fits _ _ _ ?_ ?_ | with_reducible refine reopen_fits _ _ ?_ | with_reducible refine updProgram_fits _ _ _ ?_ | with_reducible refine releaseLoans_fits _ _ _ ?_ | with_reducible refine setCurtain_fits _ _ _ ?_ | split | (simp (maxDischargeDepth := 20) [*]; done)
@[simp] theorem returnNormal_keeps (n : Nat) (p : Program) (s : State) : (returnNormal n p s).pending = s.pending ∧ (returnNormal n p s).chip = s.chip := by
  unfold returnNormal; (try dsimp only); (repeat' split) <;> simp_all
@[simp] theorem returnNormal_fits (n : Nat) (p : Program) (s : State) (h : Fits s) : Fits (returnNormal n p s) := by
  unfold returnNormal; try dsimp only
  repeat' first | with_reducible assumption | intro _ | with_reducible refine forEach_fits _ _ _ ?_ ?_ | with_reducible refine foldl_fits _ _ _ ?_ ?_ | with_reducible refine reopen_fits _ _ ?_ | with_reducible refine fitOwn_fits _ _ ?_ | with_reducible refine updProgram_fits _ _ _ ?_ | with_reducible refine releaseLoans_fits _ _ _ ?_ | with_reducible refine setCurtain_fits _ _ _ ?_ | split | (simp (maxDischargeDepth := 20) [*]; done)
@[simp] theorem alignIfReady_keeps (n : Nat) (s : State) : (alignIfReady n s).pending = s.pending ∧ (alignIfReady n s).chip = s.chip := by
  unfold alignIfReady; (repeat' split) <;> simp
@[simp] theorem alignIfReady_fits (n : Nat) (s : State) (h : Fits s) : Fits (alignIfReady n s) := by
  unfold alignIfReady; (repeat' split) <;> simp [h]
@[simp] theorem realign_keeps (n : Nat) (a : State) : (realign n a).pending = a.pending ∧ (realign n a).chip = a.chip := by
  unfold realign; simp
@[simp] theorem realign_fits (n : Nat) (a : State) (h : Fits a) : Fits (realign n a) := by
  unfold realign; simp [h]
@[simp] theorem setAnchor_keeps (n : Nat) (dab : Bool) (slot : Option Nat) (s : State) : (setAnchor n dab slot s).pending = s.pending ∧ (setAnchor n dab slot s).chip = s.chip := by
  unfold setAnchor; (repeat' split) <;> simp
@[simp] theorem setAnchor_fits (n : Nat) (dab : Bool) (slot : Option Nat) (s : State) (h : Fits s) : Fits (setAnchor n dab slot s) := by
  unfold setAnchor; (repeat' split) <;> simp [h]
@[simp] theorem selectMember_keeps (n : Nat) (dab : Bool) (slot : Nat) (s : State) : (selectMember n dab slot s).pending = s.pending ∧ (selectMember n dab slot s).chip = s.chip := by
  unfold selectMember; (try dsimp only); (repeat' split) <;> simp_all
@[simp] theorem selectMember_fits (n : Nat) (dab : Bool) (slot : Nat) (s : State) (h : Fits s) : Fits (selectMember n dab slot s) := by
  unfold selectMember; try dsimp only
  repeat' first | with_reducible assumption | intro _ | with_reducible refine forEach_fits _ _ _ ?_ ?_ | with_reducible refine foldl_fits _ _ _ ?_ ?_ | with_reducible refine updProgram_fits _ _ _ ?_ | with_reducible refine setAnchor_fits _ _ _ _ ?_ | split | (simp (maxDischargeDepth := 20) [*]; done)
@[simp] theorem swapDecoders_keeps (n : Nat) (key : Source) (s : State) : (swapDecoders n key s).pending = s.pending ∧ (swapDecoders n key s).chip = s.chip := by
  unfold swapDecoders; (repeat' split) <;> simp
@[simp] theorem swapDecoders_fits (n : Nat) (key : Source) (s : State) (h : Fits s) : Fits (swapDecoders n key s) := by
  unfold swapDecoders; (repeat' split) <;> simp [h]
@[simp] theorem ownMember_keeps (n : Nat) (slot : Nat) (s : State) : (ownMember n slot s).pending = s.pending ∧ (ownMember n slot s).chip = s.chip := by
  unfold ownMember; (repeat' split) <;> simp
@[simp] theorem ownMember_fits (n : Nat) (slot : Nat) (s : State) (h : Fits s) : Fits (ownMember n slot s) := by
  unfold ownMember; (repeat' split) <;> simp [h]
@[simp] theorem selectPrimary_keeps (n : Nat) (s : State) : (selectPrimary n s).pending = s.pending ∧ (selectPrimary n s).chip = s.chip := by
  unfold selectPrimary; simp
@[simp] theorem selectPrimary_fits (n : Nat) (s : State) (h : Fits s) : Fits (selectPrimary n s) := by
  unfold selectPrimary; simp [h]
@[simp] theorem exitAligned_keeps (n : Nat) (s : State) : (exitAligned n s).pending = s.pending ∧ (exitAligned n s).chip = s.chip := by
  unfold exitAligned; simp
@[simp] theorem exitAligned_fits (n : Nat) (s : State) (h : Fits s) : Fits (exitAligned n s) := by
  unfold exitAligned; try dsimp only
  repeat' first | with_reducible assumption | intro _ | with_reducible refine forEach_fits _ _ _ ?_ ?_ | with_reducible refine foldl_fits _ _ _ ?_ ?_ | with_reducible refine updProgram_fits _ _ _ ?_ | with_reducible refine dropPages_fits _ _ ?_ | with_reducible refine evLink_fits _ _ _ _ _ _ _ ?_ | split | (simp (maxDischargeDepth := 20) [*]; done)
@[simp] theorem atClosed_keeps (n : Nat) (a : AfterClose) (s : State) : (atClosed n a s).pending = s.pending ∧ (atClosed n a s).chip = s.chip := by
  unfold atClosed; (repeat' split) <;> simp
@[simp] theorem atClosed_fits (n : Nat) (a : AfterClose) (s : State) (h : Fits s) : Fits (atClosed n a s) := by
  unfold atClosed; try dsimp only
  repeat' first | with_reducible assumption | intro _ | with_reducible refine forEach_fits _ _ _ ?_ ?_ | with_reducible refine foldl_fits _ _ _ ?_ ?_ | with_reducible refine ownMember_fits _ _ _ ?_ | with_reducible refine endProgram_fits _ _ ?_ | with_reducible refine leaveAligned_fits _ _ ?_ | with_reducible refine returnNormal_fits _ _ _ ?_ | with_reducible refine reopen_fits _ _ ?_ | with_reducible refine selectPrimary_fits _ _ ?_ | with_reducible refine updProgram_fits _ _ _ ?_ | with_reducible refine evLink_fits _ _ _ _ _ _ _ ?_ | with_reducible refine alignIfReady_fits _ _ ?_ | with_reducible refine takeHolding_fits _ _ _ _ ?_ | with_reducible refine exitAligned_fits _ _ ?_ | with_reducible refine selectMember_fits _ _ _ _ ?_ | split | (simp (maxDischargeDepth := 20) [*]; done)
@[simp] theorem closedInstant_keeps (n : Nat) (s : State) : (closedInstant n s).pending = s.pending ∧ (closedInstant n s).chip = s.chip := by
  unfold closedInstant; (repeat' split) <;> simp
@[simp] theorem closedInstant_fits (n : Nat) (s : State) (h : Fits s) : Fits (closedInstant n s) := by
  unfold closedInstant; try dsimp only
  repeat' first | with_reducible assumption | intro _ | with_reducible refine forEach_fits _ _ _ ?_ ?_ | with_reducible refine foldl_fits _ _ _ ?_ ?_ | with_reducible refine atClosed_fits _ _ _ ?_ | with_reducible refine setCurtain_fits _ _ _ ?_ | split | (simp (maxDischargeDepth := 20) [*]; done)
@[simp] theorem closeThen_keeps (n : Nat) (a : AfterClose) (s : State) : (closeThen n a s).pending = s.pending ∧ (closeThen n a s).chip = s.chip := by
  unfold closeThen; (try dsimp only); (repeat' split) <;> simp_all
@[simp] theorem closeThen_fits (n : Nat) (a : AfterClose) (s : State) (h : Fits s) : Fits (closeThen n a s) := by
  unfold closeThen; try dsimp only
  repeat' first | with_reducible assumption | intro _ | with_reducible refine forEach_fits _ _ _ ?_ ?_ | with_reducible refine foldl_fits _ _ _ ?_ ?_ | with_reducible refine setCurtain_fits _ _ _ ?_ | with_reducible refine closedInstant_fits _ _ ?_ | split | (simp (maxDischargeDepth := 20) [*]; done)
@[simp] theorem leaveAligned_keeps (n : Nat) (s : State) : (leaveAligned n s).pending = s.pending ∧ (leaveAligned n s).chip = s.chip := by
  unfold leaveAligned; (repeat' split) <;> simp
@[simp] theorem leaveAligned_fits (n : Nat) (s : State) (h : Fits s) : Fits (leaveAligned n s) := by
  unfold leaveAligned; (repeat' split) <;> simp [h]
@[simp] theorem loseAlignment_keeps (n : Nat) (s : State) : (loseAlignment n s).pending = s.pending ∧ (loseAlignment n s).chip = s.chip := by
  unfold loseAlignment; simp
@[simp] theorem loseAlignment_fits (n : Nat) (s : State) (h : Fits s) : Fits (loseAlignment n s) := by
  unfold loseAlignment; try dsimp only
  repeat' first | with_reducible assumption | intro _ | with_reducible refine forEach_fits _ _ _ ?_ ?_ | with_reducible refine foldl_fits _ _ _ ?_ ?_ | with_reducible refine leaveAligned_fits _ _ ?_ | with_reducible refine updProgram_fits _ _ _ ?_ | with_reducible refine evLink_fits _ _ _ _ _ _ _ ?_ | split | (simp (maxDischargeDepth := 20) [*]; done)
@[simp] theorem placeMember_keeps (n : Nat) (slot : Nat) (src : Source) (origin : Nat) (s : State) : (placeMember n slot src origin s).pending = s.pending ∧ (placeMember n slot src origin s).chip = s.chip := by
  unfold placeMember; (try dsimp only); (repeat' split) <;> simp_all
@[simp] theorem placeMember_fits (n : Nat) (slot : Nat) (src : Source) (origin : Nat) (s : State) (h : Fits s) : Fits (placeMember n slot src origin s) := by
  unfold placeMember; try dsimp only
  repeat' first | with_reducible assumption | intro _ | with_reducible refine forEach_fits _ _ _ ?_ ?_ | with_reducible refine foldl_fits _ _ _ ?_ ?_ | with_reducible refine sceneChange_fits _ ?_ | with_reducible refine fitOwn_fits _ _ ?_ | with_reducible refine updProgram_fits _ _ _ ?_ | with_reducible refine evLink_fits _ _ _ _ _ _ _ ?_ | split | (simp (maxDischargeDepth := 20) [*]; done)
@[simp] theorem removeMember_keeps (n : Nat) (slot : Nat) (s : State) : (removeMember n slot s).pending = s.pending ∧ (removeMember n slot s).chip = s.chip := by
  unfold removeMember; split
  · exact ⟨rfl, rfl⟩
  · dsimp only
    constructor <;> simp only [evLink_keeps] <;> split <;> (try simp only [sceneChange_keeps]) <;> split <;>
      (try simp only [fitOwn_keeps, releaseLoans_keeps]) <;> split <;> simp only [setAnchor_keeps, updProgram_keeps]
@[simp] theorem removeMember_fits (n : Nat) (slot : Nat) (s : State) (h : Fits s) : Fits (removeMember n slot s) := by
  unfold removeMember; try dsimp only
  repeat' first | with_reducible assumption | intro _ | with_reducible refine forEach_fits _ _ _ ?_ ?_ | with_reducible refine foldl_fits _ _ _ ?_ ?_ | with_reducible refine sceneChange_fits _ ?_ | with_reducible refine fitOwn_fits _ _ ?_ | with_reducible refine updProgram_fits _ _ _ ?_ | with_reducible refine evLink_fits _ _ _ _ _ _ _ ?_ | with_reducible refine releaseLoans_fits _ _ _ ?_ | with_reducible refine setAnchor_fits _ _ _ _ ?_ | split | (simp (maxDischargeDepth := 20) [*]; done)
@[simp] theorem laneLeaves_keeps (id : Nat) (s : State) : (laneLeaves id s).pending = s.pending ∧ (laneLeaves id s).chip = s.chip := by
  unfold laneLeaves; (try dsimp only); refine forEach_keeps _ _ _ fun _ _ => ?_; (try dsimp only); (repeat' split) <;> simp
@[simp] theorem laneLeaves_fits (id : Nat) (s : State) (h : Fits s) : Fits (laneLeaves id s) := by
  unfold laneLeaves; try dsimp only
  repeat' first | with_reducible assumption | intro _ | with_reducible refine forEach_fits _ _ _ ?_ ?_ | with_reducible refine foldl_fits _ _ _ ?_ ?_ | with_reducible refine forEach_fits _ _ _ ?_ ?_ | with_reducible refine removeMember_fits _ _ _ ?_ | split | (simp (maxDischargeDepth := 20) [*]; done)
@[simp] theorem dropUnserved_keeps (n : Nat) (slot : Nat) (s : State) : (dropUnserved n slot s).pending = s.pending ∧ (dropUnserved n slot s).chip = s.chip := by
  unfold dropUnserved; (repeat' split) <;> simp
@[simp] theorem dropUnserved_fits (n : Nat) (slot : Nat) (s : State) (h : Fits s) : Fits (dropUnserved n slot s) := by
  unfold dropUnserved; (repeat' split) <;> simp [h]
@[simp] theorem engineLeaves_keeps (x1 : Nat) (before : State) (s : State) : (engineLeaves x1 before s).pending = s.pending ∧ (engineLeaves x1 before s).chip = s.chip := by
  unfold engineLeaves; (try dsimp only); refine forEach_keeps _ _ _ fun _ _ => ?_; (try dsimp only); (repeat' split) <;> simp
@[simp] theorem engineLeaves_fits (x1 : Nat) (before : State) (s : State) (h : Fits s) : Fits (engineLeaves x1 before s) := by
  unfold engineLeaves; try dsimp only
  repeat' first | with_reducible assumption | intro _ | with_reducible refine forEach_fits _ _ _ ?_ ?_ | with_reducible refine foldl_fits _ _ _ ?_ ?_ | with_reducible refine dropUnserved_fits _ _ _ ?_ | with_reducible refine forEach_fits _ _ _ ?_ ?_ | split | (simp (maxDischargeDepth := 20) [*]; done)
@[simp] theorem selectAnn_keeps (n : Nat) (p : Program) (a : Announce) (s : State) : (selectAnn n p a s).pending = s.pending ∧ (selectAnn n p a s).chip = s.chip := by
  unfold selectAnn; dsimp only
  repeat' split
  all_goals first | (simp; done) | (simp; exact lend_keeps (by assumption))
@[simp] theorem selectAnn_fits (n : Nat) (p : Program) (a : Announce) (s : State) (h : Fits s) : Fits (selectAnn n p a s) := by
  unfold selectAnn; dsimp only
  repeat' split
  all_goals first | (simp [h]; done) | (refine updProgram_fits _ _ _ (lend_fits (by assumption) h)) | (refine fitOwn_fits _ _ ?_; simp [h])
@[simp] theorem dropSelection_keeps (n : Nat) (p : Program) (s : State) : (dropSelection n p s).pending = s.pending ∧ (dropSelection n p s).chip = s.chip := by
  unfold dropSelection; simp
@[simp] theorem dropSelection_fits (n : Nat) (p : Program) (s : State) (h : Fits s) : Fits (dropSelection n p s) := by
  unfold dropSelection; try dsimp only
  repeat' first | with_reducible assumption | intro _ | with_reducible refine forEach_fits _ _ _ ?_ ?_ | with_reducible refine foldl_fits _ _ _ ?_ ?_ | with_reducible refine fitOwn_fits _ _ ?_ | with_reducible refine updProgram_fits _ _ _ ?_ | with_reducible refine forEach_fits _ _ _ ?_ ?_ | with_reducible refine releaseLoans_fits _ _ _ ?_ | split | (simp (maxDischargeDepth := 20) [*]; done)
@[simp] theorem feedSelection_keeps (n : Nat) (s : State) : (feedSelection n s).pending = s.pending ∧ (feedSelection n s).chip = s.chip := by
  unfold feedSelection
  (repeat' split) <;> first | exact ⟨rfl, rfl⟩ | exact lend_keeps (by assumption) | simp
@[simp] theorem feedSelection_fits (n : Nat) (s : State) (h : Fits s) : Fits (feedSelection n s) := by
  unfold feedSelection
  (repeat' split) <;> first | exact h | exact lend_fits (by assumption) h | simp (maxDischargeDepth := 20) [h]
@[simp] theorem reselect_keeps (n : Nat) (s : State) : (reselect n s).pending = s.pending ∧ (reselect n s).chip = s.chip := by
  unfold reselect; (try dsimp only); (repeat' split) <;> simp_all
@[simp] theorem reselect_fits (n : Nat) (s : State) (h : Fits s) : Fits (reselect n s) := by
  unfold reselect; try dsimp only
  repeat' first | with_reducible assumption | intro _ | with_reducible refine forEach_fits _ _ _ ?_ ?_ | with_reducible refine foldl_fits _ _ _ ?_ ?_ | with_reducible refine selectAnn_fits _ _ _ _ ?_ | with_reducible refine updProgram_fits _ _ _ ?_ | with_reducible refine dropSelection_fits _ _ _ ?_ | split | (simp (maxDischargeDepth := 20) [*]; done)
@[simp] theorem reselectAll_keeps (s : State) : (reselectAll s).pending = s.pending ∧ (reselectAll s).chip = s.chip := by
  unfold reselectAll; simp
@[simp] theorem reselectAll_fits (s : State) (h : Fits s) : Fits (reselectAll s) := by
  unfold reselectAll; try dsimp only
  repeat' first | with_reducible assumption | intro _ | with_reducible refine forEach_fits _ _ _ ?_ ?_ | with_reducible refine foldl_fits _ _ _ ?_ ?_ | with_reducible refine feedSelection_fits _ _ ?_ | with_reducible refine reselect_fits _ _ ?_ | with_reducible refine forEach_fits _ _ _ ?_ ?_ | split | (simp (maxDischargeDepth := 20) [*]; done)

/-! ### FeedOps -/

@[simp] theorem refreshFeeds_keeps (s : State) : (refreshFeeds s).pending = s.pending ∧ (refreshFeeds s).chip = s.chip := by
  unfold refreshFeeds; simp
@[simp] theorem refreshFeeds_fits (s : State) (h : Fits s) : Fits (refreshFeeds s) := by
  unfold refreshFeeds; simp [h]

/-! ### ResetOps -/

@[simp] theorem discardLink_keeps (s : State) : (discardLink s).pending = s.pending ∧ (discardLink s).chip = s.chip := by
  unfold discardLink; simp
@[simp] theorem discardLink_fits (s : State) (h : Fits s) : Fits (discardLink s) := by
  unfold discardLink; simp [h]
@[simp] theorem wipeMain_keeps (s : State) : (wipeMain s).pending = s.pending ∧ (wipeMain s).chip = s.chip := by
  unfold wipeMain; simp
@[simp] theorem wipeMain_fits (s : State) (h : Fits s) : Fits (wipeMain s) := by
  unfold wipeMain
  simp [h, -List.reduceReplicate, Clocks.start, Cal.reset, Lanes.reset, Rds.reset, Dab.reset, Ports.reset, Flows.reset, wipeFeeds,
    stageCounters]
@[simp] theorem setDomain_keeps (d : Domain) (s : State) : (setDomain d s).pending = s.pending ∧ (setDomain d s).chip = s.chip := by
  unfold setDomain; simp
@[simp] theorem setDomain_fits (d : Domain) (s : State) (h : Fits s) : Fits (setDomain d s) := by
  unfold setDomain; simp [h]
@[simp] theorem stopMain_keeps (cause : OffCause) (s : State) : (stopMain cause s).pending = s.pending ∧ (stopMain cause s).chip = s.chip := by
  unfold stopMain; simp
@[simp] theorem stopMain_fits (cause : OffCause) (s : State) (h : Fits s) : Fits (stopMain cause s) := by
  unfold stopMain; try dsimp only
  repeat' first | with_reducible assumption | intro _ | with_reducible refine forEach_fits _ _ _ ?_ ?_ | with_reducible refine foldl_fits _ _ _ ?_ ?_ | with_reducible refine endMainFaults_fits _ ?_ | with_reducible refine setDomain_fits _ _ ?_ | with_reducible refine wipeMain_fits _ ?_ | with_reducible refine refreshFeeds_fits _ ?_ | split | (simp (maxDischargeDepth := 20) [*]; done)
@[simp] theorem startWatch_keeps (s : State) : (startWatch s).pending = s.pending ∧ (startWatch s).chip = s.chip := by
  unfold startWatch; simp
@[simp] theorem startWatch_fits (s : State) (h : Fits s) : Fits (startWatch s) := by
  unfold startWatch; simp [h]
@[simp] theorem endWatch_keeps (s : State) : (endWatch s).pending = s.pending ∧ (endWatch s).chip = s.chip := by
  unfold endWatch; (repeat' split) <;> simp
@[simp] theorem endWatch_fits (s : State) (h : Fits s) : Fits (endWatch s) := by
  unfold endWatch; (repeat' split) <;> simp [h]
@[simp] theorem startMain_keeps (cause : ResetCause) (skip : Bool) (s : State) : (startMain cause skip s).pending = s.pending ∧ (startMain cause skip s).chip = s.chip := by
  unfold startMain; (repeat' split) <;> simp
@[simp] theorem startMain_fits (cause : ResetCause) (skip : Bool) (s : State) (h : Fits s) : Fits (startMain cause skip s) := by
  unfold startMain; try dsimp only
  repeat' first | with_reducible assumption | intro _ | with_reducible refine forEach_fits _ _ _ ?_ ?_ | with_reducible refine foldl_fits _ _ _ ?_ ?_ | with_reducible refine endMainFaults_fits _ ?_ | with_reducible refine setDomain_fits _ _ ?_ | with_reducible refine closeBlackoutFaults_fits _ ?_ | with_reducible refine discardLink_fits _ ?_ | with_reducible refine endWatch_fits _ ?_ | with_reducible refine wipeMain_fits _ ?_ | with_reducible refine becomesRunnable_fits _ _ _ ?_ | split | (simp (maxDischargeDepth := 20) [*]; done)
@[simp] theorem coldState_keeps (addr : Nat) (s : State) : (coldState addr s).pending = s.pending ∧
    (coldState addr s).chip = { s.chip with oemWritten := false } := ⟨rfl, rfl⟩
@[simp] theorem coldState_fits (addr : Nat) (s : State) (h : Fits s) : Fits (coldState addr s) := by
  simp only [coldState, fits_mk]
  simp [-List.reduceReplicate, State.reset, Events.reset, Integrity.reset, Retained.wiped, Clocks.start, Cal.reset,
    Lanes.reset, Rds.reset, Dab.reset, Ports.reset, Flows.reset, Variant.fmLanes, Variant.amLanes]
@[simp] theorem coldStart_keeps (addr : Nat) (s : State) : (coldStart addr s).pending = s.pending ∧
    (coldStart addr s).chip = { s.chip with oemWritten := false } := by
  unfold coldStart; dsimp only; split <;> simp
@[simp] theorem coldStart_fits (addr : Nat) (s : State) (h : Fits s) : Fits (coldStart addr s) := by
  unfold coldStart; (repeat' split) <;> simp [h]
@[simp] theorem releaseHeld_keeps (s : State) : (releaseHeld s).pending = s.pending ∧ (releaseHeld s).chip = s.chip := by
  unfold releaseHeld; simp
@[simp] theorem releaseHeld_fits (s : State) (h : Fits s) : Fits (releaseHeld s) := by
  unfold releaseHeld; try dsimp only
  repeat' first | with_reducible assumption | intro _ | with_reducible refine forEach_fits _ _ _ ?_ ?_ | with_reducible refine foldl_fits _ _ _ ?_ ?_ | with_reducible refine evIntegrity_fits _ _ _ _ ?_ | split | (simp (maxDischargeDepth := 20) [*]; done)
@[simp] theorem enterBlackout_keeps (code : Nat) (region : Nat) (s : State) : (enterBlackout code region s).pending = s.pending ∧ (enterBlackout code region s).chip = s.chip := by
  unfold enterBlackout; simp
@[simp] theorem enterBlackout_fits (code : Nat) (region : Nat) (s : State) (h : Fits s) : Fits (enterBlackout code region s) := by
  unfold enterBlackout; try dsimp only
  repeat' first | with_reducible assumption | intro _ | with_reducible refine forEach_fits _ _ _ ?_ ?_ | with_reducible refine foldl_fits _ _ _ ?_ ?_ | with_reducible refine setDomain_fits _ _ ?_ | with_reducible refine faultBegins_fits _ _ _ _ _ _ ?_ | with_reducible refine releaseHeld_fits _ ?_ | with_reducible refine count_fits _ _ _ _ ?_ | with_reducible refine refreshFeeds_fits _ ?_ | split | (simp (maxDischargeDepth := 20) [*]; done)

/-! ### Serve -/

theorem serve_keeps {k : Cmd} (hk : ∀ c u, (k.body c u).state.pending = u.pending ∧ (k.body c u).state.chip = u.chip) (c : Call) (s : State) :
    (serve k c s).state.pending = s.pending ∧ (serve k c s).state.chip = s.chip := by
  unfold serve; (repeat' split) <;> simp [hk]
theorem serve_fits {k : Cmd} (hk : ∀ c u, Fits u → Fits (k.body c u).state) (c : Call) (s : State) (h : Fits s) :
    Fits (serve k c s).state := by
  unfold serve; (repeat' split) <;> simp [hk, h]
@[simp] theorem orderCurtain_keeps (n : Nat) (hold : Option Bool) (downMs : Nat) (upMs : Nat) (s : State) : (orderCurtain n hold downMs upMs s).pending = s.pending ∧ (orderCurtain n hold downMs upMs s).chip = s.chip := by
  unfold orderCurtain; simp
@[simp] theorem orderCurtain_fits (n : Nat) (hold : Option Bool) (downMs : Nat) (upMs : Nat) (s : State) (h : Fits s) : Fits (orderCurtain n hold downMs upMs s) := by
  unfold orderCurtain; simp [h]
@[simp] theorem dropSource_keeps (n : Nat) (src : Source) (s : State) : (dropSource n src s).pending = s.pending ∧ (dropSource n src s).chip = s.chip := by
  unfold dropSource; (repeat' split) <;> simp
@[simp] theorem dropSource_fits (n : Nat) (src : Source) (s : State) (h : Fits s) : Fits (dropSource n src s) := by
  unfold dropSource; try dsimp only
  repeat' first | with_reducible assumption | intro _ | with_reducible refine forEach_fits _ _ _ ?_ ?_ | with_reducible refine foldl_fits _ _ _ ?_ ?_ | with_reducible refine updProgram_fits _ _ _ ?_ | with_reducible refine removeMember_fits _ _ _ ?_ | split | (simp (maxDischargeDepth := 20) [*]; done)
@[simp] theorem applyEffect_keeps (x1 : AudioEffect) (s : State) : (applyEffect x1 s).pending = s.pending ∧ (applyEffect x1 s).chip = s.chip := by
  unfold applyEffect; (repeat' split) <;> simp
@[simp] theorem applyEffect_fits (x1 : AudioEffect) (s : State) (h : Fits s) : Fits (applyEffect x1 s) := by
  unfold applyEffect; (repeat' split) <;> simp [h]
@[simp] theorem applyEffects_keeps (l : List AudioEffect) (s : State) : (applyEffects l s).pending = s.pending ∧ (applyEffects l s).chip = s.chip := by
  unfold applyEffects; simp
@[simp] theorem applyEffects_fits (l : List AudioEffect) (s : State) (h : Fits s) : Fits (applyEffects l s) := by
  unfold applyEffects; try dsimp only
  repeat' first | with_reducible assumption | intro _ | with_reducible refine forEach_fits _ _ _ ?_ ?_ | with_reducible refine foldl_fits _ _ _ ?_ ?_ | with_reducible refine applyEffect_fits _ _ ?_ | split | (simp (maxDischargeDepth := 20) [*]; done)
@[simp] theorem gateMain_keeps (gate : Bool) (s : State) : (gateMain gate s).pending = s.pending ∧ (gateMain gate s).chip = s.chip := by
  unfold gateMain; simp
@[simp] theorem gateMain_fits (gate : Bool) (s : State) (h : Fits s) : Fits (gateMain gate s) := by
  unfold gateMain; (repeat' split) <;> simp [h]
theorem finishHost_keeps (k : Byte) (c : Call) (r : Res) (b : State) :
    (finishHost k c r b).pending = r.state.pending ∧ (finishHost k c r b).chip = r.state.chip := by
  unfold finishHost; dsimp only; (repeat' split) <;> simp
theorem finishHost_fits (k : Byte) (c : Call) (r : Res) (b : State) (h : Fits r.state) : Fits (finishHost k c r b) := by
  unfold finishHost; dsimp only
  refine gateMain_fits _ _ ?_
  (repeat' split) <;> simp (maxDischargeDepth := 20) [h]
@[simp] theorem reportCue_keeps (cue : Nat) (late : Bool) (pkt : Packet) (status : Nat) (exec : Dfc) (payload : List Byte) (a : State) : (reportCue cue late pkt status exec payload a).pending = a.pending ∧ (reportCue cue late pkt status exec payload a).chip = a.chip := by
  unfold reportCue; simp
@[simp] theorem reportCue_fits (cue : Nat) (late : Bool) (pkt : Packet) (status : Nat) (exec : Dfc) (payload : List Byte) (a : State) (h : Fits a) : Fits (reportCue cue late pkt status exec payload a) := by
  unfold reportCue; simp [h]
@[simp] theorem completeWait_keeps (x1 : Executing) (s : State) : (completeWait x1 s).pending = s.pending ∧ (completeWait x1 s).chip = s.chip := by
  unfold completeWait; (repeat' split) <;> simp
@[simp] theorem completeWait_fits (x1 : Executing) (s : State) (h : Fits s) : Fits (completeWait x1 s) := by
  unfold completeWait; (repeat' split) <;> simp [h]
@[simp] theorem finishWait_keeps (w : Wait) (s : State) : (finishWait w s).pending = s.pending ∧ (finishWait w s).chip = s.chip := by
  unfold finishWait; (try dsimp only); (repeat' split) <;> simp_all
@[simp] theorem finishWait_fits (w : Wait) (s : State) (h : Fits s) : Fits (finishWait w s) := by
  unfold finishWait; try dsimp only
  repeat' first | with_reducible assumption | intro _ | with_reducible refine forEach_fits _ _ _ ?_ ?_ | with_reducible refine foldl_fits _ _ _ ?_ ?_ | with_reducible refine completeWait_fits _ _ ?_ | split | (simp (maxDischargeDepth := 20) [*]; done)
theorem runHost_keeps {k : Cmd} (hk : ∀ c u, (k.body c u).state.pending = u.pending ∧ (k.body c u).state.chip = u.chip) (tag : Byte)
    (p : List Byte) (s : State) : (runHost k tag p s).pending = s.pending ∧ (runHost k tag p s).chip = s.chip := by
  unfold runHost; simp [finishHost_keeps, serve_keeps hk]
theorem runHost_fits {k : Cmd} (hk : ∀ c u, Fits u → Fits (k.body c u).state) (tag : Byte) (p : List Byte) (s : State) (h : Fits s) :
    Fits (runHost k tag p s) := finishHost_fits _ _ _ _ (serve_fits hk _ _ h)
@[simp] theorem receive_keeps (pkt : Packet) (s : State) : (receive pkt s).pending = s.pending ∧ (receive pkt s).chip = s.chip := by
  unfold receive; simp
@[simp] theorem receive_fits (pkt : Packet) (s : State) (h : Fits s) : Fits (receive pkt s) := by
  unfold receive; (try dsimp only); (repeat' split) <;> simp_all
theorem packetRow_keeps {run : State → State} (hr : ∀ u, (run u).pending = u.pending ∧ (run u).chip = u.chip) (pkt : Packet) (s : State) :
    (packetRow run pkt s).pending = s.pending ∧ (packetRow run pkt s).chip = s.chip := by
  unfold packetRow; (repeat' split) <;> simp [hr]
theorem packetRow_fits {run : State → State} (hr : ∀ u, Fits u → Fits (run u)) (pkt : Packet) (s : State) (h : Fits s) :
    Fits (packetRow run pkt s) := by
  unfold packetRow
  have := fits_queue h
  (repeat' split) <;> first | exact hr _ h | exact receive_fits _ _ h | skip
  · next q hq _ => refine hr _ ?_; rw [hq] at this; simp at this; simp [h]; omega
theorem hostRow_keeps {k : Cmd} (hk : ∀ c u, (k.body c u).state.pending = u.pending ∧ (k.body c u).state.chip = u.chip) {tag : Byte}
    {p : List Byte} {s t : State} (e : hostRow k tag p s = .next t) : t.pending = s.pending ∧ t.chip = s.chip := by
  unfold hostRow at e; simp at e; subst e; exact packetRow_keeps (runHost_keeps hk tag p) _ _
theorem hostRow_fits {k : Cmd} (hk : ∀ c u, Fits u → Fits (k.body c u).state) {tag : Byte} {p : List Byte} {s t : State}
    (e : hostRow k tag p s = .next t) (h : Fits s) : Fits t := by
  unfold hostRow at e; simp at e; subst e; exact packetRow_fits (fun u hu => runHost_fits hk tag p u hu) _ _ h

end Sys2Proof.Machine
end

