-- ==== Sys2Proof/Laws/FrameUnits.lean ====
section
/-! SUPPORT. What each shared operation and each row leaves: `_keeps`, the queue of commands and the part; `_fits`, the
invariant `Fits`. Operations of Calibration.lean, UnitOps.lean, ModelOps.lean, InputOps.lean, Lanes.lean, DabStatus.lean, DabFrame.lean, Cif.lean. -/

set_option linter.all false

namespace Sys2Proof.Machine

/-! ### Calibration -/

@[simp] theorem bodyCalPolicy_keeps (c : Call) (s : State) : (bodyCalPolicy c s).state.pending = s.pending ∧ (bodyCalPolicy c s).state.chip = s.chip := by
  unfold bodyCalPolicy; (repeat' split) <;> simp
@[simp] theorem bodyCalPolicy_fits (c : Call) (s : State) (h : Fits s) : Fits (bodyCalPolicy c s).state := by
  unfold bodyCalPolicy; (repeat' split) <;> simp [h]
theorem execCalPolicy_keeps (tag : Byte) (p : List Byte) (s : State) {t : State} (e : execCalPolicy tag p s = .next t) : t.pending = s.pending ∧ t.chip = s.chip := by
  unfold execCalPolicy at e; exact hostRow_keeps (fun _ _ => by simp [cmdCalPolicy]) e
theorem execCalPolicy_fits (tag : Byte) (p : List Byte) (s : State) {t : State} (e : execCalPolicy tag p s = .next t) (h : Fits s) : Fits t := by
  unfold execCalPolicy at e; exact hostRow_fits (fun _ _ hu => by simp [cmdCalPolicy, hu]) e h
@[simp] theorem bodyCalRun_keeps (c : Call) (s : State) : (bodyCalRun c s).state.pending = s.pending ∧ (bodyCalRun c s).state.chip = s.chip := by
  unfold bodyCalRun; (try dsimp only); (repeat' split) <;> simp_all
@[simp] theorem bodyCalRun_fits (c : Call) (s : State) (h : Fits s) : Fits (bodyCalRun c s).state := by
  unfold bodyCalRun; try dsimp only
  repeat' first | with_reducible assumption | intro _ | with_reducible refine forEach_fits _ _ _ ?_ ?_ | with_reducible refine foldl_fits _ _ _ ?_ ?_ | with_reducible refine fail_fits _ _ ?_ | with_reducible refine okay_fits _ _ ?_ | with_reducible refine calTrigger_fits _ _ _ ?_ | with_reducible refine forEach_fits _ _ _ ?_ ?_ | split | (simp (maxDischargeDepth := 20) [*]; done)
theorem execCalRun_keeps (tag : Byte) (p : List Byte) (s : State) {t : State} (e : execCalRun tag p s = .next t) : t.pending = s.pending ∧ t.chip = s.chip := by
  unfold execCalRun at e; exact hostRow_keeps (fun _ _ => by simp [cmdCalRun]) e
theorem execCalRun_fits (tag : Byte) (p : List Byte) (s : State) {t : State} (e : execCalRun tag p s = .next t) (h : Fits s) : Fits t := by
  unfold execCalRun at e; exact hostRow_fits (fun _ _ hu => by simp [cmdCalRun, hu]) e h
theorem execCalStatus_keeps (tag : Byte) (p : List Byte) (s : State) {t : State} (e : execCalStatus tag p s = .next t) : t.pending = s.pending ∧ t.chip = s.chip := by
  unfold execCalStatus at e; exact hostRow_keeps (fun _ _ => by simp [cmdCalStatus]) e
theorem execCalStatus_fits (tag : Byte) (p : List Byte) (s : State) {t : State} (e : execCalStatus tag p s = .next t) (h : Fits s) : Fits t := by
  unfold execCalStatus at e; exact hostRow_fits (fun _ _ hu => by simp [cmdCalStatus, hu]) e h
@[simp] theorem bodyCalTableRead_keeps (c : Call) (s : State) : (bodyCalTableRead c s).state.pending = s.pending ∧ (bodyCalTableRead c s).state.chip = s.chip := by
  unfold bodyCalTableRead; simp
@[simp] theorem bodyCalTableRead_fits (c : Call) (s : State) (h : Fits s) : Fits (bodyCalTableRead c s).state := by
  unfold bodyCalTableRead; try dsimp only
  repeat' first | with_reducible assumption | intro _ | with_reducible refine forEach_fits _ _ _ ?_ ?_ | with_reducible refine foldl_fits _ _ _ ?_ ?_ | with_reducible refine okay_fits _ _ ?_ | split | (simp (maxDischargeDepth := 20) [*]; done)
theorem execCalTableRead_keeps (tag : Byte) (p : List Byte) (s : State) {t : State} (e : execCalTableRead tag p s = .next t) : t.pending = s.pending ∧ t.chip = s.chip := by
  unfold execCalTableRead at e; exact hostRow_keeps (fun _ _ => by simp [cmdCalTableRead]) e
theorem execCalTableRead_fits (tag : Byte) (p : List Byte) (s : State) {t : State} (e : execCalTableRead tag p s = .next t) (h : Fits s) : Fits t := by
  unfold execCalTableRead at e; exact hostRow_fits (fun _ _ hu => by simp [cmdCalTableRead, hu]) e h
@[simp] theorem subWindowEnd_keeps (i : Nat) (o : SubWindowObs) (s : State) : (subWindowEnd i o s).pending = s.pending ∧ (subWindowEnd i o s).chip = s.chip := by
  unfold subWindowEnd; simp
@[simp] theorem subWindowEnd_fits (i : Nat) (o : SubWindowObs) (s : State) (h : Fits s) : Fits (subWindowEnd i o s) := by
  unfold subWindowEnd; try dsimp only
  repeat' first | with_reducible assumption | intro _ | with_reducible refine forEach_fits _ _ _ ?_ ?_ | with_reducible refine foldl_fits _ _ _ ?_ ?_ | with_reducible refine updCal_fits _ _ _ ?_ | with_reducible refine deferRun_fits _ _ _ ?_ | split | (simp (maxDischargeDepth := 20) [*]; done)
theorem execSubWindowEnd_keeps (input : Nat) (obs : SubWindowObs) (s : State) {t : State} (e : execSubWindowEnd input obs s = .next t) : t.pending = s.pending ∧ t.chip = s.chip := by
  unfold execSubWindowEnd at e; dsimp only at e; (repeat' split at e) <;> simp at e <;> subst e <;> (repeat' split) <;> simp_all
theorem execSubWindowEnd_fits (input : Nat) (obs : SubWindowObs) (s : State) {t : State} (e : execSubWindowEnd input obs s = .next t) (h : Fits s) : Fits t := by
  unfold execSubWindowEnd at e; dsimp only at e; (repeat' split at e) <;> simp at e <;> subst e <;> (repeat' split) <;> simp_all
@[simp] theorem runBoundary_keeps (i : Nat) (s : State) : (runBoundary i s).pending = s.pending ∧ (runBoundary i s).chip = s.chip := by
  unfold runBoundary; simp
@[simp] theorem runBoundary_fits (i : Nat) (s : State) (h : Fits s) : Fits (runBoundary i s) := by
  unfold runBoundary; try dsimp only
  repeat' first | with_reducible assumption | intro _ | with_reducible refine forEach_fits _ _ _ ?_ ?_ | with_reducible refine foldl_fits _ _ _ ?_ ?_ | with_reducible refine completeRun_fits _ _ _ _ ?_ | with_reducible refine deferRun_fits _ _ _ ?_ | split | (simp (maxDischargeDepth := 20) [*]; done)
@[simp] theorem intervalEnd_keeps (i : Nat) (o : RehearsalObs) (s : State) : (intervalEnd i o s).pending = s.pending ∧ (intervalEnd i o s).chip = s.chip := by
  unfold intervalEnd; simp
@[simp] theorem intervalEnd_fits (i : Nat) (o : RehearsalObs) (s : State) (h : Fits s) : Fits (intervalEnd i o s) := by
  unfold intervalEnd; try dsimp only
  repeat' first | with_reducible assumption | intro _ | with_reducible refine forEach_fits _ _ _ ?_ ?_ | with_reducible refine foldl_fits _ _ _ ?_ ?_ | with_reducible refine updCal_fits _ _ _ ?_ | with_reducible refine runBoundary_fits _ _ ?_ | split | (simp (maxDischargeDepth := 20) [*]; done)
theorem execRotationIntervalEnd_keeps (input : Nat) (obs : RehearsalObs) (s : State) {t : State} (e : execRotationIntervalEnd input obs s = .next t) : t.pending = s.pending ∧ t.chip = s.chip := by
  unfold execRotationIntervalEnd at e; dsimp only at e; (repeat' split at e) <;> simp at e <;> subst e <;> (repeat' split) <;> simp_all
theorem execRotationIntervalEnd_fits (input : Nat) (obs : RehearsalObs) (s : State) {t : State} (e : execRotationIntervalEnd input obs s = .next t) (h : Fits s) : Fits t := by
  unfold execRotationIntervalEnd at e; dsimp only at e; (repeat' split at e) <;> simp at e <;> subst e <;> (repeat' split) <;> simp_all
@[simp] theorem swapFailed_keeps (i : Nat) (s : State) : (swapFailed i s).pending = s.pending ∧ (swapFailed i s).chip = s.chip := by
  unfold swapFailed; (try dsimp only); (repeat' split) <;> simp_all
@[simp] theorem swapFailed_fits (i : Nat) (s : State) (h : Fits s) : Fits (swapFailed i s) := by
  unfold swapFailed; try dsimp only
  repeat' first | with_reducible assumption | intro _ | with_reducible refine forEach_fits _ _ _ ?_ ?_ | with_reducible refine foldl_fits _ _ _ ?_ ?_ | with_reducible refine changeReasons_fits _ _ _ ?_ | with_reducible refine updCal_fits _ _ _ ?_ | with_reducible refine deferRun_fits _ _ _ ?_ | split | (simp (maxDischargeDepth := 20) [*]; done)
theorem execOverlapEnd_keeps (input : Nat) (rmsDiff : Nat) (meanDiff : Nat) (s : State) {t : State} (e : execOverlapEnd input rmsDiff meanDiff s = .next t) : t.pending = s.pending ∧ t.chip = s.chip := by
  unfold execOverlapEnd at e; dsimp only at e; (repeat' split at e) <;> simp at e <;> subst e <;> (repeat' split) <;> simp_all
theorem execOverlapEnd_fits (input : Nat) (rmsDiff : Nat) (meanDiff : Nat) (s : State) {t : State} (e : execOverlapEnd input rmsDiff meanDiff s = .next t) (h : Fits s) : Fits t := by
  unfold execOverlapEnd at e; dsimp only at e; (repeat' split at e) <;> simp at e <;> subst e <;> (repeat' split) <;> simp_all
@[simp] theorem evalWindow_keeps (i : Nat) (m : Nat) (o : EvalObs) (s : State) : (evalWindow i m o s).pending = s.pending ∧ (evalWindow i m o s).chip = s.chip := by
  have hk (f : CalInput → CalInput) := updCal_keeps i f s
  unfold evalWindow; dsimp only
  (repeat' split) <;> simp [hk]
@[simp] theorem evalWindow_fits (i : Nat) (m : Nat) (o : EvalObs) (s : State) (h : Fits s) : Fits (evalWindow i m o s) := by
  have hf (f : CalInput → CalInput) := updCal_fits i f s h
  unfold evalWindow; dsimp only
  (repeat' split) <;> simp [hf]
@[simp] theorem evaluationWindowEnd_keeps (i : Nat) (o : EvalObs) (s : State) : (evaluationWindowEnd i o s).pending = s.pending ∧ (evaluationWindowEnd i o s).chip = s.chip := by
  unfold evaluationWindowEnd; simp
@[simp] theorem evaluationWindowEnd_fits (i : Nat) (o : EvalObs) (s : State) (h : Fits s) : Fits (evaluationWindowEnd i o s) := by
  unfold evaluationWindowEnd; try dsimp only
  repeat' first | with_reducible assumption | intro _ | with_reducible refine forEach_fits _ _ _ ?_ ?_ | with_reducible refine foldl_fits _ _ _ ?_ ?_ | with_reducible refine evalWindow_fits _ _ _ _ ?_ | with_reducible refine updCal_fits _ _ _ ?_ | split | (simp (maxDischargeDepth := 20) [*]; done)
theorem execEvaluationWindowEnd_keeps (input : Nat) (obs : EvalObs) (s : State) {t : State} (e : execEvaluationWindowEnd input obs s = .next t) : t.pending = s.pending ∧ t.chip = s.chip := by
  unfold execEvaluationWindowEnd at e; (repeat' split at e) <;> simp at e <;> subst e <;> simp
theorem execEvaluationWindowEnd_fits (input : Nat) (obs : EvalObs) (s : State) {t : State} (e : execEvaluationWindowEnd input obs s = .next t) (h : Fits s) : Fits t := by
  unfold execEvaluationWindowEnd at e; (repeat' split at e) <;> simp at e <;> subst e <;> simp [h]
@[simp] theorem applySelection_keeps (i : Nat) (s : State) : (applySelection i s).pending = s.pending ∧ (applySelection i s).chip = s.chip := by
  unfold applySelection; (repeat' split) <;> simp
@[simp] theorem applySelection_fits (i : Nat) (s : State) (h : Fits s) : Fits (applySelection i s) := by
  unfold applySelection; (repeat' split) <;> simp [h]
theorem execSelectionChange_keeps (input : Nat) (s : State) {t : State} (e : execSelectionChange input s = .next t) : t.pending = s.pending ∧ t.chip = s.chip := by
  unfold execSelectionChange at e; (repeat' split at e) <;> simp at e <;> subst e <;> simp
theorem execSelectionChange_fits (input : Nat) (s : State) {t : State} (e : execSelectionChange input s = .next t) (h : Fits s) : Fits t := by
  unfold execSelectionChange at e; (repeat' split at e) <;> simp at e <;> subst e <;> simp [h]
@[simp] theorem retryRun_keeps (i : Nat) (o : ValidObs) (s : State) : (retryRun i o s).pending = s.pending ∧ (retryRun i o s).chip = s.chip := by
  unfold retryRun; simp
@[simp] theorem retryRun_fits (i : Nat) (o : ValidObs) (s : State) (h : Fits s) : Fits (retryRun i o s) := by
  unfold retryRun; try dsimp only
  repeat' first | with_reducible assumption | intro _ | with_reducible refine forEach_fits _ _ _ ?_ ?_ | with_reducible refine foldl_fits _ _ _ ?_ ?_ | with_reducible refine slotFree_fits _ ?_ | with_reducible refine changeReasons_fits _ _ _ ?_ | with_reducible refine updCal_fits _ _ _ ?_ | with_reducible refine updRec_fits _ _ _ _ ?_ | with_reducible refine endDeferral_fits _ _ _ _ ?_ | with_reducible refine becomesRunnable_fits _ _ _ ?_ | split | (simp (maxDischargeDepth := 20) [*]; done)
theorem execCalRetry_keeps (input : Nat) (obs : ValidObs) (s : State) {t : State} (e : execCalRetry input obs s = .next t) : t.pending = s.pending ∧ t.chip = s.chip := by
  unfold execCalRetry at e; dsimp only at e; (repeat' split at e) <;> simp at e <;> subst e <;> (repeat' split) <;> simp_all
theorem execCalRetry_fits (input : Nat) (obs : ValidObs) (s : State) {t : State} (e : execCalRetry input obs s = .next t) (h : Fits s) : Fits t := by
  unfold execCalRetry at e; dsimp only at e; (repeat' split at e) <;> simp at e <;> subst e <;> (repeat' split) <;> simp_all
theorem execCalIntervalTrigger_keeps (input : Nat) (s : State) {t : State} (e : execCalIntervalTrigger input s = .next t) : t.pending = s.pending ∧ t.chip = s.chip := by
  unfold execCalIntervalTrigger at e; dsimp only at e; (repeat' split at e) <;> simp at e <;> subst e <;> (repeat' split) <;> simp_all
theorem execCalIntervalTrigger_fits (input : Nat) (s : State) {t : State} (e : execCalIntervalTrigger input s = .next t) (h : Fits s) : Fits t := by
  unfold execCalIntervalTrigger at e; dsimp only at e; (repeat' split at e) <;> simp at e <;> subst e <;> (repeat' split) <;> simp_all

/-! ### UnitOps -/

@[simp] theorem forgetShed_keeps (engine : Bool) (id : Nat) (s : State) : (forgetShed engine id s).pending = s.pending ∧ (forgetShed engine id s).chip = s.chip := by
  unfold forgetShed; simp
@[simp] theorem forgetShed_fits (engine : Bool) (id : Nat) (s : State) (h : Fits s) : Fits (forgetShed engine id s) := by
  unfold forgetShed; simp [h]
@[simp] theorem setLaneMask_keeps (id : Nat) (new : Nat) (s : State) : (setLaneMask id new s).pending = s.pending ∧ (setLaneMask id new s).chip = s.chip := by
  unfold setLaneMask; (repeat' split) <;> simp
@[simp] theorem setLaneMask_fits (id : Nat) (new : Nat) (s : State) (h : Fits s) : Fits (setLaneMask id new s) := by
  unfold setLaneMask; (repeat' split) <;> simp [h]
@[simp] theorem setEngineMask_keeps (x1 : Nat) (new : Nat) (s : State) : (setEngineMask x1 new s).pending = s.pending ∧ (setEngineMask x1 new s).chip = s.chip := by
  unfold setEngineMask; (repeat' split) <;> simp
@[simp] theorem setEngineMask_fits (x1 : Nat) (new : Nat) (s : State) (h : Fits s) : Fits (setEngineMask x1 new s) := by
  unfold setEngineMask; (repeat' split) <;> simp [h]
@[simp] theorem dropWait_keeps (w : Wait) (a : State) : (dropWait w a).pending = a.pending ∧ (dropWait w a).chip = a.chip := by
  unfold dropWait; simp
@[simp] theorem dropWait_fits (w : Wait) (a : State) (h : Fits a) : Fits (dropWait w a) := by
  unfold dropWait; simp [h]
@[simp] theorem quietLane_keeps (id : Nat) (s : State) : (quietLane id s).pending = s.pending ∧ (quietLane id s).chip = s.chip := by
  unfold quietLane; simp
@[simp] theorem quietLane_fits (id : Nat) (s : State) (h : Fits s) : Fits (quietLane id s) := by
  unfold quietLane; try dsimp only
  repeat' first | with_reducible assumption | intro _ | with_reducible refine forEach_fits _ _ _ ?_ ?_ | with_reducible refine foldl_fits _ _ _ ?_ ?_ | with_reducible refine dropWait_fits _ _ ?_ | with_reducible refine endAnnWhere_fits _ _ ?_ | with_reducible refine updLane_fits _ _ _ ?_ | with_reducible refine closeLaneFlows_fits _ _ _ ?_ | split | (simp (maxDischargeDepth := 20) [*]; done)
@[simp] theorem drainLane_keeps (id : Nat) (s : State) : (drainLane id s).pending = s.pending ∧ (drainLane id s).chip = s.chip := by
  unfold drainLane; simp
@[simp] theorem drainLane_fits (id : Nat) (s : State) (h : Fits s) : Fits (drainLane id s) := by
  unfold drainLane; try dsimp only
  repeat' first | with_reducible assumption | intro _ | with_reducible refine forEach_fits _ _ _ ?_ ?_ | with_reducible refine foldl_fits _ _ _ ?_ ?_ | with_reducible refine forgetShed_fits _ _ _ ?_ | with_reducible refine updLane_fits _ _ _ ?_ | with_reducible refine quietLane_fits _ _ ?_ | split | (simp (maxDischargeDepth := 20) [*]; done)
@[simp] theorem freeLane_keeps (id : Nat) (s : State) : (freeLane id s).pending = s.pending ∧ (freeLane id s).chip = s.chip := by
  unfold freeLane; simp
@[simp] theorem freeLane_fits (id : Nat) (s : State) (h : Fits s) : Fits (freeLane id s) := by
  unfold freeLane; simp [h]
@[simp] theorem releaseLane_keeps (id : Nat) (s : State) : (releaseLane id s).pending = s.pending ∧ (releaseLane id s).chip = s.chip := by
  unfold releaseLane; (repeat' split) <;> simp
@[simp] theorem releaseLane_fits (id : Nat) (s : State) (h : Fits s) : Fits (releaseLane id s) := by
  unfold releaseLane; try dsimp only
  repeat' first | with_reducible assumption | intro _ | with_reducible refine forEach_fits _ _ _ ?_ ?_ | with_reducible refine foldl_fits _ _ _ ?_ ?_ | with_reducible refine freeLane_fits _ _ ?_ | with_reducible refine drainLane_fits _ _ ?_ | with_reducible refine updLane_fits _ _ _ ?_ | with_reducible refine quietLane_fits _ _ ?_ | with_reducible refine laneLeaves_fits _ _ ?_ | split | (simp (maxDischargeDepth := 20) [*]; done)
@[simp] theorem stopDecoders_keeps (x1 : Nat) (s : State) : (stopDecoders x1 s).pending = s.pending ∧ (stopDecoders x1 s).chip = s.chip := by
  unfold stopDecoders; simp
@[simp] theorem stopDecoders_fits (x1 : Nat) (s : State) (h : Fits s) : Fits (stopDecoders x1 s) := by
  unfold stopDecoders; simp [h]
@[simp] theorem quietEngine_keeps (x1 : Nat) (s : State) : (quietEngine x1 s).pending = s.pending ∧ (quietEngine x1 s).chip = s.chip := by
  unfold quietEngine; simp
@[simp] theorem quietEngine_fits (x1 : Nat) (s : State) (h : Fits s) : Fits (quietEngine x1 s) := by
  unfold quietEngine; try dsimp only
  repeat' first | with_reducible assumption | intro _ | with_reducible refine forEach_fits _ _ _ ?_ ?_ | with_reducible refine foldl_fits _ _ _ ?_ ?_ | with_reducible refine closeEngineFlows_fits _ _ _ ?_ | with_reducible refine dropWait_fits _ _ ?_ | with_reducible refine endAnnWhere_fits _ _ ?_ | with_reducible refine stopDecoders_fits _ _ ?_ | with_reducible refine updEngine_fits _ _ _ ?_ | split | (simp (maxDischargeDepth := 20) [*]; done)
@[simp] theorem drainEngine_keeps (x1 : Nat) (s : State) : (drainEngine x1 s).pending = s.pending ∧ (drainEngine x1 s).chip = s.chip := by
  unfold drainEngine; simp
@[simp] theorem drainEngine_fits (x1 : Nat) (s : State) (h : Fits s) : Fits (drainEngine x1 s) := by
  unfold drainEngine; try dsimp only
  repeat' first | with_reducible assumption | intro _ | with_reducible refine forEach_fits _ _ _ ?_ ?_ | with_reducible refine foldl_fits _ _ _ ?_ ?_ | with_reducible refine quietEngine_fits _ _ ?_ | with_reducible refine forgetShed_fits _ _ _ ?_ | with_reducible refine updEngine_fits _ _ _ ?_ | split | (simp (maxDischargeDepth := 20) [*]; done)
@[simp] theorem bumpServices_keeps (s : State) : (bumpServices s).pending = s.pending ∧ (bumpServices s).chip = s.chip := by
  unfold bumpServices; simp
@[simp] theorem bumpServices_fits (s : State) (h : Fits s) : Fits (bumpServices s) := by
  unfold bumpServices; simp [h]
@[simp] theorem freeEngine_keeps (x1 : Nat) (s : State) : (freeEngine x1 s).pending = s.pending ∧ (freeEngine x1 s).chip = s.chip := by
  unfold freeEngine; (try dsimp only); (repeat' split) <;> simp_all
@[simp] theorem freeEngine_fits (x1 : Nat) (s : State) (h : Fits s) : Fits (freeEngine x1 s) := by
  unfold freeEngine; try dsimp only
  repeat' first | with_reducible assumption | intro _ | with_reducible refine forEach_fits _ _ _ ?_ ?_ | with_reducible refine foldl_fits _ _ _ ?_ ?_ | with_reducible refine bumpServices_fits _ ?_ | with_reducible refine forgetShed_fits _ _ _ ?_ | with_reducible refine updEngine_fits _ _ _ ?_ | split | (simp (maxDischargeDepth := 20) [*]; done)
@[simp] theorem releaseEngine_keeps (x1 : Nat) (s : State) : (releaseEngine x1 s).pending = s.pending ∧ (releaseEngine x1 s).chip = s.chip := by
  unfold releaseEngine; (repeat' split) <;> simp
@[simp] theorem releaseEngine_fits (x1 : Nat) (s : State) (h : Fits s) : Fits (releaseEngine x1 s) := by
  unfold releaseEngine; (repeat' split) <;> simp [h]
@[simp] theorem retune_keeps (s : State) : (retune s).pending = s.pending ∧ (retune s).chip = s.chip := by
  unfold retune; simp
@[simp] theorem retune_fits (s : State) (h : Fits s) : Fits (retune s) := by
  unfold retune; simp [h]
@[simp] theorem afterTrim_keeps (s : State) : (afterTrim s).pending = s.pending ∧ (afterTrim s).chip = s.chip := by
  unfold afterTrim; simp
@[simp] theorem afterTrim_fits (s : State) (h : Fits s) : Fits (afterTrim s) := by
  unfold afterTrim; simp [h]
@[simp] theorem putLane_keeps (id : Nat) (o : Owner) (freq : Nat) (mask : Nat) (pin : Bool) (start : Bool) (af : Option Id16) (s : State) : (putLane id o freq mask pin start af s).pending = s.pending ∧ (putLane id o freq mask pin start af s).chip = s.chip := by
  unfold putLane; simp
@[simp] theorem putLane_fits (id : Nat) (o : Owner) (freq : Nat) (mask : Nat) (pin : Bool) (start : Bool) (af : Option Id16) (s : State) (h : Fits s) : Fits (putLane id o freq mask pin start af s) := by
  unfold putLane; simp [h]
@[simp] theorem redirectLane_keeps (id : Nat) (p : Pend) (s : State) : (redirectLane id p s).pending = s.pending ∧ (redirectLane id p s).chip = s.chip := by
  unfold redirectLane; (repeat' split) <;> simp
@[simp] theorem redirectLane_fits (id : Nat) (p : Pend) (s : State) (h : Fits s) : Fits (redirectLane id p s) := by
  unfold redirectLane; (repeat' split) <;> simp [h]
@[simp] theorem putEngine_keeps (x1 : Nat) (o : Owner) (block : Nat) (freq : Nat) (mask : Nat) (pin : Bool) (start : Bool) (s : State) : (putEngine x1 o block freq mask pin start s).pending = s.pending ∧ (putEngine x1 o block freq mask pin start s).chip = s.chip := by
  unfold putEngine; simp
@[simp] theorem putEngine_fits (x1 : Nat) (o : Owner) (block : Nat) (freq : Nat) (mask : Nat) (pin : Bool) (start : Bool) (s : State) (h : Fits s) : Fits (putEngine x1 o block freq mask pin start s) := by
  unfold putEngine; simp [h]
@[simp] theorem redirectEngine_keeps (x1 : Nat) (p : Pend) (s : State) : (redirectEngine x1 p s).pending = s.pending ∧ (redirectEngine x1 p s).chip = s.chip := by
  unfold redirectEngine; (repeat' split) <;> simp
@[simp] theorem redirectEngine_fits (x1 : Nat) (p : Pend) (s : State) (h : Fits s) : Fits (redirectEngine x1 p s) := by
  unfold redirectEngine; (repeat' split) <;> simp [h]
@[simp] theorem startLane_keeps (id : Nat) (s : State) : (startLane id s).pending = s.pending ∧ (startLane id s).chip = s.chip := by
  unfold startLane; (repeat' split) <;> simp
@[simp] theorem startLane_fits (id : Nat) (s : State) (h : Fits s) : Fits (startLane id s) := by
  unfold startLane; try dsimp only
  repeat' first | with_reducible assumption | intro _ | with_reducible refine forEach_fits _ _ _ ?_ ?_ | with_reducible refine foldl_fits _ _ _ ?_ ?_ | with_reducible refine evCmdDone_fits _ _ _ _ ?_ | with_reducible refine updLane_fits _ _ _ ?_ | with_reducible refine finishWait_fits _ _ ?_ | split | (simp (maxDischargeDepth := 20) [*]; done)
@[simp] theorem startEngine_keeps (x1 : Nat) (s : State) : (startEngine x1 s).pending = s.pending ∧ (startEngine x1 s).chip = s.chip := by
  unfold startEngine; (repeat' split) <;> simp
@[simp] theorem startEngine_fits (x1 : Nat) (s : State) (h : Fits s) : Fits (startEngine x1 s) := by
  unfold startEngine; try dsimp only
  repeat' first | with_reducible assumption | intro _ | with_reducible refine forEach_fits _ _ _ ?_ ?_ | with_reducible refine foldl_fits _ _ _ ?_ ?_ | with_reducible refine evCmdDone_fits _ _ _ _ ?_ | with_reducible refine finishWait_fits _ _ ?_ | with_reducible refine nullSearch_fits _ _ ?_ | with_reducible refine updEngine_fits _ _ _ ?_ | split | (simp (maxDischargeDepth := 20) [*]; done)
@[simp] theorem orderLane_keeps (id : Nat) (s : State) : (orderLane id s).pending = s.pending ∧ (orderLane id s).chip = s.chip := by
  unfold orderLane; simp
@[simp] theorem orderLane_fits (id : Nat) (s : State) (h : Fits s) : Fits (orderLane id s) := by
  unfold orderLane; simp [h]
@[simp] theorem orderEngine_keeps (x1 : Nat) (s : State) : (orderEngine x1 s).pending = s.pending ∧ (orderEngine x1 s).chip = s.chip := by
  unfold orderEngine; simp
@[simp] theorem orderEngine_fits (x1 : Nat) (s : State) (h : Fits s) : Fits (orderEngine x1 s) := by
  unfold orderEngine; simp [h]
@[simp] theorem startAntennas_keeps (s : State) : (startAntennas s).pending = s.pending ∧ (startAntennas s).chip = s.chip := by
  unfold startAntennas; simp
@[simp] theorem startAntennas_fits (s : State) (h : Fits s) : Fits (startAntennas s) := by
  unfold startAntennas; simp [h]
@[simp] theorem startAll_keeps (s : State) : (startAll s).pending = s.pending ∧ (startAll s).chip = s.chip := by
  unfold startAll; simp
@[simp] theorem startAll_fits (s : State) (h : Fits s) : Fits (startAll s) := by
  unfold startAll; try dsimp only
  repeat' first | with_reducible assumption | intro _ | with_reducible refine forEach_fits _ _ _ ?_ ?_ | with_reducible refine foldl_fits _ _ _ ?_ ?_ | with_reducible refine startLane_fits _ _ ?_ | with_reducible refine finishWait_fits _ _ ?_ | with_reducible refine startAntennas_fits _ ?_ | with_reducible refine forEach_fits _ _ _ ?_ ?_ | with_reducible refine startEngine_fits _ _ ?_ | split | (simp (maxDischargeDepth := 20) [*]; done)
@[simp] theorem endLaneDrain_keeps (id : Nat) (s : State) : (endLaneDrain id s).pending = s.pending ∧ (endLaneDrain id s).chip = s.chip := by
  unfold endLaneDrain; (try dsimp only); (repeat' split) <;> simp_all
@[simp] theorem endLaneDrain_fits (id : Nat) (s : State) (h : Fits s) : Fits (endLaneDrain id s) := by
  unfold endLaneDrain; try dsimp only
  repeat' first | with_reducible assumption | intro _ | with_reducible refine forEach_fits _ _ _ ?_ ?_ | with_reducible refine foldl_fits _ _ _ ?_ ?_ | with_reducible refine startLane_fits _ _ ?_ | with_reducible refine freeLane_fits _ _ ?_ | with_reducible refine evCmdDone_fits _ _ _ _ ?_ | with_reducible refine updLane_fits _ _ _ ?_ | with_reducible refine putLane_fits _ _ _ _ _ _ _ _ ?_ | with_reducible refine laneLeaves_fits _ _ ?_ | split | (simp (maxDischargeDepth := 20) [*]; done)
@[simp] theorem endEngineDrain_keeps (x1 : Nat) (s : State) : (endEngineDrain x1 s).pending = s.pending ∧ (endEngineDrain x1 s).chip = s.chip := by
  unfold endEngineDrain; (try dsimp only); (repeat' split) <;> simp_all
@[simp] theorem endEngineDrain_fits (x1 : Nat) (s : State) (h : Fits s) : Fits (endEngineDrain x1 s) := by
  unfold endEngineDrain; try dsimp only
  repeat' first | with_reducible assumption | intro _ | with_reducible refine forEach_fits _ _ _ ?_ ?_ | with_reducible refine foldl_fits _ _ _ ?_ ?_ | with_reducible refine evCmdDone_fits _ _ _ _ ?_ | with_reducible refine freeEngine_fits _ _ ?_ | with_reducible refine startEngine_fits _ _ ?_ | with_reducible refine updEngine_fits _ _ _ ?_ | split | (simp (maxDischargeDepth := 20) [*]; done)
@[simp] theorem bandPlanLane_keeps (id : Nat) (s : State) : (bandPlanLane id s).pending = s.pending ∧ (bandPlanLane id s).chip = s.chip := by
  unfold bandPlanLane; simp
@[simp] theorem bandPlanLane_fits (id : Nat) (s : State) (h : Fits s) : Fits (bandPlanLane id s) := by
  unfold bandPlanLane; simp [h]
@[simp] theorem bandPlanEngine_keeps (x1 : Nat) (s : State) : (bandPlanEngine x1 s).pending = s.pending ∧ (bandPlanEngine x1 s).chip = s.chip := by
  unfold bandPlanEngine; simp
@[simp] theorem bandPlanEngine_fits (x1 : Nat) (s : State) (h : Fits s) : Fits (bandPlanEngine x1 s) := by
  unfold bandPlanEngine; simp [h]

/-! ### ModelOps -/

@[simp] theorem modelEvents_keeps (x1 : Nat) (before : Model) (after : Model) (s : State) : (modelEvents x1 before after s).pending = s.pending ∧ (modelEvents x1 before after s).chip = s.chip := by
  unfold modelEvents; simp
@[simp] theorem modelEvents_fits (x1 : Nat) (before : Model) (after : Model) (s : State) (h : Fits s) : Fits (modelEvents x1 before after s) := by
  unfold modelEvents; try dsimp only
  repeat' first | with_reducible assumption | intro _ | with_reducible refine forEach_fits _ _ _ ?_ ?_ | with_reducible refine foldl_fits _ _ _ ?_ ?_ | with_reducible refine bumpServices_fits _ ?_ | with_reducible refine forEach_fits _ _ _ ?_ ?_ | with_reducible refine evService_fits _ _ _ _ _ _ _ ?_ | split | (simp (maxDischargeDepth := 20) [*]; done)
@[simp] theorem setModel_keeps (x1 : Nat) (m : Model) (s : State) : (setModel x1 m s).pending = s.pending ∧ (setModel x1 m s).chip = s.chip := by
  unfold setModel; (repeat' split) <;> simp
@[simp] theorem setModel_fits (x1 : Nat) (m : Model) (s : State) (h : Fits s) : Fits (setModel x1 m s) := by
  unfold setModel; (repeat' split) <;> simp [h]
@[simp] theorem refreshAnn_keeps (x1 : Nat) (eid : Id16) (c : Cluster) (s : State) : (refreshAnn x1 eid c s).pending = s.pending ∧ (refreshAnn x1 eid c s).chip = s.chip := by
  unfold refreshAnn; simp
@[simp] theorem refreshAnn_fits (x1 : Nat) (eid : Id16) (c : Cluster) (s : State) (h : Fits s) : Fits (refreshAnn x1 eid c s) := by
  unfold refreshAnn; simp [h]
@[simp] theorem putCluster_keeps (x1 : Nat) (c : Cluster) (a : State) : (putCluster x1 c a).pending = a.pending ∧ (putCluster x1 c a).chip = a.chip := by
  unfold putCluster; simp
@[simp] theorem putCluster_fits (x1 : Nat) (c : Cluster) (a : State) (h : Fits a) : Fits (putCluster x1 c a) := by
  unfold putCluster; simp [h]
@[simp] theorem useSwitch_keeps (x1 : Nat) (cluster : Nat) (asw : Nat) (subch : Nat) (new : Bool) (region : Nat) (s : State) : (useSwitch x1 cluster asw subch new region s).pending = s.pending ∧ (useSwitch x1 cluster asw subch new region s).chip = s.chip := by
  unfold useSwitch; (repeat' split) <;> simp
@[simp] theorem useSwitch_fits (x1 : Nat) (cluster : Nat) (asw : Nat) (subch : Nat) (new : Bool) (region : Nat) (s : State) (h : Fits s) : Fits (useSwitch x1 cluster asw subch new region s) := by
  unfold useSwitch; try dsimp only
  repeat' first | with_reducible assumption | intro _ | with_reducible refine forEach_fits _ _ _ ?_ ?_ | with_reducible refine foldl_fits _ _ _ ?_ ?_ | with_reducible refine putCluster_fits _ _ _ ?_ | with_reducible refine refreshAnn_fits _ _ _ _ ?_ | with_reducible refine count_fits _ _ _ _ ?_ | with_reducible refine forEach_fits _ _ _ ?_ ?_ | with_reducible refine startAnn_fits _ _ ?_ | with_reducible refine endAnn_fits _ _ ?_ | split | (simp (maxDischargeDepth := 20) [*]; done)
@[simp] theorem dropCluster_keeps (x1 : Nat) (cluster : Nat) (s : State) : (dropCluster x1 cluster s).pending = s.pending ∧ (dropCluster x1 cluster s).chip = s.chip := by
  unfold dropCluster; simp
@[simp] theorem dropCluster_fits (x1 : Nat) (cluster : Nat) (s : State) (h : Fits s) : Fits (dropCluster x1 cluster s) := by
  unfold dropCluster; simp [h]
@[simp] theorem dropClusters_keeps (x1 : Nat) (s : State) : (dropClusters x1 s).pending = s.pending ∧ (dropClusters x1 s).chip = s.chip := by
  unfold dropClusters; simp
@[simp] theorem dropClusters_fits (x1 : Nat) (s : State) (h : Fits s) : Fits (dropClusters x1 s) := by
  unfold dropClusters; simp [h]
@[simp] theorem applyFig_keeps (x1 : Nat) (f : Fig) (s : State) : (applyFig x1 f s).pending = s.pending ∧ (applyFig x1 f s).chip = s.chip := by
  unfold applyFig; (repeat' split) <;> simp
@[simp] theorem applyFig_fits (x1 : Nat) (f : Fig) (s : State) (h : Fits s) : Fits (applyFig x1 f s) := by
  unfold applyFig; (repeat' split) <;> simp [h]
@[simp] theorem closeGone_keeps (x1 : Nat) (before : Model) (after : Model) (s : State) : (closeGone x1 before after s).pending = s.pending ∧ (closeGone x1 before after s).chip = s.chip := by
  unfold closeGone; simp
@[simp] theorem closeGone_fits (x1 : Nat) (before : Model) (after : Model) (s : State) (h : Fits s) : Fits (closeGone x1 before after s) := by
  unfold closeGone; try dsimp only
  repeat' first | with_reducible assumption | intro _ | with_reducible refine forEach_fits _ _ _ ?_ ?_ | with_reducible refine foldl_fits _ _ _ ?_ ?_ | with_reducible refine closeSubchFlows_fits _ _ _ _ ?_ | with_reducible refine forEach_fits _ _ _ ?_ ?_ | split | (simp (maxDischargeDepth := 20) [*]; done)

/-! ### InputOps -/

@[simp] theorem setGain_keeps (i : Nat) (new : Nat) (s : State) : (setGain i new s).pending = s.pending ∧ (setGain i new s).chip = s.chip := by
  unfold setGain; simp
@[simp] theorem setGain_fits (i : Nat) (new : Nat) (s : State) (h : Fits s) : Fits (setGain i new s) := by
  unfold setGain; simp [h]
@[simp] theorem measureStep_keeps (i : Nat) (rms : Int) (s : State) : (measureStep i rms s).pending = s.pending ∧ (measureStep i rms s).chip = s.chip := by
  unfold measureStep; (try dsimp only); (repeat' split) <;> simp_all
@[simp] theorem measureStep_fits (i : Nat) (rms : Int) (s : State) (h : Fits s) : Fits (measureStep i rms s) := by
  unfold measureStep; try dsimp only
  repeat' first | with_reducible assumption | intro _ | with_reducible refine forEach_fits _ _ _ ?_ ?_ | with_reducible refine foldl_fits _ _ _ ?_ ?_ | with_reducible refine updInput_fits _ _ _ ?_ | with_reducible refine updCal_fits _ _ _ ?_ | split | (simp (maxDischargeDepth := 20) [*]; done)
@[simp] theorem evInput_keeps (i : Nat) (reason : Nat) (a : Nat) (x1 : State) : (evInput i reason a x1).pending = x1.pending ∧ (evInput i reason a x1).chip = x1.chip := by
  unfold evInput; simp
@[simp] theorem evInput_fits (i : Nat) (reason : Nat) (a : Nat) (x1 : State) (h : Fits x1) : Fits (evInput i reason a x1) := by
  unfold evInput; simp [h]
@[simp] theorem judgeOverload_keeps (i : Nat) (s : State) : (judgeOverload i s).pending = s.pending ∧ (judgeOverload i s).chip = s.chip := by
  unfold judgeOverload; simp
@[simp] theorem judgeOverload_fits (i : Nat) (s : State) (h : Fits s) : Fits (judgeOverload i s) := by
  unfold judgeOverload; try dsimp only
  repeat' first | with_reducible assumption | intro _ | with_reducible refine forEach_fits _ _ _ ?_ ?_ | with_reducible refine foldl_fits _ _ _ ?_ ?_ | with_reducible refine updInput_fits _ _ _ ?_ | with_reducible refine evInput_fits _ _ _ _ ?_ | split | (simp (maxDischargeDepth := 20) [*]; done)
@[simp] theorem inputStarts_keeps (i : Nat) (s : State) : (inputStarts i s).pending = s.pending ∧ (inputStarts i s).chip = s.chip := by
  unfold inputStarts; simp
@[simp] theorem inputStarts_fits (i : Nat) (s : State) (h : Fits s) : Fits (inputStarts i s) := by
  unfold inputStarts; simp [h]
@[simp] theorem inputStops_keeps (i : Nat) (s : State) : (inputStops i s).pending = s.pending ∧ (inputStops i s).chip = s.chip := by
  unfold inputStops; simp
@[simp] theorem inputStops_fits (i : Nat) (s : State) (h : Fits s) : Fits (inputStops i s) := by
  unfold inputStops; try dsimp only
  repeat' first | with_reducible assumption | intro _ | with_reducible refine forEach_fits _ _ _ ?_ ?_ | with_reducible refine foldl_fits _ _ _ ?_ ?_ | with_reducible refine updInput_fits _ _ _ ?_ | with_reducible refine evInput_fits _ _ _ _ ?_ | with_reducible refine calStop_fits _ _ ?_ | split | (simp (maxDischargeDepth := 20) [*]; done)
@[simp] theorem startInputs_keeps (s : State) : (startInputs s).pending = s.pending ∧ (startInputs s).chip = s.chip := by
  unfold startInputs; simp
@[simp] theorem startInputs_fits (s : State) (h : Fits s) : Fits (startInputs s) := by
  unfold startInputs; try dsimp only
  repeat' first | with_reducible assumption | intro _ | with_reducible refine forEach_fits _ _ _ ?_ ?_ | with_reducible refine foldl_fits _ _ _ ?_ ?_ | with_reducible refine inputStarts_fits _ _ ?_ | with_reducible refine forEach_fits _ _ _ ?_ ?_ | split | (simp (maxDischargeDepth := 20) [*]; done)
@[simp] theorem matchInputs_keeps (s : State) : (matchInputs s).pending = s.pending ∧ (matchInputs s).chip = s.chip := by
  unfold matchInputs; simp
@[simp] theorem matchInputs_fits (s : State) (h : Fits s) : Fits (matchInputs s) := by
  unfold matchInputs; try dsimp only
  repeat' first | with_reducible assumption | intro _ | with_reducible refine forEach_fits _ _ _ ?_ ?_ | with_reducible refine foldl_fits _ _ _ ?_ ?_ | with_reducible refine updInput_fits _ _ _ ?_ | with_reducible refine inputStops_fits _ _ ?_ | with_reducible refine startInputs_fits _ ?_ | with_reducible refine forEach_fits _ _ _ ?_ ?_ | split | (simp (maxDischargeDepth := 20) [*]; done)
@[simp] theorem planRecords_keeps (source : Nat) (l : List Nat) (s : State) : (planRecords source l s).pending = s.pending ∧ (planRecords source l s).chip = s.chip := by
  unfold planRecords; simp
@[simp] theorem planRecords_fits (source : Nat) (l : List Nat) (s : State) (h : Fits s) : Fits (planRecords source l s) := by
  unfold planRecords; try dsimp only
  repeat' first | with_reducible assumption | intro _ | with_reducible refine forEach_fits _ _ _ ?_ ?_ | with_reducible refine foldl_fits _ _ _ ?_ ?_ | with_reducible refine forEach_fits _ _ _ ?_ ?_ | with_reducible refine evLane_fits _ _ _ _ _ _ _ ?_ | split | (simp (maxDischargeDepth := 20) [*]; done)
@[simp] theorem planLane_keeps (old : Nat) (new : Nat) (id : Nat) (s : State) : (planLane old new id s).pending = s.pending ∧ (planLane old new id s).chip = s.chip := by
  unfold planLane; (repeat' split) <;> simp
@[simp] theorem planLane_fits (old : Nat) (new : Nat) (id : Nat) (s : State) (h : Fits s) : Fits (planLane old new id s) := by
  unfold planLane; try dsimp only
  repeat' first | with_reducible assumption | intro _ | with_reducible refine forEach_fits _ _ _ ?_ ?_ | with_reducible refine foldl_fits _ _ _ ?_ ?_ | with_reducible refine updLane_fits _ _ _ ?_ | with_reducible refine planRecords_fits _ _ _ ?_ | with_reducible refine releaseLane_fits _ _ ?_ | split | (simp (maxDischargeDepth := 20) [*]; done)
@[simp] theorem planEngine_keeps (old : Nat) (new : Nat) (x1 : Nat) (s : State) : (planEngine old new x1 s).pending = s.pending ∧ (planEngine old new x1 s).chip = s.chip := by
  unfold planEngine; (repeat' split) <;> simp
@[simp] theorem planEngine_fits (old : Nat) (new : Nat) (x1 : Nat) (s : State) (h : Fits s) : Fits (planEngine old new x1 s) := by
  unfold planEngine; try dsimp only
  repeat' first | with_reducible assumption | intro _ | with_reducible refine forEach_fits _ _ _ ?_ ?_ | with_reducible refine foldl_fits _ _ _ ?_ ?_ | with_reducible refine releaseEngine_fits _ _ ?_ | with_reducible refine planRecords_fits _ _ _ ?_ | with_reducible refine updEngine_fits _ _ _ ?_ | split | (simp (maxDischargeDepth := 20) [*]; done)
@[simp] theorem planSets_keeps (old : Nat) (new : Nat) (s : State) : (planSets old new s).pending = s.pending ∧ (planSets old new s).chip = s.chip := by
  unfold planSets; simp
@[simp] theorem planSets_fits (old : Nat) (new : Nat) (s : State) (h : Fits s) : Fits (planSets old new s) := by
  unfold planSets; try dsimp only
  repeat' first | with_reducible assumption | intro _ | with_reducible refine forEach_fits _ _ _ ?_ ?_ | with_reducible refine foldl_fits _ _ _ ?_ ?_ | with_reducible refine planLane_fits _ _ _ _ ?_ | with_reducible refine forEach_fits _ _ _ ?_ ?_ | with_reducible refine planEngine_fits _ _ _ _ ?_ | split | (simp (maxDischargeDepth := 20) [*]; done)

/-! ### Lanes -/

@[simp] theorem assignFreeLane_keeps (id : Nat) (a : Ask) (s : State) : (assignFreeLane id a s).state.pending = s.pending ∧ (assignFreeLane id a s).state.chip = s.chip := by
  unfold assignFreeLane; (repeat' split) <;> simp
@[simp] theorem assignFreeLane_fits (id : Nat) (a : Ask) (s : State) (h : Fits s) : Fits (assignFreeLane id a s).state := by
  unfold assignFreeLane; (repeat' split) <;> simp [h]
@[simp] theorem reassignLane_keeps (id : Nat) (a : Ask) (tag : Byte) (s : State) : (reassignLane id a tag s).state.pending = s.pending ∧ (reassignLane id a tag s).state.chip = s.chip := by
  unfold reassignLane; (repeat' split) <;> simp
@[simp] theorem reassignLane_fits (id : Nat) (a : Ask) (tag : Byte) (s : State) (h : Fits s) : Fits (reassignLane id a tag s).state := by
  unfold reassignLane; (repeat' split) <;> simp [h]
@[simp] theorem adjustLane_keeps (id : Nat) (a : Ask) (l : Lane) (s : State) : (adjustLane id a l s).state.pending = s.pending ∧ (adjustLane id a l s).state.chip = s.chip := by
  unfold adjustLane; (repeat' split) <;> simp
@[simp] theorem adjustLane_fits (id : Nat) (a : Ask) (l : Lane) (s : State) (h : Fits s) : Fits (adjustLane id a l s).state := by
  unfold adjustLane; try dsimp only
  repeat' first | with_reducible assumption | intro _ | with_reducible refine forEach_fits _ _ _ ?_ ?_ | with_reducible refine foldl_fits _ _ _ ?_ ?_ | with_reducible refine setLaneMask_fits _ _ _ ?_ | with_reducible refine fail_fits _ _ ?_ | with_reducible refine orderLane_fits _ _ ?_ | with_reducible refine forgetShed_fits _ _ _ ?_ | with_reducible refine updLane_fits _ _ _ ?_ | with_reducible refine okay_fits _ _ ?_ | split | (simp (maxDischargeDepth := 20) [*]; done)
@[simp] theorem assignLane_keeps (id : Nat) (a : Ask) (tag : Byte) (s : State) : (assignLane id a tag s).state.pending = s.pending ∧ (assignLane id a tag s).state.chip = s.chip := by
  unfold assignLane; (repeat' split) <;> simp
@[simp] theorem assignLane_fits (id : Nat) (a : Ask) (tag : Byte) (s : State) (h : Fits s) : Fits (assignLane id a tag s).state := by
  unfold assignLane; (repeat' split) <;> simp [h]
@[simp] theorem bodyLaneAssign_keeps (c : Call) (s : State) : (bodyLaneAssign c s).state.pending = s.pending ∧ (bodyLaneAssign c s).state.chip = s.chip := by
  unfold bodyLaneAssign; (try dsimp only); (repeat' split) <;> simp_all
@[simp] theorem bodyLaneAssign_fits (c : Call) (s : State) (h : Fits s) : Fits (bodyLaneAssign c s).state := by
  unfold bodyLaneAssign; try dsimp only
  repeat' first | with_reducible assumption | intro _ | with_reducible refine forEach_fits _ _ _ ?_ ?_ | with_reducible refine foldl_fits _ _ _ ?_ ?_ | with_reducible refine assignLane_fits _ _ _ _ ?_ | with_reducible refine fail_fits _ _ ?_ | with_reducible refine reassignLane_fits _ _ _ _ ?_ | split | (simp (maxDischargeDepth := 20) [*]; done)
theorem execLaneAssign_keeps (tag : Byte) (p : List Byte) (s : State) {t : State} (e : execLaneAssign tag p s = .next t) : t.pending = s.pending ∧ t.chip = s.chip := by
  unfold execLaneAssign at e; exact hostRow_keeps (fun _ _ => by simp [cmdLaneAssign]) e
theorem execLaneAssign_fits (tag : Byte) (p : List Byte) (s : State) {t : State} (e : execLaneAssign tag p s = .next t) (h : Fits s) : Fits t := by
  unfold execLaneAssign at e; exact hostRow_fits (fun _ _ hu => by simp [cmdLaneAssign, hu]) e h
@[simp] theorem bodyLaneRelease_keeps (c : Call) (s : State) : (bodyLaneRelease c s).state.pending = s.pending ∧ (bodyLaneRelease c s).state.chip = s.chip := by
  unfold bodyLaneRelease; (try dsimp only); (repeat' split) <;> simp_all
@[simp] theorem bodyLaneRelease_fits (c : Call) (s : State) (h : Fits s) : Fits (bodyLaneRelease c s).state := by
  unfold bodyLaneRelease; try dsimp only
  repeat' first | with_reducible assumption | intro _ | with_reducible refine forEach_fits _ _ _ ?_ ?_ | with_reducible refine foldl_fits _ _ _ ?_ ?_ | with_reducible refine reselectAll_fits _ ?_ | with_reducible refine fail_fits _ _ ?_ | with_reducible refine okay_fits _ _ ?_ | with_reducible refine releaseLane_fits _ _ ?_ | split | (simp (maxDischargeDepth := 20) [*]; done)
theorem execLaneRelease_keeps (tag : Byte) (p : List Byte) (s : State) {t : State} (e : execLaneRelease tag p s = .next t) : t.pending = s.pending ∧ t.chip = s.chip := by
  unfold execLaneRelease at e; exact hostRow_keeps (fun _ _ => by simp [cmdLaneRelease]) e
theorem execLaneRelease_fits (tag : Byte) (p : List Byte) (s : State) {t : State} (e : execLaneRelease tag p s = .next t) (h : Fits s) : Fits t := by
  unfold execLaneRelease at e; exact hostRow_fits (fun _ _ hu => by simp [cmdLaneRelease, hu]) e h
@[simp] theorem bodyLaneList_keeps (c : Call) (s : State) : (bodyLaneList c s).state.pending = s.pending ∧ (bodyLaneList c s).state.chip = s.chip := by
  unfold bodyLaneList; simp
@[simp] theorem bodyLaneList_fits (c : Call) (s : State) (h : Fits s) : Fits (bodyLaneList c s).state := by
  unfold bodyLaneList; simp [h]
theorem execLaneList_keeps (tag : Byte) (p : List Byte) (s : State) {t : State} (e : execLaneList tag p s = .next t) : t.pending = s.pending ∧ t.chip = s.chip := by
  unfold execLaneList at e; exact hostRow_keeps (fun _ _ => by simp [cmdLaneList]) e
theorem execLaneList_fits (tag : Byte) (p : List Byte) (s : State) {t : State} (e : execLaneList tag p s = .next t) (h : Fits s) : Fits t := by
  unfold execLaneList at e; exact hostRow_fits (fun _ _ hu => by simp [cmdLaneList, hu]) e h
@[simp] theorem bodyLaneStatus_keeps (c : Call) (s : State) : (bodyLaneStatus c s).state.pending = s.pending ∧ (bodyLaneStatus c s).state.chip = s.chip := by
  unfold bodyLaneStatus; (repeat' split) <;> simp
@[simp] theorem bodyLaneStatus_fits (c : Call) (s : State) (h : Fits s) : Fits (bodyLaneStatus c s).state := by
  unfold bodyLaneStatus; (repeat' split) <;> simp [h]
theorem execLaneStatus_keeps (tag : Byte) (p : List Byte) (s : State) {t : State} (e : execLaneStatus tag p s = .next t) : t.pending = s.pending ∧ t.chip = s.chip := by
  unfold execLaneStatus at e; exact hostRow_keeps (fun _ _ => by simp [cmdLaneStatus]) e
theorem execLaneStatus_fits (tag : Byte) (p : List Byte) (s : State) {t : State} (e : execLaneStatus tag p s = .next t) (h : Fits s) : Fits t := by
  unfold execLaneStatus at e; exact hostRow_fits (fun _ _ hu => by simp [cmdLaneStatus, hu]) e h
@[simp] theorem bodyFmParams_keeps (c : Call) (s : State) : (bodyFmParams c s).state.pending = s.pending ∧ (bodyFmParams c s).state.chip = s.chip := by
  unfold bodyFmParams; (try dsimp only); (repeat' split) <;> simp_all
@[simp] theorem bodyFmParams_fits (c : Call) (s : State) (h : Fits s) : Fits (bodyFmParams c s).state := by
  unfold bodyFmParams; try dsimp only
  repeat' first | with_reducible assumption | intro _ | with_reducible refine forEach_fits _ _ _ ?_ ?_ | with_reducible refine foldl_fits _ _ _ ?_ ?_ | with_reducible refine fail_fits _ _ ?_ | with_reducible refine updLane_fits _ _ _ ?_ | with_reducible refine okay_fits _ _ ?_ | split | (simp (maxDischargeDepth := 20) [*]; done)
theorem execFmParams_keeps (tag : Byte) (p : List Byte) (s : State) {t : State} (e : execFmParams tag p s = .next t) : t.pending = s.pending ∧ t.chip = s.chip := by
  unfold execFmParams at e; exact hostRow_keeps (fun _ _ => by simp [cmdFmParams]) e
theorem execFmParams_fits (tag : Byte) (p : List Byte) (s : State) {t : State} (e : execFmParams tag p s = .next t) (h : Fits s) : Fits t := by
  unfold execFmParams at e; exact hostRow_fits (fun _ _ hu => by simp [cmdFmParams, hu]) e h
@[simp] theorem bodyAmParams_keeps (c : Call) (s : State) : (bodyAmParams c s).state.pending = s.pending ∧ (bodyAmParams c s).state.chip = s.chip := by
  unfold bodyAmParams; (try dsimp only); (repeat' split) <;> simp_all
@[simp] theorem bodyAmParams_fits (c : Call) (s : State) (h : Fits s) : Fits (bodyAmParams c s).state := by
  unfold bodyAmParams; try dsimp only
  repeat' first | with_reducible assumption | intro _ | with_reducible refine forEach_fits _ _ _ ?_ ?_ | with_reducible refine foldl_fits _ _ _ ?_ ?_ | with_reducible refine fail_fits _ _ ?_ | with_reducible refine updLane_fits _ _ _ ?_ | with_reducible refine okay_fits _ _ ?_ | split | (simp (maxDischargeDepth := 20) [*]; done)
theorem execAmParams_keeps (tag : Byte) (p : List Byte) (s : State) {t : State} (e : execAmParams tag p s = .next t) : t.pending = s.pending ∧ t.chip = s.chip := by
  unfold execAmParams at e; exact hostRow_keeps (fun _ _ => by simp [cmdAmParams]) e
theorem execAmParams_fits (tag : Byte) (p : List Byte) (s : State) {t : State} (e : execAmParams tag p s = .next t) (h : Fits s) : Fits t := by
  unfold execAmParams at e; exact hostRow_fits (fun _ _ hu => by simp [cmdAmParams, hu]) e h
@[simp] theorem diversityLane_keeps (id : Nat) (c : Call) (s : State) : (diversityLane id c s).state.pending = s.pending ∧ (diversityLane id c s).state.chip = s.chip := by
  unfold diversityLane; (try dsimp only); (repeat' split) <;> simp_all
@[simp] theorem diversityLane_fits (id : Nat) (c : Call) (s : State) (h : Fits s) : Fits (diversityLane id c s).state := by
  unfold diversityLane; try dsimp only
  repeat' first | with_reducible assumption | intro _ | with_reducible refine forEach_fits _ _ _ ?_ ?_ | with_reducible refine foldl_fits _ _ _ ?_ ?_ | with_reducible refine setLaneMask_fits _ _ _ ?_ | with_reducible refine fail_fits _ _ ?_ | with_reducible refine forgetShed_fits _ _ _ ?_ | with_reducible refine okay_fits _ _ ?_ | split | (simp (maxDischargeDepth := 20) [*]; done)
@[simp] theorem diversityEngine_keeps (x1 : Nat) (c : Call) (s : State) : (diversityEngine x1 c s).state.pending = s.pending ∧ (diversityEngine x1 c s).state.chip = s.chip := by
  unfold diversityEngine; (try dsimp only); (repeat' split) <;> simp_all
@[simp] theorem diversityEngine_fits (x1 : Nat) (c : Call) (s : State) (h : Fits s) : Fits (diversityEngine x1 c s).state := by
  unfold diversityEngine; try dsimp only
  repeat' first | with_reducible assumption | intro _ | with_reducible refine forEach_fits _ _ _ ?_ ?_ | with_reducible refine foldl_fits _ _ _ ?_ ?_ | with_reducible refine fail_fits _ _ ?_ | with_reducible refine forgetShed_fits _ _ _ ?_ | with_reducible refine setEngineMask_fits _ _ _ ?_ | with_reducible refine okay_fits _ _ ?_ | split | (simp (maxDischargeDepth := 20) [*]; done)
@[simp] theorem bodyDiversitySet_keeps (c : Call) (s : State) : (bodyDiversitySet c s).state.pending = s.pending ∧ (bodyDiversitySet c s).state.chip = s.chip := by
  unfold bodyDiversitySet; (repeat' split) <;> simp
@[simp] theorem bodyDiversitySet_fits (c : Call) (s : State) (h : Fits s) : Fits (bodyDiversitySet c s).state := by
  unfold bodyDiversitySet; (repeat' split) <;> simp [h]
theorem execDiversitySet_keeps (tag : Byte) (p : List Byte) (s : State) {t : State} (e : execDiversitySet tag p s = .next t) : t.pending = s.pending ∧ t.chip = s.chip := by
  unfold execDiversitySet at e; exact hostRow_keeps (fun _ _ => by simp [cmdDiversitySet]) e
theorem execDiversitySet_fits (tag : Byte) (p : List Byte) (s : State) {t : State} (e : execDiversitySet tag p s = .next t) (h : Fits s) : Fits t := by
  unfold execDiversitySet at e; exact hostRow_fits (fun _ _ hu => by simp [cmdDiversitySet, hu]) e h
@[simp] theorem assignFreeEngine_keeps (x1 : Nat) (a : Ask) (x : Engine) (s : State) : (assignFreeEngine x1 a x s).state.pending = s.pending ∧ (assignFreeEngine x1 a x s).state.chip = s.chip := by
  unfold assignFreeEngine; (repeat' split) <;> simp
@[simp] theorem assignFreeEngine_fits (x1 : Nat) (a : Ask) (x : Engine) (s : State) (h : Fits s) : Fits (assignFreeEngine x1 a x s).state := by
  unfold assignFreeEngine; (repeat' split) <;> simp [h]
@[simp] theorem reassignEngine_keeps (x1 : Nat) (a : Ask) (x : Engine) (tag : Byte) (s : State) : (reassignEngine x1 a x tag s).state.pending = s.pending ∧ (reassignEngine x1 a x tag s).state.chip = s.chip := by
  unfold reassignEngine; (repeat' split) <;> simp
@[simp] theorem reassignEngine_fits (x1 : Nat) (a : Ask) (x : Engine) (tag : Byte) (s : State) (h : Fits s) : Fits (reassignEngine x1 a x tag s).state := by
  unfold reassignEngine; (repeat' split) <;> simp [h]
@[simp] theorem adjustEngine_keeps (x1 : Nat) (a : Ask) (x : Engine) (s : State) : (adjustEngine x1 a x s).state.pending = s.pending ∧ (adjustEngine x1 a x s).state.chip = s.chip := by
  unfold adjustEngine; (repeat' split) <;> simp
@[simp] theorem adjustEngine_fits (x1 : Nat) (a : Ask) (x : Engine) (s : State) (h : Fits s) : Fits (adjustEngine x1 a x s).state := by
  unfold adjustEngine; try dsimp only
  repeat' first | with_reducible assumption | intro _ | with_reducible refine forEach_fits _ _ _ ?_ ?_ | with_reducible refine foldl_fits _ _ _ ?_ ?_ | with_reducible refine fail_fits _ _ ?_ | with_reducible refine orderEngine_fits _ _ ?_ | with_reducible refine forgetShed_fits _ _ _ ?_ | with_reducible refine setEngineMask_fits _ _ _ ?_ | with_reducible refine okay_fits _ _ ?_ | with_reducible refine updEngine_fits _ _ _ ?_ | split | (simp (maxDischargeDepth := 20) [*]; done)
@[simp] theorem assignEngine_keeps (x1 : Nat) (a : Ask) (tag : Byte) (s : State) : (assignEngine x1 a tag s).state.pending = s.pending ∧ (assignEngine x1 a tag s).state.chip = s.chip := by
  unfold assignEngine; (repeat' split) <;> simp
@[simp] theorem assignEngine_fits (x1 : Nat) (a : Ask) (tag : Byte) (s : State) (h : Fits s) : Fits (assignEngine x1 a tag s).state := by
  unfold assignEngine; (repeat' split) <;> simp [h]
@[simp] theorem bodyDabEngineAssign_keeps (c : Call) (s : State) : (bodyDabEngineAssign c s).state.pending = s.pending ∧ (bodyDabEngineAssign c s).state.chip = s.chip := by
  unfold bodyDabEngineAssign; (try dsimp only); (repeat' split) <;> simp_all
@[simp] theorem bodyDabEngineAssign_fits (c : Call) (s : State) (h : Fits s) : Fits (bodyDabEngineAssign c s).state := by
  unfold bodyDabEngineAssign; try dsimp only
  repeat' first | with_reducible assumption | intro _ | with_reducible refine forEach_fits _ _ _ ?_ ?_ | with_reducible refine foldl_fits _ _ _ ?_ ?_ | with_reducible refine reassignEngine_fits _ _ _ _ _ ?_ | with_reducible refine fail_fits _ _ ?_ | with_reducible refine assignEngine_fits _ _ _ _ ?_ | split | (simp (maxDischargeDepth := 20) [*]; done)
theorem execDabEngineAssign_keeps (tag : Byte) (p : List Byte) (s : State) {t : State} (e : execDabEngineAssign tag p s = .next t) : t.pending = s.pending ∧ t.chip = s.chip := by
  unfold execDabEngineAssign at e; exact hostRow_keeps (fun _ _ => by simp [cmdDabEngineAssign]) e
theorem execDabEngineAssign_fits (tag : Byte) (p : List Byte) (s : State) {t : State} (e : execDabEngineAssign tag p s = .next t) (h : Fits s) : Fits t := by
  unfold execDabEngineAssign at e; exact hostRow_fits (fun _ _ hu => by simp [cmdDabEngineAssign, hu]) e h
@[simp] theorem bodyDabEngineRelease_keeps (c : Call) (s : State) : (bodyDabEngineRelease c s).state.pending = s.pending ∧ (bodyDabEngineRelease c s).state.chip = s.chip := by
  unfold bodyDabEngineRelease; (try dsimp only); (repeat' split) <;> simp_all
@[simp] theorem bodyDabEngineRelease_fits (c : Call) (s : State) (h : Fits s) : Fits (bodyDabEngineRelease c s).state := by
  unfold bodyDabEngineRelease; try dsimp only
  repeat' first | with_reducible assumption | intro _ | with_reducible refine forEach_fits _ _ _ ?_ ?_ | with_reducible refine foldl_fits _ _ _ ?_ ?_ | with_reducible refine releaseEngine_fits _ _ ?_ | with_reducible refine reselectAll_fits _ ?_ | with_reducible refine fail_fits _ _ ?_ | with_reducible refine okay_fits _ _ ?_ | split | (simp (maxDischargeDepth := 20) [*]; done)
theorem execDabEngineRelease_keeps (tag : Byte) (p : List Byte) (s : State) {t : State} (e : execDabEngineRelease tag p s = .next t) : t.pending = s.pending ∧ t.chip = s.chip := by
  unfold execDabEngineRelease at e; exact hostRow_keeps (fun _ _ => by simp [cmdDabEngineRelease]) e
theorem execDabEngineRelease_fits (tag : Byte) (p : List Byte) (s : State) {t : State} (e : execDabEngineRelease tag p s = .next t) (h : Fits s) : Fits t := by
  unfold execDabEngineRelease at e; exact hostRow_fits (fun _ _ hu => by simp [cmdDabEngineRelease, hu]) e h
@[simp] theorem bodySoftbitMode_keeps (c : Call) (s : State) : (bodySoftbitMode c s).state.pending = s.pending ∧ (bodySoftbitMode c s).state.chip = s.chip := by
  unfold bodySoftbitMode; (try dsimp only); (repeat' split) <;> simp_all
@[simp] theorem bodySoftbitMode_fits (c : Call) (s : State) (h : Fits s) : Fits (bodySoftbitMode c s).state := by
  unfold bodySoftbitMode; try dsimp only
  repeat' first | with_reducible assumption | intro _ | with_reducible refine forEach_fits _ _ _ ?_ ?_ | with_reducible refine foldl_fits _ _ _ ?_ ?_ | with_reducible refine fail_fits _ _ ?_ | with_reducible refine okay_fits _ _ ?_ | with_reducible refine updEngine_fits _ _ _ ?_ | split | (simp (maxDischargeDepth := 20) [*]; done)
theorem execSoftbitMode_keeps (tag : Byte) (p : List Byte) (s : State) {t : State} (e : execSoftbitMode tag p s = .next t) : t.pending = s.pending ∧ t.chip = s.chip := by
  unfold execSoftbitMode at e; exact hostRow_keeps (fun _ _ => by simp [cmdSoftbitMode]) e
theorem execSoftbitMode_fits (tag : Byte) (p : List Byte) (s : State) {t : State} (e : execSoftbitMode tag p s = .next t) (h : Fits s) : Fits t := by
  unfold execSoftbitMode at e; exact hostRow_fits (fun _ _ hu => by simp [cmdSoftbitMode, hu]) e h
@[simp] theorem beginAll_keeps (s : State) : (beginAll s).pending = s.pending ∧ (beginAll s).chip = s.chip := by
  unfold beginAll; simp
@[simp] theorem beginAll_fits (s : State) (h : Fits s) : Fits (beginAll s) := by
  unfold beginAll; simp [h]
theorem execProcessingStart_keeps (s : State) {t : State} (e : execProcessingStart s = .next t) : t.pending = s.pending ∧ t.chip = s.chip := by
  unfold execProcessingStart at e; (repeat' split at e) <;> simp at e <;> subst e <;> simp
theorem execProcessingStart_fits (s : State) {t : State} (e : execProcessingStart s = .next t) (h : Fits s) : Fits t := by
  unfold execProcessingStart at e; (repeat' split at e) <;> simp at e <;> subst e <;> simp [h]
theorem execDrainingEnd_keeps (engine : Bool) (id : Nat) (s : State) {t : State} (e : execDrainingEnd engine id s = .next t) : t.pending = s.pending ∧ t.chip = s.chip := by
  unfold execDrainingEnd at e; (repeat' split at e) <;> simp at e <;> subst e <;> simp
theorem execDrainingEnd_fits (engine : Bool) (id : Nat) (s : State) {t : State} (e : execDrainingEnd engine id s = .next t) (h : Fits s) : Fits t := by
  unfold execDrainingEnd at e; (repeat' split at e) <;> simp at e <;> subst e <;> simp [h]

/-! ### DabStatus -/

@[simp] theorem bodyDabEngineStatus_keeps (c : Call) (s : State) : (bodyDabEngineStatus c s).state.pending = s.pending ∧ (bodyDabEngineStatus c s).state.chip = s.chip := by
  unfold bodyDabEngineStatus; (try dsimp only); (repeat' split) <;> simp_all
@[simp] theorem bodyDabEngineStatus_fits (c : Call) (s : State) (h : Fits s) : Fits (bodyDabEngineStatus c s).state := by
  unfold bodyDabEngineStatus; try dsimp only
  repeat' first | with_reducible assumption | intro _ | with_reducible refine forEach_fits _ _ _ ?_ ?_ | with_reducible refine foldl_fits _ _ _ ?_ ?_ | with_reducible refine fail_fits _ _ ?_ | with_reducible refine okay_fits _ _ ?_ | split | (simp (maxDischargeDepth := 20) [*]; done)
theorem execDabEngineStatus_keeps (tag : Byte) (p : List Byte) (s : State) {t : State} (e : execDabEngineStatus tag p s = .next t) : t.pending = s.pending ∧ t.chip = s.chip := by
  unfold execDabEngineStatus at e; exact hostRow_keeps (fun _ _ => by simp [cmdDabEngineStatus]) e
theorem execDabEngineStatus_fits (tag : Byte) (p : List Byte) (s : State) {t : State} (e : execDabEngineStatus tag p s = .next t) (h : Fits s) : Fits t := by
  unfold execDabEngineStatus at e; exact hostRow_fits (fun _ _ hu => by simp [cmdDabEngineStatus, hu]) e h
@[simp] theorem frameStats_keeps (x1 : Nat) (s : State) : (frameStats x1 s).pending = s.pending ∧ (frameStats x1 s).chip = s.chip := by
  unfold frameStats; (repeat' split) <;> simp
@[simp] theorem frameStats_fits (x1 : Nat) (s : State) (h : Fits s) : Fits (frameStats x1 s) := by
  unfold frameStats; try dsimp only
  repeat' first | with_reducible assumption | intro _ | with_reducible refine forEach_fits _ _ _ ?_ ?_ | with_reducible refine foldl_fits _ _ _ ?_ ?_ | with_reducible refine forEach_fits _ _ _ ?_ ?_ | with_reducible refine produce_fits _ _ _ _ _ _ _ ?_ | with_reducible refine updEngine_fits _ _ _ ?_ | split | (simp (maxDischargeDepth := 20) [*]; done)

/-! ### DabFrame -/

@[simp] theorem anchorMoved_keeps (key : Source) (s : State) : (anchorMoved key s).pending = s.pending ∧ (anchorMoved key s).chip = s.chip := by
  unfold anchorMoved; (try dsimp only); refine forEach_keeps _ _ _ fun _ _ => ?_; (try dsimp only); (repeat' split) <;> simp
@[simp] theorem anchorMoved_fits (key : Source) (s : State) (h : Fits s) : Fits (anchorMoved key s) := by
  unfold anchorMoved; try dsimp only
  repeat' first | with_reducible assumption | intro _ | with_reducible refine forEach_fits _ _ _ ?_ ?_ | with_reducible refine foldl_fits _ _ _ ?_ ?_ | with_reducible refine realign_fits _ _ ?_ | with_reducible refine forEach_fits _ _ _ ?_ ?_ | split | (simp (maxDischargeDepth := 20) [*]; done)
@[simp] theorem bindDecoder_keeps (i : Nat) (x1 : Nat) (d : Decoder) (s0 : State) : (bindDecoder i x1 d s0).pending = s0.pending ∧ (bindDecoder i x1 d s0).chip = s0.chip := by
  unfold bindDecoder; (repeat' split) <;> simp
@[simp] theorem bindDecoder_fits (i : Nat) (x1 : Nat) (d : Decoder) (s0 : State) (h : Fits s0) : Fits (bindDecoder i x1 d s0) := by
  unfold bindDecoder; try dsimp only
  repeat' first | with_reducible assumption | intro _ | with_reducible refine forEach_fits _ _ _ ?_ ?_ | with_reducible refine foldl_fits _ _ _ ?_ ?_ | with_reducible refine anchorMoved_fits _ _ ?_ | with_reducible refine updDecoder_fits _ _ _ ?_ | split | (simp (maxDischargeDepth := 20) [*]; done)
@[simp] theorem bindPass_keeps (frame : Bool) (s : State) : (bindPass frame s).pending = s.pending ∧ (bindPass frame s).chip = s.chip := by
  have h1 : (forEach (List.range s.progs.length) fitOwn s).pending = s.pending ∧
      (forEach (List.range s.progs.length) fitOwn s).chip = s.chip := forEach_keeps _ _ _ fun _ _ => by simp
  unfold bindPass; dsimp only
  refine (fun h2 => ⟨h2.1.trans h1.1, h2.2.trans h1.2⟩) (forEach_keeps _ _ _ fun _ _ => ?_)
  (repeat' split) <;> simp
@[simp] theorem bindPass_fits (frame : Bool) (s : State) (h : Fits s) : Fits (bindPass frame s) := by
  unfold bindPass; try dsimp only
  repeat' first | with_reducible assumption | intro _ | with_reducible refine forEach_fits _ _ _ ?_ ?_ | with_reducible refine foldl_fits _ _ _ ?_ ?_ | with_reducible refine updDecoder_fits _ _ _ ?_ | with_reducible refine bindDecoder_fits _ _ _ _ ?_ | with_reducible refine fitOwn_fits _ _ ?_ | with_reducible refine forEach_fits _ _ _ ?_ ?_ | split | (simp (maxDischargeDepth := 20) [*]; done)
@[simp] theorem discardModel_keeps (x1 : Nat) (s : State) : (discardModel x1 s).pending = s.pending ∧ (discardModel x1 s).chip = s.chip := by
  unfold discardModel; simp
@[simp] theorem discardModel_fits (x1 : Nat) (s : State) (h : Fits s) : Fits (discardModel x1 s) := by
  unfold discardModel; try dsimp only
  repeat' first | with_reducible assumption | intro _ | with_reducible refine forEach_fits _ _ _ ?_ ?_ | with_reducible refine foldl_fits _ _ _ ?_ ?_ | with_reducible refine bumpServices_fits _ ?_ | with_reducible refine dropClusters_fits _ _ ?_ | with_reducible refine updEngine_fits _ _ _ ?_ | split | (simp (maxDischargeDepth := 20) [*]; done)
@[simp] theorem realignEid_keeps (eid : Id16) (s : State) : (realignEid eid s).pending = s.pending ∧ (realignEid eid s).chip = s.chip := by
  unfold realignEid; (try dsimp only); refine forEach_keeps _ _ _ fun _ _ => ?_; (try dsimp only); (repeat' split) <;> simp
@[simp] theorem realignEid_fits (eid : Id16) (s : State) (h : Fits s) : Fits (realignEid eid s) := by
  unfold realignEid; try dsimp only
  repeat' first | with_reducible assumption | intro _ | with_reducible refine forEach_fits _ _ _ ?_ ?_ | with_reducible refine foldl_fits _ _ _ ?_ ?_ | with_reducible refine realign_fits _ _ ?_ | with_reducible refine forEach_fits _ _ _ ?_ ?_ | split | (simp (maxDischargeDepth := 20) [*]; done)
@[simp] theorem replaceEnsemble_keeps (x1 : Nat) (old : Id16) (new : Id16) (s : State) : (replaceEnsemble x1 old new s).pending = s.pending ∧ (replaceEnsemble x1 old new s).chip = s.chip := by
  unfold replaceEnsemble; simp
@[simp] theorem replaceEnsemble_fits (x1 : Nat) (old : Id16) (new : Id16) (s : State) (h : Fits s) : Fits (replaceEnsemble x1 old new s) := by
  unfold replaceEnsemble; try dsimp only
  repeat' first | with_reducible assumption | intro _ | with_reducible refine forEach_fits _ _ _ ?_ ?_ | with_reducible refine foldl_fits _ _ _ ?_ ?_ | with_reducible refine logIdentity_fits _ _ _ _ ?_ | with_reducible refine closeEngineFlows_fits _ _ _ ?_ | with_reducible refine discardModel_fits _ _ ?_ | with_reducible refine realignEid_fits _ _ ?_ | with_reducible refine stopDecoders_fits _ _ ?_ | with_reducible refine evService_fits _ _ _ _ _ _ _ ?_ | with_reducible refine updEngine_fits _ _ _ ?_ | with_reducible refine evLane_fits _ _ _ _ _ _ _ ?_ | split | (simp (maxDischargeDepth := 20) [*]; done)
@[simp] theorem noteLock_keeps (x1 : Nat) (eid : Id16) (s : State) : (noteLock x1 eid s).pending = s.pending ∧ (noteLock x1 eid s).chip = s.chip := by
  unfold noteLock; (repeat' split) <;> simp
@[simp] theorem noteLock_fits (x1 : Nat) (eid : Id16) (s : State) (h : Fits s) : Fits (noteLock x1 eid s) := by
  unfold noteLock; try dsimp only
  repeat' first | with_reducible assumption | intro _ | with_reducible refine forEach_fits _ _ _ ?_ ?_ | with_reducible refine foldl_fits _ _ _ ?_ ?_ | with_reducible refine logIdentity_fits _ _ _ _ ?_ | with_reducible refine replaceEnsemble_fits _ _ _ _ ?_ | with_reducible refine updEngine_fits _ _ _ ?_ | with_reducible refine evLane_fits _ _ _ _ _ _ _ ?_ | split | (simp (maxDischargeDepth := 20) [*]; done)
@[simp] theorem enterLocked_keeps (x1 : Nat) (o : FrameIn) (s : State) : (enterLocked x1 o s).pending = s.pending ∧ (enterLocked x1 o s).chip = s.chip := by
  unfold enterLocked; (repeat' split) <;> simp
@[simp] theorem enterLocked_fits (x1 : Nat) (o : FrameIn) (s : State) (h : Fits s) : Fits (enterLocked x1 o s) := by
  unfold enterLocked; (repeat' split) <;> simp [h]
@[simp] theorem enterAcq_keeps (x1 : Nat) (a : Acq) (frames : Nat) (x2 : State) : (enterAcq x1 a frames x2).pending = x2.pending ∧ (enterAcq x1 a frames x2).chip = x2.chip := by
  unfold enterAcq; simp
@[simp] theorem enterAcq_fits (x1 : Nat) (a : Acq) (frames : Nat) (x2 : State) (h : Fits x2) : Fits (enterAcq x1 a frames x2) := by
  unfold enterAcq; simp [h]
@[simp] theorem nullSearch_keeps (x1 : Nat) (s : State) : (nullSearch x1 s).pending = s.pending ∧ (nullSearch x1 s).chip = s.chip := by
  unfold nullSearch; simp
@[simp] theorem nullSearch_fits (x1 : Nat) (s : State) (h : Fits s) : Fits (nullSearch x1 s) := by
  unfold nullSearch; simp [h]
@[simp] theorem pullBy_keeps (shift : Int) (x1 : Nat) (a : State) : (pullBy shift x1 a).pending = a.pending ∧ (pullBy shift x1 a).chip = a.chip := by
  unfold pullBy; simp
@[simp] theorem pullBy_fits (shift : Int) (x1 : Nat) (a : State) (h : Fits a) : Fits (pullBy shift x1 a) := by
  unfold pullBy; simp [h]
@[simp] theorem candidateFrame_keeps (x1 : Nat) (o : FrameIn) (x : Engine) (s : State) : (candidateFrame x1 o x s).pending = s.pending ∧ (candidateFrame x1 o x s).chip = s.chip := by
  unfold candidateFrame; (repeat' split) <;> simp
@[simp] theorem candidateFrame_fits (x1 : Nat) (o : FrameIn) (x : Engine) (s : State) (h : Fits s) : Fits (candidateFrame x1 o x s) := by
  unfold candidateFrame; (repeat' split) <;> simp [h]
@[simp] theorem beginCandidate_keeps (x1 : Nat) (o : FrameIn) (offset : Int) (s : State) : (beginCandidate x1 o offset s).pending = s.pending ∧ (beginCandidate x1 o offset s).chip = s.chip := by
  unfold beginCandidate; (try dsimp only); (repeat' split) <;> simp_all
@[simp] theorem beginCandidate_fits (x1 : Nat) (o : FrameIn) (offset : Int) (s : State) (h : Fits s) : Fits (beginCandidate x1 o offset s) := by
  unfold beginCandidate; try dsimp only
  repeat' first | with_reducible assumption | intro _ | with_reducible refine forEach_fits _ _ _ ?_ ?_ | with_reducible refine foldl_fits _ _ _ ?_ ?_ | with_reducible refine candidateFrame_fits _ _ _ _ ?_ | with_reducible refine updEngine_fits _ _ _ ?_ | split | (simp (maxDischargeDepth := 20) [*]; done)
@[simp] theorem loseEnsemble_keeps (x1 : Nat) (s : State) : (loseEnsemble x1 s).pending = s.pending ∧ (loseEnsemble x1 s).chip = s.chip := by
  unfold loseEnsemble; (repeat' split) <;> simp
@[simp] theorem loseEnsemble_fits (x1 : Nat) (s : State) (h : Fits s) : Fits (loseEnsemble x1 s) := by
  unfold loseEnsemble; try dsimp only
  repeat' first | with_reducible assumption | intro _ | with_reducible refine forEach_fits _ _ _ ?_ ?_ | with_reducible refine foldl_fits _ _ _ ?_ ?_ | with_reducible refine nullSearch_fits _ _ ?_ | with_reducible refine stopDecoders_fits _ _ ?_ | with_reducible refine dropClusters_fits _ _ ?_ | with_reducible refine updEngine_fits _ _ _ ?_ | with_reducible refine evLane_fits _ _ _ _ _ _ _ ?_ | split | (simp (maxDischargeDepth := 20) [*]; done)
@[simp] theorem pathMoved_keeps (x1 : Nat) (p : Peak) (s : State) : (pathMoved x1 p s).pending = s.pending ∧ (pathMoved x1 p s).chip = s.chip := by
  unfold pathMoved; simp
@[simp] theorem pathMoved_fits (x1 : Nat) (p : Peak) (s : State) (h : Fits s) : Fits (pathMoved x1 p s) := by
  unfold pathMoved; try dsimp only
  repeat' first | with_reducible assumption | intro _ | with_reducible refine forEach_fits _ _ _ ?_ ?_ | with_reducible refine foldl_fits _ _ _ ?_ ?_ | with_reducible refine pullBy_fits _ _ _ ?_ | with_reducible refine updEngine_fits _ _ _ ?_ | with_reducible refine evLane_fits _ _ _ _ _ _ _ ?_ | split | (simp (maxDischargeDepth := 20) [*]; done)
@[simp] theorem regain_keeps (x1 : Nat) (s : State) : (regain x1 s).pending = s.pending ∧ (regain x1 s).chip = s.chip := by
  unfold regain; simp
@[simp] theorem regain_fits (x1 : Nat) (s : State) (h : Fits s) : Fits (regain x1 s) := by
  unfold regain; simp [h]
@[simp] theorem holdFrame_keeps (x1 : Nat) (o : FrameIn) (x : Engine) (s : State) : (holdFrame x1 o x s).pending = s.pending ∧ (holdFrame x1 o x s).chip = s.chip := by
  unfold holdFrame; (repeat' split) <;> simp
@[simp] theorem holdFrame_fits (x1 : Nat) (o : FrameIn) (x : Engine) (s : State) (h : Fits s) : Fits (holdFrame x1 o x s) := by
  unfold holdFrame; try dsimp only
  repeat' first | with_reducible assumption | intro _ | with_reducible refine forEach_fits _ _ _ ?_ ?_ | with_reducible refine foldl_fits _ _ _ ?_ ?_ | with_reducible refine regain_fits _ _ ?_ | with_reducible refine pathMoved_fits _ _ _ ?_ | with_reducible refine loseEnsemble_fits _ _ ?_ | with_reducible refine updEngine_fits _ _ _ ?_ | split | (simp (maxDischargeDepth := 20) [*]; done)
@[simp] theorem takeOver_keeps (x1 : Nat) (old : Id16) (p : Peak) (s : State) : (takeOver x1 old p s).pending = s.pending ∧ (takeOver x1 old p s).chip = s.chip := by
  unfold takeOver; (repeat' split) <;> simp
@[simp] theorem takeOver_fits (x1 : Nat) (old : Id16) (p : Peak) (s : State) (h : Fits s) : Fits (takeOver x1 old p s) := by
  unfold takeOver; (repeat' split) <;> simp [h]
@[simp] theorem lockedBoundary_keeps (x1 : Nat) (o : FrameIn) (s : State) : (lockedBoundary x1 o s).pending = s.pending ∧ (lockedBoundary x1 o s).chip = s.chip := by
  unfold lockedBoundary; (try dsimp only); (repeat' split) <;> simp_all
@[simp] theorem lockedBoundary_fits (x1 : Nat) (o : FrameIn) (s : State) (h : Fits s) : Fits (lockedBoundary x1 o s) := by
  unfold lockedBoundary; try dsimp only
  repeat' first | with_reducible assumption | intro _ | with_reducible refine forEach_fits _ _ _ ?_ ?_ | with_reducible refine foldl_fits _ _ _ ?_ ?_ | with_reducible refine pathMoved_fits _ _ _ ?_ | with_reducible refine takeOver_fits _ _ _ _ ?_ | with_reducible refine replaceEnsemble_fits _ _ _ _ ?_ | with_reducible refine updEngine_fits _ _ _ ?_ | split | (simp (maxDischargeDepth := 20) [*]; done)
@[simp] theorem lockedCount_keeps (x1 : Nat) (o : FrameIn) (x : Engine) (s : State) : (lockedCount x1 o x s).pending = s.pending ∧ (lockedCount x1 o x s).chip = s.chip := by
  unfold lockedCount; simp
@[simp] theorem lockedCount_fits (x1 : Nat) (o : FrameIn) (x : Engine) (s : State) (h : Fits s) : Fits (lockedCount x1 o x s) := by
  unfold lockedCount; try dsimp only
  repeat' first | with_reducible assumption | intro _ | with_reducible refine forEach_fits _ _ _ ?_ ?_ | with_reducible refine foldl_fits _ _ _ ?_ ?_ | with_reducible refine updEngine_fits _ _ _ ?_ | split | (simp (maxDischargeDepth := 20) [*]; done)
@[simp] theorem fibFlows_keeps (x1 : Nat) (o : FrameIn) (s : State) : (fibFlows x1 o s).pending = s.pending ∧ (fibFlows x1 o s).chip = s.chip := by
  unfold fibFlows; (repeat' split) <;> simp
@[simp] theorem fibFlows_fits (x1 : Nat) (o : FrameIn) (s : State) (h : Fits s) : Fits (fibFlows x1 o s) := by
  unfold fibFlows; try dsimp only
  repeat' first | with_reducible assumption | intro _ | with_reducible refine forEach_fits _ _ _ ?_ ?_ | with_reducible refine foldl_fits _ _ _ ?_ ?_ | with_reducible refine forEach_fits _ _ _ ?_ ?_ | with_reducible refine produce_fits _ _ _ _ _ _ _ ?_ | split | (simp (maxDischargeDepth := 20) [*]; done)
@[simp] theorem useFic_keeps (x1 : Nat) (o : FrameIn) (s : State) : (useFic x1 o s).pending = s.pending ∧ (useFic x1 o s).chip = s.chip := by
  unfold useFic; (repeat' split) <;> simp
@[simp] theorem useFic_fits (x1 : Nat) (o : FrameIn) (s : State) (h : Fits s) : Fits (useFic x1 o s) := by
  unfold useFic; try dsimp only
  repeat' first | with_reducible assumption | intro _ | with_reducible refine forEach_fits _ _ _ ?_ ?_ | with_reducible refine foldl_fits _ _ _ ?_ ?_ | with_reducible refine fibFlows_fits _ _ _ ?_ | with_reducible refine noteLock_fits _ _ _ ?_ | with_reducible refine applyFig_fits _ _ _ ?_ | with_reducible refine forEach_fits _ _ _ ?_ ?_ | with_reducible refine updEngine_fits _ _ _ ?_ | split | (simp (maxDischargeDepth := 20) [*]; done)
@[simp] theorem refreshCurrent_keeps (x1 : Nat) (s : State) : (refreshCurrent x1 s).pending = s.pending ∧ (refreshCurrent x1 s).chip = s.chip := by
  unfold refreshCurrent; (repeat' split) <;> simp
@[simp] theorem refreshCurrent_fits (x1 : Nat) (s : State) (h : Fits s) : Fits (refreshCurrent x1 s) := by
  unfold refreshCurrent; try dsimp only
  repeat' first | with_reducible assumption | intro _ | with_reducible refine forEach_fits _ _ _ ?_ ?_ | with_reducible refine foldl_fits _ _ _ ?_ ?_ | with_reducible refine evService_fits _ _ _ _ _ _ _ ?_ | with_reducible refine updEngine_fits _ _ _ ?_ | split | (simp (maxDischargeDepth := 20) [*]; done)
@[simp] theorem acquire_keeps (x1 : Nat) (o : FrameIn) (x : Engine) (s : State) : (acquire x1 o x s).pending = s.pending ∧ (acquire x1 o x s).chip = s.chip := by
  unfold acquire; (repeat' split) <;> simp
@[simp] theorem acquire_fits (x1 : Nat) (o : FrameIn) (x : Engine) (s : State) (h : Fits s) : Fits (acquire x1 o x s) := by
  unfold acquire; (repeat' split) <;> simp [h]
@[simp] theorem frameStep_keeps (x1 : Nat) (o : FrameIn) (x : Engine) (s : State) : (frameStep x1 o x s).pending = s.pending ∧ (frameStep x1 o x s).chip = s.chip := by
  unfold frameStep; simp
@[simp] theorem frameStep_fits (x1 : Nat) (o : FrameIn) (x : Engine) (s : State) (h : Fits s) : Fits (frameStep x1 o x s) := by
  unfold frameStep; try dsimp only
  repeat' first | with_reducible assumption | intro _ | with_reducible refine forEach_fits _ _ _ ?_ ?_ | with_reducible refine foldl_fits _ _ _ ?_ ?_ | with_reducible refine acquire_fits _ _ _ _ ?_ | with_reducible refine useFic_fits _ _ _ ?_ | with_reducible refine bindPass_fits _ _ ?_ | with_reducible refine refreshCurrent_fits _ _ ?_ | with_reducible refine updEngine_fits _ _ _ ?_ | with_reducible refine lockedBoundary_fits _ _ _ ?_ | split | (simp (maxDischargeDepth := 20) [*]; done)
theorem execDabFrame_keeps (x1 : Nat) (o : FrameObs) (s : State) {t : State} (e : execDabFrame x1 o s = .next t) : t.pending = s.pending ∧ t.chip = s.chip := by
  unfold execDabFrame at e; (repeat' split at e) <;> simp at e <;> subst e <;> simp
theorem execDabFrame_fits (x1 : Nat) (o : FrameObs) (s : State) {t : State} (e : execDabFrame x1 o s = .next t) (h : Fits s) : Fits t := by
  unfold execDabFrame at e; (try dsimp only at e)
  (repeat' split at e) <;> cases e
  all_goals repeat' first | with_reducible assumption | intro _ | with_reducible refine forEach_fits _ _ _ ?_ ?_ | with_reducible refine foldl_fits _ _ _ ?_ ?_ | with_reducible refine reselectAll_fits _ ?_ | with_reducible refine count_fits _ _ _ _ ?_ | with_reducible refine frameStep_fits _ _ _ _ ?_ | split | (simp (maxDischargeDepth := 20) [*]; done)
theorem execEngineAbandon_keeps (x1 : Nat) (s : State) {t : State} (e : execEngineAbandon x1 s = .next t) : t.pending = s.pending ∧ t.chip = s.chip := by
  unfold execEngineAbandon at e; (repeat' split at e) <;> simp at e <;> subst e <;> simp
theorem execEngineAbandon_fits (x1 : Nat) (s : State) {t : State} (e : execEngineAbandon x1 s = .next t) (h : Fits s) : Fits t := by
  unfold execEngineAbandon at e; (try dsimp only at e)
  (repeat' split at e) <;> cases e
  all_goals repeat' first | with_reducible assumption | intro _ | with_reducible refine forEach_fits _ _ _ ?_ ?_ | with_reducible refine foldl_fits _ _ _ ?_ ?_ | with_reducible refine releaseEngine_fits _ _ ?_ | with_reducible refine reselectAll_fits _ ?_ | split | (simp (maxDischargeDepth := 20) [*]; done)
theorem execAnnouncementTimeout_keeps (x1 : Nat) (cluster : Nat) (s : State) {t : State} (e : execAnnouncementTimeout x1 cluster s = .next t) : t.pending = s.pending ∧ t.chip = s.chip := by
  unfold execAnnouncementTimeout at e; (repeat' split at e) <;> simp at e <;> subst e <;> simp
theorem execAnnouncementTimeout_fits (x1 : Nat) (cluster : Nat) (s : State) {t : State} (e : execAnnouncementTimeout x1 cluster s = .next t) (h : Fits s) : Fits t := by
  unfold execAnnouncementTimeout at e; (repeat' split at e) <;> simp at e <;> subst e <;> simp [h]
theorem execModelObjectTimeout_keeps (x1 : Nat) (s : State) {t : State} (e : execModelObjectTimeout x1 s = .next t) : t.pending = s.pending ∧ t.chip = s.chip := by
  unfold execModelObjectTimeout at e; (repeat' split at e) <;> simp at e <;> subst e <;> simp
theorem execModelObjectTimeout_fits (x1 : Nat) (s : State) {t : State} (e : execModelObjectTimeout x1 s = .next t) (h : Fits s) : Fits t := by
  unfold execModelObjectTimeout at e; (try dsimp only at e)
  (repeat' split at e) <;> cases e
  all_goals repeat' first | with_reducible assumption | intro _ | with_reducible refine forEach_fits _ _ _ ?_ ?_ | with_reducible refine foldl_fits _ _ _ ?_ ?_ | with_reducible refine reselectAll_fits _ ?_ | with_reducible refine setModel_fits _ _ _ ?_ | with_reducible refine closeGone_fits _ _ _ _ ?_ | split | (simp (maxDischargeDepth := 20) [*]; done)
theorem execDecoderFirstValidSample_keeps (i : Nat) (s : State) {t : State} (e : execDecoderFirstValidSample i s = .next t) : t.pending = s.pending ∧ t.chip = s.chip := by
  unfold execDecoderFirstValidSample at e; (repeat' split at e) <;> simp at e <;> subst e <;> simp
theorem execDecoderFirstValidSample_fits (i : Nat) (s : State) {t : State} (e : execDecoderFirstValidSample i s = .next t) (h : Fits s) : Fits t := by
  unfold execDecoderFirstValidSample at e; dsimp only at e; (repeat' split at e) <;> simp at e <;> subst e <;> (repeat' split) <;> simp_all

/-! ### Cif -/

@[simp] theorem rawFlows_keeps (x1 : Nat) (s : State) : (rawFlows x1 s).pending = s.pending ∧ (rawFlows x1 s).chip = s.chip := by
  unfold rawFlows; (repeat' split) <;> simp
@[simp] theorem rawFlows_fits (x1 : Nat) (s : State) (h : Fits s) : Fits (rawFlows x1 s) := by
  unfold rawFlows; try dsimp only
  repeat' first | with_reducible assumption | intro _ | with_reducible refine forEach_fits _ _ _ ?_ ?_ | with_reducible refine foldl_fits _ _ _ ?_ ?_ | with_reducible refine forEach_fits _ _ _ ?_ ?_ | with_reducible refine produce_fits _ _ _ _ _ _ _ ?_ | split | (simp (maxDischargeDepth := 20) [*]; done)
@[simp] theorem applyReconfig_keeps (x1 : Nat) (x : Engine) (s : State) : (applyReconfig x1 x s).pending = s.pending ∧ (applyReconfig x1 x s).chip = s.chip := by
  unfold applyReconfig; simp
@[simp] theorem applyReconfig_fits (x1 : Nat) (x : Engine) (s : State) (h : Fits s) : Fits (applyReconfig x1 x s) := by
  unfold applyReconfig; try dsimp only
  repeat' first | with_reducible assumption | intro _ | with_reducible refine forEach_fits _ _ _ ?_ ?_ | with_reducible refine foldl_fits _ _ _ ?_ ?_ | with_reducible refine bumpServices_fits _ ?_ | with_reducible refine setModel_fits _ _ _ ?_ | with_reducible refine realignEid_fits _ _ ?_ | with_reducible refine evService_fits _ _ _ _ _ _ _ ?_ | with_reducible refine closeGone_fits _ _ _ _ ?_ | split | (simp (maxDischargeDepth := 20) [*]; done)
@[simp] theorem adapter_keeps (x1 : Nat) (i : Nat) (s : State) : (adapter x1 i s).pending = s.pending ∧ (adapter x1 i s).chip = s.chip := by
  unfold adapter; (repeat' split) <;> simp
@[simp] theorem adapter_fits (x1 : Nat) (i : Nat) (s : State) (h : Fits s) : Fits (adapter x1 i s) := by
  unfold adapter; try dsimp only
  repeat' first | with_reducible assumption | intro _ | with_reducible refine forEach_fits _ _ _ ?_ ?_ | with_reducible refine foldl_fits _ _ _ ?_ ?_ | with_reducible refine updDecoder_fits _ _ _ ?_ | with_reducible refine evService_fits _ _ _ _ _ _ _ ?_ | split | (simp (maxDischargeDepth := 20) [*]; done)
@[simp] theorem subchOutput_keeps (x1 : Nat) (o : CifObs) (s : State) : (subchOutput x1 o s).pending = s.pending ∧ (subchOutput x1 o s).chip = s.chip := by
  unfold subchOutput; (repeat' split) <;> simp
@[simp] theorem subchOutput_fits (x1 : Nat) (o : CifObs) (s : State) (h : Fits s) : Fits (subchOutput x1 o s) := by
  unfold subchOutput; try dsimp only
  repeat' first | with_reducible assumption | intro _ | with_reducible refine forEach_fits _ _ _ ?_ ?_ | with_reducible refine foldl_fits _ _ _ ?_ ?_ | with_reducible refine rawFlows_fits _ _ ?_ | with_reducible refine updEngine_fits _ _ _ ?_ | split | (simp (maxDischargeDepth := 20) [*]; done)
@[simp] theorem trackedCif_keeps (x1 : Nat) (o : CifObs) (s : State) : (trackedCif x1 o s).pending = s.pending ∧ (trackedCif x1 o s).chip = s.chip := by
  unfold trackedCif; (repeat' split) <;> simp
@[simp] theorem trackedCif_fits (x1 : Nat) (o : CifObs) (s : State) (h : Fits s) : Fits (trackedCif x1 o s) := by
  unfold trackedCif; try dsimp only
  repeat' first | with_reducible assumption | intro _ | with_reducible refine forEach_fits _ _ _ ?_ ?_ | with_reducible refine foldl_fits _ _ _ ?_ ?_ | with_reducible refine subchOutput_fits _ _ _ ?_ | with_reducible refine adapter_fits _ _ _ ?_ | with_reducible refine count_fits _ _ _ _ ?_ | with_reducible refine forEach_fits _ _ _ ?_ ?_ | with_reducible refine applyReconfig_fits _ _ _ ?_ | with_reducible refine updEngine_fits _ _ _ ?_ | split | (simp (maxDischargeDepth := 20) [*]; done)
@[simp] theorem endFrame_keeps (x1 : Nat) (s : State) : (endFrame x1 s).pending = s.pending ∧ (endFrame x1 s).chip = s.chip := by
  unfold endFrame; (repeat' split) <;> simp
@[simp] theorem endFrame_fits (x1 : Nat) (s : State) (h : Fits s) : Fits (endFrame x1 s) := by
  unfold endFrame; (repeat' split) <;> simp [h]
theorem execCifBoundary_keeps (x1 : Nat) (o : CifObs) (s : State) {t : State} (e : execCifBoundary x1 o s = .next t) : t.pending = s.pending ∧ t.chip = s.chip := by
  unfold execCifBoundary at e; (repeat' split at e) <;> simp at e <;> subst e <;> simp
theorem execCifBoundary_fits (x1 : Nat) (o : CifObs) (s : State) {t : State} (e : execCifBoundary x1 o s = .next t) (h : Fits s) : Fits t := by
  unfold execCifBoundary at e; (try dsimp only at e)
  (repeat' split at e) <;> cases e
  all_goals repeat' first | with_reducible assumption | intro _ | with_reducible refine forEach_fits _ _ _ ?_ ?_ | with_reducible refine foldl_fits _ _ _ ?_ ?_ | with_reducible refine reselectAll_fits _ ?_ | with_reducible refine trackedCif_fits _ _ _ ?_ | with_reducible refine endFrame_fits _ _ ?_ | with_reducible refine bindPass_fits _ _ ?_ | with_reducible refine updEngine_fits _ _ _ ?_ | split | (simp (maxDischargeDepth := 20) [*]; done)
theorem execSoftbitConversionEnd_keeps (x1 : Nat) (s : State) {t : State} (e : execSoftbitConversionEnd x1 s = .next t) : t.pending = s.pending ∧ t.chip = s.chip := by
  unfold execSoftbitConversionEnd at e; (repeat' split at e) <;> simp at e <;> subst e <;> simp
theorem execSoftbitConversionEnd_fits (x1 : Nat) (s : State) {t : State} (e : execSoftbitConversionEnd x1 s = .next t) (h : Fits s) : Fits t := by
  unfold execSoftbitConversionEnd at e; (repeat' split at e) <;> simp at e <;> subst e <;> simp [h]

end Sys2Proof.Machine
end

