-- ==== Sys2Proof/Laws/FrameDevice.lean ====
section
/-! SUPPORT. What each shared operation and each row leaves: `_keeps`, the queue of commands and the part; `_fits`, the
invariant `Fits`. Operations of PortOps.lean, System.lean, Clocks.lean, Stations.lean, Mixer.lean, Conditions.lean, Services.lean, Programs.lean, Linking.lean, FrontEnd.lean, Scan.lean, Supplies.lean. -/

set_option linter.all false

namespace Sys2Proof.Machine

/-! ### PortOps -/

@[simp] theorem gatePorts_keeps (s : State) : (gatePorts s).pending = s.pending ∧ (gatePorts s).chip = s.chip := by
  unfold gatePorts; simp
@[simp] theorem gatePorts_fits (s : State) (h : Fits s) : Fits (gatePorts s) := by
  unfold gatePorts; simp [h]
@[simp] theorem ungatePorts_keeps (s : State) : (ungatePorts s).pending = s.pending ∧ (ungatePorts s).chip = s.chip := by
  unfold ungatePorts; simp
@[simp] theorem ungatePorts_fits (s : State) (h : Fits s) : Fits (ungatePorts s) := by
  unfold ungatePorts; simp [h]
@[simp] theorem lockPort_keeps (n : Nat) (ppm : Int) (s : State) : (lockPort n ppm s).pending = s.pending ∧ (lockPort n ppm s).chip = s.chip := by
  unfold lockPort; (repeat' split) <;> simp
@[simp] theorem lockPort_fits (n : Nat) (ppm : Int) (s : State) (h : Fits s) : Fits (lockPort n ppm s) := by
  unfold lockPort; try dsimp only
  repeat' first | with_reducible assumption | intro _ | with_reducible refine forEach_fits _ _ _ ?_ ?_ | with_reducible refine foldl_fits _ _ _ ?_ ?_ | with_reducible refine updPort_fits _ _ _ ?_ | with_reducible refine evPort_fits _ _ _ _ ?_ | with_reducible refine evCmdDone_fits _ _ _ _ ?_ | with_reducible refine finishWait_fits _ _ ?_ | split | (simp (maxDischargeDepth := 20) [*]; done)
@[simp] theorem losePort_keeps (n : Nat) (s : State) : (losePort n s).pending = s.pending ∧ (losePort n s).chip = s.chip := by
  unfold losePort; (repeat' split) <;> simp
@[simp] theorem losePort_fits (n : Nat) (s : State) (h : Fits s) : Fits (losePort n s) := by
  unfold losePort; try dsimp only
  repeat' first | with_reducible assumption | intro _ | with_reducible refine forEach_fits _ _ _ ?_ ?_ | with_reducible refine foldl_fits _ _ _ ?_ ?_ | with_reducible refine updPort_fits _ _ _ ?_ | with_reducible refine evPort_fits _ _ _ _ ?_ | with_reducible refine faultBegins_fits _ _ _ _ _ _ ?_ | with_reducible refine faultEnds_fits _ _ _ _ ?_ | split | (simp (maxDischargeDepth := 20) [*]; done)
@[simp] theorem stepRate_keeps (n : Nat) (ppm : Int) (s : State) : (stepRate n ppm s).pending = s.pending ∧ (stepRate n ppm s).chip = s.chip := by
  unfold stepRate; simp
@[simp] theorem stepRate_fits (n : Nat) (ppm : Int) (s : State) (h : Fits s) : Fits (stepRate n ppm s) := by
  unfold stepRate; try dsimp only
  repeat' first | with_reducible assumption | intro _ | with_reducible refine forEach_fits _ _ _ ?_ ?_ | with_reducible refine foldl_fits _ _ _ ?_ ?_ | with_reducible refine updPort_fits _ _ _ ?_ | with_reducible refine evPort_fits _ _ _ _ ?_ | with_reducible refine faultBegins_fits _ _ _ _ _ _ ?_ | split | (simp (maxDischargeDepth := 20) [*]; done)
@[simp] theorem endStop_keeps (n : Nat) (s : State) : (endStop n s).pending = s.pending ∧ (endStop n s).chip = s.chip := by
  unfold endStop; (repeat' split) <;> simp
@[simp] theorem endStop_fits (n : Nat) (s : State) (h : Fits s) : Fits (endStop n s) := by
  unfold endStop; try dsimp only
  repeat' first | with_reducible assumption | intro _ | with_reducible refine forEach_fits _ _ _ ?_ ?_ | with_reducible refine foldl_fits _ _ _ ?_ ?_ | with_reducible refine updPort_fits _ _ _ ?_ | with_reducible refine finishWait_fits _ _ ?_ | with_reducible refine faultEnds_fits _ _ _ _ ?_ | split | (simp (maxDischargeDepth := 20) [*]; done)
@[simp] theorem tdmFrame_keeps (n : Nat) (place : ℚ) (completed : Bool) (s : State) : (tdmFrame n place completed s).pending = s.pending ∧ (tdmFrame n place completed s).chip = s.chip := by
  unfold tdmFrame; (repeat' split) <;> simp
@[simp] theorem tdmFrame_fits (n : Nat) (place : ℚ) (completed : Bool) (s : State) (h : Fits s) : Fits (tdmFrame n place completed s) := by
  unfold tdmFrame; dsimp only
  (repeat' split) <;> simp (maxDischargeDepth := 20) [h]
@[simp] theorem spdifFrame_keeps (place : ℚ) (s : State) : (spdifFrame place s).pending = s.pending ∧ (spdifFrame place s).chip = s.chip := by
  unfold spdifFrame; simp
@[simp] theorem spdifFrame_fits (place : ℚ) (s : State) (h : Fits s) : Fits (spdifFrame place s) := by
  unfold spdifFrame; simp [h]

/-! ### System -/

/-- Reading records leaves no more ordinary records than there were (R391). -/
theorem takeRecords_suffix (n room : Nat) (l : List Unread) : (takeRecords n room l).2 <:+ l := by
  induction n generalizing room l with
  | zero => exact List.suffix_refl _
  | succ n ih =>
    cases l with
    | nil => exact List.suffix_refl _
    | cons x xs =>
      unfold takeRecords; split
      · exact (ih _ _).trans (List.suffix_cons _ _)
      · exact List.suffix_refl _

theorem ordinaryOnly_unread (e : Events) : (ordinaryOnly (unreadList e)).length = e.queue.length := by
  have h (l : List Event) : ordinaryOnly (l.map .ordinary) = l := by
    induction l with
    | nil => rfl
    | cons x xs ih => simp [ordinaryOnly] at ih ⊢
  have ha (a b : List Unread) : ordinaryOnly (a ++ b) = ordinaryOnly a ++ ordinaryOnly b := by simp [ordinaryOnly]
  unfold unreadList
  split
  · simp [h]
  · next o _ => simp only [ha, h, List.length_append, List.length_take, List.length_drop]; simp [ordinaryOnly]; omega

theorem ordinaryOnly_left (n room : Nat) (e : Events) : (ordinaryOnly (takeRecords n room (unreadList e)).2).length ≤ e.queue.length := by
  rw [← ordinaryOnly_unread e]
  exact ((takeRecords_suffix n room (unreadList e)).filterMap _).length_le

theorem execNop_keeps (tag : Byte) (p : List Byte) (s : State) {t : State} (e : execNop tag p s = .next t) : t.pending = s.pending ∧ t.chip = s.chip := by
  unfold execNop at e; exact hostRow_keeps (fun _ _ => by simp [cmdNop]) e
theorem execNop_fits (tag : Byte) (p : List Byte) (s : State) {t : State} (e : execNop tag p s = .next t) (h : Fits s) : Fits t := by
  unfold execNop at e; exact hostRow_fits (fun _ _ hu => by simp [cmdNop, hu]) e h
theorem execIdentify_keeps (tag : Byte) (p : List Byte) (s : State) {t : State} (e : execIdentify tag p s = .next t) : t.pending = s.pending ∧ t.chip = s.chip := by
  unfold execIdentify at e; exact hostRow_keeps (fun _ _ => by simp [cmdIdentify]) e
theorem execIdentify_fits (tag : Byte) (p : List Byte) (s : State) {t : State} (e : execIdentify tag p s = .next t) (h : Fits s) : Fits t := by
  unfold execIdentify at e; exact hostRow_fits (fun _ _ hu => by simp [cmdIdentify, hu]) e h
theorem execTimeRead_keeps (tag : Byte) (p : List Byte) (s : State) {t : State} (e : execTimeRead tag p s = .next t) : t.pending = s.pending ∧ t.chip = s.chip := by
  unfold execTimeRead at e; exact hostRow_keeps (fun _ _ => by simp [cmdTimeRead]) e
theorem execTimeRead_fits (tag : Byte) (p : List Byte) (s : State) {t : State} (e : execTimeRead tag p s = .next t) (h : Fits s) : Fits t := by
  unfold execTimeRead at e; exact hostRow_fits (fun _ _ hu => by simp [cmdTimeRead, hu]) e h
@[simp] theorem bodyEventRead_keeps (c : Call) (s : State) : (bodyEventRead c s).state.pending = s.pending ∧ (bodyEventRead c s).state.chip = s.chip := by
  unfold bodyEventRead; simp
@[simp] theorem bodyEventRead_fits (c : Call) (s : State) (h : Fits s) : Fits (bodyEventRead c s).state := by
  have key (n : Nat) : (ordinaryOnly (takeRecords n 244 (unreadList s.events)).2).length ≤ 255 :=
    Nat.le_trans (ordinaryOnly_left _ _ _) (fits_events h)
  unfold bodyEventRead
  refine refreshMirror_fits _ ?_
  simp [h, withUnread, key]
theorem execEventRead_keeps (tag : Byte) (p : List Byte) (s : State) {t : State} (e : execEventRead tag p s = .next t) : t.pending = s.pending ∧ t.chip = s.chip := by
  unfold execEventRead at e; exact hostRow_keeps (fun _ _ => by simp [cmdEventRead]) e
theorem execEventRead_fits (tag : Byte) (p : List Byte) (s : State) {t : State} (e : execEventRead tag p s = .next t) (h : Fits s) : Fits t := by
  unfold execEventRead at e; exact hostRow_fits (fun _ _ hu => by simp [cmdEventRead, hu]) e h
@[simp] theorem bodyEventMask_keeps (c : Call) (s : State) : (bodyEventMask c s).state.pending = s.pending ∧ (bodyEventMask c s).state.chip = s.chip := by
  unfold bodyEventMask; (repeat' split) <;> simp
@[simp] theorem bodyEventMask_fits (c : Call) (s : State) (h : Fits s) : Fits (bodyEventMask c s).state := by
  unfold bodyEventMask
  split
  · exact h
  · refine refreshMirror_fits _ ?_
    simp [h, changeMask]
theorem execEventMask_keeps (tag : Byte) (p : List Byte) (s : State) {t : State} (e : execEventMask tag p s = .next t) : t.pending = s.pending ∧ t.chip = s.chip := by
  unfold execEventMask at e; exact hostRow_keeps (fun _ _ => by simp [cmdEventMask]) e
theorem execEventMask_fits (tag : Byte) (p : List Byte) (s : State) {t : State} (e : execEventMask tag p s = .next t) (h : Fits s) : Fits t := by
  unfold execEventMask at e; exact hostRow_fits (fun _ _ hu => by simp [cmdEventMask, hu]) e h
@[simp] theorem bodyStageReset_keeps (c : Call) (s : State) : (bodyStageReset c s).state.pending = s.pending ∧ (bodyStageReset c s).state.chip = s.chip := by
  unfold bodyStageReset; simp
@[simp] theorem bodyStageReset_fits (c : Call) (s : State) (h : Fits s) : Fits (bodyStageReset c s).state := by
  unfold bodyStageReset; simp [h]
theorem execStageReset_keeps (tag : Byte) (p : List Byte) (s : State) {t : State} (e : execStageReset tag p s = .next t) : t.pending = s.pending ∧ t.chip = s.chip := by
  unfold execStageReset at e; exact hostRow_keeps (fun _ _ => by simp [cmdStageReset]) e
theorem execStageReset_fits (tag : Byte) (p : List Byte) (s : State) {t : State} (e : execStageReset tag p s = .next t) (h : Fits s) : Fits t := by
  unfold execStageReset at e; exact hostRow_fits (fun _ _ hu => by simp [cmdStageReset, hu]) e h
@[simp] theorem bodyPatchLoad_keeps (c : Call) (s : State) : (bodyPatchLoad c s).state.pending = s.pending ∧ (bodyPatchLoad c s).state.chip = s.chip := by
  unfold bodyPatchLoad; (try dsimp only); (repeat' split) <;> simp_all
@[simp] theorem bodyPatchLoad_fits (c : Call) (s : State) (h : Fits s) : Fits (bodyPatchLoad c s).state := by
  unfold bodyPatchLoad; try dsimp only
  repeat' first | with_reducible assumption | intro _ | with_reducible refine forEach_fits _ _ _ ?_ ?_ | with_reducible refine foldl_fits _ _ _ ?_ ?_ | with_reducible refine fail_fits _ _ ?_ | with_reducible refine okay_fits _ _ ?_ | split | (simp (maxDischargeDepth := 20) [*]; done)
theorem execPatchLoad_keeps (tag : Byte) (p : List Byte) (s : State) {t : State} (e : execPatchLoad tag p s = .next t) : t.pending = s.pending ∧ t.chip = s.chip := by
  unfold execPatchLoad at e; exact hostRow_keeps (fun _ _ => by simp [cmdPatchLoad]) e
theorem execPatchLoad_fits (tag : Byte) (p : List Byte) (s : State) {t : State} (e : execPatchLoad tag p s = .next t) (h : Fits s) : Fits t := by
  unfold execPatchLoad at e; exact hostRow_fits (fun _ _ hu => by simp [cmdPatchLoad, hu]) e h
@[simp] theorem bodyPatchCommit_keeps (c : Call) (s : State) : (bodyPatchCommit c s).state.pending = s.pending ∧ (bodyPatchCommit c s).state.chip = s.chip := by
  unfold bodyPatchCommit; (repeat' split) <;> simp
@[simp] theorem bodyPatchCommit_fits (c : Call) (s : State) (h : Fits s) : Fits (bodyPatchCommit c s).state := by
  unfold bodyPatchCommit; (repeat' split) <;> simp [h]
theorem execPatchCommit_keeps (tag : Byte) (p : List Byte) (s : State) {t : State} (e : execPatchCommit tag p s = .next t) : t.pending = s.pending ∧ t.chip = s.chip := by
  unfold execPatchCommit at e; exact hostRow_keeps (fun _ _ => by simp [cmdPatchCommit]) e
theorem execPatchCommit_fits (tag : Byte) (p : List Byte) (s : State) {t : State} (e : execPatchCommit tag p s = .next t) (h : Fits s) : Fits t := by
  unfold execPatchCommit at e; exact hostRow_fits (fun _ _ hu => by simp [cmdPatchCommit, hu]) e h
@[simp] theorem bodyCueSet_keeps (c : Call) (s : State) : (bodyCueSet c s).state.pending = s.pending ∧ (bodyCueSet c s).state.chip = s.chip := by
  unfold bodyCueSet; (try dsimp only); (repeat' split) <;> simp_all
@[simp] theorem bodyCueSet_fits (c : Call) (s : State) (h : Fits s) : Fits (bodyCueSet c s).state := by
  unfold bodyCueSet; try dsimp only
  repeat' first | with_reducible assumption | intro _ | with_reducible refine forEach_fits _ _ _ ?_ ?_ | with_reducible refine foldl_fits _ _ _ ?_ ?_ | with_reducible refine fail_fits _ _ ?_ | with_reducible refine okay_fits _ _ ?_ | split | (simp (maxDischargeDepth := 20) [*]; done)
theorem execCueSet_keeps (tag : Byte) (p : List Byte) (s : State) {t : State} (e : execCueSet tag p s = .next t) : t.pending = s.pending ∧ t.chip = s.chip := by
  unfold execCueSet at e; exact hostRow_keeps (fun _ _ => by simp [cmdCueSet]) e
theorem execCueSet_fits (tag : Byte) (p : List Byte) (s : State) {t : State} (e : execCueSet tag p s = .next t) (h : Fits s) : Fits t := by
  unfold execCueSet at e; exact hostRow_fits (fun _ _ hu => by simp [cmdCueSet, hu]) e h
@[simp] theorem bodyCueCancel_keeps (c : Call) (s : State) : (bodyCueCancel c s).state.pending = s.pending ∧ (bodyCueCancel c s).state.chip = s.chip := by
  unfold bodyCueCancel; simp
@[simp] theorem bodyCueCancel_fits (c : Call) (s : State) (h : Fits s) : Fits (bodyCueCancel c s).state := by
  unfold bodyCueCancel; simp [h]
theorem execCueCancel_keeps (tag : Byte) (p : List Byte) (s : State) {t : State} (e : execCueCancel tag p s = .next t) : t.pending = s.pending ∧ t.chip = s.chip := by
  unfold execCueCancel at e; exact hostRow_keeps (fun _ _ => by simp [cmdCueCancel]) e
theorem execCueCancel_fits (tag : Byte) (p : List Byte) (s : State) {t : State} (e : execCueCancel tag p s = .next t) (h : Fits s) : Fits t := by
  unfold execCueCancel at e; exact hostRow_fits (fun _ _ hu => by simp [cmdCueCancel, hu]) e h
@[simp] theorem bodyCueList_keeps (c : Call) (s : State) : (bodyCueList c s).state.pending = s.pending ∧ (bodyCueList c s).state.chip = s.chip := by
  unfold bodyCueList; simp
@[simp] theorem bodyCueList_fits (c : Call) (s : State) (h : Fits s) : Fits (bodyCueList c s).state := by
  unfold bodyCueList; simp [h]
theorem execCueList_keeps (tag : Byte) (p : List Byte) (s : State) {t : State} (e : execCueList tag p s = .next t) : t.pending = s.pending ∧ t.chip = s.chip := by
  unfold execCueList at e; exact hostRow_keeps (fun _ _ => by simp [cmdCueList]) e
theorem execCueList_fits (tag : Byte) (p : List Byte) (s : State) {t : State} (e : execCueList tag p s = .next t) (h : Fits s) : Fits t := by
  unfold execCueList at e; exact hostRow_fits (fun _ _ hu => by simp [cmdCueList, hu]) e h

/-! ### Clocks -/

@[simp] theorem gateOutputs_len (c : Clocks) : (gateOutputs c).outs.length = c.outs.length ∧ (gateOutputs c).band = c.band := by
  simp [gateOutputs]

@[simp] theorem setClocks_keeps (f : Clocks → Clocks) (s : State) : (setClocks f s).pending = s.pending ∧ (setClocks f s).chip = s.chip := by
  unfold setClocks; simp
@[simp] theorem setClocks_fits (f : Clocks → Clocks) (s : State) (h : Fits s)
    (hf : ∀ c, (f c).outs.length = c.outs.length ∧ (f c).band.length = c.band.length) : Fits (setClocks f s) := by
  unfold setClocks; simp [h, hf]
@[simp] theorem refreshClocks_keeps (s : State) : (refreshClocks s).pending = s.pending ∧ (refreshClocks s).chip = s.chip := by
  unfold refreshClocks; simp
@[simp] theorem refreshClocks_fits (s : State) (h : Fits s) : Fits (refreshClocks s) := by
  unfold refreshClocks; try dsimp only
  repeat' first | with_reducible assumption | intro _ | with_reducible refine forEach_fits _ _ _ ?_ ?_ | with_reducible refine foldl_fits _ _ _ ?_ ?_ | with_reducible refine setClocks_fits _ _ ?_ ?_ | split | (simp (maxDischargeDepth := 20) [*]; done)
@[simp] theorem changeRef_keeps (f : RefFields) (s : State) : (changeRef f s).pending = s.pending ∧ (changeRef f s).chip = s.chip := by
  unfold changeRef; simp
@[simp] theorem changeRef_fits (f : RefFields) (s : State) (h : Fits s) : Fits (changeRef f s) := by
  unfold changeRef; (try dsimp only); (repeat' split) <;> simp_all
@[simp] theorem bodyRefConfig_keeps (c : Call) (s : State) : (bodyRefConfig c s).state.pending = s.pending ∧ (bodyRefConfig c s).state.chip = s.chip := by
  unfold bodyRefConfig; (try dsimp only); (repeat' split) <;> simp_all
@[simp] theorem bodyRefConfig_fits (c : Call) (s : State) (h : Fits s) : Fits (bodyRefConfig c s).state := by
  unfold bodyRefConfig; try dsimp only
  repeat' first | with_reducible assumption | intro _ | with_reducible refine forEach_fits _ _ _ ?_ ?_ | with_reducible refine foldl_fits _ _ _ ?_ ?_ | with_reducible refine fail_fits _ _ ?_ | with_reducible refine changeRef_fits _ _ ?_ | with_reducible refine okay_fits _ _ ?_ | with_reducible refine faultEnds_fits _ _ _ _ ?_ | split | (simp (maxDischargeDepth := 20) [*]; done)
theorem execRefConfig_keeps (tag : Byte) (p : List Byte) (s : State) {t : State} (e : execRefConfig tag p s = .next t) : t.pending = s.pending ∧ t.chip = s.chip := by
  unfold execRefConfig at e; exact hostRow_keeps (fun _ _ => by simp [cmdRefConfig]) e
theorem execRefConfig_fits (tag : Byte) (p : List Byte) (s : State) {t : State} (e : execRefConfig tag p s = .next t) (h : Fits s) : Fits t := by
  unfold execRefConfig at e; exact hostRow_fits (fun _ _ hu => by simp [cmdRefConfig, hu]) e h
@[simp] theorem bodyClockOut_keeps (c : Call) (s : State) : (bodyClockOut c s).state.pending = s.pending ∧ (bodyClockOut c s).state.chip = s.chip := by
  unfold bodyClockOut; (repeat' split) <;> simp
@[simp] theorem bodyClockOut_fits (c : Call) (s : State) (h : Fits s) : Fits (bodyClockOut c s).state := by
  unfold bodyClockOut; try dsimp only
  repeat' first | with_reducible assumption | intro _ | with_reducible refine forEach_fits _ _ _ ?_ ?_ | with_reducible refine foldl_fits _ _ _ ?_ ?_ | with_reducible refine updOut_fits _ _ _ ?_ | with_reducible refine okay_fits _ _ ?_ | with_reducible refine setClocks_fits _ _ ?_ ?_ | split | (simp (maxDischargeDepth := 20) [*]; done)
theorem execClockOut_keeps (tag : Byte) (p : List Byte) (s : State) {t : State} (e : execClockOut tag p s = .next t) : t.pending = s.pending ∧ t.chip = s.chip := by
  unfold execClockOut at e; exact hostRow_keeps (fun _ _ => by simp [cmdClockOut]) e
theorem execClockOut_fits (tag : Byte) (p : List Byte) (s : State) {t : State} (e : execClockOut tag p s = .next t) (h : Fits s) : Fits t := by
  unfold execClockOut at e; exact hostRow_fits (fun _ _ hu => by simp [cmdClockOut, hu]) e h
@[simp] theorem bodySyncArm_keeps (c : Call) (s : State) : (bodySyncArm c s).state.pending = s.pending ∧ (bodySyncArm c s).state.chip = s.chip := by
  unfold bodySyncArm; (try dsimp only); (repeat' split) <;> simp_all
@[simp] theorem bodySyncArm_fits (c : Call) (s : State) (h : Fits s) : Fits (bodySyncArm c s).state := by
  unfold bodySyncArm; try dsimp only
  repeat' first | with_reducible assumption | intro _ | with_reducible refine forEach_fits _ _ _ ?_ ?_ | with_reducible refine foldl_fits _ _ _ ?_ ?_ | with_reducible refine fail_fits _ _ ?_ | with_reducible refine okay_fits _ _ ?_ | split | (simp (maxDischargeDepth := 20) [*]; done)
theorem execSyncArm_keeps (tag : Byte) (p : List Byte) (s : State) {t : State} (e : execSyncArm tag p s = .next t) : t.pending = s.pending ∧ t.chip = s.chip := by
  unfold execSyncArm at e; exact hostRow_keeps (fun _ _ => by simp [cmdSyncArm]) e
theorem execSyncArm_fits (tag : Byte) (p : List Byte) (s : State) {t : State} (e : execSyncArm tag p s = .next t) (h : Fits s) : Fits t := by
  unfold execSyncArm at e; exact hostRow_fits (fun _ _ hu => by simp [cmdSyncArm, hu]) e h
@[simp] theorem trimmedIf_keeps (b : Bool) (s : State) : (trimmedIf b s).pending = s.pending ∧ (trimmedIf b s).chip = s.chip := by
  unfold trimmedIf; simp
@[simp] theorem trimmedIf_fits (b : Bool) (s : State) (h : Fits s) : Fits (trimmedIf b s) := by
  unfold trimmedIf; simp [h]
@[simp] theorem bodyFreqTrim_keeps (c : Call) (s : State) : (bodyFreqTrim c s).state.pending = s.pending ∧ (bodyFreqTrim c s).state.chip = s.chip := by
  unfold bodyFreqTrim; dsimp only
  (repeat' split) <;> simp
@[simp] theorem bodyFreqTrim_fits (c : Call) (s : State) (h : Fits s) : Fits (bodyFreqTrim c s).state := by
  unfold bodyFreqTrim; dsimp only
  (repeat' split) <;> simp (maxDischargeDepth := 20) [h]
theorem execFreqTrim_keeps (tag : Byte) (p : List Byte) (s : State) {t : State} (e : execFreqTrim tag p s = .next t) : t.pending = s.pending ∧ t.chip = s.chip := by
  unfold execFreqTrim at e; exact hostRow_keeps (fun _ _ => by simp [cmdFreqTrim]) e
theorem execFreqTrim_fits (tag : Byte) (p : List Byte) (s : State) {t : State} (e : execFreqTrim tag p s = .next t) (h : Fits s) : Fits t := by
  unfold execFreqTrim at e; exact hostRow_fits (fun _ _ hu => by simp [cmdFreqTrim, hu]) e h
theorem execTrimStep_keeps (s : State) {t : State} (e : execTrimStep s = .next t) : t.pending = s.pending ∧ t.chip = s.chip := by
  unfold execTrimStep at e; dsimp only at e; (repeat' split at e) <;> simp at e <;> subst e <;> (repeat' split) <;> simp_all
theorem execTrimStep_fits (s : State) {t : State} (e : execTrimStep s = .next t) (h : Fits s) : Fits t := by
  unfold execTrimStep at e; (try dsimp only at e)
  (repeat' split at e) <;> cases e
  all_goals repeat' first | with_reducible assumption | intro _ | with_reducible refine forEach_fits _ _ _ ?_ ?_ | with_reducible refine foldl_fits _ _ _ ?_ ?_ | with_reducible refine evCmdDone_fits _ _ _ _ ?_ | with_reducible refine afterTrim_fits _ ?_ | with_reducible refine setClocks_fits _ _ ?_ ?_ | split | (simp (maxDischargeDepth := 20) [*]; done)
theorem execClockStatus_keeps (tag : Byte) (p : List Byte) (s : State) {t : State} (e : execClockStatus tag p s = .next t) : t.pending = s.pending ∧ t.chip = s.chip := by
  unfold execClockStatus at e; exact hostRow_keeps (fun _ _ => by simp [cmdClockStatus]) e
theorem execClockStatus_fits (tag : Byte) (p : List Byte) (s : State) {t : State} (e : execClockStatus tag p s = .next t) (h : Fits s) : Fits t := by
  unfold execClockStatus at e; exact hostRow_fits (fun _ _ hu => by simp [cmdClockStatus, hu]) e h
@[simp] theorem loseSync_keeps (reason : Nat) (s : State) : (loseSync reason s).pending = s.pending ∧ (loseSync reason s).chip = s.chip := by
  unfold loseSync; simp
@[simp] theorem loseSync_fits (reason : Nat) (s : State) (h : Fits s) : Fits (loseSync reason s) := by
  unfold loseSync; simp [h]
@[simp] theorem coastS_keeps (s : State) : (coastS s).pending = s.pending ∧ (coastS s).chip = s.chip := by
  unfold coastS; simp
@[simp] theorem coastS_fits (s : State) (h : Fits s) : Fits (coastS s) := by
  unfold coastS; (try dsimp only); (repeat' split) <;> simp_all
@[simp] theorem coastA_keeps (s : State) : (coastA s).pending = s.pending ∧ (coastA s).chip = s.chip := by
  unfold coastA; simp
@[simp] theorem coastA_fits (s : State) (h : Fits s) : Fits (coastA s) := by
  unfold coastA; (try dsimp only); (repeat' split) <;> simp_all
@[simp] theorem refConfigGivesUp_keeps (s : State) : (refConfigGivesUp s).pending = s.pending ∧ (refConfigGivesUp s).chip = s.chip := by
  unfold refConfigGivesUp; simp
@[simp] theorem refConfigGivesUp_fits (s : State) (h : Fits s) : Fits (refConfigGivesUp s) := by
  unfold refConfigGivesUp; simp [h]
@[simp] theorem loseRef_keeps (s : State) : (loseRef s).pending = s.pending ∧ (loseRef s).chip = s.chip := by
  unfold loseRef; simp
@[simp] theorem loseRef_fits (s : State) (h : Fits s) : Fits (loseRef s) := by
  unfold loseRef; try dsimp only
  repeat' first | with_reducible assumption | intro _ | with_reducible refine forEach_fits _ _ _ ?_ ?_ | with_reducible refine foldl_fits _ _ _ ?_ ?_ | with_reducible refine refreshClocks_fits _ ?_ | with_reducible refine coastS_fits _ ?_ | with_reducible refine coastA_fits _ ?_ | with_reducible refine evClock_fits _ _ _ _ ?_ | with_reducible refine faultBegins_fits _ _ _ _ _ _ ?_ | with_reducible refine refConfigGivesUp_fits _ ?_ | with_reducible refine loseSync_fits _ _ ?_ | with_reducible refine setClocks_fits _ _ ?_ ?_ | split | (simp (maxDischargeDepth := 20) [*]; done)
theorem execReferenceAbsent_keeps (s : State) {t : State} (e : execReferenceAbsent s = .next t) : t.pending = s.pending ∧ t.chip = s.chip := by
  unfold execReferenceAbsent at e; (repeat' split at e) <;> simp at e <;> subst e <;> simp
theorem execReferenceAbsent_fits (s : State) {t : State} (e : execReferenceAbsent s = .next t) (h : Fits s) : Fits t := by
  unfold execReferenceAbsent at e; (repeat' split at e) <;> simp at e <;> subst e <;> simp [h]
@[simp] theorem returnRef_keeps (s : State) : (returnRef s).pending = s.pending ∧ (returnRef s).chip = s.chip := by
  unfold returnRef; simp
@[simp] theorem returnRef_fits (s : State) (h : Fits s) : Fits (returnRef s) := by
  unfold returnRef; try dsimp only
  repeat' first | with_reducible assumption | intro _ | with_reducible refine forEach_fits _ _ _ ?_ ?_ | with_reducible refine foldl_fits _ _ _ ?_ ?_ | with_reducible refine refreshClocks_fits _ ?_ | with_reducible refine evClock_fits _ _ _ _ ?_ | with_reducible refine becomesRunnable_fits _ _ _ ?_ | with_reducible refine faultEnds_fits _ _ _ _ ?_ | with_reducible refine setClocks_fits _ _ ?_ ?_ | split | (simp (maxDischargeDepth := 20) [*]; done)
theorem execReferencePresent_keeps (s : State) {t : State} (e : execReferencePresent s = .next t) : t.pending = s.pending ∧ t.chip = s.chip := by
  unfold execReferencePresent at e; (repeat' split at e) <;> simp at e <;> subst e <;> simp
theorem execReferencePresent_fits (s : State) {t : State} (e : execReferencePresent s = .next t) (h : Fits s) : Fits t := by
  unfold execReferencePresent at e; (repeat' split at e) <;> simp at e <;> subst e <;> simp [h]
@[simp] theorem endReturn_keeps (s : State) : (endReturn s).pending = s.pending ∧ (endReturn s).chip = s.chip := by
  unfold endReturn; simp
@[simp] theorem endReturn_fits (s : State) (h : Fits s) : Fits (endReturn s) := by
  unfold endReturn; try dsimp only
  repeat' first | with_reducible assumption | intro _ | with_reducible refine forEach_fits _ _ _ ?_ ?_ | with_reducible refine foldl_fits _ _ _ ?_ ?_ | with_reducible refine loseSync_fits _ _ ?_ | with_reducible refine faultEnds_fits _ _ _ _ ?_ | with_reducible refine setClocks_fits _ _ ?_ ?_ | split | (simp (maxDischargeDepth := 20) [*]; done)
@[simp] theorem builtOut_keeps (clock : Nat) (stepPs : Nat) (coastErr : Int) (f : Clocks → Clocks) (s : State) : (builtOut clock stepPs coastErr f s).pending = s.pending ∧ (builtOut clock stepPs coastErr f s).chip = s.chip := by
  unfold builtOut; simp
@[simp] theorem builtOut_fits (clock stepPs : Nat) (coastErr : Int) (f : Clocks → Clocks) (s : State) (h : Fits s)
    (hf : ∀ c, (f c).outs.length = c.outs.length ∧ (f c).band.length = c.band.length) : Fits (builtOut clock stepPs coastErr f s) := by
  have h1 : Fits (refreshClocks (updRec 0x40 0 (fun r => { r with detailB := coastErr })
      (evClock clock 3 coastErr (setClocks (fun c => { f c with stepMax := max c.stepMax stepPs }) s)))) := by
    simp (maxDischargeDepth := 20) [h, hf]
  unfold builtOut; dsimp only; split
  · exact h1
  · exact endReturn_fits _ h1
theorem execBuildOutComplete_keeps (synth : Synth) (stepPs : Nat) (coastErr : Int) (s : State) {t : State} (e : execBuildOutComplete synth stepPs coastErr s = .next t) : t.pending = s.pending ∧ t.chip = s.chip := by
  unfold execBuildOutComplete at e; (repeat' split at e) <;> simp at e <;> subst e <;> simp
theorem execBuildOutComplete_fits (synth : Synth) (stepPs : Nat) (coastErr : Int) (s : State) {t : State} (e : execBuildOutComplete synth stepPs coastErr s = .next t) (h : Fits s) : Fits t := by
  unfold execBuildOutComplete at e; (repeat' split at e) <;> simp at e <;> subst e <;> simp [h]
@[simp] theorem losePllS_keeps (s : State) : (losePllS s).pending = s.pending ∧ (losePllS s).chip = s.chip := by
  unfold losePllS; simp
@[simp] theorem losePllS_fits (s : State) (h : Fits s) : Fits (losePllS s) := by
  unfold losePllS; try dsimp only
  repeat' first | with_reducible assumption | intro _ | with_reducible refine forEach_fits _ _ _ ?_ ?_ | with_reducible refine foldl_fits _ _ _ ?_ ?_ | with_reducible refine refreshClocks_fits _ ?_ | with_reducible refine evClock_fits _ _ _ _ ?_ | with_reducible refine faultBegins_fits _ _ _ _ _ _ ?_ | with_reducible refine setClocks_fits _ _ ?_ ?_ | split | (simp (maxDischargeDepth := 20) [*]; done)
@[simp] theorem losePllA_keeps (s : State) : (losePllA s).pending = s.pending ∧ (losePllA s).chip = s.chip := by
  unfold losePllA; simp
@[simp] theorem losePllA_fits (s : State) (h : Fits s) : Fits (losePllA s) := by
  unfold losePllA; try dsimp only
  repeat' first | with_reducible assumption | intro _ | with_reducible refine forEach_fits _ _ _ ?_ ?_ | with_reducible refine foldl_fits _ _ _ ?_ ?_ | with_reducible refine refreshClocks_fits _ ?_ | with_reducible refine gatePorts_fits _ ?_ | with_reducible refine evClock_fits _ _ _ _ ?_ | with_reducible refine faultBegins_fits _ _ _ _ _ _ ?_ | with_reducible refine endReturn_fits _ ?_ | with_reducible refine setClocks_fits _ _ ?_ ?_ | split | (simp (maxDischargeDepth := 20) [*]; done)
@[simp] theorem losePllN_keeps (s : State) : (losePllN s).pending = s.pending ∧ (losePllN s).chip = s.chip := by
  unfold losePllN; simp
@[simp] theorem losePllN_fits (s : State) (h : Fits s) : Fits (losePllN s) := by
  unfold losePllN; (try dsimp only); (repeat' split) <;> simp_all
@[simp] theorem lockPllN_keeps (s : State) : (lockPllN s).pending = s.pending ∧ (lockPllN s).chip = s.chip := by
  unfold lockPllN; simp
@[simp] theorem lockPllN_fits (s : State) (h : Fits s) : Fits (lockPllN s) := by
  unfold lockPllN; try dsimp only
  repeat' first | with_reducible assumption | intro _ | with_reducible refine forEach_fits _ _ _ ?_ ?_ | with_reducible refine foldl_fits _ _ _ ?_ ?_ | with_reducible refine evClock_fits _ _ _ _ ?_ | with_reducible refine setClocks_fits _ _ ?_ ?_ | with_reducible refine evGhost_fits _ _ ?_ | split | (simp (maxDischargeDepth := 20) [*]; done)
theorem execPllLossOfLock_keeps (synth : Synth) (s : State) {t : State} (e : execPllLossOfLock synth s = .next t) : t.pending = s.pending ∧ t.chip = s.chip := by
  unfold execPllLossOfLock at e; (repeat' split at e) <;> simp at e <;> subst e <;> simp
theorem execPllLossOfLock_fits (synth : Synth) (s : State) {t : State} (e : execPllLossOfLock synth s = .next t) (h : Fits s) : Fits t := by
  unfold execPllLossOfLock at e; (repeat' split at e) <;> simp at e <;> subst e <;> simp [h]
@[simp] theorem rememberBand_keeps (s : State) : (rememberBand s).pending = s.pending ∧ (rememberBand s).chip = s.chip := by
  unfold rememberBand; simp
@[simp] theorem rememberBand_fits (s : State) (h : Fits s) : Fits (rememberBand s) := by
  unfold rememberBand; (repeat' split) <;> simp [h]
@[simp] theorem lockRecord_keeps (clock : Nat) (s : State) : (lockRecord clock s).pending = s.pending ∧ (lockRecord clock s).chip = s.chip := by
  unfold lockRecord; simp
@[simp] theorem lockRecord_fits (clock : Nat) (s : State) (h : Fits s) : Fits (lockRecord clock s) := by
  unfold lockRecord; simp [h]
@[simp] theorem bothLocked_keeps (s : State) : (bothLocked s).pending = s.pending ∧ (bothLocked s).chip = s.chip := by
  unfold bothLocked; simp
@[simp] theorem bothLocked_fits (s : State) (h : Fits s) : Fits (bothLocked s) := by
  unfold bothLocked; try dsimp only
  repeat' first | with_reducible assumption | intro _ | with_reducible refine forEach_fits _ _ _ ?_ ?_ | with_reducible refine foldl_fits _ _ _ ?_ ?_ | with_reducible refine refreshClocks_fits _ ?_ | with_reducible refine finishWait_fits _ _ ?_ | with_reducible refine setClocks_fits _ _ ?_ ?_ | split | (simp (maxDischargeDepth := 20) [*]; done)
@[simp] theorem lockPllS_keeps (s : State) : (lockPllS s).pending = s.pending ∧ (lockPllS s).chip = s.chip := by
  unfold lockPllS; simp
@[simp] theorem lockPllS_fits (s : State) (h : Fits s) : Fits (lockPllS s) := by
  unfold lockPllS
  have h1 : Fits (setClocks (fun c => { c with pllS := .locked, band := List.replicate 4 true }) s) := by
    unfold setClocks; simp [h]
  exact faultEnds_fits 0x41 0 2 _ (bothLocked_fits _ (rememberBand_fits _ (lockRecord_fits _ _ h1)))
@[simp] theorem lockPllA_keeps (s : State) : (lockPllA s).pending = s.pending ∧ (lockPllA s).chip = s.chip := by
  unfold lockPllA; simp
@[simp] theorem lockPllA_fits (s : State) (h : Fits s) : Fits (lockPllA s) := by
  unfold lockPllA; try dsimp only
  repeat' first | with_reducible assumption | intro _ | with_reducible refine forEach_fits _ _ _ ?_ ?_ | with_reducible refine foldl_fits _ _ _ ?_ ?_ | with_reducible refine bothLocked_fits _ ?_ | with_reducible refine lockRecord_fits _ _ ?_ | with_reducible refine ungatePorts_fits _ ?_ | with_reducible refine faultEnds_fits _ _ _ _ ?_ | with_reducible refine setClocks_fits _ _ ?_ ?_ | split | (simp (maxDischargeDepth := 20) [*]; done)
@[simp] theorem recoveryTurn_keeps (code : Nat) (s : State) : (recoveryTurn code s).1.pending = s.pending ∧ (recoveryTurn code s).1.chip = s.chip := by
  unfold recoveryTurn; simp
@[simp] theorem recoveryTurn_fits (code : Nat) (s : State) (h : Fits s) : Fits (recoveryTurn code s).1 := by
  unfold recoveryTurn; simp [h]
theorem execPllLock_keeps (synth : Synth) (s : State) {t : State} (e : execPllLock synth s = .next t) : t.pending = s.pending ∧ t.chip = s.chip := by
  unfold execPllLock at e; (repeat' split at e) <;> simp at e <;> subst e <;> simp
theorem execPllLock_fits (synth : Synth) (s : State) {t : State} (e : execPllLock synth s = .next t) (h : Fits s) : Fits t := by
  unfold execPllLock at e; dsimp only at e; (repeat' split at e) <;> simp at e <;> subst e <;> (repeat' split) <;> simp_all
theorem execPllSRelockRetry_keeps (locked : Bool) (s : State) {t : State} (e : execPllSRelockRetry locked s = .next t) : t.pending = s.pending ∧ t.chip = s.chip := by
  unfold execPllSRelockRetry at e; (repeat' split at e) <;> simp at e <;> subst e <;> simp
theorem execPllSRelockRetry_fits (locked : Bool) (s : State) {t : State} (e : execPllSRelockRetry locked s = .next t) (h : Fits s) : Fits t := by
  unfold execPllSRelockRetry at e; dsimp only at e; (repeat' split at e) <;> simp at e <;> subst e <;> (repeat' split) <;> simp_all
theorem execSyncCapture_keeps (s : State) {t : State} (e : execSyncCapture s = .next t) : t.pending = s.pending ∧ t.chip = s.chip := by
  unfold execSyncCapture at e; (repeat' split at e) <;> simp at e <;> subst e <;> simp
theorem execSyncCapture_fits (s : State) {t : State} (e : execSyncCapture s = .next t) (h : Fits s) : Fits t := by
  unfold execSyncCapture at e; (repeat' split at e) <;> simp at e <;> subst e <;> simp [h]
@[simp] theorem cancelCues_keeps (s : State) : (cancelCues s).pending = s.pending ∧ (cancelCues s).chip = s.chip := by
  unfold cancelCues; simp
@[simp] theorem cancelCues_fits (s : State) (h : Fits s) : Fits (cancelCues s) := by
  unfold cancelCues; try dsimp only
  repeat' first | with_reducible assumption | intro _ | with_reducible refine forEach_fits _ _ _ ?_ ?_ | with_reducible refine foldl_fits _ _ _ ?_ ?_ | with_reducible refine evCue_fits _ _ _ _ _ _ _ _ ?_ | split | (simp (maxDischargeDepth := 20) [*]; done)
@[simp] theorem releaseEffects_keeps (s : State) : (releaseEffects s).pending = s.pending ∧ (releaseEffects s).chip = s.chip := by
  unfold releaseEffects; simp
@[simp] theorem releaseEffects_fits (s : State) (h : Fits s) : Fits (releaseEffects s) := by
  unfold releaseEffects; try dsimp only
  repeat' first | with_reducible assumption | intro _ | with_reducible refine forEach_fits _ _ _ ?_ ?_ | with_reducible refine foldl_fits _ _ _ ?_ ?_ | with_reducible refine applyEffect_fits _ _ ?_ | split | (simp (maxDischargeDepth := 20) [*]; done)
@[simp] theorem syncTargets_keeps (s : State) : (syncTargets s).pending = s.pending ∧ (syncTargets s).chip = s.chip := by
  unfold syncTargets; (try dsimp only); refine forEach_keeps _ _ _ fun _ _ => ?_; (try dsimp only); (repeat' split) <;> simp
@[simp] theorem syncTargets_fits (s : State) (h : Fits s) : Fits (syncTargets s) := by
  unfold syncTargets; try dsimp only
  repeat' first | with_reducible assumption | intro _ | with_reducible refine forEach_fits _ _ _ ?_ ?_ | with_reducible refine foldl_fits _ _ _ ?_ ?_ | with_reducible refine stepRate_fits _ _ _ ?_ | with_reducible refine forEach_fits _ _ _ ?_ ?_ | split | (simp (maxDischargeDepth := 20) [*]; done)
@[simp] theorem syncInstant_keeps (s : State) : (syncInstant s).pending = s.pending ∧ (syncInstant s).chip = s.chip := by
  unfold syncInstant; simp
@[simp] theorem syncInstant_fits (s : State) (h : Fits s) : Fits (syncInstant s) := by
  unfold syncInstant; try dsimp only
  repeat' first | with_reducible assumption | intro _ | with_reducible refine forEach_fits _ _ _ ?_ ?_ | with_reducible refine foldl_fits _ _ _ ?_ ?_ | with_reducible refine syncTargets_fits _ ?_ | with_reducible refine cancelCues_fits _ ?_ | with_reducible refine calSync_fits _ ?_ | with_reducible refine releaseEffects_fits _ ?_ | with_reducible refine setClocks_fits _ _ ?_ ?_ | split | (simp (maxDischargeDepth := 20) [*]; done)
theorem execSyncInstant_keeps (s : State) {t : State} (e : execSyncInstant s = .next t) : t.pending = s.pending ∧ t.chip = s.chip := by
  unfold execSyncInstant at e; (repeat' split at e) <;> simp at e <;> subst e <;> simp
theorem execSyncInstant_fits (s : State) {t : State} (e : execSyncInstant s = .next t) (h : Fits s) : Fits t := by
  unfold execSyncInstant at e; (repeat' split at e) <;> simp at e <;> subst e <;> simp [h]

/-! ### Stations -/

@[simp] theorem updStation_keeps (i : Nat) (f : Station → Station) (s : State) : (updStation i f s).pending = s.pending ∧ (updStation i f s).chip = s.chip := by
  unfold updStation; simp
@[simp] theorem updStation_fits (i : Nat) (f : Station → Station) (s : State) (h : Fits s) : Fits (updStation i f s) := by
  unfold updStation; simp [h]
@[simp] theorem changeStation_keeps (i : Nat) (f : Station → Station) (s : State) : (changeStation i f s).pending = s.pending ∧ (changeStation i f s).chip = s.chip := by
  unfold changeStation; simp
@[simp] theorem changeStation_fits (i : Nat) (f : Station → Station) (s : State) (h : Fits s) : Fits (changeStation i f s) := by
  unfold changeStation; simp [h]
@[simp] theorem evStation_keeps (reason : Nat) (pi : Id16) (value : Nat) (a : State) : (evStation reason pi value a).pending = a.pending ∧ (evStation reason pi value a).chip = a.chip := by
  unfold evStation; simp
@[simp] theorem evStation_fits (reason : Nat) (pi : Id16) (value : Nat) (a : State) (h : Fits a) : Fits (evStation reason pi value a) := by
  unfold evStation; simp [h]
@[simp] theorem bumpStations_keeps (s : State) : (bumpStations s).pending = s.pending ∧ (bumpStations s).chip = s.chip := by
  unfold bumpStations; simp
@[simp] theorem bumpStations_fits (s : State) (h : Fits s) : Fits (bumpStations s) := by
  unfold bumpStations; simp [h]
@[simp] theorem ensureStation_keeps (pi : Id16) (eon : Bool) (s : State) : (ensureStation pi eon s).pending = s.pending ∧ (ensureStation pi eon s).chip = s.chip := by
  unfold ensureStation; (repeat' split) <;> simp
@[simp] theorem ensureStation_fits (pi : Id16) (eon : Bool) (s : State) (h : Fits s) : Fits (ensureStation pi eon s) := by
  unfold ensureStation; try dsimp only
  repeat' first | with_reducible assumption | intro _ | with_reducible refine forEach_fits _ _ _ ?_ ?_ | with_reducible refine foldl_fits _ _ _ ?_ ?_ | with_reducible refine bumpStations_fits _ ?_ | with_reducible refine evStation_fits _ _ _ _ ?_ | with_reducible refine count_fits _ _ _ _ ?_ | with_reducible refine updStation_fits _ _ _ ?_ | split | (simp (maxDischargeDepth := 20) [*]; done)
@[simp] theorem confirmStation_keeps (pi : Id16) (s : State) : (confirmStation pi s).pending = s.pending ∧ (confirmStation pi s).chip = s.chip := by
  unfold confirmStation; (try dsimp only); (repeat' split) <;> simp_all
@[simp] theorem confirmStation_fits (pi : Id16) (s : State) (h : Fits s) : Fits (confirmStation pi s) := by
  unfold confirmStation; try dsimp only
  repeat' first | with_reducible assumption | intro _ | with_reducible refine forEach_fits _ _ _ ?_ ?_ | with_reducible refine foldl_fits _ _ _ ?_ ?_ | with_reducible refine ensureStation_fits _ _ _ ?_ | with_reducible refine changeStation_fits _ _ _ ?_ | split | (simp (maxDischargeDepth := 20) [*]; done)
@[simp] theorem noteLq_keeps (id : Nat) (s : State) : (noteLq id s).pending = s.pending ∧ (noteLq id s).chip = s.chip := by
  unfold noteLq; (repeat' split) <;> simp
@[simp] theorem noteLq_fits (id : Nat) (s : State) (h : Fits s) : Fits (noteLq id s) := by
  unfold noteLq; (repeat' split) <;> simp [h]
@[simp] theorem mergeEntries_keeps (pi : Id16) (es : List AfEntry) (s : State) : (mergeEntries pi es s).pending = s.pending ∧ (mergeEntries pi es s).chip = s.chip := by
  unfold mergeEntries; (repeat' split) <;> simp
@[simp] theorem mergeEntries_fits (pi : Id16) (es : List AfEntry) (s : State) (h : Fits s) : Fits (mergeEntries pi es s) := by
  unfold mergeEntries; (repeat' split) <;> simp [h]

/-! ### Mixer -/

@[simp] theorem mixAll_keeps (s : State) : (mixAll s).pending = s.pending ∧ (mixAll s).chip = s.chip := by
  unfold mixAll; (try dsimp only); refine forEach_keeps _ _ _ fun _ _ => ?_; (try dsimp only); (repeat' split) <;> simp
@[simp] theorem mixAll_fits (s : State) (h : Fits s) : Fits (mixAll s) := by
  unfold mixAll; try dsimp only
  repeat' first | with_reducible assumption | intro _ | with_reducible refine forEach_fits _ _ _ ?_ ?_ | with_reducible refine foldl_fits _ _ _ ?_ ?_ | with_reducible refine count_fits _ _ _ _ ?_ | with_reducible refine forEach_fits _ _ _ ?_ ?_ | split | (simp (maxDischargeDepth := 20) [*]; done)

/-! ### Conditions -/

@[simp] theorem formGroup_keeps (n : Nat) (src : Source) (s : State) : (formGroup n src s).pending = s.pending ∧ (formGroup n src s).chip = s.chip := by
  unfold formGroup; (repeat' split) <;> simp
@[simp] theorem formGroup_fits (n : Nat) (src : Source) (s : State) (h : Fits s) : Fits (formGroup n src s) := by
  unfold formGroup; try dsimp only
  repeat' first | with_reducible assumption | intro _ | with_reducible refine forEach_fits _ _ _ ?_ ?_ | with_reducible refine foldl_fits _ _ _ ?_ ?_ | with_reducible refine leaveAll_fits _ _ _ ?_ | with_reducible refine fitOwn_fits _ _ ?_ | with_reducible refine updProgram_fits _ _ _ ?_ | with_reducible refine placeMember_fits _ _ _ _ _ ?_ | with_reducible refine releaseLoans_fits _ _ _ ?_ | split | (simp (maxDischargeDepth := 20) [*]; done)
@[simp] theorem grantPages_keeps (n : Nat) (pages : Nat) (s : State) : (grantPages n pages s).pending = s.pending ∧ (grantPages n pages s).chip = s.chip := by
  unfold grantPages; simp
@[simp] theorem grantPages_fits (n : Nat) (pages : Nat) (s : State) (h : Fits s) : Fits (grantPages n pages s) := by
  unfold grantPages; simp [h]
@[simp] theorem requestPages_keeps (n : Nat) (lagMs : Nat) (s : State) : (requestPages n lagMs s).pending = s.pending ∧ (requestPages n lagMs s).chip = s.chip := by
  unfold requestPages; (repeat' split) <;> simp
@[simp] theorem requestPages_fits (n : Nat) (lagMs : Nat) (s : State) (h : Fits s) : Fits (requestPages n lagMs s) := by
  unfold requestPages; try dsimp only
  repeat' first | with_reducible assumption | intro _ | with_reducible refine forEach_fits _ _ _ ?_ ?_ | with_reducible refine foldl_fits _ _ _ ?_ ?_ | with_reducible refine grantPages_fits _ _ _ ?_ | with_reducible refine updProgram_fits _ _ _ ?_ | with_reducible refine evLink_fits _ _ _ _ _ _ _ ?_ | split | (simp (maxDischargeDepth := 20) [*]; done)
theorem execPageRequestGrant_keeps (s : State) {t : State} (e : execPageRequestGrant s = .next t) : t.pending = s.pending ∧ t.chip = s.chip := by
  unfold execPageRequestGrant at e; (repeat' split at e) <;> simp at e <;> subst e <;> simp
theorem execPageRequestGrant_fits (s : State) {t : State} (e : execPageRequestGrant s = .next t) (h : Fits s) : Fits t := by
  unfold execPageRequestGrant at e; (repeat' split at e) <;> simp at e <;> subst e <;> simp [h]

/-! ### Services -/

@[simp] theorem bodyServiceList_keeps (c : Call) (s : State) : (bodyServiceList c s).state.pending = s.pending ∧ (bodyServiceList c s).state.chip = s.chip := by
  unfold bodyServiceList; (repeat' split) <;> simp
@[simp] theorem bodyServiceList_fits (c : Call) (s : State) (h : Fits s) : Fits (bodyServiceList c s).state := by
  unfold bodyServiceList; (repeat' split) <;> simp [h]
theorem execServiceList_keeps (tag : Byte) (p : List Byte) (s : State) {t : State} (e : execServiceList tag p s = .next t) : t.pending = s.pending ∧ t.chip = s.chip := by
  unfold execServiceList at e; exact hostRow_keeps (fun _ _ => by simp [cmdServiceList]) e
theorem execServiceList_fits (tag : Byte) (p : List Byte) (s : State) {t : State} (e : execServiceList tag p s = .next t) (h : Fits s) : Fits t := by
  unfold execServiceList at e; exact hostRow_fits (fun _ _ hu => by simp [cmdServiceList, hu]) e h
@[simp] theorem bodyServiceInfo_keeps (c : Call) (s : State) : (bodyServiceInfo c s).state.pending = s.pending ∧ (bodyServiceInfo c s).state.chip = s.chip := by
  unfold bodyServiceInfo; (try dsimp only); (repeat' split) <;> simp_all
@[simp] theorem bodyServiceInfo_fits (c : Call) (s : State) (h : Fits s) : Fits (bodyServiceInfo c s).state := by
  unfold bodyServiceInfo; try dsimp only
  repeat' first | with_reducible assumption | intro _ | with_reducible refine forEach_fits _ _ _ ?_ ?_ | with_reducible refine foldl_fits _ _ _ ?_ ?_ | with_reducible refine fail_fits _ _ ?_ | with_reducible refine okay_fits _ _ ?_ | split | (simp (maxDischargeDepth := 20) [*]; done)
theorem execServiceInfo_keeps (tag : Byte) (p : List Byte) (s : State) {t : State} (e : execServiceInfo tag p s = .next t) : t.pending = s.pending ∧ t.chip = s.chip := by
  unfold execServiceInfo at e; exact hostRow_keeps (fun _ _ => by simp [cmdServiceInfo]) e
theorem execServiceInfo_fits (tag : Byte) (p : List Byte) (s : State) {t : State} (e : execServiceInfo tag p s = .next t) (h : Fits s) : Fits t := by
  unfold execServiceInfo at e; exact hostRow_fits (fun _ _ hu => by simp [cmdServiceInfo, hu]) e h
@[simp] theorem bodyAnnouncementPolicy_keeps (c : Call) (s : State) : (bodyAnnouncementPolicy c s).state.pending = s.pending ∧ (bodyAnnouncementPolicy c s).state.chip = s.chip := by
  unfold bodyAnnouncementPolicy; (repeat' split) <;> simp
@[simp] theorem bodyAnnouncementPolicy_fits (c : Call) (s : State) (h : Fits s) : Fits (bodyAnnouncementPolicy c s).state := by
  unfold bodyAnnouncementPolicy; try dsimp only
  repeat' first | with_reducible assumption | intro _ | with_reducible refine forEach_fits _ _ _ ?_ ?_ | with_reducible refine foldl_fits _ _ _ ?_ ?_ | with_reducible refine reselect_fits _ _ ?_ | with_reducible refine updProgram_fits _ _ _ ?_ | with_reducible refine okay_fits _ _ ?_ | split | (simp (maxDischargeDepth := 20) [*]; done)
theorem execAnnouncementPolicy_keeps (tag : Byte) (p : List Byte) (s : State) {t : State} (e : execAnnouncementPolicy tag p s = .next t) : t.pending = s.pending ∧ t.chip = s.chip := by
  unfold execAnnouncementPolicy at e; exact hostRow_keeps (fun _ _ => by simp [cmdAnnouncementPolicy]) e
theorem execAnnouncementPolicy_fits (tag : Byte) (p : List Byte) (s : State) {t : State} (e : execAnnouncementPolicy tag p s = .next t) (h : Fits s) : Fits t := by
  unfold execAnnouncementPolicy at e; exact hostRow_fits (fun _ _ hu => by simp [cmdAnnouncementPolicy, hu]) e h
@[simp] theorem bodyAlertPolicy_keeps (c : Call) (s : State) : (bodyAlertPolicy c s).state.pending = s.pending ∧ (bodyAlertPolicy c s).state.chip = s.chip := by
  unfold bodyAlertPolicy; (repeat' split) <;> simp
@[simp] theorem bodyAlertPolicy_fits (c : Call) (s : State) (h : Fits s) : Fits (bodyAlertPolicy c s).state := by
  unfold bodyAlertPolicy; try dsimp only
  repeat' first | with_reducible assumption | intro _ | with_reducible refine forEach_fits _ _ _ ?_ ?_ | with_reducible refine foldl_fits _ _ _ ?_ ?_ | with_reducible refine reselectAll_fits _ ?_ | with_reducible refine okay_fits _ _ ?_ | split | (simp (maxDischargeDepth := 20) [*]; done)
theorem execAlertPolicy_keeps (tag : Byte) (p : List Byte) (s : State) {t : State} (e : execAlertPolicy tag p s = .next t) : t.pending = s.pending ∧ t.chip = s.chip := by
  unfold execAlertPolicy at e; exact hostRow_keeps (fun _ _ => by simp [cmdAlertPolicy]) e
theorem execAlertPolicy_fits (tag : Byte) (p : List Byte) (s : State) {t : State} (e : execAlertPolicy tag p s = .next t) (h : Fits s) : Fits t := by
  unfold execAlertPolicy at e; exact hostRow_fits (fun _ _ hu => by simp [cmdAlertPolicy, hu]) e h

/-! ### Programs -/

@[simp] theorem bodyProgramStop_keeps (n : Nat) (s : State) : (bodyProgramStop n s).state.pending = s.pending ∧ (bodyProgramStop n s).state.chip = s.chip := by
  unfold bodyProgramStop; (repeat' split) <;> simp
@[simp] theorem bodyProgramStop_fits (n : Nat) (s : State) (h : Fits s) : Fits (bodyProgramStop n s).state := by
  unfold bodyProgramStop; (repeat' split) <;> simp [h]
@[simp] theorem startNamed_keeps (src : Source) (s : State) : (startNamed src s).1.pending = s.pending ∧ (startNamed src s).1.chip = s.chip := by
  unfold startNamed; (repeat' split) <;> simp
@[simp] theorem startNamed_fits (src : Source) (s : State) (h : Fits s) : Fits (startNamed src s).1 := by
  unfold startNamed; (repeat' split) <;> simp [h]
@[simp] theorem bodyProgramStart_keeps (n : Nat) (src : Source) (s : State) : (bodyProgramStart n src s).state.pending = s.pending ∧ (bodyProgramStart n src s).state.chip = s.chip := by
  unfold bodyProgramStart; (try dsimp only); (repeat' split) <;> simp_all
@[simp] theorem bodyProgramStart_fits (n : Nat) (src : Source) (s : State) (h : Fits s) : Fits (bodyProgramStart n src s).state := by
  unfold bodyProgramStart; try dsimp only
  repeat' first | with_reducible assumption | intro _ | with_reducible refine forEach_fits _ _ _ ?_ ?_ | with_reducible refine foldl_fits _ _ _ ?_ ?_ | with_reducible refine fail_fits _ _ ?_ | with_reducible refine startNamed_fits _ _ ?_ | with_reducible refine formGroup_fits _ _ _ ?_ | split | (simp (maxDischargeDepth := 20) [*]; done)
@[simp] theorem addHost_keeps (n : Nat) (slot : Nat) (src : Source) (s : State) : (addHost n slot src s).state.pending = s.pending ∧ (addHost n slot src s).state.chip = s.chip := by
  unfold addHost; simp
@[simp] theorem addHost_fits (n : Nat) (slot : Nat) (src : Source) (s : State) (h : Fits s) : Fits (addHost n slot src s).state := by
  unfold addHost; simp [h]
@[simp] theorem bodyProgramAdd_keeps (n : Nat) (src : Source) (s : State) : (bodyProgramAdd n src s).state.pending = s.pending ∧ (bodyProgramAdd n src s).state.chip = s.chip := by
  unfold bodyProgramAdd; (repeat' split) <;> simp
@[simp] theorem bodyProgramAdd_fits (n : Nat) (src : Source) (s : State) (h : Fits s) : Fits (bodyProgramAdd n src s).state := by
  unfold bodyProgramAdd; (repeat' split) <;> simp [h]
@[simp] theorem bodyProgramRemove_keeps (n : Nat) (src : Source) (s : State) : (bodyProgramRemove n src s).state.pending = s.pending ∧ (bodyProgramRemove n src s).state.chip = s.chip := by
  unfold bodyProgramRemove; (repeat' split) <;> simp
@[simp] theorem bodyProgramRemove_fits (n : Nat) (src : Source) (s : State) (h : Fits s) : Fits (bodyProgramRemove n src s).state := by
  unfold bodyProgramRemove; try dsimp only
  repeat' first | with_reducible assumption | intro _ | with_reducible refine forEach_fits _ _ _ ?_ ?_ | with_reducible refine foldl_fits _ _ _ ?_ ?_ | with_reducible refine fail_fits _ _ ?_ | with_reducible refine dropSource_fits _ _ _ ?_ | split | (simp (maxDischargeDepth := 20) [*]; done)
@[simp] theorem bodyProgramSet_keeps (c : Call) (s : State) : (bodyProgramSet c s).state.pending = s.pending ∧ (bodyProgramSet c s).state.chip = s.chip := by
  unfold bodyProgramSet; (repeat' split) <;> simp
@[simp] theorem bodyProgramSet_fits (c : Call) (s : State) (h : Fits s) : Fits (bodyProgramSet c s).state := by
  unfold bodyProgramSet; (repeat' split) <;> simp [h]
theorem execProgramStop_keeps (tag : Byte) (p : List Byte) (s : State) {t : State} (e : execProgramStop tag p s = .next t) : t.pending = s.pending ∧ t.chip = s.chip := by
  unfold execProgramStop at e; exact hostRow_keeps (fun _ _ => by simp [cmdProgramSet]) e
theorem execProgramStop_fits (tag : Byte) (p : List Byte) (s : State) {t : State} (e : execProgramStop tag p s = .next t) (h : Fits s) : Fits t := by
  unfold execProgramStop at e; exact hostRow_fits (fun _ _ hu => by simp [cmdProgramSet, hu]) e h
theorem execProgramStart_keeps (tag : Byte) (p : List Byte) (s : State) {t : State} (e : execProgramStart tag p s = .next t) : t.pending = s.pending ∧ t.chip = s.chip := by
  unfold execProgramStart at e; exact hostRow_keeps (fun _ _ => by simp [cmdProgramSet]) e
theorem execProgramStart_fits (tag : Byte) (p : List Byte) (s : State) {t : State} (e : execProgramStart tag p s = .next t) (h : Fits s) : Fits t := by
  unfold execProgramStart at e; exact hostRow_fits (fun _ _ hu => by simp [cmdProgramSet, hu]) e h
theorem execProgramAddMember_keeps (tag : Byte) (p : List Byte) (s : State) {t : State} (e : execProgramAddMember tag p s = .next t) : t.pending = s.pending ∧ t.chip = s.chip := by
  unfold execProgramAddMember at e; exact hostRow_keeps (fun _ _ => by simp [cmdProgramSet]) e
theorem execProgramAddMember_fits (tag : Byte) (p : List Byte) (s : State) {t : State} (e : execProgramAddMember tag p s = .next t) (h : Fits s) : Fits t := by
  unfold execProgramAddMember at e; exact hostRow_fits (fun _ _ hu => by simp [cmdProgramSet, hu]) e h
theorem execProgramRemoveMember_keeps (tag : Byte) (p : List Byte) (s : State) {t : State} (e : execProgramRemoveMember tag p s = .next t) : t.pending = s.pending ∧ t.chip = s.chip := by
  unfold execProgramRemoveMember at e; exact hostRow_keeps (fun _ _ => by simp [cmdProgramSet]) e
theorem execProgramRemoveMember_fits (tag : Byte) (p : List Byte) (s : State) {t : State} (e : execProgramRemoveMember tag p s = .next t) (h : Fits s) : Fits t := by
  unfold execProgramRemoveMember at e; exact hostRow_fits (fun _ _ hu => by simp [cmdProgramSet, hu]) e h
@[simp] theorem bodyProgramStatus_keeps (c : Call) (s : State) : (bodyProgramStatus c s).state.pending = s.pending ∧ (bodyProgramStatus c s).state.chip = s.chip := by
  unfold bodyProgramStatus; (repeat' split) <;> simp
@[simp] theorem bodyProgramStatus_fits (c : Call) (s : State) (h : Fits s) : Fits (bodyProgramStatus c s).state := by
  unfold bodyProgramStatus; (repeat' split) <;> simp [h]
theorem execProgramStatus_keeps (tag : Byte) (p : List Byte) (s : State) {t : State} (e : execProgramStatus tag p s = .next t) : t.pending = s.pending ∧ t.chip = s.chip := by
  unfold execProgramStatus at e; exact hostRow_keeps (fun _ _ => by simp [cmdProgramStatus]) e
theorem execProgramStatus_fits (tag : Byte) (p : List Byte) (s : State) {t : State} (e : execProgramStatus tag p s = .next t) (h : Fits s) : Fits t := by
  unfold execProgramStatus at e; exact hostRow_fits (fun _ _ hu => by simp [cmdProgramStatus, hu]) e h
@[simp] theorem bodyLinkPolicy_keeps (c : Call) (s : State) : (bodyLinkPolicy c s).state.pending = s.pending ∧ (bodyLinkPolicy c s).state.chip = s.chip := by
  unfold bodyLinkPolicy; (try dsimp only); (repeat' split) <;> simp_all
@[simp] theorem bodyLinkPolicy_fits (c : Call) (s : State) (h : Fits s) : Fits (bodyLinkPolicy c s).state := by
  unfold bodyLinkPolicy; try dsimp only
  repeat' first | with_reducible assumption | intro _ | with_reducible refine forEach_fits _ _ _ ?_ ?_ | with_reducible refine foldl_fits _ _ _ ?_ ?_ | with_reducible refine fail_fits _ _ ?_ | with_reducible refine updProgram_fits _ _ _ ?_ | with_reducible refine okay_fits _ _ ?_ | split | (simp (maxDischargeDepth := 20) [*]; done)
theorem execLinkPolicy_keeps (tag : Byte) (p : List Byte) (s : State) {t : State} (e : execLinkPolicy tag p s = .next t) : t.pending = s.pending ∧ t.chip = s.chip := by
  unfold execLinkPolicy at e; exact hostRow_keeps (fun _ _ => by simp [cmdLinkPolicy]) e
theorem execLinkPolicy_fits (tag : Byte) (p : List Byte) (s : State) {t : State} (e : execLinkPolicy tag p s = .next t) (h : Fits s) : Fits t := by
  unfold execLinkPolicy at e; exact hostRow_fits (fun _ _ hu => by simp [cmdLinkPolicy, hu]) e h
@[simp] theorem bodyDelayStoreConfig_keeps (c : Call) (s : State) : (bodyDelayStoreConfig c s).state.pending = s.pending ∧ (bodyDelayStoreConfig c s).state.chip = s.chip := by
  unfold bodyDelayStoreConfig; (try dsimp only); (repeat' split) <;> simp_all
@[simp] theorem bodyDelayStoreConfig_fits (c : Call) (s : State) (h : Fits s) : Fits (bodyDelayStoreConfig c s).state := by
  unfold bodyDelayStoreConfig; try dsimp only
  repeat' first | with_reducible assumption | intro _ | with_reducible refine forEach_fits _ _ _ ?_ ?_ | with_reducible refine foldl_fits _ _ _ ?_ ?_ | with_reducible refine fail_fits _ _ ?_ | with_reducible refine updProgram_fits _ _ _ ?_ | with_reducible refine okay_fits _ _ ?_ | split | (simp (maxDischargeDepth := 20) [*]; done)
theorem execDelayStoreConfig_keeps (tag : Byte) (p : List Byte) (s : State) {t : State} (e : execDelayStoreConfig tag p s = .next t) : t.pending = s.pending ∧ t.chip = s.chip := by
  unfold execDelayStoreConfig at e; exact hostRow_keeps (fun _ _ => by simp [cmdDelayStoreConfig]) e
theorem execDelayStoreConfig_fits (tag : Byte) (p : List Byte) (s : State) {t : State} (e : execDelayStoreConfig tag p s = .next t) (h : Fits s) : Fits t := by
  unfold execDelayStoreConfig at e; exact hostRow_fits (fun _ _ hu => by simp [cmdDelayStoreConfig, hu]) e h
@[simp] theorem bodyCurtain_keeps (c : Call) (s : State) : (bodyCurtain c s).state.pending = s.pending ∧ (bodyCurtain c s).state.chip = s.chip := by
  unfold bodyCurtain; (try dsimp only); (repeat' split) <;> simp_all
@[simp] theorem bodyCurtain_fits (c : Call) (s : State) (h : Fits s) : Fits (bodyCurtain c s).state := by
  unfold bodyCurtain; try dsimp only
  repeat' first | with_reducible assumption | intro _ | with_reducible refine forEach_fits _ _ _ ?_ ?_ | with_reducible refine foldl_fits _ _ _ ?_ ?_ | with_reducible refine fail_fits _ _ ?_ | with_reducible refine okay_fits _ _ ?_ | split | (simp (maxDischargeDepth := 20) [*]; done)
theorem execCurtainCloseAndHold_keeps (tag : Byte) (p : List Byte) (s : State) {t : State} (e : execCurtainCloseAndHold tag p s = .next t) : t.pending = s.pending ∧ t.chip = s.chip := by
  unfold execCurtainCloseAndHold at e; exact hostRow_keeps (fun _ _ => by simp [cmdCurtain]) e
theorem execCurtainCloseAndHold_fits (tag : Byte) (p : List Byte) (s : State) {t : State} (e : execCurtainCloseAndHold tag p s = .next t) (h : Fits s) : Fits t := by
  unfold execCurtainCloseAndHold at e; exact hostRow_fits (fun _ _ hu => by simp [cmdCurtain, hu]) e h
theorem execCurtainReleaseAndOpen_keeps (tag : Byte) (p : List Byte) (s : State) {t : State} (e : execCurtainReleaseAndOpen tag p s = .next t) : t.pending = s.pending ∧ t.chip = s.chip := by
  unfold execCurtainReleaseAndOpen at e; exact hostRow_keeps (fun _ _ => by simp [cmdCurtain]) e
theorem execCurtainReleaseAndOpen_fits (tag : Byte) (p : List Byte) (s : State) {t : State} (e : execCurtainReleaseAndOpen tag p s = .next t) (h : Fits s) : Fits t := by
  unfold execCurtainReleaseAndOpen at e; exact hostRow_fits (fun _ _ hu => by simp [cmdCurtain, hu]) e h
theorem execCurtainSetTimes_keeps (tag : Byte) (p : List Byte) (s : State) {t : State} (e : execCurtainSetTimes tag p s = .next t) : t.pending = s.pending ∧ t.chip = s.chip := by
  unfold execCurtainSetTimes at e; exact hostRow_keeps (fun _ _ => by simp [cmdCurtain]) e
theorem execCurtainSetTimes_fits (tag : Byte) (p : List Byte) (s : State) {t : State} (e : execCurtainSetTimes tag p s = .next t) (h : Fits s) : Fits t := by
  unfold execCurtainSetTimes at e; exact hostRow_fits (fun _ _ hu => by simp [cmdCurtain, hu]) e h

/-! ### Linking -/

@[simp] theorem leavePass_keeps (n : Nat) (s : State) : (leavePass n s).pending = s.pending ∧ (leavePass n s).chip = s.chip := by
  unfold leavePass; (try dsimp only); (repeat' split) <;> simp_all
@[simp] theorem leavePass_fits (n : Nat) (s : State) (h : Fits s) : Fits (leavePass n s) := by
  unfold leavePass; try dsimp only
  repeat' first | with_reducible assumption | intro _ | with_reducible refine forEach_fits _ _ _ ?_ ?_ | with_reducible refine foldl_fits _ _ _ ?_ ?_ | with_reducible refine updProgram_fits _ _ _ ?_ | with_reducible refine forEach_fits _ _ _ ?_ ?_ | with_reducible refine removeMember_fits _ _ _ ?_ | split | (simp (maxDischargeDepth := 20) [*]; done)
@[simp] theorem agePass_keeps (n : Nat) (s : State) : (agePass n s).pending = s.pending ∧ (agePass n s).chip = s.chip := by
  unfold agePass; simp
@[simp] theorem agePass_fits (n : Nat) (s : State) (h : Fits s) : Fits (agePass n s) := by
  unfold agePass; simp [h]
@[simp] theorem startFade_keeps (n : Nat) (output : Bool) (old : Nat) (new : Nat) (ms : Nat) (s : State) : (startFade n output old new ms s).pending = s.pending ∧ (startFade n output old new ms s).chip = s.chip := by
  unfold startFade; simp
@[simp] theorem startFade_fits (n : Nat) (output : Bool) (old : Nat) (new : Nat) (ms : Nat) (s : State) (h : Fits s) : Fits (startFade n output old new ms s) := by
  unfold startFade; simp [h]
@[simp] theorem switchWithin_keeps (n : Nat) (dab : Bool) (new : Nat) (s : State) : (switchWithin n dab new s).pending = s.pending ∧ (switchWithin n dab new s).chip = s.chip := by
  unfold switchWithin; (repeat' split) <;> simp
@[simp] theorem switchWithin_fits (n : Nat) (dab : Bool) (new : Nat) (s : State) (h : Fits s) : Fits (switchWithin n dab new s) := by
  unfold switchWithin; try dsimp only
  repeat' first | with_reducible assumption | intro _ | with_reducible refine forEach_fits _ _ _ ?_ ?_ | with_reducible refine foldl_fits _ _ _ ?_ ?_ | with_reducible refine startFade_fits _ _ _ _ _ _ ?_ | with_reducible refine closeThen_fits _ _ _ ?_ | with_reducible refine updProgram_fits _ _ _ ?_ | with_reducible refine evLink_fits _ _ _ _ _ _ _ ?_ | split | (simp (maxDischargeDepth := 20) [*]; done)
@[simp] theorem switchPaths_keeps (n : Nat) (dab : Bool) (s : State) : (switchPaths n dab s).pending = s.pending ∧ (switchPaths n dab s).chip = s.chip := by
  unfold switchPaths; (repeat' split) <;> simp
@[simp] theorem switchPaths_fits (n : Nat) (dab : Bool) (s : State) (h : Fits s) : Fits (switchPaths n dab s) := by
  unfold switchPaths; (repeat' split) <;> simp [h]
@[simp] theorem reversePass_keeps (n : Nat) (s : State) : (reversePass n s).pending = s.pending ∧ (reversePass n s).chip = s.chip := by
  unfold reversePass; simp
@[simp] theorem reversePass_fits (n : Nat) (s : State) (h : Fits s) : Fits (reversePass n s) := by
  unfold reversePass; simp [h]
@[simp] theorem switchPass_keeps (n : Nat) (s0 : State) : (switchPass n s0).pending = s0.pending ∧ (switchPass n s0).chip = s0.chip := by
  unfold switchPass; (try dsimp only); (repeat' split) <;> simp_all
@[simp] theorem switchPass_fits (n : Nat) (s0 : State) (h : Fits s0) : Fits (switchPass n s0) := by
  unfold switchPass; try dsimp only
  repeat' first | with_reducible assumption | intro _ | with_reducible refine forEach_fits _ _ _ ?_ ?_ | with_reducible refine foldl_fits _ _ _ ?_ ?_ | with_reducible refine reversePass_fits _ _ ?_ | with_reducible refine switchPaths_fits _ _ _ ?_ | with_reducible refine switchWithin_fits _ _ _ _ ?_ | split | (simp (maxDischargeDepth := 20) [*]; done)
@[simp] theorem modePass_keeps (n : Nat) (s : State) : (modePass n s).pending = s.pending ∧ (modePass n s).chip = s.chip := by
  unfold modePass; (repeat' split) <;> simp
@[simp] theorem modePass_fits (n : Nat) (s : State) (h : Fits s) : Fits (modePass n s) := by
  unfold modePass; try dsimp only
  repeat' first | with_reducible assumption | intro _ | with_reducible refine forEach_fits _ _ _ ?_ ?_ | with_reducible refine foldl_fits _ _ _ ?_ ?_ | with_reducible refine leaveAligned_fits _ _ ?_ | with_reducible refine closeThen_fits _ _ _ ?_ | with_reducible refine updProgram_fits _ _ _ ?_ | with_reducible refine alignIfReady_fits _ _ ?_ | split | (simp (maxDischargeDepth := 20) [*]; done)
@[simp] theorem loanPass_keeps (n : Nat) (s : State) : (loanPass n s).pending = s.pending ∧ (loanPass n s).chip = s.chip := by
  unfold loanPass; dsimp only
  (repeat' split) <;> try (simp; done)
  next m _ =>
    rcases e : lend n m.src s with _ | t
    · simp
    · simpa using lend_keeps e
@[simp] theorem loanPass_fits (n : Nat) (s : State) (h : Fits s) : Fits (loanPass n s) := by
  unfold loanPass; dsimp only
  (repeat' split) <;> try exact h
  next m _ =>
    rcases e : lend n m.src s with _ | t
    · simpa using h
    · simpa using lend_fits e h
@[simp] theorem sourcePass_keeps (n : Nat) (s : State) : (sourcePass n s).pending = s.pending ∧ (sourcePass n s).chip = s.chip := by
  unfold sourcePass; (repeat' split) <;> simp
@[simp] theorem sourcePass_fits (n : Nat) (s : State) (h : Fits s) : Fits (sourcePass n s) := by
  unfold sourcePass; (repeat' split) <;> simp [h]
@[simp] theorem searchPass_keeps (n : Nat) (s0 : State) : (searchPass n s0).pending = s0.pending ∧ (searchPass n s0).chip = s0.chip := by
  unfold searchPass; (try dsimp only); (repeat' split) <;> simp_all
@[simp] theorem searchPass_fits (n : Nat) (s0 : State) (h : Fits s0) : Fits (searchPass n s0) := by
  unfold searchPass; try dsimp only
  repeat' first | with_reducible assumption | intro _ | with_reducible refine forEach_fits _ _ _ ?_ ?_ | with_reducible refine foldl_fits _ _ _ ?_ ?_ | with_reducible refine requestPages_fits _ _ _ ?_ | with_reducible refine updProgram_fits _ _ _ ?_ | with_reducible refine updAlign_fits _ _ _ ?_ | split | (simp (maxDischargeDepth := 20) [*]; done)
@[simp] theorem trimGroup_keeps (n k : Nat) (s : State) : (trimGroup n k s).pending = s.pending ∧ (trimGroup n k s).chip = s.chip := by
  induction k generalizing s with
  | zero => exact ⟨rfl, rfl⟩
  | succ k ih => unfold trimGroup; (repeat' split) <;> simp [ih]
@[simp] theorem trimGroup_fits (n k : Nat) (s : State) (h : Fits s) : Fits (trimGroup n k s) := by
  induction k generalizing s with
  | zero => exact h
  | succ k ih => unfold trimGroup; (repeat' split) <;> simp [ih, h]
@[simp] theorem takeLinkPolicy_keeps (n : Nat) (s : State) : (takeLinkPolicy n s).pending = s.pending ∧ (takeLinkPolicy n s).chip = s.chip := by
  unfold takeLinkPolicy; (repeat' split) <;> simp
@[simp] theorem takeLinkPolicy_fits (n : Nat) (s : State) (h : Fits s) : Fits (takeLinkPolicy n s) := by
  unfold takeLinkPolicy; (repeat' split) <;> simp [h]
@[simp] theorem decide1_keeps (o : ProgObs) (s0 : State) : (decide1 o s0).pending = s0.pending ∧ (decide1 o s0).chip = s0.chip := by
  unfold decide1; (try dsimp only); (repeat' split) <;> simp_all
@[simp] theorem decide1_fits (o : ProgObs) (s0 : State) (h : Fits s0) : Fits (decide1 o s0) := by
  unfold decide1; try dsimp only
  repeat' first | with_reducible assumption | intro _ | with_reducible refine forEach_fits _ _ _ ?_ ?_ | with_reducible refine foldl_fits _ _ _ ?_ ?_ | with_reducible refine leavePass_fits _ _ ?_ | with_reducible refine searchPass_fits _ _ ?_ | with_reducible refine agePass_fits _ _ ?_ | with_reducible refine loanPass_fits _ _ ?_ | with_reducible refine modePass_fits _ _ ?_ | with_reducible refine updProgram_fits _ _ _ ?_ | with_reducible refine sourcePass_fits _ _ ?_ | with_reducible refine takeLinkPolicy_fits _ _ ?_ | with_reducible refine switchPass_fits _ _ ?_ | split | (simp (maxDischargeDepth := 20) [*]; done)
theorem execDecisionPoint_keeps (obs : List ProgObs) (s : State) {t : State} (e : execDecisionPoint obs s = .next t) : t.pending = s.pending ∧ t.chip = s.chip := by
  unfold execDecisionPoint at e; (repeat' split at e) <;> simp at e <;> subst e <;> simp
theorem execDecisionPoint_fits (obs : List ProgObs) (s : State) {t : State} (e : execDecisionPoint obs s = .next t) (h : Fits s) : Fits t := by
  unfold execDecisionPoint at e; (try dsimp only at e)
  (repeat' split at e) <;> cases e
  all_goals repeat' first | with_reducible assumption | intro _ | with_reducible refine forEach_fits _ _ _ ?_ ?_ | with_reducible refine foldl_fits _ _ _ ?_ ?_ | with_reducible refine reselectAll_fits _ ?_ | with_reducible refine decide1_fits _ _ ?_ | with_reducible refine forEach_fits _ _ _ ?_ ?_ | split | (simp (maxDischargeDepth := 20) [*]; done)
@[simp] theorem aligned_keeps (n : Nat) (windowMs : Nat) (o : TauObs) (s : State) : (aligned n windowMs o s).pending = s.pending ∧ (aligned n windowMs o s).chip = s.chip := by
  unfold aligned; (try dsimp only); (repeat' split) <;> simp_all
@[simp] theorem aligned_fits (n : Nat) (windowMs : Nat) (o : TauObs) (s : State) (h : Fits s) : Fits (aligned n windowMs o s) := by
  unfold aligned; try dsimp only
  repeat' first | with_reducible assumption | intro _ | with_reducible refine forEach_fits _ _ _ ?_ ?_ | with_reducible refine foldl_fits _ _ _ ?_ ?_ | with_reducible refine updProgram_fits _ _ _ ?_ | with_reducible refine evLink_fits _ _ _ _ _ _ _ ?_ | with_reducible refine loseAlignment_fits _ _ ?_ | with_reducible refine alignIfReady_fits _ _ ?_ | split | (simp (maxDischargeDepth := 20) [*]; done)
theorem execRefinement_keeps (n : Nat) (frac : Int) (s : State) {t : State} (e : execRefinement n frac s = .next t) : t.pending = s.pending ∧ t.chip = s.chip := by
  unfold execRefinement at e; (try dsimp only at e)
  (repeat' split at e) <;> cases e
  all_goals repeat' first | with_reducible assumption | intro _ | split | (simp (maxDischargeDepth := 20) [*]; done)
theorem execRefinement_fits (n : Nat) (frac : Int) (s : State) {t : State} (e : execRefinement n frac s = .next t) (h : Fits s) : Fits t := by
  unfold execRefinement at e; (try dsimp only at e)
  (repeat' split at e) <;> cases e
  all_goals repeat' first | with_reducible assumption | intro _ | with_reducible refine forEach_fits _ _ _ ?_ ?_ | with_reducible refine foldl_fits _ _ _ ?_ ?_ | with_reducible refine aligned_fits _ _ _ _ ?_ | with_reducible refine updAlign_fits _ _ _ ?_ | split | (simp (maxDischargeDepth := 20) [*]; done)
theorem execAlignmentFailed_keeps (n : Nat) (s : State) {t : State} (e : execAlignmentFailed n s = .next t) : t.pending = s.pending ∧ t.chip = s.chip := by
  unfold execAlignmentFailed at e; (repeat' split at e) <;> simp at e <;> subst e <;> simp
theorem execAlignmentFailed_fits (n : Nat) (s : State) {t : State} (e : execAlignmentFailed n s = .next t) (h : Fits s) : Fits t := by
  unfold execAlignmentFailed at e; (try dsimp only at e)
  (repeat' split at e) <;> cases e
  all_goals repeat' first | with_reducible assumption | intro _ | with_reducible refine forEach_fits _ _ _ ?_ ?_ | with_reducible refine foldl_fits _ _ _ ?_ ?_ | with_reducible refine dropPages_fits _ _ ?_ | with_reducible refine evLink_fits _ _ _ _ _ _ _ ?_ | with_reducible refine loseAlignment_fits _ _ ?_ | with_reducible refine updAlign_fits _ _ _ ?_ | split | (simp (maxDischargeDepth := 20) [*]; done)
theorem execSearchRestart_keeps (n : Nat) (s : State) {t : State} (e : execSearchRestart n s = .next t) : t.pending = s.pending ∧ t.chip = s.chip := by
  unfold execSearchRestart at e; (repeat' split at e) <;> simp at e <;> subst e <;> simp
theorem execSearchRestart_fits (n : Nat) (s : State) {t : State} (e : execSearchRestart n s = .next t) (h : Fits s) : Fits t := by
  unfold execSearchRestart at e; (repeat' split at e) <;> simp at e <;> subst e <;> simp [h]
@[simp] theorem trackTo_keeps (n : Nat) (o : TauObs) (s : State) : (trackTo n o s).pending = s.pending ∧ (trackTo n o s).chip = s.chip := by
  unfold trackTo; (try dsimp only); (repeat' split) <;> simp_all
@[simp] theorem trackTo_fits (n : Nat) (o : TauObs) (s : State) (h : Fits s) : Fits (trackTo n o s) := by
  unfold trackTo; try dsimp only
  repeat' first | with_reducible assumption | intro _ | with_reducible refine forEach_fits _ _ _ ?_ ?_ | with_reducible refine foldl_fits _ _ _ ?_ ?_ | with_reducible refine updProgram_fits _ _ _ ?_ | with_reducible refine loseAlignment_fits _ _ ?_ | split | (simp (maxDischargeDepth := 20) [*]; done)
@[simp] theorem trackOnce_keeps (n : Nat) (o : TauObs) (p : Program) (s : State) : (trackOnce n o p s).pending = s.pending ∧ (trackOnce n o p s).chip = s.chip := by
  unfold trackOnce; simp
@[simp] theorem trackOnce_fits (n : Nat) (o : TauObs) (p : Program) (s : State) (h : Fits s) : Fits (trackOnce n o p s) := by
  unfold trackOnce; (repeat' split) <;> simp [h]
theorem execTracking_keeps (n : Nat) (frac : Int) (s : State) {t : State} (e : execTracking n frac s = .next t) : t.pending = s.pending ∧ t.chip = s.chip := by
  unfold execTracking at e; dsimp only at e; (repeat' split at e) <;> simp at e <;> subst e <;> (repeat' split) <;> simp_all
theorem execTracking_fits (n : Nat) (frac : Int) (s : State) {t : State} (e : execTracking n frac s = .next t) (h : Fits s) : Fits t := by
  unfold execTracking at e; dsimp only at e; (repeat' split at e) <;> simp at e <;> subst e <;> (repeat' split) <;> simp_all
theorem execMemberDelayMeasure_keeps (n : Nat) (slot : Nat) (frac : Int) (s : State) {t : State} (e : execMemberDelayMeasure n slot frac s = .next t) : t.pending = s.pending ∧ t.chip = s.chip := by
  unfold execMemberDelayMeasure at e; dsimp only at e; (repeat' split at e) <;> simp at e <;> subst e <;> (repeat' split) <;> simp_all
theorem execMemberDelayMeasure_fits (n : Nat) (slot : Nat) (frac : Int) (s : State) {t : State} (e : execMemberDelayMeasure n slot frac s = .next t) (h : Fits s) : Fits t := by
  unfold execMemberDelayMeasure at e; dsimp only at e; (repeat' split at e) <;> simp at e <;> subst e <;> (repeat' split) <;> simp_all
theorem execNoDabMemberTimeout_keeps (n : Nat) (s : State) {t : State} (e : execNoDabMemberTimeout n s = .next t) : t.pending = s.pending ∧ t.chip = s.chip := by
  unfold execNoDabMemberTimeout at e; (repeat' split at e) <;> simp at e <;> subst e <;> simp
theorem execNoDabMemberTimeout_fits (n : Nat) (s : State) {t : State} (e : execNoDabMemberTimeout n s = .next t) (h : Fits s) : Fits t := by
  unfold execNoDabMemberTimeout at e; (try dsimp only at e)
  (repeat' split at e) <;> cases e
  all_goals repeat' first | with_reducible assumption | intro _ | with_reducible refine forEach_fits _ _ _ ?_ ?_ | with_reducible refine foldl_fits _ _ _ ?_ ?_ | with_reducible refine leaveAligned_fits _ _ ?_ | with_reducible refine updProgram_fits _ _ _ ?_ | split | (simp (maxDischargeDepth := 20) [*]; done)
theorem execCrossfadeEnd_keeps (n : Nat) (s : State) {t : State} (e : execCrossfadeEnd n s = .next t) : t.pending = s.pending ∧ t.chip = s.chip := by
  unfold execCrossfadeEnd at e; (repeat' split at e) <;> simp at e <;> subst e <;> simp
theorem execCrossfadeEnd_fits (n : Nat) (s : State) {t : State} (e : execCrossfadeEnd n s = .next t) (h : Fits s) : Fits t := by
  unfold execCrossfadeEnd at e; (try dsimp only at e)
  (repeat' split at e) <;> cases e
  all_goals repeat' first | with_reducible assumption | intro _ | with_reducible refine forEach_fits _ _ _ ?_ ?_ | with_reducible refine foldl_fits _ _ _ ?_ ?_ | with_reducible refine ownMember_fits _ _ _ ?_ | with_reducible refine updProgram_fits _ _ _ ?_ | with_reducible refine selectMember_fits _ _ _ _ ?_ | split | (simp (maxDischargeDepth := 20) [*]; done)
@[simp] theorem countLate_keeps (n : Nat) (late : Nat) (bad : Nat) (s : State) : (countLate n late bad s).pending = s.pending ∧ (countLate n late bad s).chip = s.chip := by
  unfold countLate; simp
@[simp] theorem countLate_fits (n : Nat) (late : Nat) (bad : Nat) (s : State) (h : Fits s) : Fits (countLate n late bad s) := by
  unfold countLate; simp [h]
theorem execUnderrun_keeps (n : Nat) (o : UnderrunObs) (s : State) {t : State} (e : execUnderrun n o s = .next t) : t.pending = s.pending ∧ t.chip = s.chip := by
  unfold execUnderrun at e; (repeat' split at e) <;> simp at e <;> subst e <;> simp
theorem execUnderrun_fits (n : Nat) (o : UnderrunObs) (s : State) {t : State} (e : execUnderrun n o s = .next t) (h : Fits s) : Fits t := by
  unfold execUnderrun at e; (try dsimp only at e)
  (repeat' split at e) <;> cases e
  all_goals repeat' first | with_reducible assumption | intro _ | with_reducible refine forEach_fits _ _ _ ?_ ?_ | with_reducible refine foldl_fits _ _ _ ?_ ?_ | with_reducible refine countLate_fits _ _ _ _ ?_ | with_reducible refine updProgram_fits _ _ _ ?_ | with_reducible refine evLink_fits _ _ _ _ _ _ _ ?_ | split | (simp (maxDischargeDepth := 20) [*]; done)
theorem execMemberReturn_keeps (n : Nat) (slot : Nat) (s : State) {t : State} (e : execMemberReturn n slot s = .next t) : t.pending = s.pending ∧ t.chip = s.chip := by
  unfold execMemberReturn at e; (repeat' split at e) <;> simp at e <;> subst e <;> simp
theorem execMemberReturn_fits (n : Nat) (slot : Nat) (s : State) {t : State} (e : execMemberReturn n slot s = .next t) (h : Fits s) : Fits t := by
  unfold execMemberReturn at e; dsimp only at e; (repeat' split at e) <;> simp at e <;> subst e <;> (repeat' split) <;> simp_all
theorem execCurtainClosed_keeps (n : Nat) (s : State) {t : State} (e : execCurtainClosed n s = .next t) : t.pending = s.pending ∧ t.chip = s.chip := by
  unfold execCurtainClosed at e; (repeat' split at e) <;> simp at e <;> subst e <;> simp
theorem execCurtainClosed_fits (n : Nat) (s : State) {t : State} (e : execCurtainClosed n s = .next t) (h : Fits s) : Fits t := by
  unfold execCurtainClosed at e; (repeat' split at e) <;> simp at e <;> subst e <;> simp [h]
theorem execCurtainOpened_keeps (n : Nat) (s : State) {t : State} (e : execCurtainOpened n s = .next t) : t.pending = s.pending ∧ t.chip = s.chip := by
  unfold execCurtainOpened at e; (repeat' split at e) <;> simp at e <;> subst e <;> simp
theorem execCurtainOpened_fits (n : Nat) (s : State) {t : State} (e : execCurtainOpened n s = .next t) (h : Fits s) : Fits t := by
  unfold execCurtainOpened at e; (repeat' split at e) <;> simp at e <;> subst e <;> simp [h]
theorem execAnnouncementSourceReady_keeps (n : Nat) (s : State) {t : State} (e : execAnnouncementSourceReady n s = .next t) : t.pending = s.pending ∧ t.chip = s.chip := by
  unfold execAnnouncementSourceReady at e; (repeat' split at e) <;> simp at e <;> subst e <;> simp
theorem execAnnouncementSourceReady_fits (n : Nat) (s : State) {t : State} (e : execAnnouncementSourceReady n s = .next t) (h : Fits s) : Fits t := by
  unfold execAnnouncementSourceReady at e; (repeat' split at e) <;> simp at e <;> subst e <;> simp [h]
theorem execEndDelayExpiry_keeps (n : Nat) (s : State) {t : State} (e : execEndDelayExpiry n s = .next t) : t.pending = s.pending ∧ t.chip = s.chip := by
  unfold execEndDelayExpiry at e; dsimp only at e; (repeat' split at e) <;> simp at e <;> subst e <;> (repeat' split) <;> simp_all
theorem execEndDelayExpiry_fits (n : Nat) (s : State) {t : State} (e : execEndDelayExpiry n s = .next t) (h : Fits s) : Fits t := by
  unfold execEndDelayExpiry at e; (try dsimp only at e)
  (repeat' split at e) <;> cases e
  all_goals repeat' first | with_reducible assumption | intro _ | with_reducible refine forEach_fits _ _ _ ?_ ?_ | with_reducible refine foldl_fits _ _ _ ?_ ?_ | with_reducible refine reselectAll_fits _ ?_ | with_reducible refine selectAnn_fits _ _ _ _ ?_ | with_reducible refine returnNormal_fits _ _ _ ?_ | with_reducible refine closeThen_fits _ _ _ ?_ | split | (simp (maxDischargeDepth := 20) [*]; done)

/-! ### FrontEnd -/

@[simp] theorem setBandPlan_keeps (i : Nat) (b : BandPlan) (s : State) : (setBandPlan i b s).pending = s.pending ∧ (setBandPlan i b s).chip = s.chip := by
  unfold setBandPlan; simp
@[simp] theorem setBandPlan_fits (i : Nat) (b : BandPlan) (s : State) (h : Fits s) : Fits (setBandPlan i b s) := by
  unfold setBandPlan; try dsimp only
  repeat' first | with_reducible assumption | intro _ | with_reducible refine forEach_fits _ _ _ ?_ ?_ | with_reducible refine foldl_fits _ _ _ ?_ ?_ | with_reducible refine updInput_fits _ _ _ ?_ | with_reducible refine refreshFeeds_fits _ ?_ | with_reducible refine matchInputs_fits _ ?_ | split | (simp (maxDischargeDepth := 20) [*]; done)
@[simp] theorem liveBandPlan_keeps (i : Nat) (b : BandPlan) (s : State) : (liveBandPlan i b s).state.pending = s.pending ∧ (liveBandPlan i b s).state.chip = s.chip := by
  unfold liveBandPlan; (try dsimp only); (repeat' split) <;> simp_all
@[simp] theorem liveBandPlan_fits (i : Nat) (b : BandPlan) (s : State) (h : Fits s) : Fits (liveBandPlan i b s).state := by
  unfold liveBandPlan; try dsimp only
  repeat' first | with_reducible assumption | intro _ | with_reducible refine forEach_fits _ _ _ ?_ ?_ | with_reducible refine foldl_fits _ _ _ ?_ ?_ | with_reducible refine setBandPlan_fits _ _ _ ?_ | with_reducible refine reselectAll_fits _ ?_ | with_reducible refine fail_fits _ _ ?_ | with_reducible refine bandPlanEngine_fits _ _ ?_ | with_reducible refine bandPlanLane_fits _ _ ?_ | with_reducible refine forEach_fits _ _ _ ?_ ?_ | split | (simp (maxDischargeDepth := 20) [*]; done)
@[simp] theorem bodyBandPlan_keeps (c : Call) (s : State) : (bodyBandPlan c s).state.pending = s.pending ∧ (bodyBandPlan c s).state.chip = s.chip := by
  unfold bodyBandPlan; (repeat' split) <;> simp
@[simp] theorem bodyBandPlan_fits (c : Call) (s : State) (h : Fits s) : Fits (bodyBandPlan c s).state := by
  unfold bodyBandPlan; (repeat' split) <;> simp [h]
theorem execBandPlan_keeps (tag : Byte) (p : List Byte) (s : State) {t : State} (e : execBandPlan tag p s = .next t) : t.pending = s.pending ∧ t.chip = s.chip := by
  unfold execBandPlan at e; exact hostRow_keeps (fun _ _ => by simp [cmdBandPlan]) e
theorem execBandPlan_fits (tag : Byte) (p : List Byte) (s : State) {t : State} (e : execBandPlan tag p s = .next t) (h : Fits s) : Fits t := by
  unfold execBandPlan at e; exact hostRow_fits (fun _ _ hu => by simp [cmdBandPlan, hu]) e h
@[simp] theorem takePlan_keeps (s : State) : (takePlan s).pending = s.pending ∧ (takePlan s).chip = s.chip := by
  unfold takePlan; simp
@[simp] theorem takePlan_fits (s : State) (h : Fits s) : Fits (takePlan s) := by
  unfold takePlan; try dsimp only
  repeat' first | with_reducible assumption | intro _ | with_reducible refine forEach_fits _ _ _ ?_ ?_ | with_reducible refine foldl_fits _ _ _ ?_ ?_ | with_reducible refine retune_fits _ ?_ | with_reducible refine planSets_fits _ _ _ ?_ | with_reducible refine setClocks_fits _ _ ?_ ?_ | with_reducible refine rememberBand_fits _ ?_ | split | (simp (maxDischargeDepth := 20) [*]; done)
@[simp] theorem startReception_keeps (s : State) : (startReception s).pending = s.pending ∧ (startReception s).chip = s.chip := by
  unfold startReception; simp
@[simp] theorem startReception_fits (s : State) (h : Fits s) : Fits (startReception s) := by
  unfold startReception; try dsimp only
  repeat' first | with_reducible assumption | intro _ | with_reducible refine forEach_fits _ _ _ ?_ ?_ | with_reducible refine foldl_fits _ _ _ ?_ ?_ | with_reducible refine takePlan_fits _ ?_ | with_reducible refine refreshFeeds_fits _ ?_ | with_reducible refine matchInputs_fits _ ?_ | split | (simp (maxDischargeDepth := 20) [*]; done)
@[simp] theorem bodyRxStart_keeps (x : Call) (s : State) : (bodyRxStart x s).state.pending = s.pending ∧ (bodyRxStart x s).state.chip = s.chip := by
  unfold bodyRxStart; (try dsimp only); (repeat' split) <;> simp_all
@[simp] theorem bodyRxStart_fits (x : Call) (s : State) (h : Fits s) : Fits (bodyRxStart x s).state := by
  unfold bodyRxStart; try dsimp only
  repeat' first | with_reducible assumption | intro _ | with_reducible refine forEach_fits _ _ _ ?_ ?_ | with_reducible refine foldl_fits _ _ _ ?_ ?_ | with_reducible refine fail_fits _ _ ?_ | with_reducible refine startReception_fits _ ?_ | with_reducible refine okay_fits _ _ ?_ | split | (simp (maxDischargeDepth := 20) [*]; done)
theorem execRxStart_keeps (tag : Byte) (p : List Byte) (s : State) {t : State} (e : execRxStart tag p s = .next t) : t.pending = s.pending ∧ t.chip = s.chip := by
  unfold execRxStart at e; exact hostRow_keeps (fun _ _ => by simp [cmdRxStart]) e
theorem execRxStart_fits (tag : Byte) (p : List Byte) (s : State) {t : State} (e : execRxStart tag p s = .next t) (h : Fits s) : Fits t := by
  unfold execRxStart at e; exact hostRow_fits (fun _ _ hu => by simp [cmdRxStart, hu]) e h
@[simp] theorem stopReception_keeps (s : State) : (stopReception s).pending = s.pending ∧ (stopReception s).chip = s.chip := by
  unfold stopReception; simp
@[simp] theorem stopReception_fits (s : State) (h : Fits s) : Fits (stopReception s) := by
  have h1 : Fits (forEach (laneIds s) releaseLane s) := forEach_fits _ _ _ h fun _ _ hu => by simp [hu]
  have h2 : Fits (forEach (List.range (forEach (laneIds s) releaseLane s).dab.engines.length) releaseEngine
      (forEach (laneIds s) releaseLane s)) := forEach_fits _ _ _ h1 fun _ _ hu => by simp [hu]
  unfold stopReception; dsimp only
  generalize forEach (List.range (forEach (laneIds s) releaseLane s).dab.engines.length) releaseEngine
      (forEach (laneIds s) releaseLane s) = u at h2 ⊢
  exact refreshFeeds_fits _ (matchInputs_fits _ (by simp [h2]))
@[simp] theorem bodyRxStop_keeps (x : Call) (s : State) : (bodyRxStop x s).state.pending = s.pending ∧ (bodyRxStop x s).state.chip = s.chip := by
  unfold bodyRxStop; (repeat' split) <;> simp
@[simp] theorem bodyRxStop_fits (x : Call) (s : State) (h : Fits s) : Fits (bodyRxStop x s).state := by
  unfold bodyRxStop; try dsimp only
  repeat' first | with_reducible assumption | intro _ | with_reducible refine forEach_fits _ _ _ ?_ ?_ | with_reducible refine foldl_fits _ _ _ ?_ ?_ | with_reducible refine fail_fits _ _ ?_ | with_reducible refine finishWait_fits _ _ ?_ | with_reducible refine okay_fits _ _ ?_ | with_reducible refine stopReception_fits _ ?_ | split | (simp (maxDischargeDepth := 20) [*]; done)
theorem execRxStop_keeps (tag : Byte) (p : List Byte) (s : State) {t : State} (e : execRxStop tag p s = .next t) : t.pending = s.pending ∧ t.chip = s.chip := by
  unfold execRxStop at e; exact hostRow_keeps (fun _ _ => by simp [cmdRxStop]) e
theorem execRxStop_fits (tag : Byte) (p : List Byte) (s : State) {t : State} (e : execRxStop tag p s = .next t) (h : Fits s) : Fits t := by
  unfold execRxStop at e; exact hostRow_fits (fun _ _ hu => by simp [cmdRxStop, hu]) e h
@[simp] theorem applyGainCfg_keeps (i : Nat) (s : State) : (applyGainCfg i s).pending = s.pending ∧ (applyGainCfg i s).chip = s.chip := by
  unfold applyGainCfg; simp
@[simp] theorem applyGainCfg_fits (i : Nat) (s : State) (h : Fits s) : Fits (applyGainCfg i s) := by
  unfold applyGainCfg; try dsimp only
  repeat' first | with_reducible assumption | intro _ | with_reducible refine forEach_fits _ _ _ ?_ ?_ | with_reducible refine foldl_fits _ _ _ ?_ ?_ | with_reducible refine updInput_fits _ _ _ ?_ | with_reducible refine judgeOverload_fits _ _ ?_ | with_reducible refine setGain_fits _ _ _ ?_ | split | (simp (maxDischargeDepth := 20) [*]; done)
@[simp] theorem setGainCfg_keeps (i : Nat) (g : GainCfg) (s : State) : (setGainCfg i g s).pending = s.pending ∧ (setGainCfg i g s).chip = s.chip := by
  unfold setGainCfg; simp
@[simp] theorem setGainCfg_fits (i : Nat) (g : GainCfg) (s : State) (h : Fits s) : Fits (setGainCfg i g s) := by
  unfold setGainCfg; try dsimp only
  repeat' first | with_reducible assumption | intro _ | with_reducible refine forEach_fits _ _ _ ?_ ?_ | with_reducible refine foldl_fits _ _ _ ?_ ?_ | with_reducible refine updInput_fits _ _ _ ?_ | with_reducible refine applyGainCfg_fits _ _ ?_ | split | (simp (maxDischargeDepth := 20) [*]; done)
@[simp] theorem firstStep_keeps (i : Nat) (s : State) : (firstStep i s).pending = s.pending ∧ (firstStep i s).chip = s.chip := by
  unfold firstStep; simp
@[simp] theorem firstStep_fits (i : Nat) (s : State) (h : Fits s) : Fits (firstStep i s) := by
  unfold firstStep; simp [h]
@[simp] theorem bodyFrontendGain_keeps (c : Call) (s : State) : (bodyFrontendGain c s).state.pending = s.pending ∧ (bodyFrontendGain c s).state.chip = s.chip := by
  unfold bodyFrontendGain; (repeat' split) <;> simp
@[simp] theorem bodyFrontendGain_fits (c : Call) (s : State) (h : Fits s) : Fits (bodyFrontendGain c s).state := by
  unfold bodyFrontendGain; (repeat' split) <;> simp [h]
theorem execFrontendGain_keeps (tag : Byte) (p : List Byte) (s : State) {t : State} (e : execFrontendGain tag p s = .next t) : t.pending = s.pending ∧ t.chip = s.chip := by
  unfold execFrontendGain at e; exact hostRow_keeps (fun _ _ => by simp [cmdFrontendGain]) e
theorem execFrontendGain_fits (tag : Byte) (p : List Byte) (s : State) {t : State} (e : execFrontendGain tag p s = .next t) (h : Fits s) : Fits t := by
  unfold execFrontendGain at e; exact hostRow_fits (fun _ _ hu => by simp [cmdFrontendGain, hu]) e h
@[simp] theorem setFeed_keeps (n : Nat) (f : FeedFields) (s : State) : (setFeed n f s).pending = s.pending ∧ (setFeed n f s).chip = s.chip := by
  unfold setFeed; simp
@[simp] theorem setFeed_fits (n : Nat) (f : FeedFields) (s : State) (h : Fits s) : Fits (setFeed n f s) := by
  unfold setFeed; try dsimp only
  repeat' first | with_reducible assumption | intro _ | with_reducible refine forEach_fits _ _ _ ?_ ?_ | with_reducible refine foldl_fits _ _ _ ?_ ?_ | with_reducible refine refreshFeeds_fits _ ?_ | with_reducible refine updFeed_fits _ _ _ ?_ | with_reducible refine faultEnds_fits _ _ _ _ ?_ | split | (simp (maxDischargeDepth := 20) [*]; done)
@[simp] theorem bodyAntennaFeed_keeps (c : Call) (s : State) : (bodyAntennaFeed c s).state.pending = s.pending ∧ (bodyAntennaFeed c s).state.chip = s.chip := by
  unfold bodyAntennaFeed; (repeat' split) <;> simp
@[simp] theorem bodyAntennaFeed_fits (c : Call) (s : State) (h : Fits s) : Fits (bodyAntennaFeed c s).state := by
  unfold bodyAntennaFeed; (repeat' split) <;> simp [h]
theorem execAntennaFeed_keeps (tag : Byte) (p : List Byte) (s : State) {t : State} (e : execAntennaFeed tag p s = .next t) : t.pending = s.pending ∧ t.chip = s.chip := by
  unfold execAntennaFeed at e; exact hostRow_keeps (fun _ _ => by simp [cmdAntennaFeed]) e
theorem execAntennaFeed_fits (tag : Byte) (p : List Byte) (s : State) {t : State} (e : execAntennaFeed tag p s = .next t) (h : Fits s) : Fits t := by
  unfold execAntennaFeed at e; exact hostRow_fits (fun _ _ hu => by simp [cmdAntennaFeed, hu]) e h
@[simp] theorem feedFault_keeps (n : Nat) (s : State) : (feedFault n s).pending = s.pending ∧ (feedFault n s).chip = s.chip := by
  unfold feedFault; simp
@[simp] theorem feedFault_fits (n : Nat) (s : State) (h : Fits s) : Fits (feedFault n s) := by
  unfold feedFault; try dsimp only
  repeat' first | with_reducible assumption | intro _ | with_reducible refine forEach_fits _ _ _ ?_ ?_ | with_reducible refine foldl_fits _ _ _ ?_ ?_ | with_reducible refine evAntFault_fits _ _ _ _ ?_ | with_reducible refine faultBegins_fits _ _ _ _ _ _ ?_ | with_reducible refine updFeed_fits _ _ _ ?_ | split | (simp (maxDischargeDepth := 20) [*]; done)
@[simp] theorem idleFeedFault_keeps (n : Nat) (s : State) : (idleFeedFault n s).pending = s.pending ∧ (idleFeedFault n s).chip = s.chip := by
  unfold idleFeedFault; simp
@[simp] theorem idleFeedFault_fits (n : Nat) (s : State) (h : Fits s) : Fits (idleFeedFault n s) := by
  unfold idleFeedFault; try dsimp only
  repeat' first | with_reducible assumption | intro _ | with_reducible refine forEach_fits _ _ _ ?_ ?_ | with_reducible refine foldl_fits _ _ _ ?_ ?_ | with_reducible refine evAntFault_fits _ _ _ _ ?_ | with_reducible refine updFeed_fits _ _ _ ?_ | split | (simp (maxDischargeDepth := 20) [*]; done)
theorem execFeedFault_keeps (line : Nat) (s : State) {t : State} (e : execFeedFault line s = .next t) : t.pending = s.pending ∧ t.chip = s.chip := by
  unfold execFeedFault at e; (repeat' split at e) <;> simp at e <;> subst e <;> simp
theorem execFeedFault_fits (line : Nat) (s : State) {t : State} (e : execFeedFault line s = .next t) (h : Fits s) : Fits t := by
  unfold execFeedFault at e; (repeat' split at e) <;> simp at e <;> subst e <;> simp [h]
@[simp] theorem feedRetry_keeps (n : Nat) (s : State) : (feedRetry n s).pending = s.pending ∧ (feedRetry n s).chip = s.chip := by
  unfold feedRetry; simp
@[simp] theorem feedRetry_fits (n : Nat) (s : State) (h : Fits s) : Fits (feedRetry n s) := by
  unfold feedRetry; try dsimp only
  repeat' first | with_reducible assumption | intro _ | with_reducible refine forEach_fits _ _ _ ?_ ?_ | with_reducible refine foldl_fits _ _ _ ?_ ?_ | with_reducible refine evAntFault_fits _ _ _ _ ?_ | with_reducible refine faultBegins_fits _ _ _ _ _ _ ?_ | with_reducible refine updFeed_fits _ _ _ ?_ | with_reducible refine faultEnds_fits _ _ _ _ ?_ | split | (simp (maxDischargeDepth := 20) [*]; done)
theorem execFeedRetry_keeps (line : Nat) (s : State) {t : State} (e : execFeedRetry line s = .next t) : t.pending = s.pending ∧ t.chip = s.chip := by
  unfold execFeedRetry at e; dsimp only at e; (repeat' split at e) <;> simp at e <;> subst e <;> (repeat' split) <;> simp_all
theorem execFeedRetry_fits (line : Nat) (s : State) {t : State} (e : execFeedRetry line s = .next t) (h : Fits s) : Fits t := by
  unfold execFeedRetry at e; dsimp only at e; (repeat' split at e) <;> simp at e <;> subst e <;> (repeat' split) <;> simp_all
@[simp] theorem gainWindow64_keeps (i : Nat) (clipped : Nat) (samples : Nat) (s : State) : (gainWindow64 i clipped samples s).pending = s.pending ∧ (gainWindow64 i clipped samples s).chip = s.chip := by
  unfold gainWindow64; simp
@[simp] theorem gainWindow64_fits (i : Nat) (clipped : Nat) (samples : Nat) (s : State) (h : Fits s) : Fits (gainWindow64 i clipped samples s) := by
  unfold gainWindow64; try dsimp only
  repeat' first | with_reducible assumption | intro _ | with_reducible refine forEach_fits _ _ _ ?_ ?_ | with_reducible refine foldl_fits _ _ _ ?_ ?_ | with_reducible refine updInput_fits _ _ _ ?_ | with_reducible refine judgeOverload_fits _ _ ?_ | with_reducible refine setGain_fits _ _ _ ?_ | with_reducible refine count_fits _ _ _ _ ?_ | split | (simp (maxDischargeDepth := 20) [*]; done)
theorem execGainWindow64us_keeps (input : Nat) (clipped : Nat) (samples : Nat) (s : State) {t : State} (e : execGainWindow64us input clipped samples s = .next t) : t.pending = s.pending ∧ t.chip = s.chip := by
  unfold execGainWindow64us at e; (repeat' split at e) <;> simp at e <;> subst e <;> simp
theorem execGainWindow64us_fits (input : Nat) (clipped : Nat) (samples : Nat) (s : State) {t : State} (e : execGainWindow64us input clipped samples s = .next t) (h : Fits s) : Fits t := by
  unfold execGainWindow64us at e; (repeat' split at e) <;> simp at e <;> subst e <;> simp [h]
@[simp] theorem gainWindow1_keeps (i : Nat) (rms : Int) (s : State) : (gainWindow1 i rms s).pending = s.pending ∧ (gainWindow1 i rms s).chip = s.chip := by
  unfold gainWindow1; simp
@[simp] theorem gainWindow1_fits (i : Nat) (rms : Int) (s : State) (h : Fits s) : Fits (gainWindow1 i rms s) := by
  unfold gainWindow1; try dsimp only
  repeat' first | with_reducible assumption | intro _ | with_reducible refine forEach_fits _ _ _ ?_ ?_ | with_reducible refine foldl_fits _ _ _ ?_ ?_ | with_reducible refine updInput_fits _ _ _ ?_ | with_reducible refine measureStep_fits _ _ _ ?_ | with_reducible refine judgeOverload_fits _ _ ?_ | with_reducible refine setGain_fits _ _ _ ?_ | split | (simp (maxDischargeDepth := 20) [*]; done)
theorem execGainWindow1ms_keeps (input : Nat) (rms : Int) (s : State) {t : State} (e : execGainWindow1ms input rms s = .next t) : t.pending = s.pending ∧ t.chip = s.chip := by
  unfold execGainWindow1ms at e; (repeat' split at e) <;> simp at e <;> subst e <;> simp
theorem execGainWindow1ms_fits (input : Nat) (rms : Int) (s : State) {t : State} (e : execGainWindow1ms input rms s = .next t) (h : Fits s) : Fits t := by
  unfold execGainWindow1ms at e; (repeat' split at e) <;> simp at e <;> subst e <;> simp [h]
theorem execBinMapUpdate_keeps (input : Nat) (powers : List Int) (s : State) {t : State} (e : execBinMapUpdate input powers s = .next t) : t.pending = s.pending ∧ t.chip = s.chip := by
  unfold execBinMapUpdate at e; (repeat' split at e) <;> simp at e <;> subst e <;> simp
theorem execBinMapUpdate_fits (input : Nat) (powers : List Int) (s : State) {t : State} (e : execBinMapUpdate input powers s = .next t) (h : Fits s) : Fits t := by
  unfold execBinMapUpdate at e; (repeat' split at e) <;> simp at e <;> subst e <;> simp [h]

/-! ### Scan -/

@[simp] theorem bodyScanPolicy_keeps (c : Call) (s : State) : (bodyScanPolicy c s).state.pending = s.pending ∧ (bodyScanPolicy c s).state.chip = s.chip := by
  unfold bodyScanPolicy; (repeat' split) <;> simp
@[simp] theorem bodyScanPolicy_fits (c : Call) (s : State) (h : Fits s) : Fits (bodyScanPolicy c s).state := by
  unfold bodyScanPolicy; (repeat' split) <;> simp [h]
theorem execScanPolicy_keeps (tag : Byte) (p : List Byte) (s : State) {t : State} (e : execScanPolicy tag p s = .next t) : t.pending = s.pending ∧ t.chip = s.chip := by
  unfold execScanPolicy at e; exact hostRow_keeps (fun _ _ => by simp [cmdScanPolicy]) e
theorem execScanPolicy_fits (tag : Byte) (p : List Byte) (s : State) {t : State} (e : execScanPolicy tag p s = .next t) (h : Fits s) : Fits t := by
  unfold execScanPolicy at e; exact hostRow_fits (fun _ _ hu => by simp [cmdScanPolicy, hu]) e h
@[simp] theorem releaseUnit_keeps (kind : Nat) (id : Nat) (s : State) : (releaseUnit kind id s).pending = s.pending ∧ (releaseUnit kind id s).chip = s.chip := by
  unfold releaseUnit; simp
@[simp] theorem releaseUnit_fits (kind : Nat) (id : Nat) (s : State) (h : Fits s) : Fits (releaseUnit kind id s) := by
  unfold releaseUnit; simp [h]
@[simp] theorem setAbsent_keeps (kind : Nat) (id : Nat) (x1 : Option Nat) (s : State) : (setAbsent kind id x1 s).pending = s.pending ∧ (setAbsent kind id x1 s).chip = s.chip := by
  unfold setAbsent; simp
@[simp] theorem setAbsent_fits (kind : Nat) (id : Nat) (x1 : Option Nat) (s : State) (h : Fits s) : Fits (setAbsent kind id x1 s) := by
  unfold setAbsent; simp [h]
@[simp] theorem putUnit_keeps (kind : Nat) (id : Nat) (o : Owner) (af : Option Id16) (freq : Nat) (mask : Nat) (s : State) : (putUnit kind id o af freq mask s).pending = s.pending ∧ (putUnit kind id o af freq mask s).chip = s.chip := by
  unfold putUnit; simp
@[simp] theorem putUnit_fits (kind : Nat) (id : Nat) (o : Owner) (af : Option Id16) (freq : Nat) (mask : Nat) (s : State) (h : Fits s) : Fits (putUnit kind id o af freq mask s) := by
  unfold putUnit; simp [h]
@[simp] theorem redirectUnit_keeps (kind : Nat) (id : Nat) (o : Owner) (af : Option Id16) (freq : Nat) (mask : Nat) (s : State) : (redirectUnit kind id o af freq mask s).pending = s.pending ∧ (redirectUnit kind id o af freq mask s).chip = s.chip := by
  unfold redirectUnit; simp
@[simp] theorem redirectUnit_fits (kind : Nat) (id : Nat) (o : Owner) (af : Option Id16) (freq : Nat) (mask : Nat) (s : State) (h : Fits s) : Fits (redirectUnit kind id o af freq mask s) := by
  unfold redirectUnit; (repeat' split) <;> simp [h]
@[simp] theorem scanRelease_keeps (c : ScanPolicy) (kind : Nat) (id : Nat) (s : State) : (scanRelease c kind id s).pending = s.pending ∧ (scanRelease c kind id s).chip = s.chip := by
  unfold scanRelease; (repeat' split) <;> simp
@[simp] theorem scanRelease_fits (c : ScanPolicy) (kind : Nat) (id : Nat) (s : State) (h : Fits s) : Fits (scanRelease c kind id s) := by
  unfold scanRelease; try dsimp only
  repeat' first | with_reducible assumption | intro _ | with_reducible refine forEach_fits _ _ _ ?_ ?_ | with_reducible refine foldl_fits _ _ _ ?_ ?_ | with_reducible refine releaseUnit_fits _ _ _ ?_ | with_reducible refine setAbsent_fits _ _ _ _ ?_ | split | (simp (maxDischargeDepth := 20) [*]; done)
@[simp] theorem releasePass_keeps (c : ScanPolicy) (s : State) : (releasePass c s).pending = s.pending ∧ (releasePass c s).chip = s.chip := by
  unfold releasePass; simp
@[simp] theorem releasePass_fits (c : ScanPolicy) (s : State) (h : Fits s) : Fits (releasePass c s) := by
  unfold releasePass; try dsimp only
  repeat' first | with_reducible assumption | intro _ | with_reducible refine forEach_fits _ _ _ ?_ ?_ | with_reducible refine foldl_fits _ _ _ ?_ ?_ | with_reducible refine scanRelease_fits _ _ _ _ ?_ | with_reducible refine forEach_fits _ _ _ ?_ ?_ | split | (simp (maxDischargeDepth := 20) [*]; done)
@[simp] theorem assignPass_keeps (c : ScanPolicy) (s : State) : (assignPass c s).pending = s.pending ∧ (assignPass c s).chip = s.chip := by
  exact foldl_inv (fun a : State × Bool => a.1.pending = s.pending ∧ a.1.chip = s.chip) _ _ _ ⟨rfl, rfl⟩ fun a x ha => by
    unfold assignCarrier; dsimp only; (repeat' split) <;> simp [ha]
@[simp] theorem assignPass_fits (c : ScanPolicy) (s : State) (h : Fits s) : Fits (assignPass c s) := by
  exact foldl_inv (fun a : State × Bool => Fits a.1) _ _ _ h fun a x ha => by
    unfold assignCarrier; dsimp only; (repeat' split) <;> simp [ha]
@[simp] theorem displaceKind_keeps (c : ScanPolicy) (kind : Nat) (s : State) : (displaceKind c kind s).pending = s.pending ∧ (displaceKind c kind s).chip = s.chip := by
  unfold displaceKind; (repeat' split) <;> simp
@[simp] theorem displaceKind_fits (c : ScanPolicy) (kind : Nat) (s : State) (h : Fits s) : Fits (displaceKind c kind s) := by
  unfold displaceKind; try dsimp only
  repeat' first | with_reducible assumption | intro _ | with_reducible refine forEach_fits _ _ _ ?_ ?_ | with_reducible refine foldl_fits _ _ _ ?_ ?_ | with_reducible refine redirectUnit_fits _ _ _ _ _ _ _ ?_ | split | (simp (maxDischargeDepth := 20) [*]; done)
@[simp] theorem displacePass_keeps (c : ScanPolicy) (s : State) : (displacePass c s).pending = s.pending ∧ (displacePass c s).chip = s.chip := by
  unfold displacePass; simp
@[simp] theorem displacePass_fits (c : ScanPolicy) (s : State) (h : Fits s) : Fits (displacePass c s) := by
  unfold displacePass; try dsimp only
  repeat' first | with_reducible assumption | intro _ | with_reducible refine forEach_fits _ _ _ ?_ ?_ | with_reducible refine foldl_fits _ _ _ ?_ ?_ | with_reducible refine displaceKind_fits _ _ _ ?_ | with_reducible refine forEach_fits _ _ _ ?_ ?_ | split | (simp (maxDischargeDepth := 20) [*]; done)
@[simp] theorem afRelease_keeps (id : Nat) (s : State) : (afRelease id s).pending = s.pending ∧ (afRelease id s).chip = s.chip := by
  unfold afRelease; (repeat' split) <;> simp
@[simp] theorem afRelease_fits (id : Nat) (s : State) (h : Fits s) : Fits (afRelease id s) := by
  unfold afRelease; try dsimp only
  repeat' first | with_reducible assumption | intro _ | with_reducible refine forEach_fits _ _ _ ?_ ?_ | with_reducible refine foldl_fits _ _ _ ?_ ?_ | with_reducible refine releaseLane_fits _ _ ?_ | with_reducible refine setAbsent_fits _ _ _ _ ?_ | split | (simp (maxDischargeDepth := 20) [*]; done)
@[simp] theorem afPass_keeps (c : ScanPolicy) (s : State) : (afPass c s).pending = s.pending ∧ (afPass c s).chip = s.chip := by
  have h1 : (forEach (List.range s.lanes.fm.length) afRelease s).pending = s.pending ∧
      (forEach (List.range s.lanes.fm.length) afRelease s).chip = s.chip := forEach_keeps _ _ _ fun _ _ => by simp
  unfold afPass; dsimp only
  split
  · exact h1
  · exact foldl_inv (fun a : State × List Id16 × Bool => a.1.pending = s.pending ∧ a.1.chip = s.chip) _ _ _ h1 fun a x ha => by
      unfold afAssign; dsimp only; (repeat' split) <;> simp [ha]
@[simp] theorem afPass_fits (c : ScanPolicy) (s : State) (h : Fits s) : Fits (afPass c s) := by
  have h1 : Fits (forEach (List.range s.lanes.fm.length) afRelease s) := forEach_fits _ _ _ h fun _ _ hu => by simp [hu]
  unfold afPass; dsimp only
  split
  · exact h1
  · exact foldl_inv (fun a : State × List Id16 × Bool => Fits a.1) _ _ _ h1 fun a x ha => by
      unfold afAssign; dsimp only; (repeat' split) <;> simp [ha]
@[simp] theorem watchRelease_keeps (kind : Nat) (id : Nat) (s : State) : (watchRelease kind id s).pending = s.pending ∧ (watchRelease kind id s).chip = s.chip := by
  unfold watchRelease; (repeat' split) <;> simp
@[simp] theorem watchRelease_fits (kind : Nat) (id : Nat) (s : State) (h : Fits s) : Fits (watchRelease kind id s) := by
  unfold watchRelease; (repeat' split) <;> simp [h]
@[simp] theorem watchReleases_keeps (s : State) : (watchReleases s).pending = s.pending ∧ (watchReleases s).chip = s.chip := by
  unfold watchReleases; simp
@[simp] theorem watchReleases_fits (s : State) (h : Fits s) : Fits (watchReleases s) := by
  unfold watchReleases; try dsimp only
  repeat' first | with_reducible assumption | intro _ | with_reducible refine forEach_fits _ _ _ ?_ ?_ | with_reducible refine foldl_fits _ _ _ ?_ ?_ | with_reducible refine watchRelease_fits _ _ _ ?_ | with_reducible refine forEach_fits _ _ _ ?_ ?_ | split | (simp (maxDischargeDepth := 20) [*]; done)
@[simp] theorem watchPass_keeps (c : ScanPolicy) (s0 : State) : (watchPass c s0).pending = s0.pending ∧ (watchPass c s0).chip = s0.chip := by
  unfold watchPass; (try dsimp only); (repeat' split) <;> simp_all
@[simp] theorem watchPass_fits (c : ScanPolicy) (s0 : State) (h : Fits s0) : Fits (watchPass c s0) := by
  unfold watchPass; try dsimp only
  repeat' first | with_reducible assumption | intro _ | with_reducible refine forEach_fits _ _ _ ?_ ?_ | with_reducible refine foldl_fits _ _ _ ?_ ?_ | with_reducible refine putUnit_fits _ _ _ _ _ _ _ ?_ | with_reducible refine redirectUnit_fits _ _ _ _ _ _ _ ?_ | with_reducible refine watchReleases_fits _ ?_ | split | (simp (maxDischargeDepth := 20) [*]; done)
@[simp] theorem addCandidate_keeps (n : Nat) (s : State) (x : Source) : (addCandidate n s x).pending = s.pending ∧ (addCandidate n s x).chip = s.chip := by
  unfold addCandidate; (repeat' split) <;> simp
@[simp] theorem addCandidate_fits (n : Nat) (s : State) (x : Source) (h : Fits s) : Fits (addCandidate n s x) := by
  unfold addCandidate; (repeat' split) <;> simp [h]
@[simp] theorem replaceMember_keeps (n : Nat) (s : State) : (replaceMember n s).pending = s.pending ∧ (replaceMember n s).chip = s.chip := by
  unfold replaceMember; (try dsimp only); (repeat' split) <;> simp_all
@[simp] theorem replaceMember_fits (n : Nat) (s : State) (h : Fits s) : Fits (replaceMember n s) := by
  unfold replaceMember; try dsimp only
  repeat' first | with_reducible assumption | intro _ | with_reducible refine forEach_fits _ _ _ ?_ ?_ | with_reducible refine foldl_fits _ _ _ ?_ ?_ | with_reducible refine updProgram_fits _ _ _ ?_ | with_reducible refine placeMember_fits _ _ _ _ _ ?_ | with_reducible refine removeMember_fits _ _ _ ?_ | split | (simp (maxDischargeDepth := 20) [*]; done)
@[simp] theorem membershipOf_keeps (n : Nat) (s : State) : (membershipOf n s).pending = s.pending ∧ (membershipOf n s).chip = s.chip := by
  unfold membershipOf; (repeat' split) <;> simp
@[simp] theorem membershipOf_fits (n : Nat) (s : State) (h : Fits s) : Fits (membershipOf n s) := by
  unfold membershipOf; try dsimp only
  repeat' first | with_reducible assumption | intro _ | with_reducible refine forEach_fits _ _ _ ?_ ?_ | with_reducible refine foldl_fits _ _ _ ?_ ?_ | with_reducible refine replaceMember_fits _ _ ?_ | with_reducible refine addCandidate_fits _ _ _ ?_ | split | (simp (maxDischargeDepth := 20) [*]; done)
@[simp] theorem membershipPass_keeps (s : State) : (membershipPass s).pending = s.pending ∧ (membershipPass s).chip = s.chip := by
  unfold membershipPass; simp
@[simp] theorem membershipPass_fits (s : State) (h : Fits s) : Fits (membershipPass s) := by
  unfold membershipPass; try dsimp only
  repeat' first | with_reducible assumption | intro _ | with_reducible refine forEach_fits _ _ _ ?_ ?_ | with_reducible refine foldl_fits _ _ _ ?_ ?_ | with_reducible refine forEach_fits _ _ _ ?_ ?_ | with_reducible refine membershipOf_fits _ _ ?_ | split | (simp (maxDischargeDepth := 20) [*]; done)
@[simp] theorem closeReturn_keeps (s : State) : (closeReturn s).pending = s.pending ∧ (closeReturn s).chip = s.chip := by
  unfold closeReturn; (repeat' split) <;> simp
@[simp] theorem closeReturn_fits (s : State) (h : Fits s) : Fits (closeReturn s) := by
  unfold closeReturn; (repeat' split) <;> simp [h]
@[simp] theorem remakeStations_keeps (s : State) : (remakeStations s).pending = s.pending ∧ (remakeStations s).chip = s.chip := by
  unfold remakeStations
  split
  · exact ⟨rfl, rfl⟩
  · refine forEach_keeps (s := { s with rds := { s.rds with remake := false } }) _ _ fun _ _ => ?_
    (repeat' split) <;> simp
@[simp] theorem remakeStations_fits (s : State) (h : Fits s) : Fits (remakeStations s) := by
  unfold remakeStations; try dsimp only
  repeat' first | with_reducible assumption | intro _ | with_reducible refine forEach_fits _ _ _ ?_ ?_ | with_reducible refine foldl_fits _ _ _ ?_ ?_ | with_reducible refine confirmStation_fits _ _ ?_ | with_reducible refine forEach_fits _ _ _ ?_ ?_ | split | (simp (maxDischargeDepth := 20) [*]; done)
@[simp] theorem storeMaps_keeps (maps : List (Nat × List Int)) (s : State) : (storeMaps maps s).pending = s.pending ∧ (storeMaps maps s).chip = s.chip := by
  unfold storeMaps; simp
@[simp] theorem storeMaps_fits (maps : List (Nat × List Int)) (s : State) (h : Fits s) : Fits (storeMaps maps s) := by
  unfold storeMaps; try dsimp only
  repeat' first | with_reducible assumption | intro _ | with_reducible refine forEach_fits _ _ _ ?_ ?_ | with_reducible refine foldl_fits _ _ _ ?_ ?_ | with_reducible refine updInput_fits _ _ _ ?_ | with_reducible refine forEach_fits _ _ _ ?_ ?_ | split | (simp (maxDischargeDepth := 20) [*]; done)
@[simp] theorem scanUpdate_keeps (s : State) : (scanUpdate s).pending = s.pending ∧ (scanUpdate s).chip = s.chip := by
  unfold scanUpdate; simp
@[simp] theorem scanUpdate_fits (s : State) (h : Fits s) : Fits (scanUpdate s) := by
  unfold scanUpdate; try dsimp only
  repeat' first | with_reducible assumption | intro _ | with_reducible refine forEach_fits _ _ _ ?_ ?_ | with_reducible refine foldl_fits _ _ _ ?_ ?_ | with_reducible refine displacePass_fits _ _ ?_ | with_reducible refine releasePass_fits _ _ ?_ | with_reducible refine assignPass_fits _ _ ?_ | with_reducible refine watchPass_fits _ _ ?_ | with_reducible refine afPass_fits _ _ ?_ | split | (simp (maxDischargeDepth := 20) [*]; done)
theorem execFineMapUpdate_keeps (high : List (Nat × List Int)) (low : List (Nat × List Int)) (s : State) {t : State} (e : execFineMapUpdate high low s = .next t) : t.pending = s.pending ∧ t.chip = s.chip := by
  unfold execFineMapUpdate at e; (repeat' split at e) <;> simp at e <;> subst e <;> simp
theorem execFineMapUpdate_fits (high : List (Nat × List Int)) (low : List (Nat × List Int)) (s : State) {t : State} (e : execFineMapUpdate high low s = .next t) (h : Fits s) : Fits t := by
  unfold execFineMapUpdate at e
  split at e
  · exact Host.Outcome.next.inj e ▸ h
  · dsimp only at e
    have h1 := remakeStations_fits _ (scanUpdate_fits _ (storeMaps_fits (high ++ low) _ h))
    generalize remakeStations (scanUpdate (storeMaps (high ++ low) s)) = u at h1 e
    split at e
    · exact Host.Outcome.next.inj e ▸ closeReturn_fits _ (reselectAll_fits _ (membershipPass_fits _ h1))
    · exact Host.Outcome.next.inj e ▸ closeReturn_fits _ h1

/-! ### Supplies -/

@[simp] theorem endHeld_keeps (a : Announce) (s : State) : (endHeld a s).pending = s.pending ∧ (endHeld a s).chip = s.chip := by
  unfold endHeld; simp
@[simp] theorem endHeld_fits (a : Announce) (s : State) (h : Fits s) : Fits (endHeld a s) := by
  unfold endHeld; (repeat' split) <;> simp [h]
@[simp] theorem endAllHeld_keeps (s : State) : (endAllHeld s).pending = s.pending ∧ (endAllHeld s).chip = s.chip := by
  unfold endAllHeld; simp
@[simp] theorem endAllHeld_fits (s : State) (h : Fits s) : Fits (endAllHeld s) := by
  unfold endAllHeld; try dsimp only
  repeat' first | with_reducible assumption | intro _ | with_reducible refine forEach_fits _ _ _ ?_ ?_ | with_reducible refine foldl_fits _ _ _ ?_ ?_ | with_reducible refine endHeld_fits _ _ ?_ | with_reducible refine forEach_fits _ _ _ ?_ ?_ | split | (simp (maxDischargeDepth := 20) [*]; done)
@[simp] theorem restartWatch_keeps (s : State) : (restartWatch s).pending = s.pending ∧ (restartWatch s).chip = s.chip := by
  unfold restartWatch; simp
@[simp] theorem restartWatch_fits (s : State) (h : Fits s) : Fits (restartWatch s) := by
  unfold restartWatch; (repeat' split) <;> simp [h]
@[simp] theorem setGhost_keeps (cfg : GhostCfg) (s : State) : (setGhost cfg s).pending = s.pending ∧ (setGhost cfg s).chip = s.chip := by
  unfold setGhost; simp
@[simp] theorem setGhost_fits (cfg : GhostCfg) (s : State) (h : Fits s) : Fits (setGhost cfg s) := by
  unfold setGhost; try dsimp only
  repeat' first | with_reducible assumption | intro _ | with_reducible refine forEach_fits _ _ _ ?_ ?_ | with_reducible refine foldl_fits _ _ _ ?_ ?_ | with_reducible refine endAllHeld_fits _ ?_ | with_reducible refine updLog_fits _ _ ?_ | with_reducible refine watchReleases_fits _ ?_ | with_reducible refine restartWatch_fits _ ?_ | split | (simp (maxDischargeDepth := 20) [*]; done)
@[simp] theorem enterFromRetention_keeps (s : State) : (enterFromRetention s).pending = s.pending ∧ (enterFromRetention s).chip = s.chip := by
  unfold enterFromRetention; simp
@[simp] theorem enterFromRetention_fits (s : State) (h : Fits s) : Fits (enterFromRetention s) := by
  unfold enterFromRetention; simp [h]
@[simp] theorem bodyGhost_keeps (c : Call) (s : State) : (bodyGhost c s).state.pending = s.pending ∧ (bodyGhost c s).state.chip = s.chip := by
  unfold bodyGhost; (try dsimp only); (repeat' split) <;> simp_all
@[simp] theorem bodyGhost_fits (c : Call) (s : State) (h : Fits s) : Fits (bodyGhost c s).state := by
  unfold bodyGhost; try dsimp only
  repeat' first | with_reducible assumption | intro _ | with_reducible refine forEach_fits _ _ _ ?_ ?_ | with_reducible refine foldl_fits _ _ _ ?_ ?_ | with_reducible refine fail_fits _ _ ?_ | with_reducible refine setGhost_fits _ _ ?_ | with_reducible refine enterFromRetention_fits _ ?_ | with_reducible refine startMain_fits _ _ _ ?_ | with_reducible refine okay_fits _ _ ?_ | split | (simp (maxDischargeDepth := 20) [*]; done)
theorem execGhostLightConfig_keeps (tag : Byte) (p : List Byte) (s : State) {t : State} (e : execGhostLightConfig tag p s = .next t) : t.pending = s.pending ∧ t.chip = s.chip := by
  unfold execGhostLightConfig at e; exact hostRow_keeps (fun _ _ => by simp [cmdGhost]) e
theorem execGhostLightConfig_fits (tag : Byte) (p : List Byte) (s : State) {t : State} (e : execGhostLightConfig tag p s = .next t) (h : Fits s) : Fits t := by
  unfold execGhostLightConfig at e; exact hostRow_fits (fun _ _ hu => by simp [cmdGhost, hu]) e h
theorem execGhostLightEnter_keeps (tag : Byte) (p : List Byte) (s : State) {t : State} (e : execGhostLightEnter tag p s = .next t) : t.pending = s.pending ∧ t.chip = s.chip := by
  unfold execGhostLightEnter at e; exact hostRow_keeps (fun _ _ => by simp [cmdGhost]) e
theorem execGhostLightEnter_fits (tag : Byte) (p : List Byte) (s : State) {t : State} (e : execGhostLightEnter tag p s = .next t) (h : Fits s) : Fits t := by
  unfold execGhostLightEnter at e; exact hostRow_fits (fun _ _ hu => by simp [cmdGhost, hu]) e h
theorem execGhostLightLeave_keeps (tag : Byte) (p : List Byte) (s : State) {t : State} (e : execGhostLightLeave tag p s = .next t) : t.pending = s.pending ∧ t.chip = s.chip := by
  unfold execGhostLightLeave at e; exact hostRow_keeps (fun _ _ => by simp [cmdGhost]) e
theorem execGhostLightLeave_fits (tag : Byte) (p : List Byte) (s : State) {t : State} (e : execGhostLightLeave tag p s = .next t) (h : Fits s) : Fits t := by
  unfold execGhostLightLeave at e; exact hostRow_fits (fun _ _ hu => by simp [cmdGhost, hu]) e h
theorem execSupplyStatus_keeps (tag : Byte) (p : List Byte) (s : State) {t : State} (e : execSupplyStatus tag p s = .next t) : t.pending = s.pending ∧ t.chip = s.chip := by
  unfold execSupplyStatus at e; exact hostRow_keeps (fun _ _ => by simp [cmdSupplyStatus]) e
theorem execSupplyStatus_fits (tag : Byte) (p : List Byte) (s : State) {t : State} (e : execSupplyStatus tag p s = .next t) (h : Fits s) : Fits t := by
  unfold execSupplyStatus at e; exact hostRow_fits (fun _ _ hu => by simp [cmdSupplyStatus, hu]) e h
theorem execLifecycleRead_keeps (tag : Byte) (p : List Byte) (s : State) {t : State} (e : execLifecycleRead tag p s = .next t) : t.pending = s.pending ∧ t.chip = s.chip := by
  unfold execLifecycleRead at e; exact hostRow_keeps (fun _ _ => by simp [cmdLifecycleRead]) e
theorem execLifecycleRead_fits (tag : Byte) (p : List Byte) (s : State) {t : State} (e : execLifecycleRead tag p s = .next t) (h : Fits s) : Fits t := by
  unfold execLifecycleRead at e; exact hostRow_fits (fun _ _ hu => by simp [cmdLifecycleRead, hu]) e h
@[simp] theorem bodyLifecycleAdvance_fits (c : Call) (s : State) (h : Fits s) : Fits (bodyLifecycleAdvance c s).state := by
  unfold bodyLifecycleAdvance; (repeat' split) <;> simp [h]
theorem execLifecycleAdvance_fits (tag : Byte) (p : List Byte) (s : State) {t : State} (e : execLifecycleAdvance tag p s = .next t) (h : Fits s) : Fits t := by
  unfold execLifecycleAdvance at e; exact hostRow_fits (fun _ _ hu => by simp [cmdLifecycleAdvance, hu]) e h
@[simp] theorem wipeRetained_keeps (s : State) : (wipeRetained s).pending = s.pending ∧ (wipeRetained s).chip = s.chip := by
  unfold wipeRetained; simp
@[simp] theorem wipeRetained_fits (s : State) (h : Fits s) : Fits (wipeRetained s) := by
  unfold wipeRetained Retained.wiped; simp [h, -List.reduceReplicate]
@[simp] theorem bodyRetainedWipe_keeps (c : Call) (s : State) : (bodyRetainedWipe c s).state.pending = s.pending ∧ (bodyRetainedWipe c s).state.chip = s.chip := by
  unfold bodyRetainedWipe; (repeat' split) <;> simp
@[simp] theorem bodyRetainedWipe_fits (c : Call) (s : State) (h : Fits s) : Fits (bodyRetainedWipe c s).state := by
  unfold bodyRetainedWipe; (repeat' split) <;> simp [h]
theorem execRetainedWipe_keeps (tag : Byte) (p : List Byte) (s : State) {t : State} (e : execRetainedWipe tag p s = .next t) : t.pending = s.pending ∧ t.chip = s.chip := by
  unfold execRetainedWipe at e; exact hostRow_keeps (fun _ _ => by simp [cmdRetainedWipe]) e
theorem execRetainedWipe_fits (tag : Byte) (p : List Byte) (s : State) {t : State} (e : execRetainedWipe tag p s = .next t) (h : Fits s) : Fits t := by
  unfold execRetainedWipe at e; exact hostRow_fits (fun _ _ hu => by simp [cmdRetainedWipe, hu]) e h
@[simp] theorem setSupply_keeps (f : Supply → Supply) (s : State) : (setSupply f s).pending = s.pending ∧ (setSupply f s).chip = s.chip := by
  unfold setSupply; simp
@[simp] theorem setSupply_fits (f : Supply → Supply) (s : State) (h : Fits s) : Fits (setSupply f s) := by
  unfold setSupply; simp [h]
theorem execSagWarning_keeps (mv : Nat) (s : State) {t : State} (e : execSagWarning mv s = .next t) : t.pending = s.pending ∧ t.chip = s.chip := by
  unfold execSagWarning at e; (repeat' split at e) <;> simp at e <;> subst e <;> simp
theorem execSagWarning_fits (mv : Nat) (s : State) {t : State} (e : execSagWarning mv s = .next t) (h : Fits s) : Fits t := by
  unfold execSagWarning at e; (repeat' split at e) <;> simp at e <;> subst e <;> simp [h]
@[simp] theorem flushBand_keeps (s : State) : (flushBand s).pending = s.pending ∧ (flushBand s).chip = s.chip := by
  unfold flushBand; simp
@[simp] theorem flushBand_fits (s : State) (h : Fits s) : Fits (flushBand s) := by
  unfold flushBand; simp [h]
theorem execSagCleared_keeps (mv : Nat) (s : State) {t : State} (e : execSagCleared mv s = .next t) : t.pending = s.pending ∧ t.chip = s.chip := by
  unfold execSagCleared at e; (repeat' split at e) <;> simp at e <;> subst e <;> simp
theorem execSagCleared_fits (mv : Nat) (s : State) {t : State} (e : execSagCleared mv s = .next t) (h : Fits s) : Fits t := by
  unfold execSagCleared at e; (try dsimp only at e)
  (repeat' split at e) <;> cases e
  all_goals repeat' first | with_reducible assumption | intro _ | with_reducible refine forEach_fits _ _ _ ?_ ?_ | with_reducible refine foldl_fits _ _ _ ?_ ?_ | with_reducible refine evSupply_fits _ _ ?_ | with_reducible refine flushBand_fits _ ?_ | with_reducible refine flushWrites_fits _ ?_ | with_reducible refine setSupply_fits _ _ ?_ | split | (simp (maxDischargeDepth := 20) [*]; done)
theorem execSwitchOver_keeps (vmain : Nat) (vbak : Nat) (s : State) {t : State} (e : execSwitchOver vmain vbak s = .next t) : t.pending = s.pending ∧ t.chip = s.chip := by
  unfold execSwitchOver at e; (repeat' split at e) <;> simp at e <;> subst e <;> simp
theorem execSwitchOver_fits (vmain : Nat) (vbak : Nat) (s : State) {t : State} (e : execSwitchOver vmain vbak s = .next t) (h : Fits s) : Fits t := by
  unfold execSwitchOver at e; (repeat' split at e) <;> simp at e <;> subst e <;> simp [h]
theorem execSwitchBack_keeps (mv : Nat) (s : State) {t : State} (e : execSwitchBack mv s = .next t) : t.pending = s.pending ∧ t.chip = s.chip := by
  unfold execSwitchBack at e; (repeat' split at e) <;> simp at e <;> subst e <;> simp
theorem execSwitchBack_fits (mv : Nat) (s : State) {t : State} (e : execSwitchBack mv s = .next t) (h : Fits s) : Fits t := by
  unfold execSwitchBack at e; (repeat' split at e) <;> simp at e <;> subst e <;> simp [h]
@[simp] theorem leaveBlackout_keeps (s : State) : (leaveBlackout s).pending = s.pending ∧ (leaveBlackout s).chip = s.chip := by
  unfold leaveBlackout; simp
@[simp] theorem leaveBlackout_fits (s : State) (h : Fits s) : Fits (leaveBlackout s) := by
  unfold leaveBlackout; simp [h]
@[simp] theorem cutWrite_keeps (s : State) : (cutWrite s).pending = s.pending ∧ (cutWrite s).chip = s.chip := by
  unfold cutWrite; (repeat' split) <;> simp
@[simp] theorem cutWrite_fits (s : State) (h : Fits s) : Fits (cutWrite s) := by
  unfold cutWrite; try dsimp only
  repeat' first | with_reducible assumption | intro _ | with_reducible refine forEach_fits _ _ _ ?_ ?_ | with_reducible refine foldl_fits _ _ _ ?_ ?_ | with_reducible refine drawBool_fits _ ?_ | split | (simp (maxDischargeDepth := 20) [*]; done)
@[simp] theorem hardHalt_keeps (s0 : State) : (hardHalt s0).pending = s0.pending ∧ (hardHalt s0).chip = s0.chip := by
  unfold hardHalt; simp
@[simp] theorem hardHalt_fits (s0 : State) (h : Fits s0) : Fits (hardHalt s0) := by
  unfold hardHalt; try dsimp only
  repeat' first | with_reducible assumption | intro _ | with_reducible refine forEach_fits _ _ _ ?_ ?_ | with_reducible refine foldl_fits _ _ _ ?_ ?_ | with_reducible refine evSupply_fits _ _ ?_ | with_reducible refine faultBegins_fits _ _ _ _ _ _ ?_ | with_reducible refine setSupply_fits _ _ ?_ | with_reducible refine discardLink_fits _ ?_ | with_reducible refine leaveBlackout_fits _ ?_ | with_reducible refine cutWrite_fits _ ?_ | with_reducible refine stopMain_fits _ _ ?_ | split | (simp (maxDischargeDepth := 20) [*]; done)
theorem execHardHalt_keeps (vmain : Nat) (vbak : Nat) (s : State) {t : State} (e : execHardHalt vmain vbak s = .next t) : t.pending = s.pending ∧ t.chip = s.chip := by
  unfold execHardHalt at e; dsimp only at e; (repeat' split at e) <;> simp at e <;> subst e <;> (repeat' split) <;> simp_all
theorem execHardHalt_fits (vmain : Nat) (vbak : Nat) (s : State) {t : State} (e : execHardHalt vmain vbak s = .next t) (h : Fits s) : Fits t := by
  unfold execHardHalt at e; dsimp only at e; (repeat' split at e) <;> simp at e <;> subst e <;> (repeat' split) <;> simp_all
theorem execMainDomainReturn_keeps (mv : Nat) (s : State) {t : State} (e : execMainDomainReturn mv s = .next t) : t.pending = s.pending ∧ t.chip = s.chip := by
  unfold execMainDomainReturn at e; (repeat' split at e) <;> simp at e <;> subst e <;> simp
theorem execMainDomainReturn_fits (mv : Nat) (s : State) {t : State} (e : execMainDomainReturn mv s = .next t) (h : Fits s) : Fits t := by
  unfold execMainDomainReturn at e; (try dsimp only at e)
  (repeat' split at e) <;> cases e
  all_goals repeat' first | with_reducible assumption | intro _ | with_reducible refine forEach_fits _ _ _ ?_ ?_ | with_reducible refine foldl_fits _ _ _ ?_ ?_ | with_reducible refine evSupply_fits _ _ ?_ | with_reducible refine hardHalt_fits _ ?_ | with_reducible refine setSupply_fits _ _ ?_ | with_reducible refine startMain_fits _ _ _ ?_ | split | (simp (maxDischargeDepth := 20) [*]; done)
theorem execBackupPowerOn_keeps (addr1 addr0 : Bool) (vmain vbak : Nat) (s : State) {t : State}
    (e : execBackupPowerOn addr1 addr0 vmain vbak s = .next t) :
    t.pending = s.pending ∧ (t.chip = s.chip ∨ t.chip = { s.chip with oemWritten := false }) := by
  unfold execBackupPowerOn at e; split at e <;> cases e <;> simp
theorem execBackupPowerOn_fits (addr1 : Bool) (addr0 : Bool) (vmain : Nat) (vbak : Nat) (s : State) {t : State} (e : execBackupPowerOn addr1 addr0 vmain vbak s = .next t) (h : Fits s) : Fits t := by
  unfold execBackupPowerOn at e; (repeat' split at e) <;> simp at e <;> subst e <;> simp [h]
theorem execBackupLoss_keeps (s : State) {t : State} (e : execBackupLoss s = .next t) :
    t.pending = s.pending ∧ (t.chip = s.chip ∨ t.chip = { s.chip with oemWritten := false }) := by
  unfold execBackupLoss at e; split at e <;> cases e <;> simp
theorem execBackupLoss_fits (s : State) {t : State} (e : execBackupLoss s = .next t) (h : Fits s) : Fits t := by
  unfold execBackupLoss at e; (repeat' split at e) <;> simp at e <;> subst e <;> simp [h]
theorem execVioLevelChange_keeps (mv : Nat) (s : State) {t : State} (e : execVioLevelChange mv s = .next t) : t.pending = s.pending ∧ t.chip = s.chip := by
  unfold execVioLevelChange at e; simp at e; subst e; simp
theorem execVioLevelChange_fits (mv : Nat) (s : State) {t : State} (e : execVioLevelChange mv s = .next t) (h : Fits s) : Fits t := by
  unfold execVioLevelChange at e; simp at e; subst e; simp [h]
theorem execVmainRiseAfterBackupOnlyStart_keeps (mv : Nat) (s : State) {t : State} (e : execVmainRiseAfterBackupOnlyStart mv s = .next t) : t.pending = s.pending ∧ t.chip = s.chip := by
  unfold execVmainRiseAfterBackupOnlyStart at e; (repeat' split at e) <;> simp at e <;> subst e <;> simp
theorem execVmainRiseAfterBackupOnlyStart_fits (mv : Nat) (s : State) {t : State} (e : execVmainRiseAfterBackupOnlyStart mv s = .next t) (h : Fits s) : Fits t := by
  unfold execVmainRiseAfterBackupOnlyStart at e; (repeat' split at e) <;> simp at e <;> subst e <;> simp [h]
@[simp] theorem resetHeld_keeps (s : State) : (resetHeld s).pending = s.pending ∧ (resetHeld s).chip = s.chip := by
  unfold resetHeld; simp
@[simp] theorem resetHeld_fits (s : State) (h : Fits s) : Fits (resetHeld s) := by
  unfold resetHeld; try dsimp only
  repeat' first | with_reducible assumption | intro _ | with_reducible refine forEach_fits _ _ _ ?_ ?_ | with_reducible refine foldl_fits _ _ _ ?_ ?_ | with_reducible refine setSupply_fits _ _ ?_ | with_reducible refine discardLink_fits _ ?_ | with_reducible refine leaveBlackout_fits _ ?_ | with_reducible refine stopMain_fits _ _ ?_ | split | (simp (maxDischargeDepth := 20) [*]; done)
theorem execResetnLow_keeps (ns : Nat) (s : State) {t : State} (e : execResetnLow ns s = .next t) : t.pending = s.pending ∧ t.chip = s.chip := by
  unfold execResetnLow at e; dsimp only at e; (repeat' split at e) <;> simp at e <;> subst e <;> (repeat' split) <;> simp_all
theorem execResetnLow_fits (ns : Nat) (s : State) {t : State} (e : execResetnLow ns s = .next t) (h : Fits s) : Fits t := by
  unfold execResetnLow at e; dsimp only at e; (repeat' split at e) <;> simp at e <;> subst e <;> (repeat' split) <;> simp_all
theorem execResetnRelease_keeps (addr1 : Bool) (addr0 : Bool) (s : State) {t : State} (e : execResetnRelease addr1 addr0 s = .next t) : t.pending = s.pending ∧ t.chip = s.chip := by
  unfold execResetnRelease at e; dsimp only at e; (repeat' split at e) <;> simp at e <;> subst e <;> (repeat' split) <;> simp_all
theorem execResetnRelease_fits (addr1 : Bool) (addr0 : Bool) (s : State) {t : State} (e : execResetnRelease addr1 addr0 s = .next t) (h : Fits s) : Fits t := by
  unfold execResetnRelease at e; (try dsimp only at e)
  (repeat' split at e) <;> cases e
  all_goals repeat' first | with_reducible assumption | intro _ | with_reducible refine forEach_fits _ _ _ ?_ ?_ | with_reducible refine foldl_fits _ _ _ ?_ ?_ | with_reducible refine setSupply_fits _ _ ?_ | with_reducible refine startMain_fits _ _ _ ?_ | split | (simp (maxDischargeDepth := 20) [*]; done)

end Sys2Proof.Machine
end

