-- ==== Sys2Proof/Laws/FrameRows.lean ====
section
/-! SUPPORT. What each shared operation and each row leaves: `_keeps`, the queue of commands and the part; `_fits`, the
invariant `Fits`. Operations of LaneUpdate.lean, Power.lean, Resets.lean, Diagnostics.lean, Flows.lean, Hop.lean, Link.lean, Ports.lean, Rds.lean, Opcodes.lean, Timeline.lean. -/

set_option linter.all false

namespace Sys2Proof.Machine

/-! ### LaneUpdate -/

@[simp] theorem laneStats_keeps (id : Nat) (s : State) : (laneStats id s).pending = s.pending ∧ (laneStats id s).chip = s.chip := by
  unfold laneStats; (repeat' split) <;> simp
@[simp] theorem laneStats_fits (id : Nat) (s : State) (h : Fits s) : Fits (laneStats id s) := by
  unfold laneStats; (repeat' split) <;> simp [h]
theorem execLaneUpdate_keeps (lane : Nat) (figs : LaneFigures) (s : State) {t : State} (e : execLaneUpdate lane figs s = .next t) : t.pending = s.pending ∧ t.chip = s.chip := by
  unfold execLaneUpdate at e; (repeat' split at e) <;> simp at e <;> subst e <;> simp
theorem execLaneUpdate_fits (lane : Nat) (figs : LaneFigures) (s : State) {t : State} (e : execLaneUpdate lane figs s = .next t) (h : Fits s) : Fits t := by
  unfold execLaneUpdate at e; (try dsimp only at e)
  (repeat' split at e) <;> cases e
  all_goals repeat' first | with_reducible assumption | intro _ | with_reducible refine forEach_fits _ _ _ ?_ ?_ | with_reducible refine foldl_fits _ _ _ ?_ ?_ | with_reducible refine laneStats_fits _ _ ?_ | with_reducible refine setLane_fits _ _ _ ?_ | with_reducible refine count_fits _ _ _ _ ?_ | with_reducible refine noteLq_fits _ _ ?_ | split | (simp (maxDischargeDepth := 20) [*]; done)
theorem execPilotStateChange_keeps (lane : Nat) (o : PilotObs) (s : State) {t : State} (e : execPilotStateChange lane o s = .next t) : t.pending = s.pending ∧ t.chip = s.chip := by
  unfold execPilotStateChange at e; (repeat' split at e) <;> simp at e <;> subst e <;> simp
theorem execPilotStateChange_fits (lane : Nat) (o : PilotObs) (s : State) {t : State} (e : execPilotStateChange lane o s = .next t) (h : Fits s) : Fits t := by
  unfold execPilotStateChange at e; (repeat' split at e) <;> simp at e <;> subst e <;> simp [h]
theorem execSyncLoopLockChange_keeps (lane : Nat) (o : LoopObs) (s : State) {t : State} (e : execSyncLoopLockChange lane o s = .next t) : t.pending = s.pending ∧ t.chip = s.chip := by
  unfold execSyncLoopLockChange at e; (repeat' split at e) <;> simp at e <;> subst e <;> simp
theorem execSyncLoopLockChange_fits (lane : Nat) (o : LoopObs) (s : State) {t : State} (e : execSyncLoopLockChange lane o s = .next t) (h : Fits s) : Fits t := by
  unfold execSyncLoopLockChange at e; (repeat' split at e) <;> simp at e <;> subst e <;> simp [h]

/-! ### Power -/

theorem shedOne_keeps' (step : Nat) (engine : Bool) (id : Nat) (s : State) :
    (shedOne step engine id s).1.pending = s.pending ∧ (shedOne step engine id s).1.chip = s.chip := by
  unfold shedOne keepOne; dsimp only; (repeat' split) <;> simp [setCap]

theorem passStep_keeps (lim : Rat) (s : State) (p : Pass) (k : Nat) (h : p.s.pending = s.pending ∧ p.s.chip = s.chip) :
    (passStep lim p k).s.pending = s.pending ∧ (passStep lim p k).s.chip = s.chip :=
  foldl_inv (fun a : Pass => a.s.pending = s.pending ∧ a.s.chip = s.chip) _ _ _ h fun a x ha => by
    have e := shedOne_keeps' k x.1 x.2 a.s
    split
    · exact ha
    · split <;> next q => rw [q] at e; exact ⟨e.1.trans ha.1, e.2.trans ha.2⟩

@[simp] theorem setCap_keeps (f : Capacity → Capacity) (s : State) : (setCap f s).pending = s.pending ∧ (setCap f s).chip = s.chip := by
  unfold setCap; simp
@[simp] theorem setCap_fits (f : Capacity → Capacity) (s : State) (h : Fits s) : Fits (setCap f s) := by
  unfold setCap; simp [h]
@[simp] theorem bodyPowerPolicy_keeps (c : Call) (s : State) : (bodyPowerPolicy c s).state.pending = s.pending ∧ (bodyPowerPolicy c s).state.chip = s.chip := by
  unfold bodyPowerPolicy; (repeat' split) <;> simp
@[simp] theorem bodyPowerPolicy_fits (c : Call) (s : State) (h : Fits s) : Fits (bodyPowerPolicy c s).state := by
  unfold bodyPowerPolicy; (repeat' split) <;> simp [h]
theorem execPowerPolicy_keeps (tag : Byte) (p : List Byte) (s : State) {t : State} (e : execPowerPolicy tag p s = .next t) : t.pending = s.pending ∧ t.chip = s.chip := by
  unfold execPowerPolicy at e; exact hostRow_keeps (fun _ _ => by simp [cmdPowerPolicy]) e
theorem execPowerPolicy_fits (tag : Byte) (p : List Byte) (s : State) {t : State} (e : execPowerPolicy tag p s = .next t) (h : Fits s) : Fits t := by
  unfold execPowerPolicy at e; exact hostRow_fits (fun _ _ hu => by simp [cmdPowerPolicy, hu]) e h
theorem execCapacityStatus_keeps (tag : Byte) (p : List Byte) (s : State) {t : State} (e : execCapacityStatus tag p s = .next t) : t.pending = s.pending ∧ t.chip = s.chip := by
  unfold execCapacityStatus at e; exact hostRow_keeps (fun _ _ => by simp [cmdCapacityStatus]) e
theorem execCapacityStatus_fits (tag : Byte) (p : List Byte) (s : State) {t : State} (e : execCapacityStatus tag p s = .next t) (h : Fits s) : Fits t := by
  unfold execCapacityStatus at e; exact hostRow_fits (fun _ _ hu => by simp [cmdCapacityStatus, hu]) e h
@[simp] theorem setVcore_keeps (v : Nat) (s : State) : (setVcore v s).pending = s.pending ∧ (setVcore v s).chip = s.chip := by
  unfold setVcore; simp
@[simp] theorem setVcore_fits (v : Nat) (s : State) (h : Fits s) : Fits (setVcore v s) := by
  unfold setVcore; simp [h]
@[simp] theorem controlVcore_keeps (s : State) : (controlVcore s).pending = s.pending ∧ (controlVcore s).chip = s.chip := by
  unfold controlVcore; simp
@[simp] theorem controlVcore_fits (s : State) (h : Fits s) : Fits (controlVcore s) := by
  unfold controlVcore; try dsimp only
  repeat' first | with_reducible assumption | intro _ | with_reducible refine forEach_fits _ _ _ ?_ ?_ | with_reducible refine foldl_fits _ _ _ ?_ ?_ | with_reducible refine setCap_fits _ _ ?_ | with_reducible refine setVcore_fits _ _ ?_ | split | (simp (maxDischargeDepth := 20) [*]; done)
@[simp] theorem countShort_keeps (s : State) : (countShort s).pending = s.pending ∧ (countShort s).chip = s.chip := by
  unfold countShort; simp
@[simp] theorem countShort_fits (s : State) (h : Fits s) : Fits (countShort s) := by
  unfold countShort; simp [h]
@[simp] theorem judgeShortfall_keeps (s : State) : (judgeShortfall s).pending = s.pending ∧ (judgeShortfall s).chip = s.chip := by
  unfold judgeShortfall; simp
@[simp] theorem judgeShortfall_fits (s : State) (h : Fits s) : Fits (judgeShortfall s) := by
  unfold judgeShortfall; try dsimp only
  repeat' first | with_reducible assumption | intro _ | with_reducible refine forEach_fits _ _ _ ?_ ?_ | with_reducible refine foldl_fits _ _ _ ?_ ?_ | with_reducible refine faultBegins_fits _ _ _ _ _ _ ?_ | with_reducible refine setCap_fits _ _ ?_ | with_reducible refine faultEnds_fits _ _ _ _ ?_ | split | (simp (maxDischargeDepth := 20) [*]; done)
@[simp] theorem trackRestore_keeps (s : State) : (trackRestore s).pending = s.pending ∧ (trackRestore s).chip = s.chip := by
  unfold trackRestore; simp
@[simp] theorem trackRestore_fits (s : State) (h : Fits s) : Fits (trackRestore s) := by
  unfold trackRestore; simp [h]
theorem execCapacityMeasurement_keeps (rings : List Nat) (s : State) {t : State} (e : execCapacityMeasurement rings s = .next t) : t.pending = s.pending ∧ t.chip = s.chip := by
  unfold execCapacityMeasurement at e; (repeat' split at e) <;> simp at e <;> subst e <;> simp
theorem execCapacityMeasurement_fits (rings : List Nat) (s : State) {t : State} (e : execCapacityMeasurement rings s = .next t) (h : Fits s) : Fits t := by
  unfold execCapacityMeasurement at e; (try dsimp only at e)
  (repeat' split at e) <;> cases e
  all_goals repeat' first | with_reducible assumption | intro _ | with_reducible refine forEach_fits _ _ _ ?_ ?_ | with_reducible refine foldl_fits _ _ _ ?_ ?_ | with_reducible refine trackRestore_fits _ ?_ | with_reducible refine countShort_fits _ ?_ | with_reducible refine setCap_fits _ _ ?_ | with_reducible refine judgeShortfall_fits _ ?_ | with_reducible refine controlVcore_fits _ ?_ | split | (simp (maxDischargeDepth := 20) [*]; done)
theorem execPowerWindow_keeps (mw : Nat) (s : State) {t : State} (e : execPowerWindow mw s = .next t) : t.pending = s.pending ∧ t.chip = s.chip := by
  unfold execPowerWindow at e; (repeat' split at e) <;> simp at e <;> subst e <;> simp
theorem execPowerWindow_fits (mw : Nat) (s : State) {t : State} (e : execPowerWindow mw s = .next t) (h : Fits s) : Fits t := by
  unfold execPowerWindow at e; (try dsimp only at e)
  (repeat' split at e) <;> cases e
  all_goals repeat' first | with_reducible assumption | intro _ | with_reducible refine forEach_fits _ _ _ ?_ ?_ | with_reducible refine foldl_fits _ _ _ ?_ ?_ | with_reducible refine setCap_fits _ _ ?_ | with_reducible refine setVcore_fits _ _ ?_ | split | (simp (maxDischargeDepth := 20) [*]; done)
@[simp] theorem keepOne_keeps (w : Nat → ℚ) (mask : Nat) (s : State) : (keepOne w mask s).2.pending = s.pending ∧ (keepOne w mask s).2.chip = s.chip := by
  unfold keepOne; simp
@[simp] theorem keepOne_fits (w : Nat → ℚ) (mask : Nat) (s : State) (h : Fits s) : Fits (keepOne w mask s).2 := by
  unfold keepOne; simp [h]
@[simp] theorem shedOne_keeps (step : Nat) (engine : Bool) (id : Nat) (s : State) : (shedOne step engine id s).1.pending = s.pending ∧ (shedOne step engine id s).1.chip = s.chip := by
  unfold shedOne; (repeat' split) <;> simp
@[simp] theorem shedOne_fits (step : Nat) (engine : Bool) (id : Nat) (s : State) (h : Fits s) : Fits (shedOne step engine id s).1 := by
  unfold shedOne; try dsimp only
  repeat' first | with_reducible assumption | intro _ | with_reducible refine forEach_fits _ _ _ ?_ ?_ | with_reducible refine foldl_fits _ _ _ ?_ ?_ | with_reducible refine releaseEngine_fits _ _ ?_ | with_reducible refine setLaneMask_fits _ _ _ ?_ | with_reducible refine setCap_fits _ _ ?_ | with_reducible refine setEngineMask_fits _ _ _ ?_ | with_reducible refine keepOne_fits _ _ _ ?_ | with_reducible refine releaseLane_fits _ _ ?_ | split | (simp (maxDischargeDepth := 20) [*]; done)
@[simp] theorem evShed_keeps (cause : Nat) (before : Nat) (after : Nat) (l : List Shed) (s : State) : (evShed cause before after l s).pending = s.pending ∧ (evShed cause before after l s).chip = s.chip := by
  unfold evShed; simp
@[simp] theorem evShed_fits (cause : Nat) (before : Nat) (after : Nat) (l : List Shed) (s : State) (h : Fits s) : Fits (evShed cause before after l s) := by
  unfold evShed; simp [h]
@[simp] theorem shedRecords_keeps (cause before after k : Nat) (l : List Shed) (s : State) :
    (shedRecords cause before after k l s).pending = s.pending ∧ (shedRecords cause before after k l s).chip = s.chip := by
  induction k generalizing l s with
  | zero => exact ⟨rfl, rfl⟩
  | succ k ih => unfold shedRecords; dsimp only; split <;> simp [ih]
@[simp] theorem shedRecords_fits (cause before after k : Nat) (l : List Shed) (s : State) (h : Fits s) :
    Fits (shedRecords cause before after k l s) := by
  induction k generalizing l s with
  | zero => exact h
  | succ k ih => unfold shedRecords; dsimp only; split <;> simp [ih, h]
@[simp] theorem raiseCap_keeps (left : Nat) (s : State) : (raiseCap left s).pending = s.pending ∧ (raiseCap left s).chip = s.chip := by
  unfold raiseCap; simp
@[simp] theorem raiseCap_fits (left : Nat) (s : State) (h : Fits s) : Fits (raiseCap left s) := by
  unfold raiseCap; try dsimp only
  repeat' first | with_reducible assumption | intro _ | with_reducible refine forEach_fits _ _ _ ?_ ?_ | with_reducible refine foldl_fits _ _ _ ?_ ?_ | with_reducible refine setCap_fits _ _ ?_ | with_reducible refine evShed_fits _ _ _ _ _ ?_ | split | (simp (maxDischargeDepth := 20) [*]; done)
@[simp] theorem overcommit_keeps (left : Nat) (s : State) : (overcommit left s).pending = s.pending ∧ (overcommit left s).chip = s.chip := by
  unfold overcommit; simp
@[simp] theorem overcommit_fits (left : Nat) (s : State) (h : Fits s) : Fits (overcommit left s) := by
  unfold overcommit; try dsimp only
  repeat' first | with_reducible assumption | intro _ | with_reducible refine forEach_fits _ _ _ ?_ ?_ | with_reducible refine foldl_fits _ _ _ ?_ ?_ | with_reducible refine faultBegins_fits _ _ _ _ _ _ ?_ | with_reducible refine setCap_fits _ _ ?_ | with_reducible refine evShed_fits _ _ _ _ _ ?_ | with_reducible refine faultEnds_fits _ _ _ _ ?_ | split | (simp (maxDischargeDepth := 20) [*]; done)
theorem passStep_fits (lim : Rat) (p : Pass) (k : Nat) (h : Fits p.s) : Fits (passStep lim p k).s :=
  foldl_inv (fun a : Pass => Fits a.s) _ _ _ h fun a x ha => by
    have e := shedOne_fits k x.1 x.2 a.s ha
    split
    · exact ha
    · split <;> next q => rw [q] at e; exact e
@[simp] theorem sheddingPass_keeps (s : State) : (sheddingPass s).pending = s.pending ∧ (sheddingPass s).chip = s.chip := by
  have h1 := foldl_inv (fun a : Pass => a.s.pending = s.pending ∧ a.s.chip = s.chip) [1, 2, 3, 4, 5] (passStep (capLim s))
    { s := s, left := demand s, shed := [] } ⟨rfl, rfl⟩ fun a x ha => passStep_keeps _ _ _ _ ha
  unfold sheddingPass; dsimp only
  generalize List.foldl (passStep (capLim s)) { s := s, left := demand s, shed := [] } [1, 2, 3, 4, 5] = q at h1 ⊢
  split <;> simp [h1]
@[simp] theorem sheddingPass_fits (s : State) (h : Fits s) : Fits (sheddingPass s) := by
  have h1 := foldl_inv (fun a : Pass => Fits a.s) [1, 2, 3, 4, 5] (passStep (capLim s))
    { s := s, left := demand s, shed := [] } h fun a x ha => passStep_fits _ _ _ ha
  unfold sheddingPass; dsimp only
  generalize List.foldl (passStep (capLim s)) { s := s, left := demand s, shed := [] } [1, 2, 3, 4, 5] = q at h1 ⊢
  split <;> simp (maxDischargeDepth := 20) [h1]
theorem execSheddingPass_keeps (s : State) {t : State} (e : execSheddingPass s = .next t) : t.pending = s.pending ∧ t.chip = s.chip := by
  unfold execSheddingPass at e; (repeat' split at e) <;> simp at e <;> subst e <;> simp
theorem execSheddingPass_fits (s : State) {t : State} (e : execSheddingPass s = .next t) (h : Fits s) : Fits t := by
  unfold execSheddingPass at e; dsimp only at e; (repeat' split at e) <;> simp at e <;> subst e <;> (repeat' split) <;> simp_all
@[simp] theorem restoreOne_keeps (x : ShedEntry) (s : State) : (restoreOne x s).pending = s.pending ∧ (restoreOne x s).chip = s.chip := by
  unfold restoreOne; simp
@[simp] theorem restoreOne_fits (x : ShedEntry) (s : State) (h : Fits s) : Fits (restoreOne x s) := by
  unfold restoreOne; try dsimp only
  repeat' first | with_reducible assumption | intro _ | with_reducible refine forEach_fits _ _ _ ?_ ?_ | with_reducible refine foldl_fits _ _ _ ?_ ?_ | with_reducible refine setLaneMask_fits _ _ _ ?_ | with_reducible refine setCap_fits _ _ ?_ | with_reducible refine setEngineMask_fits _ _ _ ?_ | with_reducible refine evShed_fits _ _ _ _ _ ?_ | split | (simp (maxDischargeDepth := 20) [*]; done)
theorem execRestore_keeps (s : State) {t : State} (e : execRestore s = .next t) : t.pending = s.pending ∧ t.chip = s.chip := by
  unfold execRestore at e; dsimp only at e; (repeat' split at e) <;> simp at e <;> subst e <;> (repeat' split) <;> simp_all
theorem execRestore_fits (s : State) {t : State} (e : execRestore s = .next t) (h : Fits s) : Fits t := by
  unfold execRestore at e; dsimp only at e; (repeat' split at e) <;> simp at e <;> subst e <;> (repeat' split) <;> simp_all
@[simp] theorem gapOn_keeps (input : Nat) (a : State) : (gapOn input a).pending = a.pending ∧ (gapOn input a).chip = a.chip := by
  unfold gapOn; simp
@[simp] theorem gapOn_fits (input : Nat) (a : State) (h : Fits a) : Fits (gapOn input a) := by
  unfold gapOn; try dsimp only
  repeat' first | with_reducible assumption | intro _ | with_reducible refine forEach_fits _ _ _ ?_ ?_ | with_reducible refine foldl_fits _ _ _ ?_ ?_ | with_reducible refine updInput_fits _ _ _ ?_ | split | (simp (maxDischargeDepth := 20) [*]; done)
theorem execInputFifoDrop_keeps (input : Nat) (s : State) {t : State} (e : execInputFifoDrop input s = .next t) : t.pending = s.pending ∧ t.chip = s.chip := by
  unfold execInputFifoDrop at e; (repeat' split at e) <;> simp at e <;> subst e <;> simp
theorem execInputFifoDrop_fits (input : Nat) (s : State) {t : State} (e : execInputFifoDrop input s = .next t) (h : Fits s) : Fits t := by
  unfold execInputFifoDrop at e; (try dsimp only at e)
  (repeat' split at e) <;> cases e
  all_goals repeat' first | with_reducible assumption | intro _ | with_reducible refine forEach_fits _ _ _ ?_ ?_ | with_reducible refine foldl_fits _ _ _ ?_ ?_ | with_reducible refine gapOn_fits _ _ ?_ | with_reducible refine setCap_fits _ _ ?_ | with_reducible refine count_fits _ _ _ _ ?_ | split | (simp (maxDischargeDepth := 20) [*]; done)
theorem execDerateDecay_keeps (s : State) {t : State} (e : execDerateDecay s = .next t) : t.pending = s.pending ∧ t.chip = s.chip := by
  unfold execDerateDecay at e; (repeat' split at e) <;> simp at e <;> subst e <;> simp
theorem execDerateDecay_fits (s : State) {t : State} (e : execDerateDecay s = .next t) (h : Fits s) : Fits t := by
  unfold execDerateDecay at e; (repeat' split at e) <;> simp at e <;> subst e <;> simp [h]

/-! ### Resets -/

@[simp] theorem thermalCeiling_keeps (s : State) : (thermalCeiling s).pending = s.pending ∧ (thermalCeiling s).chip = s.chip := by
  unfold thermalCeiling; simp
@[simp] theorem thermalCeiling_fits (s : State) (h : Fits s) : Fits (thermalCeiling s) := by
  unfold thermalCeiling; try dsimp only
  repeat' first | with_reducible assumption | intro _ | with_reducible refine forEach_fits _ _ _ ?_ ?_ | with_reducible refine foldl_fits _ _ _ ?_ ?_ | with_reducible refine evThermal_fits _ _ _ ?_ | with_reducible refine setCap_fits _ _ ?_ | split | (simp (maxDischargeDepth := 20) [*]; done)
@[simp] theorem thermalTrip_keeps (s : State) : (thermalTrip s).pending = s.pending ∧ (thermalTrip s).chip = s.chip := by
  unfold thermalTrip; simp
@[simp] theorem thermalTrip_fits (s : State) (h : Fits s) : Fits (thermalTrip s) := by
  unfold thermalTrip; try dsimp only
  repeat' first | with_reducible assumption | intro _ | with_reducible refine forEach_fits _ _ _ ?_ ?_ | with_reducible refine foldl_fits _ _ _ ?_ ?_ | with_reducible refine evThermal_fits _ _ _ ?_ | with_reducible refine faultBegins_fits _ _ _ _ _ _ ?_ | with_reducible refine discardLink_fits _ ?_ | with_reducible refine stopMain_fits _ _ ?_ | split | (simp (maxDischargeDepth := 20) [*]; done)
@[simp] theorem countTrip_keeps (s : State) : (countTrip s).pending = s.pending ∧ (countTrip s).chip = s.chip := by
  unfold countTrip; simp
@[simp] theorem countTrip_fits (s : State) (h : Fits s) : Fits (countTrip s) := by
  unfold countTrip; simp [h]
@[simp] theorem trackCool_keeps (s : State) : (trackCool s).pending = s.pending ∧ (trackCool s).chip = s.chip := by
  unfold trackCool; simp
@[simp] theorem trackCool_fits (s : State) (h : Fits s) : Fits (trackCool s) := by
  unfold trackCool; simp [h]
@[simp] theorem setSensors_keeps (sensors : List Int) (backup : Int) (s : State) : (setSensors sensors backup s).pending = s.pending ∧ (setSensors sensors backup s).chip = s.chip := by
  unfold setSensors; simp
@[simp] theorem setSensors_fits (sensors : List Int) (backup : Int) (s : State) (h : Fits s) : Fits (setSensors sensors backup s) := by
  unfold setSensors; simp [h]
@[simp] theorem decideTriggers_keeps (s : State) : (decideTriggers s).pending = s.pending ∧ (decideTriggers s).chip = s.chip := by
  unfold decideTriggers; simp
@[simp] theorem decideTriggers_fits (s : State) (h : Fits s) : Fits (decideTriggers s) := by
  unfold decideTriggers; (repeat' split) <;> simp [h]
@[simp] theorem sensorsRunning_keeps (s : State) : (sensorsRunning s).pending = s.pending ∧ (sensorsRunning s).chip = s.chip := by
  unfold sensorsRunning; simp
@[simp] theorem sensorsRunning_fits (s : State) (h : Fits s) : Fits (sensorsRunning s) := by
  unfold sensorsRunning; try dsimp only
  repeat' first | with_reducible assumption | intro _ | with_reducible refine forEach_fits _ _ _ ?_ ?_ | with_reducible refine foldl_fits _ _ _ ?_ ?_ | with_reducible refine countTrip_fits _ ?_ | with_reducible refine decideTriggers_fits _ ?_ | with_reducible refine thermalCeiling_fits _ ?_ | with_reducible refine thermalTrip_fits _ ?_ | split | (simp (maxDischargeDepth := 20) [*]; done)
theorem execSensorRead_keeps (sensors : List Int) (backup : Int) (s : State) {t : State} (e : execSensorRead sensors backup s = .next t) : t.pending = s.pending ∧ t.chip = s.chip := by
  unfold execSensorRead at e; (repeat' split at e) <;> simp at e <;> subst e <;> simp
theorem execSensorRead_fits (sensors : List Int) (backup : Int) (s : State) {t : State} (e : execSensorRead sensors backup s = .next t) (h : Fits s) : Fits t := by
  unfold execSensorRead at e; (repeat' split at e) <;> simp at e <;> subst e <;> simp [h]
theorem execThermalRestart_keeps (s : State) {t : State} (e : execThermalRestart s = .next t) : t.pending = s.pending ∧ t.chip = s.chip := by
  unfold execThermalRestart at e; dsimp only at e; (repeat' split at e) <;> simp at e <;> subst e <;> (repeat' split) <;> simp_all
theorem execThermalRestart_fits (s : State) {t : State} (e : execThermalRestart s = .next t) (h : Fits s) : Fits t := by
  unfold execThermalRestart at e; dsimp only at e; (repeat' split at e) <;> simp at e <;> subst e <;> (repeat' split) <;> simp_all
@[simp] theorem coreFailure_keeps (counter : Nat) (code : Nat) (detail : Int) (cause : ResetCause) (s : State) : (coreFailure counter code detail cause s).pending = s.pending ∧ (coreFailure counter code detail cause s).chip = s.chip := by
  unfold coreFailure; simp
@[simp] theorem coreFailure_fits (counter : Nat) (code : Nat) (detail : Int) (cause : ResetCause) (s : State) (h : Fits s) : Fits (coreFailure counter code detail cause s) := by
  unfold coreFailure; try dsimp only
  repeat' first | with_reducible assumption | intro _ | with_reducible refine forEach_fits _ _ _ ?_ ?_ | with_reducible refine foldl_fits _ _ _ ?_ ?_ | with_reducible refine faultBegins_fits _ _ _ _ _ _ ?_ | with_reducible refine startMain_fits _ _ _ ?_ | with_reducible refine count_fits _ _ _ _ ?_ | split | (simp (maxDischargeDepth := 20) [*]; done)
theorem execWatchdogExpiry_keeps (s : State) {t : State} (e : execWatchdogExpiry s = .next t) : t.pending = s.pending ∧ t.chip = s.chip := by
  unfold execWatchdogExpiry at e; (repeat' split at e) <;> simp at e <;> subst e <;> simp
theorem execWatchdogExpiry_fits (s : State) {t : State} (e : execWatchdogExpiry s = .next t) (h : Fits s) : Fits t := by
  unfold execWatchdogExpiry at e; (repeat' split at e) <;> simp at e <;> subst e <;> simp [h]
theorem execFirmwareRamError_keeps (addr : Nat) (s : State) {t : State} (e : execFirmwareRamError addr s = .next t) : t.pending = s.pending ∧ t.chip = s.chip := by
  unfold execFirmwareRamError at e; (repeat' split at e) <;> simp at e <;> subst e <;> simp
theorem execFirmwareRamError_fits (addr : Nat) (s : State) {t : State} (e : execFirmwareRamError addr s = .next t) (h : Fits s) : Fits t := by
  unfold execFirmwareRamError at e; (repeat' split at e) <;> simp at e <;> subst e <;> simp [h]
@[simp] theorem failItem_keeps (code : Nat) (s : State) : (failItem code s).pending = s.pending ∧ (failItem code s).chip = s.chip := by
  unfold failItem; (try dsimp only); (repeat' split) <;> simp_all
@[simp] theorem failItem_fits (code : Nat) (s : State) (h : Fits s) : Fits (failItem code s) := by
  unfold failItem; try dsimp only
  repeat' first | with_reducible assumption | intro _ | with_reducible refine forEach_fits _ _ _ ?_ ?_ | with_reducible refine foldl_fits _ _ _ ?_ ?_ | with_reducible refine count_fits _ _ _ _ ?_ | split | (simp (maxDischargeDepth := 20) [*]; done)
@[simp] theorem startClocks_keeps (present : Bool) (s : State) : (startClocks present s).pending = s.pending ∧ (startClocks present s).chip = s.chip := by
  unfold startClocks; simp
@[simp] theorem startClocks_fits (present : Bool) (s : State) (h : Fits s) : Fits (startClocks present s) := by
  unfold startClocks; try dsimp only
  repeat' first | with_reducible assumption | intro _ | with_reducible refine forEach_fits _ _ _ ?_ ?_ | with_reducible refine foldl_fits _ _ _ ?_ ?_ | with_reducible refine refreshClocks_fits _ ?_ | with_reducible refine faultBegins_fits _ _ _ _ _ _ ?_ | with_reducible refine lockPllS_fits _ ?_ | with_reducible refine lockPllA_fits _ ?_ | with_reducible refine setClocks_fits _ _ ?_ ?_ | split | (simp (maxDischargeDepth := 20) [*]; done)
@[simp] theorem becomeReady_keeps (o : ReadyObs) (s : State) : (becomeReady o s).pending = s.pending ∧ (becomeReady o s).chip = s.chip := by
  unfold becomeReady; simp
@[simp] theorem becomeReady_fits (o : ReadyObs) (s : State) (h : Fits s) : Fits (becomeReady o s) := by
  have h1 : Fits (forEach (o.badItems ++ (stillBad s).filter fun c => !o.badItems.contains c) failItem (count 20 o.corrected 0 s)) :=
    forEach_fits _ _ _ (by simp [h]) fun _ _ hu => by simp [hu]
  unfold becomeReady; dsimp only
  generalize forEach (o.badItems ++ (stillBad s).filter fun c => !o.badItems.contains c) failItem (count 20 o.corrected 0 s) = u at h1 ⊢
  have h2 := startClocks_fits o.refPresent _ (show Fits { u with
      rds := { u.rds with stations := u.retained.stations.map fun r => r.getD Station.invalid }
      clocks := { u.clocks with band := u.retained.band.map fun b => b == some true } } by simp [h1])
  generalize startClocks o.refPresent _ = v at h2 ⊢
  exact setDomain_fits _ _ (by simp [h2])
theorem execDeviceReady_keeps (obs : ReadyObs) (s : State) {t : State} (e : execDeviceReady obs s = .next t) : t.pending = s.pending ∧ t.chip = s.chip := by
  unfold execDeviceReady at e; (repeat' split at e) <;> simp at e <;> subst e <;> simp
theorem execDeviceReady_fits (obs : ReadyObs) (s : State) {t : State} (e : execDeviceReady obs s = .next t) (h : Fits s) : Fits t := by
  unfold execDeviceReady at e; (try dsimp only at e)
  (repeat' split at e) <;> cases e
  all_goals repeat' first | with_reducible assumption | intro _ | with_reducible refine forEach_fits _ _ _ ?_ ?_ | with_reducible refine foldl_fits _ _ _ ?_ ?_ | with_reducible refine becomeReady_fits _ _ ?_ | with_reducible refine count_fits _ _ _ _ ?_ | with_reducible refine enterBlackout_fits _ _ _ ?_ | split | (simp (maxDischargeDepth := 20) [*]; done)
@[simp] theorem captureScene_keeps (s : State) : (captureScene s).pending = s.pending ∧ (captureScene s).chip = s.chip := by
  unfold captureScene; simp
@[simp] theorem captureScene_fits (s : State) (h : Fits s) : Fits (captureScene s) := by
  unfold captureScene; simp [h]
theorem execSceneCapture_keeps (s : State) {t : State} (e : execSceneCapture s = .next t) : t.pending = s.pending ∧ t.chip = s.chip := by
  unfold execSceneCapture at e; (repeat' split at e) <;> simp at e <;> subst e <;> simp
theorem execSceneCapture_fits (s : State) {t : State} (e : execSceneCapture s = .next t) (h : Fits s) : Fits t := by
  unfold execSceneCapture at e; (repeat' split at e) <;> simp at e <;> subst e <;> simp [h]
theorem execGhostLightEntry_keeps (s : State) {t : State} (e : execGhostLightEntry s = .next t) : t.pending = s.pending ∧ t.chip = s.chip := by
  unfold execGhostLightEntry at e; (repeat' split at e) <;> simp at e <;> subst e <;> simp
theorem execGhostLightEntry_fits (s : State) {t : State} (e : execGhostLightEntry s = .next t) (h : Fits s) : Fits t := by
  unfold execGhostLightEntry at e; (repeat' split at e) <;> simp at e <;> subst e <;> simp [h]
@[simp] theorem setWatch_keeps (w : WatchState) (s : State) : (setWatch w s).pending = s.pending ∧ (setWatch w s).chip = s.chip := by
  unfold setWatch; simp
@[simp] theorem setWatch_fits (w : WatchState) (s : State) (h : Fits s) : Fits (setWatch w s) := by
  unfold setWatch; simp [h]
@[simp] theorem setClusters_keeps (l : List Cluster) (s : State) : (setClusters l s).pending = s.pending ∧ (setClusters l s).chip = s.chip := by
  unfold setClusters; simp
@[simp] theorem setClusters_fits (l : List Cluster) (s : State) (h : Fits s) : Fits (setClusters l s) := by
  unfold setClusters; simp [h]
@[simp] theorem watchLost_keeps (s : State) : (watchLost s).pending = s.pending ∧ (watchLost s).chip = s.chip := by
  unfold watchLost; simp
@[simp] theorem watchLost_fits (s : State) (h : Fits s) : Fits (watchLost s) := by
  unfold watchLost; try dsimp only
  repeat' first | with_reducible assumption | intro _ | with_reducible refine forEach_fits _ _ _ ?_ ?_ | with_reducible refine foldl_fits _ _ _ ?_ ?_ | with_reducible refine setWatch_fits _ _ ?_ | with_reducible refine endAllHeld_fits _ ?_ | with_reducible refine setClusters_fits _ _ ?_ | with_reducible refine evGhost_fits _ _ ?_ | split | (simp (maxDischargeDepth := 20) [*]; done)
@[simp] theorem watchConfirms_keeps (id : Id16) (s : State) : (watchConfirms id s).pending = s.pending ∧ (watchConfirms id s).chip = s.chip := by
  unfold watchConfirms; simp
@[simp] theorem watchConfirms_fits (id : Id16) (s : State) (h : Fits s) : Fits (watchConfirms id s) := by
  unfold watchConfirms; try dsimp only
  repeat' first | with_reducible assumption | intro _ | with_reducible refine forEach_fits _ _ _ ?_ ?_ | with_reducible refine foldl_fits _ _ _ ?_ ?_ | with_reducible refine setWatch_fits _ _ ?_ | with_reducible refine endAllHeld_fits _ ?_ | with_reducible refine updLog_fits _ _ ?_ | with_reducible refine setClusters_fits _ _ ?_ | with_reducible refine evGhost_fits _ _ ?_ | split | (simp (maxDischargeDepth := 20) [*]; done)
@[simp] theorem watchIdentity_keeps (id : Id16) (s : State) : (watchIdentity id s).pending = s.pending ∧ (watchIdentity id s).chip = s.chip := by
  unfold watchIdentity; simp
@[simp] theorem watchIdentity_fits (id : Id16) (s : State) (h : Fits s) : Fits (watchIdentity id s) := by
  unfold watchIdentity; (repeat' split) <;> simp [h]
@[simp] theorem conditionStarts_keeps (a : Announce) (s : State) : (conditionStarts a s).pending = s.pending ∧ (conditionStarts a s).chip = s.chip := by
  unfold conditionStarts; simp
@[simp] theorem conditionStarts_fits (a : Announce) (s : State) (h : Fits s) : Fits (conditionStarts a s) := by
  unfold conditionStarts; (repeat' split) <;> simp [h]
@[simp] theorem conditionEnds_keeps (a : Announce) (s : State) : (conditionEnds a s).pending = s.pending ∧ (conditionEnds a s).chip = s.chip := by
  unfold conditionEnds; simp
@[simp] theorem conditionEnds_fits (a : Announce) (s : State) (h : Fits s) : Fits (conditionEnds a s) := by
  unfold conditionEnds; simp [h]
@[simp] theorem watchSwitch_keeps (cluster : Nat) (asw : Nat) (subch : Nat) (new : Bool) (region : Nat) (s : State) : (watchSwitch cluster asw subch new region s).pending = s.pending ∧ (watchSwitch cluster asw subch new region s).chip = s.chip := by
  unfold watchSwitch; simp
@[simp] theorem watchSwitch_fits (cluster : Nat) (asw : Nat) (subch : Nat) (new : Bool) (region : Nat) (s : State) (h : Fits s) : Fits (watchSwitch cluster asw subch new region s) := by
  unfold watchSwitch; try dsimp only
  repeat' first | with_reducible assumption | intro _ | with_reducible refine forEach_fits _ _ _ ?_ ?_ | with_reducible refine foldl_fits _ _ _ ?_ ?_ | with_reducible refine conditionStarts_fits _ _ ?_ | with_reducible refine setClusters_fits _ _ ?_ | with_reducible refine forEach_fits _ _ _ ?_ ?_ | with_reducible refine conditionEnds_fits _ _ ?_ | split | (simp (maxDischargeDepth := 20) [*]; done)
@[simp] theorem watchSilent_keeps (cluster : Nat) (s : State) : (watchSilent cluster s).pending = s.pending ∧ (watchSilent cluster s).chip = s.chip := by
  unfold watchSilent; (repeat' split) <;> simp
@[simp] theorem watchSilent_fits (cluster : Nat) (s : State) (h : Fits s) : Fits (watchSilent cluster s) := by
  unfold watchSilent; try dsimp only
  repeat' first | with_reducible assumption | intro _ | with_reducible refine forEach_fits _ _ _ ?_ ?_ | with_reducible refine foldl_fits _ _ _ ?_ ?_ | with_reducible refine setClusters_fits _ _ ?_ | with_reducible refine forEach_fits _ _ _ ?_ ?_ | with_reducible refine conditionEnds_fits _ _ ?_ | split | (simp (maxDischargeDepth := 20) [*]; done)
@[simp] theorem watchSees_keeps (o : WatchObs) (s : State) : (watchSees o s).pending = s.pending ∧ (watchSees o s).chip = s.chip := by
  unfold watchSees; (try dsimp only); (repeat' split) <;> simp_all
@[simp] theorem watchSees_fits (o : WatchObs) (s : State) (h : Fits s) : Fits (watchSees o s) := by
  unfold watchSees; try dsimp only
  repeat' first | with_reducible assumption | intro _ | with_reducible refine forEach_fits _ _ _ ?_ ?_ | with_reducible refine foldl_fits _ _ _ ?_ ?_ | with_reducible refine watchIdentity_fits _ _ ?_ | with_reducible refine watchSilent_fits _ _ ?_ | with_reducible refine watchSwitch_fits _ _ _ _ _ _ ?_ | with_reducible refine watchLost_fits _ ?_ | with_reducible refine conditionStarts_fits _ _ ?_ | with_reducible refine lockPllN_fits _ ?_ | with_reducible refine conditionEnds_fits _ _ ?_ | with_reducible refine losePllN_fits _ ?_ | split | (simp (maxDischargeDepth := 20) [*]; done)
theorem execWatchStateChange_keeps (obs : WatchObs) (s : State) {t : State} (e : execWatchStateChange obs s = .next t) : t.pending = s.pending ∧ t.chip = s.chip := by
  unfold execWatchStateChange at e; (repeat' split at e) <;> simp at e <;> subst e <;> simp
theorem execWatchStateChange_fits (obs : WatchObs) (s : State) {t : State} (e : execWatchStateChange obs s = .next t) (h : Fits s) : Fits t := by
  unfold execWatchStateChange at e; (repeat' split at e) <;> simp at e <;> subst e <;> simp [h]
theorem execAlertLogWrite_keeps (s : State) {t : State} (e : execAlertLogWrite s = .next t) : t.pending = s.pending ∧ t.chip = s.chip := by
  unfold execAlertLogWrite at e; (repeat' split at e) <;> simp at e <;> subst e <;> simp
theorem execAlertLogWrite_fits (s : State) {t : State} (e : execAlertLogWrite s = .next t) (h : Fits s) : Fits t := by
  unfold execAlertLogWrite at e; (repeat' split at e) <;> simp at e <;> subst e <;> simp [h]

/-! ### Diagnostics -/

@[simp] theorem countBadRecords_keeps (s : State) : (countBadRecords s).pending = s.pending ∧ (countBadRecords s).chip = s.chip := by
  unfold countBadRecords; simp
@[simp] theorem countBadRecords_fits (s : State) (h : Fits s) : Fits (countBadRecords s) := by
  unfold countBadRecords; try dsimp only
  repeat' first | with_reducible assumption | intro _ | with_reducible refine forEach_fits _ _ _ ?_ ?_ | with_reducible refine foldl_fits _ _ _ ?_ ?_ | with_reducible refine count_fits _ _ _ _ ?_ | with_reducible refine forEach_fits _ _ _ ?_ ?_ | split | (simp (maxDischargeDepth := 20) [*]; done)
@[simp] theorem bodyFaultLogRead_keeps (c : Call) (s : State) : (bodyFaultLogRead c s).state.pending = s.pending ∧ (bodyFaultLogRead c s).state.chip = s.chip := by
  unfold bodyFaultLogRead; simp
@[simp] theorem bodyFaultLogRead_fits (c : Call) (s : State) (h : Fits s) : Fits (bodyFaultLogRead c s).state := by
  unfold bodyFaultLogRead; simp [h]
theorem execFaultLogRead_keeps (tag : Byte) (p : List Byte) (s : State) {t : State} (e : execFaultLogRead tag p s = .next t) : t.pending = s.pending ∧ t.chip = s.chip := by
  unfold execFaultLogRead at e; exact hostRow_keeps (fun _ _ => by simp [cmdFaultLogRead]) e
theorem execFaultLogRead_fits (tag : Byte) (p : List Byte) (s : State) {t : State} (e : execFaultLogRead tag p s = .next t) (h : Fits s) : Fits t := by
  unfold execFaultLogRead at e; exact hostRow_fits (fun _ _ hu => by simp [cmdFaultLogRead, hu]) e h
@[simp] theorem clearCounters_keeps (first : Nat) (n : Nat) (s : State) : (clearCounters first n s).pending = s.pending ∧ (clearCounters first n s).chip = s.chip := by
  unfold clearCounters; simp
@[simp] theorem clearCounters_fits (first : Nat) (n : Nat) (s : State) (h : Fits s) : Fits (clearCounters first n s) := by
  unfold clearCounters; simp [h]
@[simp] theorem bodyCounters_keeps (c : Call) (s : State) : (bodyCounters c s).state.pending = s.pending ∧ (bodyCounters c s).state.chip = s.chip := by
  unfold bodyCounters; simp
@[simp] theorem bodyCounters_fits (c : Call) (s : State) (h : Fits s) : Fits (bodyCounters c s).state := by
  unfold bodyCounters; (repeat' split) <;> simp [h]
theorem execIntegrityCounters_keeps (tag : Byte) (p : List Byte) (s : State) {t : State} (e : execIntegrityCounters tag p s = .next t) : t.pending = s.pending ∧ t.chip = s.chip := by
  unfold execIntegrityCounters at e; exact hostRow_keeps (fun _ _ => by simp [cmdCounters]) e
theorem execIntegrityCounters_fits (tag : Byte) (p : List Byte) (s : State) {t : State} (e : execIntegrityCounters tag p s = .next t) (h : Fits s) : Fits t := by
  unfold execIntegrityCounters at e; exact hostRow_fits (fun _ _ hu => by simp [cmdCounters, hu]) e h
theorem execTemperatureRead_keeps (tag : Byte) (p : List Byte) (s : State) {t : State} (e : execTemperatureRead tag p s = .next t) : t.pending = s.pending ∧ t.chip = s.chip := by
  unfold execTemperatureRead at e; exact hostRow_keeps (fun _ _ => by simp [cmdTemperature]) e
theorem execTemperatureRead_fits (tag : Byte) (p : List Byte) (s : State) {t : State} (e : execTemperatureRead tag p s = .next t) (h : Fits s) : Fits t := by
  unfold execTemperatureRead at e; exact hostRow_fits (fun _ _ hu => by simp [cmdTemperature, hu]) e h
@[simp] theorem bodySnapshot_keeps (c : Call) (s : State) : (bodySnapshot c s).state.pending = s.pending ∧ (bodySnapshot c s).state.chip = s.chip := by
  unfold bodySnapshot; (try dsimp only); (repeat' split) <;> simp_all
@[simp] theorem bodySnapshot_fits (c : Call) (s : State) (h : Fits s) : Fits (bodySnapshot c s).state := by
  unfold bodySnapshot; try dsimp only
  repeat' first | with_reducible assumption | intro _ | with_reducible refine forEach_fits _ _ _ ?_ ?_ | with_reducible refine foldl_fits _ _ _ ?_ ?_ | with_reducible refine fail_fits _ _ ?_ | with_reducible refine okay_fits _ _ ?_ | split | (simp (maxDischargeDepth := 20) [*]; done)
theorem execSpectrumSnapshot_keeps (tag : Byte) (p : List Byte) (s : State) {t : State} (e : execSpectrumSnapshot tag p s = .next t) : t.pending = s.pending ∧ t.chip = s.chip := by
  unfold execSpectrumSnapshot at e; exact hostRow_keeps (fun _ _ => by simp [cmdSnapshot]) e
theorem execSpectrumSnapshot_fits (tag : Byte) (p : List Byte) (s : State) {t : State} (e : execSpectrumSnapshot tag p s = .next t) (h : Fits s) : Fits t := by
  unfold execSpectrumSnapshot at e; exact hostRow_fits (fun _ _ hu => by simp [cmdSnapshot, hu]) e h
@[simp] theorem bodySelftest_keeps (c : Call) (s : State) : (bodySelftest c s).state.pending = s.pending ∧ (bodySelftest c s).state.chip = s.chip := by
  unfold bodySelftest; simp
@[simp] theorem bodySelftest_fits (c : Call) (s : State) (h : Fits s) : Fits (bodySelftest c s).state := by
  unfold bodySelftest; simp [h]
theorem execSelftest_keeps (tag : Byte) (p : List Byte) (s : State) {t : State} (e : execSelftest tag p s = .next t) : t.pending = s.pending ∧ t.chip = s.chip := by
  unfold execSelftest at e; exact hostRow_keeps (fun _ _ => by simp [cmdSelftest]) e
theorem execSelftest_fits (tag : Byte) (p : List Byte) (s : State) {t : State} (e : execSelftest tag p s = .next t) (h : Fits s) : Fits t := by
  unfold execSelftest at e; exact hostRow_fits (fun _ _ hu => by simp [cmdSelftest, hu]) e h
@[simp] theorem scrubFirmware_keeps (corrected : Nat) (bad : Option Nat) (s : State) : (scrubFirmware corrected bad s).pending = s.pending ∧ (scrubFirmware corrected bad s).chip = s.chip := by
  unfold scrubFirmware; (repeat' split) <;> simp
@[simp] theorem scrubFirmware_fits (corrected : Nat) (bad : Option Nat) (s : State) (h : Fits s) : Fits (scrubFirmware corrected bad s) := by
  unfold scrubFirmware; (repeat' split) <;> simp [h]
@[simp] theorem scrubRetained_keeps (corrected : Nat) (bad : Option Nat) (s : State) : (scrubRetained corrected bad s).pending = s.pending ∧ (scrubRetained corrected bad s).chip = s.chip := by
  unfold scrubRetained; (repeat' split) <;> simp
@[simp] theorem scrubRetained_fits (corrected : Nat) (bad : Option Nat) (s : State) (h : Fits s) : Fits (scrubRetained corrected bad s) := by
  unfold scrubRetained; try dsimp only
  repeat' first | with_reducible assumption | intro _ | with_reducible refine forEach_fits _ _ _ ?_ ?_ | with_reducible refine foldl_fits _ _ _ ?_ ?_ | with_reducible refine failItem_fits _ _ ?_ | with_reducible refine count_fits _ _ _ _ ?_ | split | (simp (maxDischargeDepth := 20) [*]; done)
@[simp] theorem failBuffer_keeps (b : BufferItem) (s : State) : (failBuffer b s).pending = s.pending ∧ (failBuffer b s).chip = s.chip := by
  unfold failBuffer; (repeat' split) <;> simp
@[simp] theorem failBuffer_fits (b : BufferItem) (s : State) (h : Fits s) : Fits (failBuffer b s) := by
  unfold failBuffer; (repeat' split) <;> simp [h]
@[simp] theorem readBuffers_keeps (corrected : Nat) (bad : Option BufferItem) (s : State) : (readBuffers corrected bad s).pending = s.pending ∧ (readBuffers corrected bad s).chip = s.chip := by
  unfold readBuffers; (repeat' split) <;> simp
@[simp] theorem readBuffers_fits (corrected : Nat) (bad : Option BufferItem) (s : State) (h : Fits s) : Fits (readBuffers corrected bad s) := by
  unfold readBuffers; try dsimp only
  repeat' first | with_reducible assumption | intro _ | with_reducible refine forEach_fits _ _ _ ?_ ?_ | with_reducible refine foldl_fits _ _ _ ?_ ?_ | with_reducible refine count_fits _ _ _ _ ?_ | with_reducible refine failBuffer_fits _ _ ?_ | split | (simp (maxDischargeDepth := 20) [*]; done)
theorem execScrub_keeps (mem : ScrubMem) (corrected : Nat) (bad : Bool) (s : State) {t : State} (e : execScrub mem corrected bad s = .next t) : t.pending = s.pending ∧ t.chip = s.chip := by
  unfold execScrub at e; (repeat' split at e) <;> simp at e <;> subst e <;> simp
theorem execScrub_fits (mem : ScrubMem) (corrected : Nat) (bad : Bool) (s : State) {t : State} (e : execScrub mem corrected bad s = .next t) (h : Fits s) : Fits t := by
  unfold execScrub at e; (repeat' split at e) <;> simp at e <;> subst e <;> simp [h]
theorem execIntegrityRecord_keeps (index : Nat) (s : State) {t : State} (e : execIntegrityRecord index s = .next t) : t.pending = s.pending ∧ t.chip = s.chip := by
  unfold execIntegrityRecord at e; (repeat' split at e) <;> simp at e <;> subst e <;> simp
theorem execIntegrityRecord_fits (index : Nat) (s : State) {t : State} (e : execIntegrityRecord index s = .next t) (h : Fits s) : Fits t := by
  unfold execIntegrityRecord at e; (repeat' split at e) <;> simp at e <;> subst e <;> simp [h]
theorem execRecoveryRunnable_keeps (code : Nat) (inst : Nat) (s : State) {t : State} (e : execRecoveryRunnable code inst s = .next t) : t.pending = s.pending ∧ t.chip = s.chip := by
  unfold execRecoveryRunnable at e; (repeat' split at e) <;> simp at e <;> subst e <;> simp
theorem execRecoveryRunnable_fits (code : Nat) (inst : Nat) (s : State) {t : State} (e : execRecoveryRunnable code inst s = .next t) (h : Fits s) : Fits t := by
  unfold execRecoveryRunnable at e; (repeat' split at e) <;> simp at e <;> subst e <;> simp [h]
theorem execFaultLogWrite_keeps (s : State) {t : State} (e : execFaultLogWrite s = .next t) : t.pending = s.pending ∧ t.chip = s.chip := by
  unfold execFaultLogWrite at e; (repeat' split at e) <;> simp at e <;> subst e <;> simp
theorem execFaultLogWrite_fits (s : State) {t : State} (e : execFaultLogWrite s = .next t) (h : Fits s) : Fits t := by
  unfold execFaultLogWrite at e
  split at e <;> cases e
  · simp [h, lastRecords]; omega
  · exact h
theorem execBoundaryScan_keeps (drive : Bool) (s : State) {t : State} (e : execBoundaryScan drive s = .next t) : t.pending = s.pending ∧ t.chip = s.chip := by
  unfold execBoundaryScan at e; simp at e; subst e; simp
theorem execBoundaryScan_fits (drive : Bool) (s : State) {t : State} (e : execBoundaryScan drive s = .next t) (h : Fits s) : Fits t := by
  unfold execBoundaryScan at e; simp at e; subst e; simp [h]

/-! ### Flows -/

@[simp] theorem changePath_len (b : Bool) (f : Flows) : (changePath b f).flows.length = f.flows.length ∧
    (changePath b f).classes.length = f.classes.length := by
  unfold changePath; split <;> simp

@[simp] theorem bodyFlowOpen_keeps (c : Call) (s : State) : (bodyFlowOpen c s).state.pending = s.pending ∧ (bodyFlowOpen c s).state.chip = s.chip := by
  unfold bodyFlowOpen; (try dsimp only); (repeat' split) <;> simp_all
@[simp] theorem bodyFlowOpen_fits (c : Call) (s : State) (h : Fits s) : Fits (bodyFlowOpen c s).state := by
  unfold bodyFlowOpen; try dsimp only
  repeat' first | with_reducible assumption | intro _ | with_reducible refine forEach_fits _ _ _ ?_ ?_ | with_reducible refine foldl_fits _ _ _ ?_ ?_ | with_reducible refine updFlow_fits _ _ _ ?_ | with_reducible refine fail_fits _ _ ?_ | with_reducible refine okay_fits _ _ ?_ | split | (simp (maxDischargeDepth := 20) [*]; done)
theorem execFlowOpen_keeps (tag : Byte) (p : List Byte) (s : State) {t : State} (e : execFlowOpen tag p s = .next t) : t.pending = s.pending ∧ t.chip = s.chip := by
  unfold execFlowOpen at e; exact hostRow_keeps (fun _ _ => by simp [cmdFlowOpen]) e
theorem execFlowOpen_fits (tag : Byte) (p : List Byte) (s : State) {t : State} (e : execFlowOpen tag p s = .next t) (h : Fits s) : Fits t := by
  unfold execFlowOpen at e; exact hostRow_fits (fun _ _ hu => by simp [cmdFlowOpen, hu]) e h
@[simp] theorem bodyFlowClose_keeps (c : Call) (s : State) : (bodyFlowClose c s).state.pending = s.pending ∧ (bodyFlowClose c s).state.chip = s.chip := by
  unfold bodyFlowClose; (try dsimp only); (repeat' split) <;> simp_all
@[simp] theorem bodyFlowClose_fits (c : Call) (s : State) (h : Fits s) : Fits (bodyFlowClose c s).state := by
  unfold bodyFlowClose; try dsimp only
  repeat' first | with_reducible assumption | intro _ | with_reducible refine forEach_fits _ _ _ ?_ ?_ | with_reducible refine foldl_fits _ _ _ ?_ ?_ | with_reducible refine updFlow_fits _ _ _ ?_ | with_reducible refine fail_fits _ _ ?_ | with_reducible refine okay_fits _ _ ?_ | split | (simp (maxDischargeDepth := 20) [*]; done)
theorem execFlowClose_keeps (tag : Byte) (p : List Byte) (s : State) {t : State} (e : execFlowClose tag p s = .next t) : t.pending = s.pending ∧ t.chip = s.chip := by
  unfold execFlowClose at e; exact hostRow_keeps (fun _ _ => by simp [cmdFlowClose]) e
theorem execFlowClose_fits (tag : Byte) (p : List Byte) (s : State) {t : State} (e : execFlowClose tag p s = .next t) (h : Fits s) : Fits t := by
  unfold execFlowClose at e; exact hostRow_fits (fun _ _ hu => by simp [cmdFlowClose, hu]) e h
@[simp] theorem bodyFlowShape_keeps (c : Call) (s : State) : (bodyFlowShape c s).state.pending = s.pending ∧ (bodyFlowShape c s).state.chip = s.chip := by
  unfold bodyFlowShape; (try dsimp only); (repeat' split) <;> simp_all
@[simp] theorem bodyFlowShape_fits (c : Call) (s : State) (h : Fits s) : Fits (bodyFlowShape c s).state := by
  unfold bodyFlowShape; try dsimp only
  repeat' first | with_reducible assumption | intro _ | with_reducible refine forEach_fits _ _ _ ?_ ?_ | with_reducible refine foldl_fits _ _ _ ?_ ?_ | with_reducible refine fail_fits _ _ ?_ | with_reducible refine okay_fits _ _ ?_ | split | (simp (maxDischargeDepth := 20) [*]; done)
theorem execFlowShape_keeps (tag : Byte) (p : List Byte) (s : State) {t : State} (e : execFlowShape tag p s = .next t) : t.pending = s.pending ∧ t.chip = s.chip := by
  unfold execFlowShape at e; exact hostRow_keeps (fun _ _ => by simp [cmdFlowShape]) e
theorem execFlowShape_fits (tag : Byte) (p : List Byte) (s : State) {t : State} (e : execFlowShape tag p s = .next t) (h : Fits s) : Fits t := by
  unfold execFlowShape at e; exact hostRow_fits (fun _ _ hu => by simp [cmdFlowShape, hu]) e h
@[simp] theorem bodyClassShape_keeps (c : Call) (s : State) : (bodyClassShape c s).state.pending = s.pending ∧ (bodyClassShape c s).state.chip = s.chip := by
  unfold bodyClassShape; (try dsimp only); (repeat' split) <;> simp_all
@[simp] theorem bodyClassShape_fits (c : Call) (s : State) (h : Fits s) : Fits (bodyClassShape c s).state := by
  unfold bodyClassShape; try dsimp only
  repeat' first | with_reducible assumption | intro _ | with_reducible refine forEach_fits _ _ _ ?_ ?_ | with_reducible refine foldl_fits _ _ _ ?_ ?_ | with_reducible refine fail_fits _ _ ?_ | with_reducible refine okay_fits _ _ ?_ | split | (simp (maxDischargeDepth := 20) [*]; done)
theorem execClassShape_keeps (tag : Byte) (p : List Byte) (s : State) {t : State} (e : execClassShape tag p s = .next t) : t.pending = s.pending ∧ t.chip = s.chip := by
  unfold execClassShape at e; exact hostRow_keeps (fun _ _ => by simp [cmdClassShape]) e
theorem execClassShape_fits (tag : Byte) (p : List Byte) (s : State) {t : State} (e : execClassShape tag p s = .next t) (h : Fits s) : Fits t := by
  unfold execClassShape at e; exact hostRow_fits (fun _ _ hu => by simp [cmdClassShape, hu]) e h
@[simp] theorem bodyEgressConfig_keeps (c : Call) (s : State) : (bodyEgressConfig c s).state.pending = s.pending ∧ (bodyEgressConfig c s).state.chip = s.chip := by
  unfold bodyEgressConfig; (repeat' split) <;> simp
@[simp] theorem bodyEgressConfig_fits (c : Call) (s : State) (h : Fits s) : Fits (bodyEgressConfig c s).state := by
  unfold bodyEgressConfig; dsimp only; split <;> simp [h]
theorem execEgressConfig_keeps (tag : Byte) (p : List Byte) (s : State) {t : State} (e : execEgressConfig tag p s = .next t) : t.pending = s.pending ∧ t.chip = s.chip := by
  unfold execEgressConfig at e; exact hostRow_keeps (fun _ _ => by simp [cmdEgressConfig]) e
theorem execEgressConfig_fits (tag : Byte) (p : List Byte) (s : State) {t : State} (e : execEgressConfig tag p s = .next t) (h : Fits s) : Fits t := by
  unfold execEgressConfig at e; exact hostRow_fits (fun _ _ hu => by simp [cmdEgressConfig, hu]) e h
@[simp] theorem bodyFlowStats_keeps (c : Call) (s : State) : (bodyFlowStats c s).state.pending = s.pending ∧ (bodyFlowStats c s).state.chip = s.chip := by
  unfold bodyFlowStats; (repeat' split) <;> simp
@[simp] theorem bodyFlowStats_fits (c : Call) (s : State) (h : Fits s) : Fits (bodyFlowStats c s).state := by
  unfold bodyFlowStats; (repeat' split) <;> simp [h]
theorem execFlowStats_keeps (tag : Byte) (p : List Byte) (s : State) {t : State} (e : execFlowStats tag p s = .next t) : t.pending = s.pending ∧ t.chip = s.chip := by
  unfold execFlowStats at e; exact hostRow_keeps (fun _ _ => by simp [cmdFlowStats]) e
theorem execFlowStats_fits (tag : Byte) (p : List Byte) (s : State) {t : State} (e : execFlowStats tag p s = .next t) (h : Fits s) : Fits t := by
  unfold execFlowStats at e; exact hostRow_fits (fun _ _ hu => by simp [cmdFlowStats, hu]) e h
@[simp] theorem bodyMailboxRead_keeps (c : Call) (s : State) : (bodyMailboxRead c s).state.pending = s.pending ∧ (bodyMailboxRead c s).state.chip = s.chip := by
  unfold bodyMailboxRead; (repeat' split) <;> simp
@[simp] theorem bodyMailboxRead_fits (c : Call) (s : State) (h : Fits s) : Fits (bodyMailboxRead c s).state := by
  unfold bodyMailboxRead; dsimp only; (repeat' split) <;> simp [h]
theorem execMailboxRead_keeps (tag : Byte) (p : List Byte) (s : State) {t : State} (e : execMailboxRead tag p s = .next t) : t.pending = s.pending ∧ t.chip = s.chip := by
  unfold execMailboxRead at e; exact hostRow_keeps (fun _ _ => by simp [cmdMailboxRead]) e
theorem execMailboxRead_fits (tag : Byte) (p : List Byte) (s : State) {t : State} (e : execMailboxRead tag p s = .next t) (h : Fits s) : Fits t := by
  unfold execMailboxRead at e; exact hostRow_fits (fun _ _ hu => by simp [cmdMailboxRead, hu]) e h
@[simp] theorem sourceError_keeps (kind : Nat) (source : Nat) (qual : Nat) (s : State) : (sourceError kind source qual s).pending = s.pending ∧ (sourceError kind source qual s).chip = s.chip := by
  unfold sourceError; simp
@[simp] theorem sourceError_fits (kind : Nat) (source : Nat) (qual : Nat) (s : State) (h : Fits s) : Fits (sourceError kind source qual s) := by
  unfold sourceError; simp [h]
@[simp] theorem dataGroup_keeps (source : Nat) (qual : Nat) (bad : Bool) (l : List Byte) (s : State) : (dataGroup source qual bad l s).pending = s.pending ∧ (dataGroup source qual bad l s).chip = s.chip := by
  unfold dataGroup; simp
@[simp] theorem dataGroup_fits (source : Nat) (qual : Nat) (bad : Bool) (l : List Byte) (s : State) (h : Fits s) : Fits (dataGroup source qual bad l s) := by
  unfold dataGroup; try dsimp only
  repeat' first | with_reducible assumption | intro _ | with_reducible refine forEach_fits _ _ _ ?_ ?_ | with_reducible refine foldl_fits _ _ _ ?_ ?_ | with_reducible refine forEach_fits _ _ _ ?_ ?_ | with_reducible refine produce_fits _ _ _ _ _ _ _ ?_ | split | (simp (maxDischargeDepth := 20) [*]; done)
theorem execPacketArrival_keeps (kind : Nat) (source : Nat) (qual : Nat) (check : PacketCheck) (payload : List Byte) (s : State) {t : State} (e : execPacketArrival kind source qual check payload s = .next t) : t.pending = s.pending ∧ t.chip = s.chip := by
  unfold execPacketArrival at e; (repeat' split at e) <;> simp at e <;> subst e <;> simp
theorem execPacketArrival_fits (kind : Nat) (source : Nat) (qual : Nat) (check : PacketCheck) (payload : List Byte) (s : State) {t : State} (e : execPacketArrival kind source qual check payload s = .next t) (h : Fits s) : Fits t := by
  unfold execPacketArrival at e; (repeat' split at e) <;> simp at e <;> subst e <;> simp [h]
theorem execFlowDropRecord_keeps (i : Nat) (s : State) {t : State} (e : execFlowDropRecord i s = .next t) : t.pending = s.pending ∧ t.chip = s.chip := by
  unfold execFlowDropRecord at e; (repeat' split at e) <;> simp at e <;> subst e <;> simp
theorem execFlowDropRecord_fits (i : Nat) (s : State) {t : State} (e : execFlowDropRecord i s = .next t) (h : Fits s) : Fits t := by
  unfold execFlowDropRecord at e; (repeat' split at e) <;> simp at e <;> subst e <;> simp [h]

/-! ### Hop -/

@[simp] theorem hop_keeps (plan : Nat) (s : State) : (hop plan s).pending = s.pending ∧ (hop plan s).chip = s.chip := by
  unfold hop; simp
@[simp] theorem hop_fits (plan : Nat) (s : State) (h : Fits s) : Fits (hop plan s) := by
  unfold hop; try dsimp only
  repeat' first | with_reducible assumption | intro _ | with_reducible refine forEach_fits _ _ _ ?_ ?_ | with_reducible refine foldl_fits _ _ _ ?_ ?_ | with_reducible refine calHop_fits _ _ ?_ | with_reducible refine drawNat_fits _ ?_ | with_reducible refine evClock_fits _ _ _ _ ?_ | with_reducible refine retune_fits _ ?_ | with_reducible refine planSets_fits _ _ _ ?_ | with_reducible refine forEach_fits _ _ _ ?_ ?_ | with_reducible refine setClocks_fits _ _ ?_ ?_ | with_reducible refine rememberBand_fits _ ?_ | split | (simp (maxDischargeDepth := 20) [*]; done)
@[simp] theorem recordPlan_keeps (plan : Nat) (s : State) : (recordPlan plan s).pending = s.pending ∧ (recordPlan plan s).chip = s.chip := by
  unfold recordPlan; simp
@[simp] theorem recordPlan_fits (plan : Nat) (s : State) (h : Fits s) : Fits (recordPlan plan s) := by
  unfold recordPlan; (try dsimp only); (repeat' split) <;> simp_all
@[simp] theorem bodySamplePlan_keeps (c : Call) (s : State) : (bodySamplePlan c s).state.pending = s.pending ∧ (bodySamplePlan c s).state.chip = s.chip := by
  unfold bodySamplePlan; (try dsimp only); (repeat' split) <;> simp_all
@[simp] theorem bodySamplePlan_fits (c : Call) (s : State) (h : Fits s) : Fits (bodySamplePlan c s).state := by
  unfold bodySamplePlan; try dsimp only
  repeat' first | with_reducible assumption | intro _ | with_reducible refine forEach_fits _ _ _ ?_ ?_ | with_reducible refine foldl_fits _ _ _ ?_ ?_ | with_reducible refine recordPlan_fits _ _ ?_ | with_reducible refine hop_fits _ _ ?_ | with_reducible refine fail_fits _ _ ?_ | with_reducible refine okay_fits _ _ ?_ | split | (simp (maxDischargeDepth := 20) [*]; done)
theorem execSamplePlan_keeps (tag : Byte) (p : List Byte) (s : State) {t : State} (e : execSamplePlan tag p s = .next t) : t.pending = s.pending ∧ t.chip = s.chip := by
  unfold execSamplePlan at e; exact hostRow_keeps (fun _ _ => by simp [cmdSamplePlan]) e
theorem execSamplePlan_fits (tag : Byte) (p : List Byte) (s : State) {t : State} (e : execSamplePlan tag p s = .next t) (h : Fits s) : Fits t := by
  unfold execSamplePlan at e; exact hostRow_fits (fun _ _ hu => by simp [cmdSamplePlan, hu]) e h

/-! ### Link -/

@[simp] theorem busStop_keeps (s : State) : (busStop s).pending = s.pending ∧ (busStop s).chip = s.chip := by
  unfold busStop; simp
@[simp] theorem busStop_fits (s : State) (h : Fits s) : Fits (busStop s) := by
  unfold busStop; try dsimp only
  repeat' first | with_reducible assumption | intro _ | with_reducible refine forEach_fits _ _ _ ?_ ?_ | with_reducible refine foldl_fits _ _ _ ?_ ?_ | with_reducible refine faultEnds_fits _ _ _ _ ?_ | split | (simp (maxDischargeDepth := 20) [*]; done)
@[simp] theorem receiptOf_keeps (bytes : List Byte) (s : State) : (receiptOf bytes s).pending = s.pending ∧ (receiptOf bytes s).chip = s.chip := by
  unfold receiptOf; simp
@[simp] theorem receiptOf_fits (bytes : List Byte) (s : State) (h : Fits s) : Fits (receiptOf bytes s) := by
  unfold receiptOf; try dsimp only
  repeat' first | with_reducible assumption | intro _ | with_reducible refine forEach_fits _ _ _ ?_ ?_ | with_reducible refine foldl_fits _ _ _ ?_ ?_ | with_reducible refine receive_fits _ _ ?_ | with_reducible refine putReply_fits _ _ ?_ | with_reducible refine count_fits _ _ _ _ ?_ | split | (simp (maxDischargeDepth := 20) [*]; done)
theorem execCommandReceipt_keeps (bytes : List Byte) (s : State) {t : State} (e : execCommandReceipt bytes s = .next t) : t.pending = s.pending ∧ t.chip = s.chip := by
  unfold execCommandReceipt at e; (repeat' split at e) <;> simp at e <;> subst e <;> simp
theorem execCommandReceipt_fits (bytes : List Byte) (s : State) {t : State} (e : execCommandReceipt bytes s = .next t) (h : Fits s) : Fits t := by
  unfold execCommandReceipt at e; (repeat' split at e) <;> simp at e <;> subst e <;> simp [h]
@[simp] theorem readOf_keeps (delivered : Nat) (s : State) : (readOf delivered s).pending = s.pending ∧ (readOf delivered s).chip = s.chip := by
  unfold readOf; (repeat' split) <;> simp
@[simp] theorem readOf_fits (delivered : Nat) (s : State) (h : Fits s) : Fits (readOf delivered s) := by
  unfold readOf
  have := fits_fifo h
  split
  · exact h
  · next r rs e => rw [e] at this; simp at this; split <;> simp [h]; omega
theorem execReplyRead_keeps (delivered : Nat) (s : State) {t : State} (e : execReplyRead delivered s = .next t) : t.pending = s.pending ∧ t.chip = s.chip := by
  unfold execReplyRead at e; (repeat' split at e) <;> simp at e <;> subst e <;> simp
theorem execReplyRead_fits (delivered : Nat) (s : State) {t : State} (e : execReplyRead delivered s = .next t) (h : Fits s) : Fits t := by
  unfold execReplyRead at e; (repeat' split at e) <;> simp at e <;> subst e <;> simp [h]
@[simp] theorem cutTransfer_keeps (d : XferDir) (s : State) : (cutTransfer d s).pending = s.pending ∧ (cutTransfer d s).chip = s.chip := by
  unfold cutTransfer; (repeat' split) <;> simp
@[simp] theorem cutTransfer_fits (d : XferDir) (s : State) (h : Fits s) : Fits (cutTransfer d s) := by
  unfold cutTransfer; (repeat' split) <;> simp [h]
theorem execBrokenTransfer_keeps (kind : BrokenKind) (s : State) {t : State} (e : execBrokenTransfer kind s = .next t) : t.pending = s.pending ∧ t.chip = s.chip := by
  unfold execBrokenTransfer at e; (repeat' split at e) <;> simp at e <;> subst e <;> simp
theorem execBrokenTransfer_fits (kind : BrokenKind) (s : State) {t : State} (e : execBrokenTransfer kind s = .next t) (h : Fits s) : Fits t := by
  unfold execBrokenTransfer at e; (repeat' split at e) <;> simp at e <;> subst e <;> simp [h]
@[simp] theorem selfReset_keeps (inst : Nat) (code : Nat) (s : State) : (selfReset inst code s).pending = s.pending ∧ (selfReset inst code s).chip = s.chip := by
  unfold selfReset; simp
@[simp] theorem selfReset_fits (inst : Nat) (code : Nat) (s : State) (h : Fits s) : Fits (selfReset inst code s) := by
  unfold selfReset; try dsimp only
  repeat' first | with_reducible assumption | intro _ | with_reducible refine forEach_fits _ _ _ ?_ ?_ | with_reducible refine foldl_fits _ _ _ ?_ ?_ | with_reducible refine faultBegins_fits _ _ _ _ _ _ ?_ | with_reducible refine count_fits _ _ _ _ ?_ | split | (simp (maxDischargeDepth := 20) [*]; done)
theorem execTSlimExpiry_keeps (write : Bool) (s : State) {t : State} (e : execTSlimExpiry write s = .next t) : t.pending = s.pending ∧ t.chip = s.chip := by
  unfold execTSlimExpiry at e; (repeat' split at e) <;> simp at e <;> subst e <;> simp
theorem execTSlimExpiry_fits (write : Bool) (s : State) {t : State} (e : execTSlimExpiry write s = .next t) (h : Fits s) : Fits t := by
  unfold execTSlimExpiry at e; (repeat' split at e) <;> simp at e <;> subst e <;> simp [h]
theorem execSdaHoldExpiry_keeps (write : Bool) (s : State) {t : State} (e : execSdaHoldExpiry write s = .next t) : t.pending = s.pending ∧ t.chip = s.chip := by
  unfold execSdaHoldExpiry at e; (repeat' split at e) <;> simp at e <;> subst e <;> simp
theorem execSdaHoldExpiry_fits (write : Bool) (s : State) {t : State} (e : execSdaHoldExpiry write s = .next t) (h : Fits s) : Fits t := by
  unfold execSdaHoldExpiry at e; (repeat' split at e) <;> simp at e <;> subst e <;> simp [h]
theorem execReplyFifoEntry_keeps (s : State) {t : State} (e : execReplyFifoEntry s = .next t) : t.pending = s.pending ∧ t.chip = s.chip := by
  unfold execReplyFifoEntry at e; (repeat' split at e) <;> simp at e <;> subst e <;> simp
theorem execReplyFifoEntry_fits (s : State) {t : State} (e : execReplyFifoEntry s = .next t) (h : Fits s) : Fits t := by
  unfold execReplyFifoEntry at e; dsimp only at e; (repeat' split at e) <;> simp at e <;> subst e <;> (repeat' split) <;> simp_all
theorem execPromptDueTimer_keeps (s : State) {t : State} (e : execPromptDueTimer s = .next t) : t.pending = s.pending ∧ t.chip = s.chip := by
  unfold execPromptDueTimer at e; (repeat' split at e) <;> simp at e <;> subst e <;> simp
theorem execPromptDueTimer_fits (s : State) {t : State} (e : execPromptDueTimer s = .next t) (h : Fits s) : Fits t := by
  unfold execPromptDueTimer at e; (repeat' split at e) <;> simp at e <;> subst e <;> simp [h]
theorem execPrompt_keeps (sclFell : Bool) (s : State) {t : State} (e : execPrompt sclFell s = .next t) : t.pending = s.pending ∧ t.chip = s.chip := by
  unfold execPrompt at e; (repeat' split at e) <;> simp at e <;> subst e <;> simp
theorem execPrompt_fits (sclFell : Bool) (s : State) {t : State} (e : execPrompt sclFell s = .next t) (h : Fits s) : Fits t := by
  unfold execPrompt at e; (repeat' split at e) <;> simp at e <;> subst e <;> simp [h]
theorem execGeneralCall_keeps (first : BusByte) (s : State) {t : State} (e : execGeneralCall first s = .next t) : t.pending = s.pending ∧ t.chip = s.chip := by
  unfold execGeneralCall at e; (repeat' split at e) <;> simp at e <;> subst e <;> simp
theorem execGeneralCall_fits (first : BusByte) (s : State) {t : State} (e : execGeneralCall first s = .next t) (h : Fits s) : Fits t := by
  unfold execGeneralCall at e; (repeat' split at e) <;> simp at e <;> subst e <;> simp [h]

/-! ### Ports -/

@[simp] theorem portStarts_keeps (n : Nat) (c : PortCfg) (tag : Byte) (s : State) : (portStarts n c tag s).state.pending = s.pending ∧ (portStarts n c tag s).state.chip = s.chip := by
  unfold portStarts; (repeat' split) <;> simp
@[simp] theorem portStarts_fits (n : Nat) (c : PortCfg) (tag : Byte) (s : State) (h : Fits s) : Fits (portStarts n c tag s).state := by
  unfold portStarts; (repeat' split) <;> simp [h]
@[simp] theorem portSet_keeps (n : Nat) (c : PortCfg) (tag : Byte) (p : Port) (s : State) : (portSet n c tag p s).state.pending = s.pending ∧ (portSet n c tag p s).state.chip = s.chip := by
  unfold portSet; (repeat' split) <;> simp
@[simp] theorem portSet_fits (n : Nat) (c : PortCfg) (tag : Byte) (p : Port) (s : State) (h : Fits s) : Fits (portSet n c tag p s).state := by
  unfold portSet; try dsimp only
  repeat' first | with_reducible assumption | intro _ | with_reducible refine forEach_fits _ _ _ ?_ ?_ | with_reducible refine foldl_fits _ _ _ ?_ ?_ | with_reducible refine updPort_fits _ _ _ ?_ | with_reducible refine portStarts_fits _ _ _ _ ?_ | with_reducible refine finishWait_fits _ _ ?_ | with_reducible refine okay_fits _ _ ?_ | split | (simp (maxDischargeDepth := 20) [*]; done)
@[simp] theorem bodyPortConfig_keeps (c : Call) (s : State) : (bodyPortConfig c s).state.pending = s.pending ∧ (bodyPortConfig c s).state.chip = s.chip := by
  unfold bodyPortConfig; (try dsimp only); (repeat' split) <;> simp_all
@[simp] theorem bodyPortConfig_fits (c : Call) (s : State) (h : Fits s) : Fits (bodyPortConfig c s).state := by
  unfold bodyPortConfig; try dsimp only
  repeat' first | with_reducible assumption | intro _ | with_reducible refine forEach_fits _ _ _ ?_ ?_ | with_reducible refine foldl_fits _ _ _ ?_ ?_ | with_reducible refine fail_fits _ _ ?_ | with_reducible refine portSet_fits _ _ _ _ _ ?_ | with_reducible refine okay_fits _ _ ?_ | split | (simp (maxDischargeDepth := 20) [*]; done)
theorem execPortConfig_keeps (tag : Byte) (p : List Byte) (s : State) {t : State} (e : execPortConfig tag p s = .next t) : t.pending = s.pending ∧ t.chip = s.chip := by
  unfold execPortConfig at e; exact hostRow_keeps (fun _ _ => by simp [cmdPortConfig]) e
theorem execPortConfig_fits (tag : Byte) (p : List Byte) (s : State) {t : State} (e : execPortConfig tag p s = .next t) (h : Fits s) : Fits t := by
  unfold execPortConfig at e; exact hostRow_fits (fun _ _ hu => by simp [cmdPortConfig, hu]) e h
@[simp] theorem bodySlotMap_keeps (c : Call) (s : State) : (bodySlotMap c s).state.pending = s.pending ∧ (bodySlotMap c s).state.chip = s.chip := by
  unfold bodySlotMap; (try dsimp only); (repeat' split) <;> simp_all
@[simp] theorem bodySlotMap_fits (c : Call) (s : State) (h : Fits s) : Fits (bodySlotMap c s).state := by
  unfold bodySlotMap; try dsimp only
  repeat' first | with_reducible assumption | intro _ | with_reducible refine forEach_fits _ _ _ ?_ ?_ | with_reducible refine foldl_fits _ _ _ ?_ ?_ | with_reducible refine fail_fits _ _ ?_ | split | (simp (maxDischargeDepth := 20) [*]; done)
theorem execSlotMap_keeps (tag : Byte) (p : List Byte) (s : State) {t : State} (e : execSlotMap tag p s = .next t) : t.pending = s.pending ∧ t.chip = s.chip := by
  unfold execSlotMap at e; exact hostRow_keeps (fun _ _ => by simp [cmdSlotMap]) e
theorem execSlotMap_fits (tag : Byte) (p : List Byte) (s : State) {t : State} (e : execSlotMap tag p s = .next t) (h : Fits s) : Fits t := by
  unfold execSlotMap at e; exact hostRow_fits (fun _ _ hu => by simp [cmdSlotMap, hu]) e h
@[simp] theorem bodyStatusSlotConfig_keeps (c : Call) (s : State) : (bodyStatusSlotConfig c s).state.pending = s.pending ∧ (bodyStatusSlotConfig c s).state.chip = s.chip := by
  unfold bodyStatusSlotConfig; (repeat' split) <;> simp
@[simp] theorem bodyStatusSlotConfig_fits (c : Call) (s : State) (h : Fits s) : Fits (bodyStatusSlotConfig c s).state := by
  unfold bodyStatusSlotConfig; (repeat' split) <;> simp [h]
theorem execStatusSlotConfig_keeps (tag : Byte) (p : List Byte) (s : State) {t : State} (e : execStatusSlotConfig tag p s = .next t) : t.pending = s.pending ∧ t.chip = s.chip := by
  unfold execStatusSlotConfig at e; exact hostRow_keeps (fun _ _ => by simp [cmdStatusSlotConfig]) e
theorem execStatusSlotConfig_fits (tag : Byte) (p : List Byte) (s : State) {t : State} (e : execStatusSlotConfig tag p s = .next t) (h : Fits s) : Fits t := by
  unfold execStatusSlotConfig at e; exact hostRow_fits (fun _ _ hu => by simp [cmdStatusSlotConfig, hu]) e h
@[simp] theorem bodySpdifConfig_keeps (c : Call) (s : State) : (bodySpdifConfig c s).state.pending = s.pending ∧ (bodySpdifConfig c s).state.chip = s.chip := by
  unfold bodySpdifConfig; (repeat' split) <;> simp
@[simp] theorem bodySpdifConfig_fits (c : Call) (s : State) (h : Fits s) : Fits (bodySpdifConfig c s).state := by
  unfold bodySpdifConfig; (repeat' split) <;> simp [h]
theorem execSpdifConfig_keeps (tag : Byte) (p : List Byte) (s : State) {t : State} (e : execSpdifConfig tag p s = .next t) : t.pending = s.pending ∧ t.chip = s.chip := by
  unfold execSpdifConfig at e; exact hostRow_keeps (fun _ _ => by simp [cmdSpdifConfig]) e
theorem execSpdifConfig_fits (tag : Byte) (p : List Byte) (s : State) {t : State} (e : execSpdifConfig tag p s = .next t) (h : Fits s) : Fits t := by
  unfold execSpdifConfig at e; exact hostRow_fits (fun _ _ hu => by simp [cmdSpdifConfig, hu]) e h
@[simp] theorem bodyPortStatus_keeps (c : Call) (s : State) : (bodyPortStatus c s).state.pending = s.pending ∧ (bodyPortStatus c s).state.chip = s.chip := by
  unfold bodyPortStatus; (try dsimp only); (repeat' split) <;> simp_all
@[simp] theorem bodyPortStatus_fits (c : Call) (s : State) (h : Fits s) : Fits (bodyPortStatus c s).state := by
  unfold bodyPortStatus; try dsimp only
  repeat' first | with_reducible assumption | intro _ | with_reducible refine forEach_fits _ _ _ ?_ ?_ | with_reducible refine foldl_fits _ _ _ ?_ ?_ | with_reducible refine okay_fits _ _ ?_ | split | (simp (maxDischargeDepth := 20) [*]; done)
theorem execPortStatus_keeps (tag : Byte) (p : List Byte) (s : State) {t : State} (e : execPortStatus tag p s = .next t) : t.pending = s.pending ∧ t.chip = s.chip := by
  unfold execPortStatus at e; exact hostRow_keeps (fun _ _ => by simp [cmdPortStatus]) e
theorem execPortStatus_fits (tag : Byte) (p : List Byte) (s : State) {t : State} (e : execPortStatus tag p s = .next t) (h : Fits s) : Fits t := by
  unfold execPortStatus at e; exact hostRow_fits (fun _ _ hu => by simp [cmdPortStatus, hu]) e h
theorem onPort_keeps {n : Nat} {s : State} {f : Port → State} {t : State} (e : onPort n s f = .next t)
    (hf : ∀ p, (f p).pending = s.pending ∧ (f p).chip = s.chip) : t.pending = s.pending ∧ t.chip = s.chip := by
  unfold onPort at e; split at e <;> cases e; exact hf _
theorem onPort_fits {n : Nat} {s : State} {f : Port → State} {t : State} (e : onPort n s f = .next t) (hf : ∀ p, Fits (f p)) : Fits t := by
  unfold onPort at e; split at e <;> cases e; exact hf _
@[simp] theorem portRecovery_keeps (n : Nat) (s : State) : (portRecovery n s).pending = s.pending ∧ (portRecovery n s).chip = s.chip := by
  unfold portRecovery; simp
@[simp] theorem portRecovery_fits (n : Nat) (s : State) (h : Fits s) : Fits (portRecovery n s) := by
  unfold portRecovery; simp [h]
theorem execPortLock_keeps (port : Nat) (ppm : Int) (s : State) {t : State} (e : execPortLock port ppm s = .next t) : t.pending = s.pending ∧ t.chip = s.chip := by
  unfold execPortLock at e; refine onPort_keeps e fun p => ?_; (try dsimp only); (repeat' split) <;> simp
theorem execPortLock_fits (port : Nat) (ppm : Int) (s : State) {t : State} (e : execPortLock port ppm s = .next t) (h : Fits s) : Fits t := by
  unfold execPortLock at e; refine onPort_fits e fun p => ?_; (try dsimp only); (repeat' split) <;> simp (maxDischargeDepth := 20) [h]
theorem execPortStop_keeps (port : Nat) (s : State) {t : State} (e : execPortStop port s = .next t) : t.pending = s.pending ∧ t.chip = s.chip := by
  unfold execPortStop at e; refine onPort_keeps e fun p => ?_; (try dsimp only); (repeat' split) <;> simp
theorem execPortStop_fits (port : Nat) (s : State) {t : State} (e : execPortStop port s = .next t) (h : Fits s) : Fits t := by
  unfold execPortStop at e; refine onPort_fits e fun p => ?_; (try dsimp only); (repeat' split) <;> simp (maxDischargeDepth := 20) [h]
theorem execTdmFrame_keeps (port : Nat) (place : Nat × Nat) (completed : Bool) (s : State) {t : State} (e : execTdmFrame port place completed s = .next t) : t.pending = s.pending ∧ t.chip = s.chip := by
  unfold execTdmFrame at e; refine onPort_keeps e fun p => ?_; (try dsimp only); (repeat' split) <;> simp
theorem execTdmFrame_fits (port : Nat) (place : Nat × Nat) (completed : Bool) (s : State) {t : State} (e : execTdmFrame port place completed s = .next t) (h : Fits s) : Fits t := by
  unfold execTdmFrame at e; refine onPort_fits e fun p => ?_; (try dsimp only); (repeat' split) <;> simp (maxDischargeDepth := 20) [h]
theorem execSpdifFrame_keeps (num : Nat) (den : Nat) (s : State) {t : State} (e : execSpdifFrame num den s = .next t) : t.pending = s.pending ∧ t.chip = s.chip := by
  unfold execSpdifFrame at e; dsimp only at e; (repeat' split at e) <;> simp at e <;> subst e <;> (repeat' split) <;> simp_all
theorem execSpdifFrame_fits (num : Nat) (den : Nat) (s : State) {t : State} (e : execSpdifFrame num den s = .next t) (h : Fits s) : Fits t := by
  unfold execSpdifFrame at e; dsimp only at e; (repeat' split at e) <;> simp at e <;> subst e <;> (repeat' split) <;> simp_all
@[simp] theorem glitch_keeps (n : Nat) (p : Port) (s : State) : (glitch n p s).pending = s.pending ∧ (glitch n p s).chip = s.chip := by
  unfold glitch; simp
@[simp] theorem glitch_fits (n : Nat) (p : Port) (s : State) (h : Fits s) : Fits (glitch n p s) := by
  unfold glitch; try dsimp only
  repeat' first | with_reducible assumption | intro _ | with_reducible refine forEach_fits _ _ _ ?_ ?_ | with_reducible refine foldl_fits _ _ _ ?_ ?_ | with_reducible refine updPort_fits _ _ _ ?_ | with_reducible refine evPort_fits _ _ _ _ ?_ | split | (simp (maxDischargeDepth := 20) [*]; done)
theorem execFsyncGlitch_keeps (port : Nat) (s : State) {t : State} (e : execFsyncGlitch port s = .next t) : t.pending = s.pending ∧ t.chip = s.chip := by
  unfold execFsyncGlitch at e; refine onPort_keeps e fun p => ?_; (try dsimp only); (repeat' split) <;> simp
theorem execFsyncGlitch_fits (port : Nat) (s : State) {t : State} (e : execFsyncGlitch port s = .next t) (h : Fits s) : Fits t := by
  unfold execFsyncGlitch at e; refine onPort_fits e fun p => ?_; (try dsimp only); (repeat' split) <;> simp (maxDischargeDepth := 20) [h]
theorem execPortClockLoss_keeps (port : Nat) (s : State) {t : State} (e : execPortClockLoss port s = .next t) : t.pending = s.pending ∧ t.chip = s.chip := by
  unfold execPortClockLoss at e; refine onPort_keeps e fun p => ?_; (try dsimp only); (repeat' split) <;> simp
theorem execPortClockLoss_fits (port : Nat) (s : State) {t : State} (e : execPortClockLoss port s = .next t) (h : Fits s) : Fits t := by
  unfold execPortClockLoss at e; refine onPort_fits e fun p => ?_; (try dsimp only); (repeat' split) <;> simp (maxDischargeDepth := 20) [h]
theorem execRateStep_keeps (port : Nat) (ppm : Int) (s : State) {t : State} (e : execRateStep port ppm s = .next t) : t.pending = s.pending ∧ t.chip = s.chip := by
  unfold execRateStep at e; refine onPort_keeps e fun p => ?_; (try dsimp only); (repeat' split) <;> simp
theorem execRateStep_fits (port : Nat) (ppm : Int) (s : State) {t : State} (e : execRateStep port ppm s = .next t) (h : Fits s) : Fits t := by
  unfold execRateStep at e; refine onPort_fits e fun p => ?_; (try dsimp only); (repeat' split) <;> simp (maxDischargeDepth := 20) [h]

/-! ### Rds -/

@[simp] theorem bodyRdsConfig_keeps (c : Call) (s : State) : (bodyRdsConfig c s).state.pending = s.pending ∧ (bodyRdsConfig c s).state.chip = s.chip := by
  unfold bodyRdsConfig; (repeat' split) <;> simp
@[simp] theorem bodyRdsConfig_fits (c : Call) (s : State) (h : Fits s) : Fits (bodyRdsConfig c s).state := by
  unfold bodyRdsConfig; (repeat' split) <;> simp [h]
theorem execRdsConfig_keeps (tag : Byte) (p : List Byte) (s : State) {t : State} (e : execRdsConfig tag p s = .next t) : t.pending = s.pending ∧ t.chip = s.chip := by
  unfold execRdsConfig at e; exact hostRow_keeps (fun _ _ => by simp [cmdRdsConfig]) e
theorem execRdsConfig_fits (tag : Byte) (p : List Byte) (s : State) {t : State} (e : execRdsConfig tag p s = .next t) (h : Fits s) : Fits t := by
  unfold execRdsConfig at e; exact hostRow_fits (fun _ _ hu => by simp [cmdRdsConfig, hu]) e h
@[simp] theorem emitIdentity_keeps (lane : Nat) (n : Nat) (l : Lane) (s : State) : (emitIdentity lane n l s).pending = s.pending ∧ (emitIdentity lane n l s).chip = s.chip := by
  unfold emitIdentity; (try dsimp only); (repeat' split) <;> simp_all
@[simp] theorem emitIdentity_fits (lane : Nat) (n : Nat) (l : Lane) (s : State) (h : Fits s) : Fits (emitIdentity lane n l s) := by
  unfold emitIdentity; try dsimp only
  repeat' first | with_reducible assumption | intro _ | with_reducible refine forEach_fits _ _ _ ?_ ?_ | with_reducible refine foldl_fits _ _ _ ?_ ?_ | with_reducible refine updLane_fits _ _ _ ?_ | with_reducible refine evLane_fits _ _ _ _ _ _ _ ?_ | split | (simp (maxDischargeDepth := 20) [*]; done)
@[simp] theorem noteIdentity_keeps (lane : Nat) (s : State) : (noteIdentity lane s).pending = s.pending ∧ (noteIdentity lane s).chip = s.chip := by
  unfold noteIdentity; (repeat' split) <;> simp
@[simp] theorem noteIdentity_fits (lane : Nat) (s : State) (h : Fits s) : Fits (noteIdentity lane s) := by
  unfold noteIdentity; (repeat' split) <;> simp [h]
@[simp] theorem dropIdentity_keeps (lane : Nat) (s : State) : (dropIdentity lane s).pending = s.pending ∧ (dropIdentity lane s).chip = s.chip := by
  unfold dropIdentity; simp
@[simp] theorem dropIdentity_fits (lane : Nat) (s : State) (h : Fits s) : Fits (dropIdentity lane s) := by
  unfold dropIdentity; try dsimp only
  repeat' first | with_reducible assumption | intro _ | with_reducible refine forEach_fits _ _ _ ?_ ?_ | with_reducible refine foldl_fits _ _ _ ?_ ?_ | with_reducible refine endAnnWhere_fits _ _ ?_ | with_reducible refine updLane_fits _ _ _ ?_ | split | (simp (maxDischargeDepth := 20) [*]; done)
@[simp] theorem confirmPi_keeps (lane : Nat) (pi : Id16) (s : State) : (confirmPi lane pi s).pending = s.pending ∧ (confirmPi lane pi s).chip = s.chip := by
  unfold confirmPi; simp
@[simp] theorem confirmPi_fits (lane : Nat) (pi : Id16) (s : State) (h : Fits s) : Fits (confirmPi lane pi s) := by
  unfold confirmPi; try dsimp only
  repeat' first | with_reducible assumption | intro _ | with_reducible refine forEach_fits _ _ _ ?_ ?_ | with_reducible refine foldl_fits _ _ _ ?_ ?_ | with_reducible refine logIdentity_fits _ _ _ _ ?_ | with_reducible refine confirmStation_fits _ _ ?_ | with_reducible refine noteIdentity_fits _ _ ?_ | with_reducible refine updLane_fits _ _ _ ?_ | with_reducible refine count_fits _ _ _ _ ?_ | with_reducible refine dropIdentity_fits _ _ ?_ | split | (simp (maxDischargeDepth := 20) [*]; done)
@[simp] theorem readPi_keeps (lane : Nat) (v : Id16) (s : State) : (readPi lane v s).pending = s.pending ∧ (readPi lane v s).chip = s.chip := by
  unfold readPi; (repeat' split) <;> simp
@[simp] theorem readPi_fits (lane : Nat) (v : Id16) (s : State) (h : Fits s) : Fits (readPi lane v s) := by
  unfold readPi; try dsimp only
  repeat' first | with_reducible assumption | intro _ | with_reducible refine forEach_fits _ _ _ ?_ ?_ | with_reducible refine foldl_fits _ _ _ ?_ ?_ | with_reducible refine updLane_fits _ _ _ ?_ | with_reducible refine confirmPi_fits _ _ _ ?_ | with_reducible refine count_fits _ _ _ _ ?_ | split | (simp (maxDischargeDepth := 20) [*]; done)
@[simp] theorem finishList_keeps (pi : Option Id16) (f : RdsFields) (s : State) : (finishList pi f s).pending = s.pending ∧ (finishList pi f s).chip = s.chip := by
  unfold finishList; (repeat' split) <;> simp
@[simp] theorem finishList_fits (pi : Option Id16) (f : RdsFields) (s : State) (h : Fits s) : Fits (finishList pi f s) := by
  unfold finishList; (repeat' split) <;> simp [h]
@[simp] theorem heldBlock_keeps (lane : Nat) (info : Id16) (offset : RdsOffset) (err : RdsError) (inGap : Bool) (l : Lane) (s : State) : (heldBlock lane info offset err inGap l s).pending = s.pending ∧ (heldBlock lane info offset err inGap l s).chip = s.chip := by
  unfold heldBlock; simp
@[simp] theorem heldBlock_fits (lane : Nat) (info : Id16) (offset : RdsOffset) (err : RdsError) (inGap : Bool) (l : Lane) (s : State) (h : Fits s) : Fits (heldBlock lane info offset err inGap l s) := by
  unfold heldBlock; try dsimp only
  repeat' first | with_reducible assumption | intro _ | with_reducible refine forEach_fits _ _ _ ?_ ?_ | with_reducible refine foldl_fits _ _ _ ?_ ?_ | with_reducible refine reselectAll_fits _ ?_ | with_reducible refine updLane_fits _ _ _ ?_ | with_reducible refine readPi_fits _ _ _ ?_ | with_reducible refine finishList_fits _ _ _ ?_ | split | (simp (maxDischargeDepth := 20) [*]; done)
theorem execRdsBlock_keeps (lane : Nat) (info : Id16) (offset : RdsOffset) (err : RdsError) (inGap : Bool) (s : State) {t : State} (e : execRdsBlock lane info offset err inGap s = .next t) : t.pending = s.pending ∧ t.chip = s.chip := by
  unfold execRdsBlock at e; (repeat' split at e) <;> simp at e <;> subst e <;> simp
theorem execRdsBlock_fits (lane : Nat) (info : Id16) (offset : RdsOffset) (err : RdsError) (inGap : Bool) (s : State) {t : State} (e : execRdsBlock lane info offset err inGap s = .next t) (h : Fits s) : Fits t := by
  unfold execRdsBlock at e; (repeat' split at e) <;> simp at e <;> subst e <;> simp [h]
theorem execIdentityLost_keeps (lane : Nat) (s : State) {t : State} (e : execIdentityLost lane s = .next t) : t.pending = s.pending ∧ t.chip = s.chip := by
  unfold execIdentityLost at e; (repeat' split at e) <;> simp at e <;> subst e <;> simp
theorem execIdentityLost_fits (lane : Nat) (s : State) {t : State} (e : execIdentityLost lane s = .next t) (h : Fits s) : Fits t := by
  unfold execIdentityLost at e; (try dsimp only at e)
  (repeat' split at e) <;> cases e
  all_goals repeat' first | with_reducible assumption | intro _ | with_reducible refine forEach_fits _ _ _ ?_ ?_ | with_reducible refine foldl_fits _ _ _ ?_ ?_ | with_reducible refine reselectAll_fits _ ?_ | with_reducible refine noteIdentity_fits _ _ ?_ | with_reducible refine updLane_fits _ _ _ ?_ | with_reducible refine count_fits _ _ _ _ ?_ | with_reducible refine dropIdentity_fits _ _ ?_ | split | (simp (maxDischargeDepth := 20) [*]; done)
theorem execIdentityRecord_keeps (lane : Nat) (s : State) {t : State} (e : execIdentityRecord lane s = .next t) : t.pending = s.pending ∧ t.chip = s.chip := by
  unfold execIdentityRecord at e; (repeat' split at e) <;> simp at e <;> subst e <;> simp
theorem execIdentityRecord_fits (lane : Nat) (s : State) {t : State} (e : execIdentityRecord lane s = .next t) (h : Fits s) : Fits t := by
  unfold execIdentityRecord at e; (repeat' split at e) <;> simp at e <;> subst e <;> simp [h]
@[simp] theorem takeAf_keeps (lane : Nat) (pi : Id16) (s : State) (x : Nat) : (takeAf lane pi s x).pending = s.pending ∧ (takeAf lane pi s x).chip = s.chip := by
  unfold takeAf; (repeat' split) <;> simp
@[simp] theorem takeAf_fits (lane : Nat) (pi : Id16) (s : State) (x : Nat) (h : Fits s) : Fits (takeAf lane pi s x) := by
  unfold takeAf; (repeat' split) <;> simp [h]
@[simp] theorem eonScalar_keeps (other : Id16) (f : Station → Station) (s : State) : (eonScalar other f s).pending = s.pending ∧ (eonScalar other f s).chip = s.chip := by
  unfold eonScalar; (repeat' split) <;> simp
@[simp] theorem eonScalar_fits (other : Id16) (f : Station → Station) (s : State) (h : Fits s) : Fits (eonScalar other f s) := by
  unfold eonScalar; (repeat' split) <;> simp [h]
@[simp] theorem eonVariant_keeps (lane : Nat) (other : Id16) (v : Nat) (c : Nat) (s : State) : (eonVariant lane other v c s).pending = s.pending ∧ (eonVariant lane other v c s).chip = s.chip := by
  unfold eonVariant; (try dsimp only); (repeat' split) <;> simp_all
@[simp] theorem eonVariant_fits (lane : Nat) (other : Id16) (v : Nat) (c : Nat) (s : State) (h : Fits s) : Fits (eonVariant lane other v c s) := by
  unfold eonVariant; try dsimp only
  repeat' first | with_reducible assumption | intro _ | with_reducible refine forEach_fits _ _ _ ?_ ?_ | with_reducible refine foldl_fits _ _ _ ?_ ?_ | with_reducible refine mergeEntries_fits _ _ _ ?_ | with_reducible refine updLane_fits _ _ _ ?_ | with_reducible refine eonScalar_fits _ _ _ ?_ | split | (simp (maxDischargeDepth := 20) [*]; done)
@[simp] theorem eonTraffic_keeps (lane : Nat) (pi : Id16) (other : Id16) (ta : Bool) (s : State) : (eonTraffic lane pi other ta s).pending = s.pending ∧ (eonTraffic lane pi other ta s).chip = s.chip := by
  unfold eonTraffic; simp
@[simp] theorem eonTraffic_fits (lane : Nat) (pi : Id16) (other : Id16) (ta : Bool) (s : State) (h : Fits s) : Fits (eonTraffic lane pi other ta s) := by
  unfold eonTraffic; (repeat' split) <;> simp [h]
@[simp] theorem takeEon_keeps (lane : Nat) (pi : Id16) (d : RdsDecoder) (s : State) : (takeEon lane pi d s).pending = s.pending ∧ (takeEon lane pi d s).chip = s.chip := by
  unfold takeEon; (try dsimp only); (repeat' split) <;> simp_all
@[simp] theorem takeEon_fits (lane : Nat) (pi : Id16) (d : RdsDecoder) (s : State) (h : Fits s) : Fits (takeEon lane pi d s) := by
  unfold takeEon; try dsimp only
  repeat' first | with_reducible assumption | intro _ | with_reducible refine forEach_fits _ _ _ ?_ ?_ | with_reducible refine foldl_fits _ _ _ ?_ ?_ | with_reducible refine eonVariant_fits _ _ _ _ _ ?_ | with_reducible refine ensureStation_fits _ _ _ ?_ | with_reducible refine eonTraffic_fits _ _ _ _ _ ?_ | with_reducible refine changeStation_fits _ _ _ ?_ | with_reducible refine eonScalar_fits _ _ _ ?_ | split | (simp (maxDischargeDepth := 20) [*]; done)
@[simp] theorem trafficEdge_keeps (lane : Nat) (pi : Id16) (s : State) : (trafficEdge lane pi s).pending = s.pending ∧ (trafficEdge lane pi s).chip = s.chip := by
  unfold trafficEdge; (repeat' split) <;> simp
@[simp] theorem trafficEdge_fits (lane : Nat) (pi : Id16) (s : State) (h : Fits s) : Fits (trafficEdge lane pi s) := by
  unfold trafficEdge; try dsimp only
  repeat' first | with_reducible assumption | intro _ | with_reducible refine forEach_fits _ _ _ ?_ ?_ | with_reducible refine foldl_fits _ _ _ ?_ ?_ | with_reducible refine endAnnWhere_fits _ _ ?_ | with_reducible refine updLane_fits _ _ _ ?_ | with_reducible refine startAnn_fits _ _ ?_ | with_reducible refine endAnn_fits _ _ ?_ | split | (simp (maxDischargeDepth := 20) [*]; done)
@[simp] theorem ptyEdge_keeps (lane : Nat) (pi : Id16) (test : Bool) (s : State) : (ptyEdge lane pi test s).pending = s.pending ∧ (ptyEdge lane pi test s).chip = s.chip := by
  unfold ptyEdge; (repeat' split) <;> simp
@[simp] theorem ptyEdge_fits (lane : Nat) (pi : Id16) (test : Bool) (s : State) (h : Fits s) : Fits (ptyEdge lane pi test s) := by
  unfold ptyEdge; try dsimp only
  repeat' first | with_reducible assumption | intro _ | with_reducible refine forEach_fits _ _ _ ?_ ?_ | with_reducible refine foldl_fits _ _ _ ?_ ?_ | with_reducible refine updLane_fits _ _ _ ?_ | with_reducible refine startAnn_fits _ _ ?_ | split | (simp (maxDischargeDepth := 20) [*]; done)
@[simp] theorem ptyEnd_keeps (lane : Nat) (pi : Id16) (test : Bool) (s : State) : (ptyEnd lane pi test s).pending = s.pending ∧ (ptyEnd lane pi test s).chip = s.chip := by
  unfold ptyEnd; (repeat' split) <;> simp
@[simp] theorem ptyEnd_fits (lane : Nat) (pi : Id16) (test : Bool) (s : State) (h : Fits s) : Fits (ptyEnd lane pi test s) := by
  unfold ptyEnd; (repeat' split) <;> simp [h]
theorem execAlertEndTimer_keeps (lane : Nat) (s : State) {t : State} (e : execAlertEndTimer lane s = .next t) : t.pending = s.pending ∧ t.chip = s.chip := by
  unfold execAlertEndTimer at e; (repeat' split at e) <;> simp at e <;> subst e <;> simp
theorem execAlertEndTimer_fits (lane : Nat) (s : State) {t : State} (e : execAlertEndTimer lane s = .next t) (h : Fits s) : Fits t := by
  unfold execAlertEndTimer at e; (try dsimp only at e)
  (repeat' split at e) <;> cases e
  all_goals repeat' first | with_reducible assumption | intro _ | with_reducible refine forEach_fits _ _ _ ?_ ?_ | with_reducible refine foldl_fits _ _ _ ?_ ?_ | with_reducible refine reselectAll_fits _ ?_ | with_reducible refine ptyEnd_fits _ _ _ _ ?_ | split | (simp (maxDischargeDepth := 20) [*]; done)
theorem execEonTaTimeout_keeps (lane : Nat) (s : State) {t : State} (e : execEonTaTimeout lane s = .next t) : t.pending = s.pending ∧ t.chip = s.chip := by
  unfold execEonTaTimeout at e; (repeat' split at e) <;> simp at e <;> subst e <;> simp
theorem execEonTaTimeout_fits (lane : Nat) (s : State) {t : State} (e : execEonTaTimeout lane s = .next t) (h : Fits s) : Fits t := by
  unfold execEonTaTimeout at e; (try dsimp only at e)
  (repeat' split at e) <;> cases e
  all_goals repeat' first | with_reducible assumption | intro _ | with_reducible refine forEach_fits _ _ _ ?_ ?_ | with_reducible refine foldl_fits _ _ _ ?_ ?_ | with_reducible refine reselectAll_fits _ ?_ | with_reducible refine forEach_fits _ _ _ ?_ ?_ | with_reducible refine endAnn_fits _ _ ?_ | split | (simp (maxDischargeDepth := 20) [*]; done)
@[simp] theorem takeGroup_keeps (lane : Nat) (pi : Id16) (l : Lane) (s : State) : (takeGroup lane pi l s).pending = s.pending ∧ (takeGroup lane pi l s).chip = s.chip := by
  unfold takeGroup; (try dsimp only); (repeat' split) <;> simp_all
@[simp] theorem takeGroup_fits (lane : Nat) (pi : Id16) (l : Lane) (s : State) (h : Fits s) : Fits (takeGroup lane pi l s) := by
  unfold takeGroup; try dsimp only
  repeat' first | with_reducible assumption | intro _ | with_reducible refine forEach_fits _ _ _ ?_ ?_ | with_reducible refine foldl_fits _ _ _ ?_ ?_ | with_reducible refine ptyEdge_fits _ _ _ _ ?_ | with_reducible refine trafficEdge_fits _ _ _ ?_ | with_reducible refine updLane_fits _ _ _ ?_ | with_reducible refine changeStation_fits _ _ _ ?_ | with_reducible refine takeEon_fits _ _ _ _ ?_ | with_reducible refine takeAf_fits _ _ _ _ ?_ | split | (simp (maxDischargeDepth := 20) [*]; done)
@[simp] theorem endGroup_keeps (lane : Nat) (a : State) : (endGroup lane a).pending = a.pending ∧ (endGroup lane a).chip = a.chip := by
  unfold endGroup; simp
@[simp] theorem endGroup_fits (lane : Nat) (a : State) (h : Fits a) : Fits (endGroup lane a) := by
  unfold endGroup; simp [h]
theorem execRdsGroup_keeps (lane : Nat) (s : State) {t : State} (e : execRdsGroup lane s = .next t) : t.pending = s.pending ∧ t.chip = s.chip := by
  unfold execRdsGroup at e; (repeat' split at e) <;> simp at e <;> subst e <;> simp
theorem execRdsGroup_fits (lane : Nat) (s : State) {t : State} (e : execRdsGroup lane s = .next t) (h : Fits s) : Fits t := by
  unfold execRdsGroup at e; (try dsimp only at e)
  (repeat' split at e) <;> cases e
  all_goals repeat' first | with_reducible assumption | intro _ | with_reducible refine forEach_fits _ _ _ ?_ ?_ | with_reducible refine foldl_fits _ _ _ ?_ ?_ | with_reducible refine takeGroup_fits _ _ _ _ ?_ | with_reducible refine reselectAll_fits _ ?_ | with_reducible refine produce_fits _ _ _ _ _ _ _ ?_ | with_reducible refine endGroup_fits _ _ ?_ | split | (simp (maxDischargeDepth := 20) [*]; done)
theorem execStationRecordWrite_keeps (index : Nat) (s : State) {t : State} (e : execStationRecordWrite index s = .next t) : t.pending = s.pending ∧ t.chip = s.chip := by
  unfold execStationRecordWrite at e; dsimp only at e; (repeat' split at e) <;> simp at e <;> subst e <;> (repeat' split) <;> simp_all
theorem execStationRecordWrite_fits (index : Nat) (s : State) {t : State} (e : execStationRecordWrite index s = .next t) (h : Fits s) : Fits t := by
  unfold execStationRecordWrite at e; dsimp only at e; (repeat' split at e) <;> simp at e <;> subst e <;> (repeat' split) <;> simp_all

/-! ### Opcodes -/

/-- From `s` to `t`: the queue of commands stays, the part stays, and the life cycle does not go back. -/
def Runs (s t : State) : Prop :=
  t.pending = s.pending ∧ t.chip.variant = s.chip.variant ∧ lifeCode s.chip.life ≤ lifeCode t.chip.life

theorem Runs.refl (s : State) : Runs s s := ⟨rfl, rfl, Nat.le_refl _⟩

theorem Runs.trans {s t u : State} (h : Runs s t) (k : Runs t u) : Runs s u :=
  ⟨k.1.trans h.1, k.2.1.trans h.2.1, Nat.le_trans h.2.2 k.2.2⟩

theorem runs_of_keeps {s t : State} (h : t.pending = s.pending ∧ t.chip = s.chip) : Runs s t := by
  unfold Runs; simp [h]

theorem serve_runs {k : Cmd} (hk : ∀ c u, Runs u (k.body c u).state) (c : Call) (s : State) : Runs s (serve k c s).state := by
  unfold serve; (repeat' split) <;> first | exact hk _ _ | exact Runs.refl _

theorem hostRow_runs {k : Cmd} (hk : ∀ c u, Runs u (k.body c u).state) {tag : Byte} {p : List Byte} {s t : State}
    (e : hostRow k tag p s = .next t) : Runs s t := by
  have hr (u : State) : Runs u (runHost k tag p u) := (serve_runs hk _ u).trans (runs_of_keeps (finishHost_keeps _ _ _ _))
  unfold hostRow packetRow at e; cases e
  (repeat' split) <;> first | exact hr _ | exact runs_of_keeps (by simp) | exact (runs_of_keeps (by simp)).trans (hr _)

theorem bodyLifecycleAdvance_runs (c : Call) (s : State) : Runs s (bodyLifecycleAdvance c s).state := by
  unfold bodyLifecycleAdvance
  rcases hl : s.chip.life with _ | _ | _ | _ <;> simp only [nextLife]
  all_goals (try (split))
  all_goals (try exact Runs.refl _)
  all_goals simp [Runs, hl, lifeCode]

theorem cmd_runs : ∀ k ∈ allCmds, ∀ c u, Runs u (k.body c u).state := by
  simp only [allCmds, List.forall_mem_append, List.forall_mem_cons]
  refine ⟨⟨⟨⟨?_, ?_⟩, ?_⟩, ?_⟩, ?_⟩ <;> (repeat' apply And.intro) <;> first | (intro k hk; cases hk; done) | skip
  all_goals intro c u; first | exact bodyLifecycleAdvance_runs c u | exact runs_of_keeps (by simp [cmdNop, cmdIdentify, cmdEventRead, cmdEventMask, cmdStageReset, cmdPatchLoad, cmdPatchCommit, cmdTimeRead,
    cmdCueSet, cmdCueCancel, cmdCueList, cmdBandPlan, cmdRxStart, cmdRxStop, cmdFrontendGain, cmdAntennaFeed,
    cmdDiversitySet, cmdScanPolicy, cmdLaneAssign, cmdLaneRelease, cmdLaneList, cmdLaneStatus, cmdFmParams, cmdAmParams,
    cmdRdsConfig, cmdDabEngineAssign, cmdDabEngineRelease, cmdDabEngineStatus, cmdSoftbitMode, cmdServiceList, cmdServiceInfo, cmdAnnouncementPolicy,
    cmdAlertPolicy, cmdProgramSet, cmdProgramStatus, cmdLinkPolicy, cmdDelayStoreConfig, cmdCurtain, cmdPortConfig, cmdSlotMap,
    cmdStatusSlotConfig, cmdSpdifConfig, cmdPortStatus, cmdFlowOpen, cmdFlowClose, cmdFlowShape, cmdClassShape, cmdEgressConfig,
    cmdFlowStats, cmdMailboxRead, cmdCalPolicy, cmdCalRun, cmdCalStatus, cmdCalTableRead, cmdRefConfig, cmdSamplePlan,
    cmdClockOut, cmdSyncArm, cmdFreqTrim, cmdClockStatus, cmdPowerPolicy, cmdCapacityStatus, cmdGhost, cmdSupplyStatus,
    cmdLifecycleRead, cmdLifecycleAdvance, cmdRetainedWipe, cmdFaultLogRead, cmdCounters, cmdTemperature, cmdSnapshot, cmdSelftest])

theorem cmd_fits : ∀ k ∈ allCmds, ∀ c u, Fits u → Fits (k.body c u).state := by
  simp only [allCmds, List.forall_mem_append, List.forall_mem_cons]
  refine ⟨⟨⟨⟨?_, ?_⟩, ?_⟩, ?_⟩, ?_⟩ <;> (repeat' apply And.intro) <;> first | (intro k hk; cases hk; done) | skip
  all_goals intro c u h; simp [h, cmdNop, cmdIdentify, cmdEventRead, cmdEventMask, cmdStageReset, cmdPatchLoad, cmdPatchCommit, cmdTimeRead,
    cmdCueSet, cmdCueCancel, cmdCueList, cmdBandPlan, cmdRxStart, cmdRxStop, cmdFrontendGain, cmdAntennaFeed,
    cmdDiversitySet, cmdScanPolicy, cmdLaneAssign, cmdLaneRelease, cmdLaneList, cmdLaneStatus, cmdFmParams, cmdAmParams,
    cmdRdsConfig, cmdDabEngineAssign, cmdDabEngineRelease, cmdDabEngineStatus, cmdSoftbitMode, cmdServiceList, cmdServiceInfo, cmdAnnouncementPolicy,
    cmdAlertPolicy, cmdProgramSet, cmdProgramStatus, cmdLinkPolicy, cmdDelayStoreConfig, cmdCurtain, cmdPortConfig, cmdSlotMap,
    cmdStatusSlotConfig, cmdSpdifConfig, cmdPortStatus, cmdFlowOpen, cmdFlowClose, cmdFlowShape, cmdClassShape, cmdEgressConfig,
    cmdFlowStats, cmdMailboxRead, cmdCalPolicy, cmdCalRun, cmdCalStatus, cmdCalTableRead, cmdRefConfig, cmdSamplePlan,
    cmdClockOut, cmdSyncArm, cmdFreqTrim, cmdClockStatus, cmdPowerPolicy, cmdCapacityStatus, cmdGhost, cmdSupplyStatus,
    cmdLifecycleRead, cmdLifecycleAdvance, cmdRetainedWipe, cmdFaultLogRead, cmdCounters, cmdTemperature, cmdSnapshot, cmdSelftest]

theorem execLifecycleAdvance_runs (tag : Byte) (p : List Byte) (s : State) {t : State} (e : execLifecycleAdvance tag p s = .next t) : Runs s t :=
  hostRow_runs (cmd_runs cmdLifecycleAdvance (by simp [allCmds])) e

@[simp] theorem runUnknown_keeps (tag : Byte) (s : State) : (runUnknown tag s).pending = s.pending ∧ (runUnknown tag s).chip = s.chip := by
  unfold runUnknown; simp
@[simp] theorem runUnknown_fits (tag : Byte) (s : State) (h : Fits s) : Fits (runUnknown tag s) := by
  unfold runUnknown; simp [h]
theorem vendorRow_keeps (pkt : Packet) (s : State) {t : State} (e : vendorRow pkt s = .next t) : t.pending = s.pending ∧ t.chip = s.chip := by
  unfold vendorRow at e; split at e <;> cases e
  exact packetRow_keeps (fun u => by simp) _ _
theorem vendorRow_fits (pkt : Packet) (s : State) {t : State} (e : vendorRow pkt s = .next t) (h : Fits s) : Fits t := by
  unfold vendorRow at e; split at e <;> cases e
  exact packetRow_fits (fun u hu => by simp [hu]) _ _ h
theorem execUndefinedOpcode_runs (opc tag : Byte) (p : List Byte) (s : State) {t : State} (e : execUndefinedOpcode opc tag p s = .next t) :
    Runs s t := by
  unfold execUndefinedOpcode at e; dsimp only at e
  split at e
  · next k hk => exact hostRow_runs (cmd_runs k (List.mem_of_find?_eq_some hk)) e
  · split at e
    · exact runs_of_keeps (vendorRow_keeps _ _ e)
    · cases e; exact runs_of_keeps (packetRow_keeps (fun u => by simp) _ _)
theorem execUndefinedOpcode_fits (opc : Byte) (tag : Byte) (p : List Byte) (s : State) {t : State} (e : execUndefinedOpcode opc tag p s = .next t) (h : Fits s) : Fits t := by
  unfold execUndefinedOpcode at e; dsimp only at e
  split at e
  · next k hk => exact hostRow_fits (cmd_fits k (List.mem_of_find?_eq_some hk)) e h
  · split at e
    · exact vendorRow_fits _ _ e h
    · cases e; exact packetRow_fits (fun u hu => by simp [hu]) _ _ h
@[simp] theorem markBlocked_keeps (s : State) : (markBlocked s).pending = s.pending ∧ (markBlocked s).chip = s.chip := by
  unfold markBlocked; simp
@[simp] theorem markBlocked_fits (s : State) (h : Fits s) : Fits (markBlocked s) := by
  unfold markBlocked; simp [h]
@[simp] theorem holdEffects_keeps (c : Cue) (l : List AudioEffect) (s : State) : (holdEffects c l s).pending = s.pending ∧ (holdEffects c l s).chip = s.chip := by
  unfold holdEffects; simp
@[simp] theorem holdEffects_fits (c : Cue) (l : List AudioEffect) (s : State) (h : Fits s) : Fits (holdEffects c l s) := by
  unfold holdEffects; simp [h]
theorem finishCue_keeps (c : Cue) (late : Bool) (r : Res) (b : State) :
    (finishCue c late r b).pending = r.state.pending ∧ (finishCue c late r b).chip = r.state.chip := by
  unfold finishCue; dsimp only; (repeat' split) <;> simp
theorem finishCue_fits (c : Cue) (late : Bool) (r : Res) (b : State) (h : Fits r.state) : Fits (finishCue c late r b) := by
  unfold finishCue; dsimp only
  refine gateMain_fits _ _ ?_
  (repeat' split) <;> simp (maxDischargeDepth := 20) [h]
theorem fireCue_runs (c : Cue) (s : State) : Runs s (fireCue c s) := by
  unfold fireCue; dsimp only
  split
  · next k hk =>
    have := serve_runs (cmd_runs k (List.mem_of_find?_eq_some hk))
    exact (runs_of_keeps (by simp)).trans ((this _ _).trans (runs_of_keeps (finishCue_keeps _ _ _ _)))
  · exact runs_of_keeps (by simp)
@[simp] theorem fireCue_fits (c : Cue) (s : State) (h : Fits s) : Fits (fireCue c s) := by
  unfold fireCue; dsimp only
  split
  · next k hk => exact finishCue_fits _ _ _ _ (serve_fits (cmd_fits k (List.mem_of_find?_eq_some hk)) _ _ (by simp [h]))
  · simp (maxDischargeDepth := 20) [h]
theorem execCueFire_runs (s : State) {t : State} (e : execCueFire s = .next t) : Runs s t := by
  unfold execCueFire at e
  dsimp only at e
  (repeat' split at e) <;> cases e
  all_goals first
    | exact (runs_of_keeps (markBlocked_keeps s)).trans (fireCue_runs _ _)
    | exact Runs.refl _
    | exact runs_of_keeps (by simp)
theorem execCueFire_fits (s : State) {t : State} (e : execCueFire s = .next t) (h : Fits s) : Fits t := by
  unfold execCueFire at e; dsimp only at e; (repeat' split at e) <;> simp at e <;> subst e <;> (repeat' split) <;> simp_all
theorem execAudioCueEffect_keeps (s : State) {t : State} (e : execAudioCueEffect s = .next t) : t.pending = s.pending ∧ t.chip = s.chip := by
  unfold execAudioCueEffect at e; dsimp only at e; (repeat' split at e) <;> simp at e <;> subst e <;> (repeat' split) <;> simp_all
theorem execAudioCueEffect_fits (s : State) {t : State} (e : execAudioCueEffect s = .next t) (h : Fits s) : Fits t := by
  unfold execAudioCueEffect at e; dsimp only at e
  split at e <;> cases e
  · exact h
  · exact markScene_fits _ _ (applyEffects_fits _ _ (by simp [h]))
@[simp] theorem settle_keeps (w : Wait) (s : State) : (settle w s).pending = s.pending ∧ (settle w s).chip = s.chip := by
  unfold settle; (repeat' split) <;> simp
@[simp] theorem settle_fits (w : Wait) (s : State) (h : Fits s) : Fits (settle w s) := by
  unfold settle; (repeat' split) <;> simp [h]
theorem applyPacket_runs (pkt : Packet) (s : State) : Runs s (applyPacket pkt s).1 := by
  unfold applyPacket
  split
  · exact Runs.refl _
  · next k hk =>
    refine (serve_runs (cmd_runs k (List.mem_of_find?_eq_some hk)) { tag := pkt.tag, p := pkt.param, cue := none, scene := true } s).trans ?_
    dsimp only
    refine runs_of_keeps ?_
    (repeat' split) <;> simp
@[simp] theorem applyPacket_fits (pkt : Packet) (s : State) (h : Fits s) : Fits (applyPacket pkt s).1 := by
  unfold applyPacket
  split
  · exact h
  · next k hk =>
    have := serve_fits (cmd_fits k (List.mem_of_find?_eq_some hk)) { tag := pkt.tag, p := pkt.param, cue := none, scene := true } s h
    dsimp only
    (repeat' split) <;> simp (maxDischargeDepth := 20) [this]
theorem applyScene_runs (l : List Packet) (s : State) : Runs s (applyScene l s).1 :=
  foldl_inv (fun a : State × List (Byte × Byte) => Runs s a.1) _ _ _ (Runs.refl _) fun a x ha => ha.trans (applyPacket_runs _ _)
@[simp] theorem applyScene_fits (l : List Packet) (s : State) (h : Fits s) : Fits (applyScene l s).1 := by
  exact foldl_inv (fun a : State × List (Byte × Byte) => Fits a.1) _ _ _ h fun a x ha => applyPacket_fits _ _ ha
@[simp] theorem evResetDone_keeps (cause : Nat) (scene : Nat) (skipped : List (Byte × Byte)) (a : State) : (evResetDone cause scene skipped a).pending = a.pending ∧ (evResetDone cause scene skipped a).chip = a.chip := by
  unfold evResetDone; simp
@[simp] theorem evResetDone_fits (cause : Nat) (scene : Nat) (skipped : List (Byte × Byte)) (a : State) (h : Fits a) : Fits (evResetDone cause scene skipped a) := by
  unfold evResetDone; simp [h]
@[simp] theorem endReset_keeps (scene : Nat) (skipped : List (Byte × Byte)) (s : State) : (endReset scene skipped s).pending = s.pending ∧ (endReset scene skipped s).chip = s.chip := by
  unfold endReset; simp
@[simp] theorem endReset_fits (scene : Nat) (skipped : List (Byte × Byte)) (s : State) (h : Fits s) : Fits (endReset scene skipped s) := by
  unfold endReset; try dsimp only
  repeat' first | with_reducible assumption | intro _ | with_reducible refine forEach_fits _ _ _ ?_ ?_ | with_reducible refine foldl_fits _ _ _ ?_ ?_ | with_reducible refine evResetDone_fits _ _ _ _ ?_ | with_reducible refine releaseHeld_fits _ ?_ | with_reducible refine completeResetFaults_fits _ ?_ | with_reducible refine refreshFeeds_fits _ ?_ | split | (simp (maxDischargeDepth := 20) [*]; done)
theorem reapply_runs (s : State) : Runs s (reapply s) := by
  unfold reapply
  split
  · exact runs_of_keeps (endReset_keeps _ _ _)
  · exact (applyScene_runs _ _).trans (runs_of_keeps (endReset_keeps _ _ _))
  · exact runs_of_keeps (endReset_keeps _ _ _)
@[simp] theorem reapply_fits (s : State) (h : Fits s) : Fits (reapply s) := by
  unfold reapply; (repeat' split) <;> simp [h]
theorem execSceneReapplication_runs (s : State) {t : State} (e : execSceneReapplication s = .next t) : Runs s t := by
  unfold execSceneReapplication at e
  (repeat' split at e) <;> cases e
  all_goals first | exact reapply_runs _ | exact Runs.refl _
theorem execSceneReapplication_fits (s : State) {t : State} (e : execSceneReapplication s = .next t) (h : Fits s) : Fits t := by
  unfold execSceneReapplication at e; (repeat' split at e) <;> simp at e <;> subst e <;> simp [h]

/-! ### Timeline -/

@[simp] theorem portsRestarted_keeps (s : State) : (portsRestarted s).pending = s.pending ∧ (portsRestarted s).chip = s.chip := by
  unfold portsRestarted; simp
@[simp] theorem portsRestarted_fits (s : State) (h : Fits s) : Fits (portsRestarted s) := by
  unfold portsRestarted; simp [h]
@[simp] theorem portsRecovered_keeps (s : State) : (portsRecovered s).pending = s.pending ∧ (portsRecovered s).chip = s.chip := by
  unfold portsRecovered; (try dsimp only); refine forEach_keeps _ _ _ fun _ _ => ?_; (try dsimp only); (repeat' split) <;> simp
@[simp] theorem portsRecovered_fits (s : State) (h : Fits s) : Fits (portsRecovered s) := by
  unfold portsRecovered
  refine forEach_fits _ _ _ h fun n u hu => ?_
  (repeat' split) <;> first | exact hu | exact faultEnds_fits _ _ _ _ (faultEnds_fits _ _ _ _ hu)
@[simp] theorem tickRunning_keeps (s : State) : (tickRunning s).pending = s.pending ∧ (tickRunning s).chip = s.chip := by
  unfold tickRunning; simp
@[simp] theorem tickRunning_fits (s : State) (h : Fits s) : Fits (tickRunning s) := by
  have h1 := mixAll_fits s h
  unfold tickRunning; dsimp only
  generalize mixAll s = u at h1 ⊢
  exact portsRecovered_fits _ (portsRestarted_fits _ (by simp [h1, tickBuckets]))
@[simp] theorem tickOff_keeps (s : State) : (tickOff s).pending = s.pending ∧ (tickOff s).chip = s.chip := by
  unfold tickOff; simp
@[simp] theorem tickOff_fits (s : State) (h : Fits s) : Fits (tickOff s) := by
  unfold tickOff; simp [h]
theorem execDfcTick_keeps (s : State) {t : State} (e : execDfcTick s = .next t) : t.pending = s.pending ∧ t.chip = s.chip := by
  unfold execDfcTick at e; (repeat' split at e) <;> simp at e <;> subst e <;> simp
theorem execDfcTick_fits (s : State) {t : State} (e : execDfcTick s = .next t) (h : Fits s) : Fits t := by
  unfold execDfcTick at e; (repeat' split at e) <;> simp at e <;> subst e <;> simp [h]

end Sys2Proof.Machine
end

