-- ==== Sys2Proof/Laws/Faults.lean ====
section
/-! SUPPORT. `Reports` and equality of states field by field, and what the shared fault operations (R512 to R514) do to
the set of open faults. -/

namespace Sys2Proof.Machine

/-- `Reports` field by field. -/
theorem reports_iff {u t : State} : Reports u t ↔ t.pending = u.pending ∧ t.now = u.now ∧ t.draws = u.draws ∧ t.chip = u.chip ∧ t.supply = u.supply ∧ t.reset_ = u.reset_ ∧ t.thermal = u.thermal ∧ t.link = u.link ∧ t.time = u.time ∧ t.clocks = u.clocks ∧ t.cues = u.cues ∧ t.held = u.held ∧ t.mgr = u.mgr ∧ t.inputs = u.inputs ∧ t.feeds = u.feeds ∧ t.cal = u.cal ∧ t.lanes = u.lanes ∧ t.rds = u.rds ∧ t.scan = u.scan ∧ t.dab = u.dab ∧ t.decoders = u.decoders ∧ t.progs = u.progs ∧ t.alerts = u.alerts ∧ t.cap = u.cap ∧ t.ports = u.ports ∧ t.flows = u.flows ∧ t.ghost = u.ghost ∧ t.retained = u.retained := by
  obtain ⟨⟩ := u; obtain ⟨⟩ := t; simp [Reports]

/-- Two states with equal parts are equal. -/
theorem state_ext {u t : State} (h : t.pending = u.pending ∧ t.now = u.now ∧ t.draws = u.draws ∧ t.chip = u.chip ∧ t.supply = u.supply ∧ t.reset_ = u.reset_ ∧ t.thermal = u.thermal ∧ t.link = u.link ∧ t.events = u.events ∧ t.time = u.time ∧ t.clocks = u.clocks ∧ t.cues = u.cues ∧ t.held = u.held ∧ t.mgr = u.mgr ∧ t.inputs = u.inputs ∧ t.feeds = u.feeds ∧ t.cal = u.cal ∧ t.lanes = u.lanes ∧ t.rds = u.rds ∧ t.scan = u.scan ∧ t.dab = u.dab ∧ t.decoders = u.decoders ∧ t.progs = u.progs ∧ t.alerts = u.alerts ∧ t.cap = u.cap ∧ t.ports = u.ports ∧ t.flows = u.flows ∧ t.ghost = u.ghost ∧ t.retained = u.retained ∧ t.integ = u.integ) : t = u := by
  obtain ⟨⟩ := u; obtain ⟨⟩ := t; simpa using h

/-- The faults that have a record open, by code and instance. -/
def faultKeys (s : State) : List (Nat × Nat) := s.integ.recoveries.map fun r => (r.code, r.inst)

theorem faultOpen_iff (s : State) (c i : Nat) : faultOpen s c i = true ↔ (c, i) ∈ faultKeys s := by
  simp [faultOpen, recAt, faultKeys, isRec, List.find?_isSome]

/-- Raising a record leaves counters, recoveries and fault log as they are. -/
@[simp] theorem raise_integ (bit : Nat) (body : List Byte) (s : State) : (raise bit body s).integ = s.integ := rfl
@[simp] theorem evIntegrity_integ (i inst n : Nat) (s : State) : (evIntegrity i inst n s).integ = s.integ := rfl

/-- Counting and logging leave the recoveries as they are. -/
theorem recs_raiseCounter (i : Nat) (s : State) : (raiseCounter i s).integ.recoveries = s.integ.recoveries := by
  unfold raiseCounter; simp

theorem recs_count (i n inst : Nat) (s : State) : (count i n inst s).integ.recoveries = s.integ.recoveries := by
  unfold count; dsimp only; (repeat' split) <;> simp [recs_raiseCounter]

theorem recs_logPhase (a b c d e : Nat) (f : Int) (s : State) : (logPhase a b c d e f s).integ.recoveries = s.integ.recoveries := by
  unfold logPhase; dsimp only; (repeat' split) <;> simp [recs_count]

theorem recs_logRec (r : Recovery) (p o : Nat) (s : State) : (logRec r p o s).integ.recoveries = s.integ.recoveries := by
  unfold logRec; split <;> simp [recs_logPhase]

@[simp] theorem keys_count (i n inst : Nat) (s : State) : faultKeys (count i n inst s) = faultKeys s := by simp [faultKeys, recs_count]
@[simp] theorem keys_logRec (r : Recovery) (p o : Nat) (s : State) : faultKeys (logRec r p o s) = faultKeys s := by simp [faultKeys, recs_logRec]
@[simp] theorem keys_setRecs (l : List Recovery) (s : State) : faultKeys (setRecs l s) = l.map fun r => (r.code, r.inst) := rfl

theorem keys_updRec (code inst : Nat) (f : Recovery → Recovery) (s : State) (h : ∀ x, (f x).code = x.code ∧ (f x).inst = x.inst) :
    faultKeys (updRec code inst f s) = faultKeys s := by
  simp only [updRec, keys_setRecs, List.map_map]
  unfold faultKeys
  apply List.map_congr_left
  intro x _
  simp; split <;> simp [h]

@[simp] theorem keys_updPort (n : Nat) (f : Port → Port) (s : State) : faultKeys (updPort n f s) = faultKeys s := rfl
@[simp] theorem keys_startRec (r : Recovery) (s : State) : faultKeys (startRec r s) = faultKeys s := by
  have h (a b : Nat) : faultKeys (logRec r a b (updRec r.code r.inst (fun x => { x with phase := .running, ready := true }) s)) =
      faultKeys s := by
    rw [keys_logRec, keys_updRec]; intro x; exact ⟨rfl, rfl⟩
  unfold startRec; split
  · unfold freePort; split
    · rw [keys_updPort, h]
    · exact h _ _
  · exact h _ _
@[simp] theorem keys_abortRec (r : Recovery) (k : Nat) (s : State) : faultKeys (abortRec r k s) = faultKeys s := by
  have h : faultKeys (logRec r 3 k (updRec r.code r.inst (fun x => { x with phase := .aborted k }) s)) = faultKeys s := by
    rw [keys_logRec, keys_updRec]; intro x; exact ⟨rfl, rfl⟩
  unfold abortRec; dsimp only; split
  · rw [keys_updPort, h]
  · exact h
@[simp] theorem keys_queueRec (r : Recovery) (k : Nat) (s : State) : faultKeys (queueRec r k s) = faultKeys s := by
  unfold queueRec; rw [keys_logRec, keys_updRec]; intro x; exact ⟨rfl, rfl⟩
@[simp] theorem keys_becomesRunnable (c i : Nat) (s : State) : faultKeys (becomesRunnable c i s) = faultKeys s := by
  unfold becomesRunnable
  have hu : ∀ s : State, faultKeys (updRec c i (fun x => { x with ready := true }) s) = faultKeys s :=
    fun s => keys_updRec _ _ _ _ fun x => ⟨rfl, rfl⟩
  (repeat' split) <;> simp [hu]

@[simp] theorem keys_slotFree (s : State) : faultKeys (slotFree s) = faultKeys s := by
  unfold slotFree; (repeat' split) <;> simp

/-- The beginning of a fault opens its record and closes none. -/
theorem keys_faultBegins (c i a : Nat) (b : Int) (rd : Bool) (s : State) :
    faultKeys (faultBegins c i a b rd s) = if faultOpen s c i then faultKeys s else faultKeys s ++ [(c, i)] := by
  unfold faultBegins
  have hu : ∀ s : State, faultKeys (updRec c i (fun x => { x with detailA := a, detailB := b }) s) = faultKeys s :=
    fun s => keys_updRec _ _ _ _ fun x => ⟨rfl, rfl⟩
  unfold faultOpen
  cases h : recAt s c i <;> simp
  · (repeat' split) <;> simp <;> rfl
  · split <;> simp [hu]

theorem keys_faultEnds (c i ph : Nat) (s : State) : faultKeys (faultEnds c i ph s) = (faultKeys s).filter (· != (c, i)) := by
  unfold faultEnds
  split
  · rename_i h
    symm; rw [List.filter_eq_self]
    have := (faultOpen_iff s c i).not.mp (by simp [faultOpen, h])
    intro x hx; simp; rintro rfl; exact this hx
  · simp only [keys_slotFree, keys_logRec, keys_setRecs]
    unfold faultKeys
    rw [List.filter_map]
    congr 1

theorem faultOpen_begins (c i a : Nat) (b : Int) (rd : Bool) (s : State) (d j : Nat) :
    faultOpen (faultBegins c i a b rd s) d j = (faultOpen s d j || (d == c && j == i)) := by
  rw [Bool.eq_iff_iff, faultOpen_iff, keys_faultBegins]; simp [faultOpen_iff]
  split
  · rename_i h; constructor
    · exact Or.inl
    · rintro (h' | ⟨rfl, rfl⟩) <;> assumption
  · simp [Prod.ext_iff]

theorem faultOpen_ends (c i ph : Nat) (s : State) (d j : Nat) :
    faultOpen (faultEnds c i ph s) d j = (faultOpen s d j && !(d == c && j == i)) := by
  rw [Bool.eq_iff_iff, faultOpen_iff, keys_faultEnds]; simp [faultOpen_iff, List.mem_filter, Prod.ext_iff]; tauto

theorem faultOpen_congr {s t : State} (h : t.integ = s.integ) (c i : Nat) : faultOpen t c i = faultOpen s c i := by simp [faultOpen, recAt, h]
theorem faultOpen_keys {s t : State} (h : faultKeys t = faultKeys s) (c i : Nat) : faultOpen t c i = faultOpen s c i := by
  rw [Bool.eq_iff_iff, faultOpen_iff, faultOpen_iff, h]

end Sys2Proof.Machine
end

