-- ==== Sys2Proof/Laws/Host.lean ====
section
/-! SUPPORT. What the row of a host command does: one lemma for each way in which it ends. -/

namespace Sys2Proof.Machine

/-- Room in the reply FIFO follows from an acknowledged OPC. -/
theorem fifo_room {s : State} (h : acceptsOpc s = true) : s.link.fifo.length < 4 := by
  simp [acceptsOpc] at h; exact h.1.2

theorem putReply_room {r : Reply} {s : State} (h : s.link.fifo.length < 4) :
    putReply r s = { s with link := { s.link with fifo := s.link.fifo ++ [r] } } := by
  simp [putReply, h]

theorem putReply_replied {st : Nat} {tag : Byte} {pl : List Byte} {s : State} (h : s.link.fifo.length < 4) :
    putReply { status := byte st, tag := tag, payload := pl } s = replied s st tag pl := putReply_room h

/-- A packet that the manager takes at once. -/
theorem packetRow_turn {run : State → State} {pkt : Packet} {s : State} (h : HostTurn s pkt.param) : packetRow run pkt s = run s := by
  obtain ⟨hq, hm, ha, hl⟩ := h
  simp [packetRow, hq, hm, ha, hl]

theorem hostRow_turn {k : Cmd} {tag : Byte} {p : List Byte} {s : State} (h : HostTurn s p) :
    hostRow k tag p s = .next (runHost k tag p s) := by
  unfold hostRow; rw [packetRow_turn (pkt := { opc := k.opc, tag := tag, param := p }) h]

/-- Marking the scene changes nothing, or marks it. -/
theorem markScene_cases (s u : State) : markScene s u = u ∨ markScene s u = sceneChange u := by
  unfold markScene; split <;> simp

theorem markScene_self (s : State) : markScene s s = s := by simp [markScene]

@[simp] theorem sceneChange_link (s : State) : (sceneChange s).link = s.link := rfl

/-- The checks that every command shares pass: the command's own body decides. -/
theorem serve_passes {k : Cmd} {c : Call} {s : State} (h1 : lockedLife s k.opc = false) (h2 : k.len c.p = true)
    (h3 : k.ids s c.p = true) (h4 : domainRefuses s k.opc = false) : serve k c s = k.body c s := by
  simp [serve, h1, h2, h3, h4]

theorem lockedLife_main {s : State} {opc : Byte} (h : s.chip.life ≠ .retired) : lockedLife s opc = false := by
  simp [lockedLife, h]

theorem domainRefuses_main {s : State} {opc : Byte} (h : s.reset_.domain = .ready) : domainRefuses s opc = false := by
  simp [domainRefuses, h]

theorem serve_main {k : Cmd} {c : Call} {s : State} {p : List Byte} (h : MainTurn s p) (h2 : k.len c.p = true)
    (h3 : k.ids s c.p = true) : serve k c s = k.body c s :=
  serve_passes (lockedLife_main h.2.2) h2 h3 (domainRefuses_main h.2.1)

/-- The opcodes of Table 17-6 are never refused for the domain's sake, and life cycle bars none of them. -/
theorem serve_backup {k : Cmd} {c : Call} {s : State} (hb : backupOpcodes.contains k.opc = true) (h2 : k.len c.p = true)
    (h3 : k.ids s c.p = true) : serve k c s = k.body c s := by
  refine serve_passes ?_ h2 h3 ?_
  · have : (k.opc == 0x05 || k.opc == 0x06 || k.opc == 0x95) = false := by
      simp [backupOpcodes] at hb; rcases hb with h | h | h | h | h | h | h | h | h | h <;> rw [h] <;> decide
    unfold lockedLife; rw [this]; simp
  · simp [domainRefuses]; intro _; exact List.contains_iff_mem.mp hb

/-- The state after a body has ended, with the audio effects it has. -/
def ended (r : Res) : State := applyEffects r.effects r.state

/-- A body that ends without waiting and with a reply. -/
theorem row_answers {k : Cmd} {tag : Byte} {p : List Byte} {s : State} {st : Nat} {pl : List Byte} {u : State} {r : Res} (h : HostTurn s p)
    (hr : serve k (hostCall tag p) s = r) (hst : r.status = st) (hpl : r.payload = pl)
    (hu : ended r = u) (hw : r.wait = none) (hs : r.silent = false) (hg : r.gate = false) :
    ∃ t, hostRow k tag p s = .next t ∧ Answered t st tag pl u := by
  subst hr hst hpl hu
  refine ⟨_, hostRow_turn h, if mainReady (ended (serve k (hostCall tag p) s)) then markScene s (ended (serve k (hostCall tag p) s))
    else ended (serve k (hostCall tag p) s), ?_, ?_⟩
  · split
    · exact markScene_cases _ _
    · exact Or.inl rfl
  · unfold hostCall ended at *
    simp only [runHost, finishHost, hw, hs, hg, gateMain, Bool.false_eq_true, if_false]

/-- A body that ends with `OK`, and has no audio effect. -/
theorem row_okay {k : Cmd} {tag : Byte} {p pl : List Byte} {s u : State} (h : HostTurn s p)
    (hr : serve k (hostCall tag p) s = okay pl u) : ∃ t, hostRow k tag p s = .next t ∧ Answered t stOk tag pl u :=
  row_answers h hr rfl rfl rfl rfl rfl rfl

/-- A body that reads, or fails: the reply is all there is. -/
theorem row_same {k : Cmd} {tag : Byte} {p pl : List Byte} {s : State} {st : Nat} {r : Res} (h : HostTurn s p)
    (hr : serve k (hostCall tag p) s = r) (hst : r.status = st) (hpl : r.payload = pl)
    (hu : r.state = s) (he : r.effects = []) (hw : r.wait = none) (hs : r.silent = false) (hg : r.gate = false) :
    hostRow k tag p s = .next (replied s st tag pl) := by
  subst hr hst hpl
  rw [hostRow_turn h]; unfold hostCall at *
  have hf : s.link.fifo.length < 4 := fifo_room h.2.2.1
  simp only [runHost, finishHost, hw, hs, hg, he, hu, gateMain, applyEffects, List.foldl_nil, markScene_self, ite_self,
    Bool.false_eq_true, if_false]
  rw [putReply_replied hf]

theorem row_reads {k : Cmd} {tag : Byte} {p pl : List Byte} {s : State} (h : HostTurn s p)
    (hr : serve k (hostCall tag p) s = okay pl s) :
    hostRow k tag p s = .next (replied s stOk tag pl) :=
  row_same h hr rfl rfl rfl rfl rfl rfl rfl

theorem row_fails {k : Cmd} {tag : Byte} {p : List Byte} {s : State} {st : Nat} (h : HostTurn s p)
    (hr : serve k (hostCall tag p) s = fail st s) :
    hostRow k tag p s = .next (replied s st tag []) :=
  row_same h hr rfl rfl rfl rfl rfl rfl rfl

/-- A body that waits (R282, R386). -/
theorem row_waits {k : Cmd} {tag : Byte} {p pl : List Byte} {s u : State} {w : Wait} {r : Res} (h : HostTurn s p)
    (hr : serve k (hostCall tag p) s = r) (hpl : r.payload = pl)
    (hu : ended r = u) (hw : r.wait = some w) (hg : r.gate = false) :
    ∃ t, hostRow k tag p s = .next t ∧ Waiting t { opc := k.opc, tag := tag, param := p } w pl u := by
  subst hr hpl hu
  unfold hostCall at *
  refine ⟨_, hostRow_turn h, ?_, ?_, ?_⟩
  · exact if mainReady (ended (serve k { tag := tag, p := p, cue := none, scene := false } s)) then
      markScene s (ended (serve k { tag := tag, p := p, cue := none, scene := false } s))
      else ended (serve k { tag := tag, p := p, cue := none, scene := false } s)
  · split
    · exact markScene_cases _ _
    · exact Or.inl rfl
  · simp only [runHost, finishHost, hw, hg, gateMain, Bool.false_eq_true, if_false]
    rcases hm : mainReady (ended (serve k { tag := tag, p := p, cue := none, scene := false } s)) with _ | _
    · rw [ended] at hm; simp [hm, ended, holdExecuting]
    · rw [ended] at hm
      simp only [hm, ended, holdExecuting, if_true]
      rcases markScene_cases s (applyEffects (serve k { tag := tag, p := p, cue := none, scene := false } s).effects
        (serve k { tag := tag, p := p, cue := none, scene := false } s).state) with e | e <;> (rw [e]; try rfl)

end Sys2Proof.Machine
end

