-- ==== Sys2Proof/Laws/State.lean ====
section
/-! SUPPORT. What each update of a part of the state leaves alone, field by field, and what an accessor reads after it. -/

namespace Sys2Proof.Machine

section
variable (n : Nat) (f : Program → Program) (s : State)
@[simp] theorem updProgram_pending : (updProgram n f s).pending = s.pending := rfl
@[simp] theorem updProgram_now : (updProgram n f s).now = s.now := rfl
@[simp] theorem updProgram_draws : (updProgram n f s).draws = s.draws := rfl
@[simp] theorem updProgram_chip : (updProgram n f s).chip = s.chip := rfl
@[simp] theorem updProgram_supply : (updProgram n f s).supply = s.supply := rfl
@[simp] theorem updProgram_reset_ : (updProgram n f s).reset_ = s.reset_ := rfl
@[simp] theorem updProgram_thermal : (updProgram n f s).thermal = s.thermal := rfl
@[simp] theorem updProgram_link : (updProgram n f s).link = s.link := rfl
@[simp] theorem updProgram_events : (updProgram n f s).events = s.events := rfl
@[simp] theorem updProgram_time : (updProgram n f s).time = s.time := rfl
@[simp] theorem updProgram_clocks : (updProgram n f s).clocks = s.clocks := rfl
@[simp] theorem updProgram_cues : (updProgram n f s).cues = s.cues := rfl
@[simp] theorem updProgram_held : (updProgram n f s).held = s.held := rfl
@[simp] theorem updProgram_mgr : (updProgram n f s).mgr = s.mgr := rfl
@[simp] theorem updProgram_inputs : (updProgram n f s).inputs = s.inputs := rfl
@[simp] theorem updProgram_feeds : (updProgram n f s).feeds = s.feeds := rfl
@[simp] theorem updProgram_cal : (updProgram n f s).cal = s.cal := rfl
@[simp] theorem updProgram_lanes : (updProgram n f s).lanes = s.lanes := rfl
@[simp] theorem updProgram_rds : (updProgram n f s).rds = s.rds := rfl
@[simp] theorem updProgram_scan : (updProgram n f s).scan = s.scan := rfl
@[simp] theorem updProgram_dab : (updProgram n f s).dab = s.dab := rfl
@[simp] theorem updProgram_decoders : (updProgram n f s).decoders = s.decoders := rfl
@[simp] theorem updProgram_progs : (updProgram n f s).progs = upd s.progs n f := rfl
@[simp] theorem updProgram_alerts : (updProgram n f s).alerts = s.alerts := rfl
@[simp] theorem updProgram_cap : (updProgram n f s).cap = s.cap := rfl
@[simp] theorem updProgram_ports : (updProgram n f s).ports = s.ports := rfl
@[simp] theorem updProgram_flows : (updProgram n f s).flows = s.flows := rfl
@[simp] theorem updProgram_ghost : (updProgram n f s).ghost = s.ghost := rfl
@[simp] theorem updProgram_retained : (updProgram n f s).retained = s.retained := rfl
@[simp] theorem updProgram_integ : (updProgram n f s).integ = s.integ := rfl
end

section
variable (i : Nat) (f : Input → Input) (s : State)
@[simp] theorem updInput_pending : (updInput i f s).pending = s.pending := rfl
@[simp] theorem updInput_now : (updInput i f s).now = s.now := rfl
@[simp] theorem updInput_draws : (updInput i f s).draws = s.draws := rfl
@[simp] theorem updInput_chip : (updInput i f s).chip = s.chip := rfl
@[simp] theorem updInput_supply : (updInput i f s).supply = s.supply := rfl
@[simp] theorem updInput_reset_ : (updInput i f s).reset_ = s.reset_ := rfl
@[simp] theorem updInput_thermal : (updInput i f s).thermal = s.thermal := rfl
@[simp] theorem updInput_link : (updInput i f s).link = s.link := rfl
@[simp] theorem updInput_events : (updInput i f s).events = s.events := rfl
@[simp] theorem updInput_time : (updInput i f s).time = s.time := rfl
@[simp] theorem updInput_clocks : (updInput i f s).clocks = s.clocks := rfl
@[simp] theorem updInput_cues : (updInput i f s).cues = s.cues := rfl
@[simp] theorem updInput_held : (updInput i f s).held = s.held := rfl
@[simp] theorem updInput_mgr : (updInput i f s).mgr = s.mgr := rfl
@[simp] theorem updInput_inputs : (updInput i f s).inputs = upd s.inputs i f := rfl
@[simp] theorem updInput_feeds : (updInput i f s).feeds = s.feeds := rfl
@[simp] theorem updInput_cal : (updInput i f s).cal = s.cal := rfl
@[simp] theorem updInput_lanes : (updInput i f s).lanes = s.lanes := rfl
@[simp] theorem updInput_rds : (updInput i f s).rds = s.rds := rfl
@[simp] theorem updInput_scan : (updInput i f s).scan = s.scan := rfl
@[simp] theorem updInput_dab : (updInput i f s).dab = s.dab := rfl
@[simp] theorem updInput_decoders : (updInput i f s).decoders = s.decoders := rfl
@[simp] theorem updInput_progs : (updInput i f s).progs = s.progs := rfl
@[simp] theorem updInput_alerts : (updInput i f s).alerts = s.alerts := rfl
@[simp] theorem updInput_cap : (updInput i f s).cap = s.cap := rfl
@[simp] theorem updInput_ports : (updInput i f s).ports = s.ports := rfl
@[simp] theorem updInput_flows : (updInput i f s).flows = s.flows := rfl
@[simp] theorem updInput_ghost : (updInput i f s).ghost = s.ghost := rfl
@[simp] theorem updInput_retained : (updInput i f s).retained = s.retained := rfl
@[simp] theorem updInput_integ : (updInput i f s).integ = s.integ := rfl
end

section
variable (i : Nat) (f : Feed → Feed) (s : State)
@[simp] theorem updFeed_pending : (updFeed i f s).pending = s.pending := rfl
@[simp] theorem updFeed_now : (updFeed i f s).now = s.now := rfl
@[simp] theorem updFeed_draws : (updFeed i f s).draws = s.draws := rfl
@[simp] theorem updFeed_chip : (updFeed i f s).chip = s.chip := rfl
@[simp] theorem updFeed_supply : (updFeed i f s).supply = s.supply := rfl
@[simp] theorem updFeed_reset_ : (updFeed i f s).reset_ = s.reset_ := rfl
@[simp] theorem updFeed_thermal : (updFeed i f s).thermal = s.thermal := rfl
@[simp] theorem updFeed_link : (updFeed i f s).link = s.link := rfl
@[simp] theorem updFeed_events : (updFeed i f s).events = s.events := rfl
@[simp] theorem updFeed_time : (updFeed i f s).time = s.time := rfl
@[simp] theorem updFeed_clocks : (updFeed i f s).clocks = s.clocks := rfl
@[simp] theorem updFeed_cues : (updFeed i f s).cues = s.cues := rfl
@[simp] theorem updFeed_held : (updFeed i f s).held = s.held := rfl
@[simp] theorem updFeed_mgr : (updFeed i f s).mgr = s.mgr := rfl
@[simp] theorem updFeed_inputs : (updFeed i f s).inputs = s.inputs := rfl
@[simp] theorem updFeed_feeds : (updFeed i f s).feeds = upd s.feeds i f := rfl
@[simp] theorem updFeed_cal : (updFeed i f s).cal = s.cal := rfl
@[simp] theorem updFeed_lanes : (updFeed i f s).lanes = s.lanes := rfl
@[simp] theorem updFeed_rds : (updFeed i f s).rds = s.rds := rfl
@[simp] theorem updFeed_scan : (updFeed i f s).scan = s.scan := rfl
@[simp] theorem updFeed_dab : (updFeed i f s).dab = s.dab := rfl
@[simp] theorem updFeed_decoders : (updFeed i f s).decoders = s.decoders := rfl
@[simp] theorem updFeed_progs : (updFeed i f s).progs = s.progs := rfl
@[simp] theorem updFeed_alerts : (updFeed i f s).alerts = s.alerts := rfl
@[simp] theorem updFeed_cap : (updFeed i f s).cap = s.cap := rfl
@[simp] theorem updFeed_ports : (updFeed i f s).ports = s.ports := rfl
@[simp] theorem updFeed_flows : (updFeed i f s).flows = s.flows := rfl
@[simp] theorem updFeed_ghost : (updFeed i f s).ghost = s.ghost := rfl
@[simp] theorem updFeed_retained : (updFeed i f s).retained = s.retained := rfl
@[simp] theorem updFeed_integ : (updFeed i f s).integ = s.integ := rfl
end

section
variable (n : Nat) (f : Decoder → Decoder) (s : State)
@[simp] theorem updDecoder_pending : (updDecoder n f s).pending = s.pending := rfl
@[simp] theorem updDecoder_now : (updDecoder n f s).now = s.now := rfl
@[simp] theorem updDecoder_draws : (updDecoder n f s).draws = s.draws := rfl
@[simp] theorem updDecoder_chip : (updDecoder n f s).chip = s.chip := rfl
@[simp] theorem updDecoder_supply : (updDecoder n f s).supply = s.supply := rfl
@[simp] theorem updDecoder_reset_ : (updDecoder n f s).reset_ = s.reset_ := rfl
@[simp] theorem updDecoder_thermal : (updDecoder n f s).thermal = s.thermal := rfl
@[simp] theorem updDecoder_link : (updDecoder n f s).link = s.link := rfl
@[simp] theorem updDecoder_events : (updDecoder n f s).events = s.events := rfl
@[simp] theorem updDecoder_time : (updDecoder n f s).time = s.time := rfl
@[simp] theorem updDecoder_clocks : (updDecoder n f s).clocks = s.clocks := rfl
@[simp] theorem updDecoder_cues : (updDecoder n f s).cues = s.cues := rfl
@[simp] theorem updDecoder_held : (updDecoder n f s).held = s.held := rfl
@[simp] theorem updDecoder_mgr : (updDecoder n f s).mgr = s.mgr := rfl
@[simp] theorem updDecoder_inputs : (updDecoder n f s).inputs = s.inputs := rfl
@[simp] theorem updDecoder_feeds : (updDecoder n f s).feeds = s.feeds := rfl
@[simp] theorem updDecoder_cal : (updDecoder n f s).cal = s.cal := rfl
@[simp] theorem updDecoder_lanes : (updDecoder n f s).lanes = s.lanes := rfl
@[simp] theorem updDecoder_rds : (updDecoder n f s).rds = s.rds := rfl
@[simp] theorem updDecoder_scan : (updDecoder n f s).scan = s.scan := rfl
@[simp] theorem updDecoder_dab : (updDecoder n f s).dab = s.dab := rfl
@[simp] theorem updDecoder_decoders : (updDecoder n f s).decoders = upd s.decoders n f := rfl
@[simp] theorem updDecoder_progs : (updDecoder n f s).progs = s.progs := rfl
@[simp] theorem updDecoder_alerts : (updDecoder n f s).alerts = s.alerts := rfl
@[simp] theorem updDecoder_cap : (updDecoder n f s).cap = s.cap := rfl
@[simp] theorem updDecoder_ports : (updDecoder n f s).ports = s.ports := rfl
@[simp] theorem updDecoder_flows : (updDecoder n f s).flows = s.flows := rfl
@[simp] theorem updDecoder_ghost : (updDecoder n f s).ghost = s.ghost := rfl
@[simp] theorem updDecoder_retained : (updDecoder n f s).retained = s.retained := rfl
@[simp] theorem updDecoder_integ : (updDecoder n f s).integ = s.integ := rfl
end

section
variable (e : Nat) (f : Engine → Engine) (s : State)
@[simp] theorem updEngine_pending : (updEngine e f s).pending = s.pending := rfl
@[simp] theorem updEngine_now : (updEngine e f s).now = s.now := rfl
@[simp] theorem updEngine_draws : (updEngine e f s).draws = s.draws := rfl
@[simp] theorem updEngine_chip : (updEngine e f s).chip = s.chip := rfl
@[simp] theorem updEngine_supply : (updEngine e f s).supply = s.supply := rfl
@[simp] theorem updEngine_reset_ : (updEngine e f s).reset_ = s.reset_ := rfl
@[simp] theorem updEngine_thermal : (updEngine e f s).thermal = s.thermal := rfl
@[simp] theorem updEngine_link : (updEngine e f s).link = s.link := rfl
@[simp] theorem updEngine_events : (updEngine e f s).events = s.events := rfl
@[simp] theorem updEngine_time : (updEngine e f s).time = s.time := rfl
@[simp] theorem updEngine_clocks : (updEngine e f s).clocks = s.clocks := rfl
@[simp] theorem updEngine_cues : (updEngine e f s).cues = s.cues := rfl
@[simp] theorem updEngine_held : (updEngine e f s).held = s.held := rfl
@[simp] theorem updEngine_mgr : (updEngine e f s).mgr = s.mgr := rfl
@[simp] theorem updEngine_inputs : (updEngine e f s).inputs = s.inputs := rfl
@[simp] theorem updEngine_feeds : (updEngine e f s).feeds = s.feeds := rfl
@[simp] theorem updEngine_cal : (updEngine e f s).cal = s.cal := rfl
@[simp] theorem updEngine_lanes : (updEngine e f s).lanes = s.lanes := rfl
@[simp] theorem updEngine_rds : (updEngine e f s).rds = s.rds := rfl
@[simp] theorem updEngine_scan : (updEngine e f s).scan = s.scan := rfl
@[simp] theorem updEngine_dab : (updEngine e f s).dab = { s.dab with engines := upd s.dab.engines e f } := rfl
@[simp] theorem updEngine_decoders : (updEngine e f s).decoders = s.decoders := rfl
@[simp] theorem updEngine_progs : (updEngine e f s).progs = s.progs := rfl
@[simp] theorem updEngine_alerts : (updEngine e f s).alerts = s.alerts := rfl
@[simp] theorem updEngine_cap : (updEngine e f s).cap = s.cap := rfl
@[simp] theorem updEngine_ports : (updEngine e f s).ports = s.ports := rfl
@[simp] theorem updEngine_flows : (updEngine e f s).flows = s.flows := rfl
@[simp] theorem updEngine_ghost : (updEngine e f s).ghost = s.ghost := rfl
@[simp] theorem updEngine_retained : (updEngine e f s).retained = s.retained := rfl
@[simp] theorem updEngine_integ : (updEngine e f s).integ = s.integ := rfl
end

section
variable (i : Nat) (f : CalInput → CalInput) (s : State)
@[simp] theorem updCal_pending : (updCal i f s).pending = s.pending := rfl
@[simp] theorem updCal_now : (updCal i f s).now = s.now := rfl
@[simp] theorem updCal_draws : (updCal i f s).draws = s.draws := rfl
@[simp] theorem updCal_chip : (updCal i f s).chip = s.chip := rfl
@[simp] theorem updCal_supply : (updCal i f s).supply = s.supply := rfl
@[simp] theorem updCal_reset_ : (updCal i f s).reset_ = s.reset_ := rfl
@[simp] theorem updCal_thermal : (updCal i f s).thermal = s.thermal := rfl
@[simp] theorem updCal_link : (updCal i f s).link = s.link := rfl
@[simp] theorem updCal_events : (updCal i f s).events = s.events := rfl
@[simp] theorem updCal_time : (updCal i f s).time = s.time := rfl
@[simp] theorem updCal_clocks : (updCal i f s).clocks = s.clocks := rfl
@[simp] theorem updCal_cues : (updCal i f s).cues = s.cues := rfl
@[simp] theorem updCal_held : (updCal i f s).held = s.held := rfl
@[simp] theorem updCal_mgr : (updCal i f s).mgr = s.mgr := rfl
@[simp] theorem updCal_inputs : (updCal i f s).inputs = s.inputs := rfl
@[simp] theorem updCal_feeds : (updCal i f s).feeds = s.feeds := rfl
@[simp] theorem updCal_cal : (updCal i f s).cal = { s.cal with inputs := upd s.cal.inputs i f } := rfl
@[simp] theorem updCal_lanes : (updCal i f s).lanes = s.lanes := rfl
@[simp] theorem updCal_rds : (updCal i f s).rds = s.rds := rfl
@[simp] theorem updCal_scan : (updCal i f s).scan = s.scan := rfl
@[simp] theorem updCal_dab : (updCal i f s).dab = s.dab := rfl
@[simp] theorem updCal_decoders : (updCal i f s).decoders = s.decoders := rfl
@[simp] theorem updCal_progs : (updCal i f s).progs = s.progs := rfl
@[simp] theorem updCal_alerts : (updCal i f s).alerts = s.alerts := rfl
@[simp] theorem updCal_cap : (updCal i f s).cap = s.cap := rfl
@[simp] theorem updCal_ports : (updCal i f s).ports = s.ports := rfl
@[simp] theorem updCal_flows : (updCal i f s).flows = s.flows := rfl
@[simp] theorem updCal_ghost : (updCal i f s).ghost = s.ghost := rfl
@[simp] theorem updCal_retained : (updCal i f s).retained = s.retained := rfl
@[simp] theorem updCal_integ : (updCal i f s).integ = s.integ := rfl
end

section
variable (n : Nat) (f : Port → Port) (s : State)
@[simp] theorem updPort_pending : (updPort n f s).pending = s.pending := rfl
@[simp] theorem updPort_now : (updPort n f s).now = s.now := rfl
@[simp] theorem updPort_draws : (updPort n f s).draws = s.draws := rfl
@[simp] theorem updPort_chip : (updPort n f s).chip = s.chip := rfl
@[simp] theorem updPort_supply : (updPort n f s).supply = s.supply := rfl
@[simp] theorem updPort_reset_ : (updPort n f s).reset_ = s.reset_ := rfl
@[simp] theorem updPort_thermal : (updPort n f s).thermal = s.thermal := rfl
@[simp] theorem updPort_link : (updPort n f s).link = s.link := rfl
@[simp] theorem updPort_events : (updPort n f s).events = s.events := rfl
@[simp] theorem updPort_time : (updPort n f s).time = s.time := rfl
@[simp] theorem updPort_clocks : (updPort n f s).clocks = s.clocks := rfl
@[simp] theorem updPort_cues : (updPort n f s).cues = s.cues := rfl
@[simp] theorem updPort_held : (updPort n f s).held = s.held := rfl
@[simp] theorem updPort_mgr : (updPort n f s).mgr = s.mgr := rfl
@[simp] theorem updPort_inputs : (updPort n f s).inputs = s.inputs := rfl
@[simp] theorem updPort_feeds : (updPort n f s).feeds = s.feeds := rfl
@[simp] theorem updPort_cal : (updPort n f s).cal = s.cal := rfl
@[simp] theorem updPort_lanes : (updPort n f s).lanes = s.lanes := rfl
@[simp] theorem updPort_rds : (updPort n f s).rds = s.rds := rfl
@[simp] theorem updPort_scan : (updPort n f s).scan = s.scan := rfl
@[simp] theorem updPort_dab : (updPort n f s).dab = s.dab := rfl
@[simp] theorem updPort_decoders : (updPort n f s).decoders = s.decoders := rfl
@[simp] theorem updPort_progs : (updPort n f s).progs = s.progs := rfl
@[simp] theorem updPort_alerts : (updPort n f s).alerts = s.alerts := rfl
@[simp] theorem updPort_cap : (updPort n f s).cap = s.cap := rfl
@[simp] theorem updPort_ports : (updPort n f s).ports = { s.ports with tdm := upd s.ports.tdm n f } := rfl
@[simp] theorem updPort_flows : (updPort n f s).flows = s.flows := rfl
@[simp] theorem updPort_ghost : (updPort n f s).ghost = s.ghost := rfl
@[simp] theorem updPort_retained : (updPort n f s).retained = s.retained := rfl
@[simp] theorem updPort_integ : (updPort n f s).integ = s.integ := rfl
end

section
variable (n : Nat) (f : Flow → Flow) (s : State)
@[simp] theorem updFlow_pending : (updFlow n f s).pending = s.pending := rfl
@[simp] theorem updFlow_now : (updFlow n f s).now = s.now := rfl
@[simp] theorem updFlow_draws : (updFlow n f s).draws = s.draws := rfl
@[simp] theorem updFlow_chip : (updFlow n f s).chip = s.chip := rfl
@[simp] theorem updFlow_supply : (updFlow n f s).supply = s.supply := rfl
@[simp] theorem updFlow_reset_ : (updFlow n f s).reset_ = s.reset_ := rfl
@[simp] theorem updFlow_thermal : (updFlow n f s).thermal = s.thermal := rfl
@[simp] theorem updFlow_link : (updFlow n f s).link = s.link := rfl
@[simp] theorem updFlow_events : (updFlow n f s).events = s.events := rfl
@[simp] theorem updFlow_time : (updFlow n f s).time = s.time := rfl
@[simp] theorem updFlow_clocks : (updFlow n f s).clocks = s.clocks := rfl
@[simp] theorem updFlow_cues : (updFlow n f s).cues = s.cues := rfl
@[simp] theorem updFlow_held : (updFlow n f s).held = s.held := rfl
@[simp] theorem updFlow_mgr : (updFlow n f s).mgr = s.mgr := rfl
@[simp] theorem updFlow_inputs : (updFlow n f s).inputs = s.inputs := rfl
@[simp] theorem updFlow_feeds : (updFlow n f s).feeds = s.feeds := rfl
@[simp] theorem updFlow_cal : (updFlow n f s).cal = s.cal := rfl
@[simp] theorem updFlow_lanes : (updFlow n f s).lanes = s.lanes := rfl
@[simp] theorem updFlow_rds : (updFlow n f s).rds = s.rds := rfl
@[simp] theorem updFlow_scan : (updFlow n f s).scan = s.scan := rfl
@[simp] theorem updFlow_dab : (updFlow n f s).dab = s.dab := rfl
@[simp] theorem updFlow_decoders : (updFlow n f s).decoders = s.decoders := rfl
@[simp] theorem updFlow_progs : (updFlow n f s).progs = s.progs := rfl
@[simp] theorem updFlow_alerts : (updFlow n f s).alerts = s.alerts := rfl
@[simp] theorem updFlow_cap : (updFlow n f s).cap = s.cap := rfl
@[simp] theorem updFlow_ports : (updFlow n f s).ports = s.ports := rfl
@[simp] theorem updFlow_flows : (updFlow n f s).flows = { s.flows with flows := upd s.flows.flows n f } := rfl
@[simp] theorem updFlow_ghost : (updFlow n f s).ghost = s.ghost := rfl
@[simp] theorem updFlow_retained : (updFlow n f s).retained = s.retained := rfl
@[simp] theorem updFlow_integ : (updFlow n f s).integ = s.integ := rfl
end

section
variable (n : Nat) (f : ClockOutput → ClockOutput) (s : State)
@[simp] theorem updOut_pending : (updOut n f s).pending = s.pending := rfl
@[simp] theorem updOut_now : (updOut n f s).now = s.now := rfl
@[simp] theorem updOut_draws : (updOut n f s).draws = s.draws := rfl
@[simp] theorem updOut_chip : (updOut n f s).chip = s.chip := rfl
@[simp] theorem updOut_supply : (updOut n f s).supply = s.supply := rfl
@[simp] theorem updOut_reset_ : (updOut n f s).reset_ = s.reset_ := rfl
@[simp] theorem updOut_thermal : (updOut n f s).thermal = s.thermal := rfl
@[simp] theorem updOut_link : (updOut n f s).link = s.link := rfl
@[simp] theorem updOut_events : (updOut n f s).events = s.events := rfl
@[simp] theorem updOut_time : (updOut n f s).time = s.time := rfl
@[simp] theorem updOut_clocks : (updOut n f s).clocks = { s.clocks with outs := upd s.clocks.outs n f } := rfl
@[simp] theorem updOut_cues : (updOut n f s).cues = s.cues := rfl
@[simp] theorem updOut_held : (updOut n f s).held = s.held := rfl
@[simp] theorem updOut_mgr : (updOut n f s).mgr = s.mgr := rfl
@[simp] theorem updOut_inputs : (updOut n f s).inputs = s.inputs := rfl
@[simp] theorem updOut_feeds : (updOut n f s).feeds = s.feeds := rfl
@[simp] theorem updOut_cal : (updOut n f s).cal = s.cal := rfl
@[simp] theorem updOut_lanes : (updOut n f s).lanes = s.lanes := rfl
@[simp] theorem updOut_rds : (updOut n f s).rds = s.rds := rfl
@[simp] theorem updOut_scan : (updOut n f s).scan = s.scan := rfl
@[simp] theorem updOut_dab : (updOut n f s).dab = s.dab := rfl
@[simp] theorem updOut_decoders : (updOut n f s).decoders = s.decoders := rfl
@[simp] theorem updOut_progs : (updOut n f s).progs = s.progs := rfl
@[simp] theorem updOut_alerts : (updOut n f s).alerts = s.alerts := rfl
@[simp] theorem updOut_cap : (updOut n f s).cap = s.cap := rfl
@[simp] theorem updOut_ports : (updOut n f s).ports = s.ports := rfl
@[simp] theorem updOut_flows : (updOut n f s).flows = s.flows := rfl
@[simp] theorem updOut_ghost : (updOut n f s).ghost = s.ghost := rfl
@[simp] theorem updOut_retained : (updOut n f s).retained = s.retained := rfl
@[simp] theorem updOut_integ : (updOut n f s).integ = s.integ := rfl
end

section
variable (f : Clocks → Clocks) (s : State)
@[simp] theorem setClocks_pending : (setClocks f s).pending = s.pending := rfl
@[simp] theorem setClocks_now : (setClocks f s).now = s.now := rfl
@[simp] theorem setClocks_draws : (setClocks f s).draws = s.draws := rfl
@[simp] theorem setClocks_chip : (setClocks f s).chip = s.chip := rfl
@[simp] theorem setClocks_supply : (setClocks f s).supply = s.supply := rfl
@[simp] theorem setClocks_reset_ : (setClocks f s).reset_ = s.reset_ := rfl
@[simp] theorem setClocks_thermal : (setClocks f s).thermal = s.thermal := rfl
@[simp] theorem setClocks_link : (setClocks f s).link = s.link := rfl
@[simp] theorem setClocks_events : (setClocks f s).events = s.events := rfl
@[simp] theorem setClocks_time : (setClocks f s).time = s.time := rfl
@[simp] theorem setClocks_clocks : (setClocks f s).clocks = f s.clocks := rfl
@[simp] theorem setClocks_cues : (setClocks f s).cues = s.cues := rfl
@[simp] theorem setClocks_held : (setClocks f s).held = s.held := rfl
@[simp] theorem setClocks_mgr : (setClocks f s).mgr = s.mgr := rfl
@[simp] theorem setClocks_inputs : (setClocks f s).inputs = s.inputs := rfl
@[simp] theorem setClocks_feeds : (setClocks f s).feeds = s.feeds := rfl
@[simp] theorem setClocks_cal : (setClocks f s).cal = s.cal := rfl
@[simp] theorem setClocks_lanes : (setClocks f s).lanes = s.lanes := rfl
@[simp] theorem setClocks_rds : (setClocks f s).rds = s.rds := rfl
@[simp] theorem setClocks_scan : (setClocks f s).scan = s.scan := rfl
@[simp] theorem setClocks_dab : (setClocks f s).dab = s.dab := rfl
@[simp] theorem setClocks_decoders : (setClocks f s).decoders = s.decoders := rfl
@[simp] theorem setClocks_progs : (setClocks f s).progs = s.progs := rfl
@[simp] theorem setClocks_alerts : (setClocks f s).alerts = s.alerts := rfl
@[simp] theorem setClocks_cap : (setClocks f s).cap = s.cap := rfl
@[simp] theorem setClocks_ports : (setClocks f s).ports = s.ports := rfl
@[simp] theorem setClocks_flows : (setClocks f s).flows = s.flows := rfl
@[simp] theorem setClocks_ghost : (setClocks f s).ghost = s.ghost := rfl
@[simp] theorem setClocks_retained : (setClocks f s).retained = s.retained := rfl
@[simp] theorem setClocks_integ : (setClocks f s).integ = s.integ := rfl
end

section
variable (f : Supply → Supply) (s : State)
@[simp] theorem setSupply_pending : (setSupply f s).pending = s.pending := rfl
@[simp] theorem setSupply_now : (setSupply f s).now = s.now := rfl
@[simp] theorem setSupply_draws : (setSupply f s).draws = s.draws := rfl
@[simp] theorem setSupply_chip : (setSupply f s).chip = s.chip := rfl
@[simp] theorem setSupply_supply : (setSupply f s).supply = f s.supply := rfl
@[simp] theorem setSupply_reset_ : (setSupply f s).reset_ = s.reset_ := rfl
@[simp] theorem setSupply_thermal : (setSupply f s).thermal = s.thermal := rfl
@[simp] theorem setSupply_link : (setSupply f s).link = s.link := rfl
@[simp] theorem setSupply_events : (setSupply f s).events = s.events := rfl
@[simp] theorem setSupply_time : (setSupply f s).time = s.time := rfl
@[simp] theorem setSupply_clocks : (setSupply f s).clocks = s.clocks := rfl
@[simp] theorem setSupply_cues : (setSupply f s).cues = s.cues := rfl
@[simp] theorem setSupply_held : (setSupply f s).held = s.held := rfl
@[simp] theorem setSupply_mgr : (setSupply f s).mgr = s.mgr := rfl
@[simp] theorem setSupply_inputs : (setSupply f s).inputs = s.inputs := rfl
@[simp] theorem setSupply_feeds : (setSupply f s).feeds = s.feeds := rfl
@[simp] theorem setSupply_cal : (setSupply f s).cal = s.cal := rfl
@[simp] theorem setSupply_lanes : (setSupply f s).lanes = s.lanes := rfl
@[simp] theorem setSupply_rds : (setSupply f s).rds = s.rds := rfl
@[simp] theorem setSupply_scan : (setSupply f s).scan = s.scan := rfl
@[simp] theorem setSupply_dab : (setSupply f s).dab = s.dab := rfl
@[simp] theorem setSupply_decoders : (setSupply f s).decoders = s.decoders := rfl
@[simp] theorem setSupply_progs : (setSupply f s).progs = s.progs := rfl
@[simp] theorem setSupply_alerts : (setSupply f s).alerts = s.alerts := rfl
@[simp] theorem setSupply_cap : (setSupply f s).cap = s.cap := rfl
@[simp] theorem setSupply_ports : (setSupply f s).ports = s.ports := rfl
@[simp] theorem setSupply_flows : (setSupply f s).flows = s.flows := rfl
@[simp] theorem setSupply_ghost : (setSupply f s).ghost = s.ghost := rfl
@[simp] theorem setSupply_retained : (setSupply f s).retained = s.retained := rfl
@[simp] theorem setSupply_integ : (setSupply f s).integ = s.integ := rfl
end

section
variable (f : Capacity → Capacity) (s : State)
@[simp] theorem setCap_pending : (setCap f s).pending = s.pending := rfl
@[simp] theorem setCap_now : (setCap f s).now = s.now := rfl
@[simp] theorem setCap_draws : (setCap f s).draws = s.draws := rfl
@[simp] theorem setCap_chip : (setCap f s).chip = s.chip := rfl
@[simp] theorem setCap_supply : (setCap f s).supply = s.supply := rfl
@[simp] theorem setCap_reset_ : (setCap f s).reset_ = s.reset_ := rfl
@[simp] theorem setCap_thermal : (setCap f s).thermal = s.thermal := rfl
@[simp] theorem setCap_link : (setCap f s).link = s.link := rfl
@[simp] theorem setCap_events : (setCap f s).events = s.events := rfl
@[simp] theorem setCap_time : (setCap f s).time = s.time := rfl
@[simp] theorem setCap_clocks : (setCap f s).clocks = s.clocks := rfl
@[simp] theorem setCap_cues : (setCap f s).cues = s.cues := rfl
@[simp] theorem setCap_held : (setCap f s).held = s.held := rfl
@[simp] theorem setCap_mgr : (setCap f s).mgr = s.mgr := rfl
@[simp] theorem setCap_inputs : (setCap f s).inputs = s.inputs := rfl
@[simp] theorem setCap_feeds : (setCap f s).feeds = s.feeds := rfl
@[simp] theorem setCap_cal : (setCap f s).cal = s.cal := rfl
@[simp] theorem setCap_lanes : (setCap f s).lanes = s.lanes := rfl
@[simp] theorem setCap_rds : (setCap f s).rds = s.rds := rfl
@[simp] theorem setCap_scan : (setCap f s).scan = s.scan := rfl
@[simp] theorem setCap_dab : (setCap f s).dab = s.dab := rfl
@[simp] theorem setCap_decoders : (setCap f s).decoders = s.decoders := rfl
@[simp] theorem setCap_progs : (setCap f s).progs = s.progs := rfl
@[simp] theorem setCap_alerts : (setCap f s).alerts = s.alerts := rfl
@[simp] theorem setCap_cap : (setCap f s).cap = f s.cap := rfl
@[simp] theorem setCap_ports : (setCap f s).ports = s.ports := rfl
@[simp] theorem setCap_flows : (setCap f s).flows = s.flows := rfl
@[simp] theorem setCap_ghost : (setCap f s).ghost = s.ghost := rfl
@[simp] theorem setCap_retained : (setCap f s).retained = s.retained := rfl
@[simp] theorem setCap_integ : (setCap f s).integ = s.integ := rfl
end

section
variable (l : List Recovery) (s : State)
@[simp] theorem setRecs_pending : (setRecs l s).pending = s.pending := rfl
@[simp] theorem setRecs_now : (setRecs l s).now = s.now := rfl
@[simp] theorem setRecs_draws : (setRecs l s).draws = s.draws := rfl
@[simp] theorem setRecs_chip : (setRecs l s).chip = s.chip := rfl
@[simp] theorem setRecs_supply : (setRecs l s).supply = s.supply := rfl
@[simp] theorem setRecs_reset_ : (setRecs l s).reset_ = s.reset_ := rfl
@[simp] theorem setRecs_thermal : (setRecs l s).thermal = s.thermal := rfl
@[simp] theorem setRecs_link : (setRecs l s).link = s.link := rfl
@[simp] theorem setRecs_events : (setRecs l s).events = s.events := rfl
@[simp] theorem setRecs_time : (setRecs l s).time = s.time := rfl
@[simp] theorem setRecs_clocks : (setRecs l s).clocks = s.clocks := rfl
@[simp] theorem setRecs_cues : (setRecs l s).cues = s.cues := rfl
@[simp] theorem setRecs_held : (setRecs l s).held = s.held := rfl
@[simp] theorem setRecs_mgr : (setRecs l s).mgr = s.mgr := rfl
@[simp] theorem setRecs_inputs : (setRecs l s).inputs = s.inputs := rfl
@[simp] theorem setRecs_feeds : (setRecs l s).feeds = s.feeds := rfl
@[simp] theorem setRecs_cal : (setRecs l s).cal = s.cal := rfl
@[simp] theorem setRecs_lanes : (setRecs l s).lanes = s.lanes := rfl
@[simp] theorem setRecs_rds : (setRecs l s).rds = s.rds := rfl
@[simp] theorem setRecs_scan : (setRecs l s).scan = s.scan := rfl
@[simp] theorem setRecs_dab : (setRecs l s).dab = s.dab := rfl
@[simp] theorem setRecs_decoders : (setRecs l s).decoders = s.decoders := rfl
@[simp] theorem setRecs_progs : (setRecs l s).progs = s.progs := rfl
@[simp] theorem setRecs_alerts : (setRecs l s).alerts = s.alerts := rfl
@[simp] theorem setRecs_cap : (setRecs l s).cap = s.cap := rfl
@[simp] theorem setRecs_ports : (setRecs l s).ports = s.ports := rfl
@[simp] theorem setRecs_flows : (setRecs l s).flows = s.flows := rfl
@[simp] theorem setRecs_ghost : (setRecs l s).ghost = s.ghost := rfl
@[simp] theorem setRecs_retained : (setRecs l s).retained = s.retained := rfl
@[simp] theorem setRecs_integ : (setRecs l s).integ = { s.integ with recoveries := l } := rfl
end

section
variable (w : WatchState) (s : State)
@[simp] theorem setWatch_pending : (setWatch w s).pending = s.pending := rfl
@[simp] theorem setWatch_now : (setWatch w s).now = s.now := rfl
@[simp] theorem setWatch_draws : (setWatch w s).draws = s.draws := rfl
@[simp] theorem setWatch_chip : (setWatch w s).chip = s.chip := rfl
@[simp] theorem setWatch_supply : (setWatch w s).supply = s.supply := rfl
@[simp] theorem setWatch_reset_ : (setWatch w s).reset_ = s.reset_ := rfl
@[simp] theorem setWatch_thermal : (setWatch w s).thermal = s.thermal := rfl
@[simp] theorem setWatch_link : (setWatch w s).link = s.link := rfl
@[simp] theorem setWatch_events : (setWatch w s).events = s.events := rfl
@[simp] theorem setWatch_time : (setWatch w s).time = s.time := rfl
@[simp] theorem setWatch_clocks : (setWatch w s).clocks = s.clocks := rfl
@[simp] theorem setWatch_cues : (setWatch w s).cues = s.cues := rfl
@[simp] theorem setWatch_held : (setWatch w s).held = s.held := rfl
@[simp] theorem setWatch_mgr : (setWatch w s).mgr = s.mgr := rfl
@[simp] theorem setWatch_inputs : (setWatch w s).inputs = s.inputs := rfl
@[simp] theorem setWatch_feeds : (setWatch w s).feeds = s.feeds := rfl
@[simp] theorem setWatch_cal : (setWatch w s).cal = s.cal := rfl
@[simp] theorem setWatch_lanes : (setWatch w s).lanes = s.lanes := rfl
@[simp] theorem setWatch_rds : (setWatch w s).rds = s.rds := rfl
@[simp] theorem setWatch_scan : (setWatch w s).scan = s.scan := rfl
@[simp] theorem setWatch_dab : (setWatch w s).dab = s.dab := rfl
@[simp] theorem setWatch_decoders : (setWatch w s).decoders = s.decoders := rfl
@[simp] theorem setWatch_progs : (setWatch w s).progs = s.progs := rfl
@[simp] theorem setWatch_alerts : (setWatch w s).alerts = s.alerts := rfl
@[simp] theorem setWatch_cap : (setWatch w s).cap = s.cap := rfl
@[simp] theorem setWatch_ports : (setWatch w s).ports = s.ports := rfl
@[simp] theorem setWatch_flows : (setWatch w s).flows = s.flows := rfl
@[simp] theorem setWatch_ghost : (setWatch w s).ghost = { s.ghost with watch := w } := rfl
@[simp] theorem setWatch_retained : (setWatch w s).retained = s.retained := rfl
@[simp] theorem setWatch_integ : (setWatch w s).integ = s.integ := rfl
end

section
variable (f : AlertLog → AlertLog) (s : State)
@[simp] theorem updLog_pending : (updLog f s).pending = s.pending := rfl
@[simp] theorem updLog_now : (updLog f s).now = s.now := rfl
@[simp] theorem updLog_draws : (updLog f s).draws = s.draws := rfl
@[simp] theorem updLog_chip : (updLog f s).chip = s.chip := rfl
@[simp] theorem updLog_supply : (updLog f s).supply = s.supply := rfl
@[simp] theorem updLog_reset_ : (updLog f s).reset_ = s.reset_ := rfl
@[simp] theorem updLog_thermal : (updLog f s).thermal = s.thermal := rfl
@[simp] theorem updLog_link : (updLog f s).link = s.link := rfl
@[simp] theorem updLog_events : (updLog f s).events = s.events := rfl
@[simp] theorem updLog_time : (updLog f s).time = s.time := rfl
@[simp] theorem updLog_clocks : (updLog f s).clocks = s.clocks := rfl
@[simp] theorem updLog_cues : (updLog f s).cues = s.cues := rfl
@[simp] theorem updLog_held : (updLog f s).held = s.held := rfl
@[simp] theorem updLog_mgr : (updLog f s).mgr = s.mgr := rfl
@[simp] theorem updLog_inputs : (updLog f s).inputs = s.inputs := rfl
@[simp] theorem updLog_feeds : (updLog f s).feeds = s.feeds := rfl
@[simp] theorem updLog_cal : (updLog f s).cal = s.cal := rfl
@[simp] theorem updLog_lanes : (updLog f s).lanes = s.lanes := rfl
@[simp] theorem updLog_rds : (updLog f s).rds = s.rds := rfl
@[simp] theorem updLog_scan : (updLog f s).scan = s.scan := rfl
@[simp] theorem updLog_dab : (updLog f s).dab = s.dab := rfl
@[simp] theorem updLog_decoders : (updLog f s).decoders = s.decoders := rfl
@[simp] theorem updLog_progs : (updLog f s).progs = s.progs := rfl
@[simp] theorem updLog_alerts : (updLog f s).alerts = s.alerts := rfl
@[simp] theorem updLog_cap : (updLog f s).cap = s.cap := rfl
@[simp] theorem updLog_ports : (updLog f s).ports = s.ports := rfl
@[simp] theorem updLog_flows : (updLog f s).flows = s.flows := rfl
@[simp] theorem updLog_ghost : (updLog f s).ghost = s.ghost := rfl
@[simp] theorem updLog_retained : (updLog f s).retained = { s.retained with alertLog := f s.retained.alertLog } := rfl
@[simp] theorem updLog_integ : (updLog f s).integ = s.integ := rfl
end

section
variable (s : State)
@[simp] theorem refreshMirror_pending : (refreshMirror s).pending = s.pending := rfl
@[simp] theorem refreshMirror_now : (refreshMirror s).now = s.now := rfl
@[simp] theorem refreshMirror_draws : (refreshMirror s).draws = s.draws := rfl
@[simp] theorem refreshMirror_chip : (refreshMirror s).chip = s.chip := rfl
@[simp] theorem refreshMirror_supply : (refreshMirror s).supply = s.supply := rfl
@[simp] theorem refreshMirror_reset_ : (refreshMirror s).reset_ = s.reset_ := rfl
@[simp] theorem refreshMirror_thermal : (refreshMirror s).thermal = s.thermal := rfl
@[simp] theorem refreshMirror_link : (refreshMirror s).link = s.link := rfl
@[simp] theorem refreshMirror_events : (refreshMirror s).events = { s.events with mirror := mirrorLevel s } := rfl
@[simp] theorem refreshMirror_time : (refreshMirror s).time = s.time := rfl
@[simp] theorem refreshMirror_clocks : (refreshMirror s).clocks = s.clocks := rfl
@[simp] theorem refreshMirror_cues : (refreshMirror s).cues = s.cues := rfl
@[simp] theorem refreshMirror_held : (refreshMirror s).held = s.held := rfl
@[simp] theorem refreshMirror_mgr : (refreshMirror s).mgr = s.mgr := rfl
@[simp] theorem refreshMirror_inputs : (refreshMirror s).inputs = s.inputs := rfl
@[simp] theorem refreshMirror_feeds : (refreshMirror s).feeds = s.feeds := rfl
@[simp] theorem refreshMirror_cal : (refreshMirror s).cal = s.cal := rfl
@[simp] theorem refreshMirror_lanes : (refreshMirror s).lanes = s.lanes := rfl
@[simp] theorem refreshMirror_rds : (refreshMirror s).rds = s.rds := rfl
@[simp] theorem refreshMirror_scan : (refreshMirror s).scan = s.scan := rfl
@[simp] theorem refreshMirror_dab : (refreshMirror s).dab = s.dab := rfl
@[simp] theorem refreshMirror_decoders : (refreshMirror s).decoders = s.decoders := rfl
@[simp] theorem refreshMirror_progs : (refreshMirror s).progs = s.progs := rfl
@[simp] theorem refreshMirror_alerts : (refreshMirror s).alerts = s.alerts := rfl
@[simp] theorem refreshMirror_cap : (refreshMirror s).cap = s.cap := rfl
@[simp] theorem refreshMirror_ports : (refreshMirror s).ports = s.ports := rfl
@[simp] theorem refreshMirror_flows : (refreshMirror s).flows = s.flows := rfl
@[simp] theorem refreshMirror_ghost : (refreshMirror s).ghost = s.ghost := rfl
@[simp] theorem refreshMirror_retained : (refreshMirror s).retained = s.retained := rfl
@[simp] theorem refreshMirror_integ : (refreshMirror s).integ = s.integ := rfl
end

section
variable (s : State)
@[simp] theorem refreshFeeds_pending : (refreshFeeds s).pending = s.pending := rfl
@[simp] theorem refreshFeeds_now : (refreshFeeds s).now = s.now := rfl
@[simp] theorem refreshFeeds_draws : (refreshFeeds s).draws = s.draws := rfl
@[simp] theorem refreshFeeds_chip : (refreshFeeds s).chip = s.chip := rfl
@[simp] theorem refreshFeeds_supply : (refreshFeeds s).supply = s.supply := rfl
@[simp] theorem refreshFeeds_reset_ : (refreshFeeds s).reset_ = s.reset_ := rfl
@[simp] theorem refreshFeeds_thermal : (refreshFeeds s).thermal = s.thermal := rfl
@[simp] theorem refreshFeeds_link : (refreshFeeds s).link = s.link := rfl
@[simp] theorem refreshFeeds_events : (refreshFeeds s).events = s.events := rfl
@[simp] theorem refreshFeeds_time : (refreshFeeds s).time = s.time := rfl
@[simp] theorem refreshFeeds_clocks : (refreshFeeds s).clocks = s.clocks := rfl
@[simp] theorem refreshFeeds_cues : (refreshFeeds s).cues = s.cues := rfl
@[simp] theorem refreshFeeds_held : (refreshFeeds s).held = s.held := rfl
@[simp] theorem refreshFeeds_mgr : (refreshFeeds s).mgr = s.mgr := rfl
@[simp] theorem refreshFeeds_inputs : (refreshFeeds s).inputs = s.inputs := rfl
@[simp] theorem refreshFeeds_cal : (refreshFeeds s).cal = s.cal := rfl
@[simp] theorem refreshFeeds_lanes : (refreshFeeds s).lanes = s.lanes := rfl
@[simp] theorem refreshFeeds_rds : (refreshFeeds s).rds = s.rds := rfl
@[simp] theorem refreshFeeds_scan : (refreshFeeds s).scan = s.scan := rfl
@[simp] theorem refreshFeeds_dab : (refreshFeeds s).dab = s.dab := rfl
@[simp] theorem refreshFeeds_decoders : (refreshFeeds s).decoders = s.decoders := rfl
@[simp] theorem refreshFeeds_progs : (refreshFeeds s).progs = s.progs := rfl
@[simp] theorem refreshFeeds_alerts : (refreshFeeds s).alerts = s.alerts := rfl
@[simp] theorem refreshFeeds_cap : (refreshFeeds s).cap = s.cap := rfl
@[simp] theorem refreshFeeds_ports : (refreshFeeds s).ports = s.ports := rfl
@[simp] theorem refreshFeeds_flows : (refreshFeeds s).flows = s.flows := rfl
@[simp] theorem refreshFeeds_ghost : (refreshFeeds s).ghost = s.ghost := rfl
@[simp] theorem refreshFeeds_retained : (refreshFeeds s).retained = s.retained := rfl
@[simp] theorem refreshFeeds_integ : (refreshFeeds s).integ = s.integ := rfl
end

section
variable (s : State)
@[simp] theorem sceneChange_pending : (sceneChange s).pending = s.pending := rfl
@[simp] theorem sceneChange_now : (sceneChange s).now = s.now := rfl
@[simp] theorem sceneChange_draws : (sceneChange s).draws = s.draws := rfl
@[simp] theorem sceneChange_chip : (sceneChange s).chip = s.chip := rfl
@[simp] theorem sceneChange_supply : (sceneChange s).supply = s.supply := rfl
@[simp] theorem sceneChange_reset_ : (sceneChange s).reset_ = s.reset_ := rfl
@[simp] theorem sceneChange_thermal : (sceneChange s).thermal = s.thermal := rfl
@[simp] theorem sceneChange_events : (sceneChange s).events = s.events := rfl
@[simp] theorem sceneChange_time : (sceneChange s).time = s.time := rfl
@[simp] theorem sceneChange_clocks : (sceneChange s).clocks = s.clocks := rfl
@[simp] theorem sceneChange_cues : (sceneChange s).cues = s.cues := rfl
@[simp] theorem sceneChange_held : (sceneChange s).held = s.held := rfl
@[simp] theorem sceneChange_inputs : (sceneChange s).inputs = s.inputs := rfl
@[simp] theorem sceneChange_feeds : (sceneChange s).feeds = s.feeds := rfl
@[simp] theorem sceneChange_cal : (sceneChange s).cal = s.cal := rfl
@[simp] theorem sceneChange_lanes : (sceneChange s).lanes = s.lanes := rfl
@[simp] theorem sceneChange_rds : (sceneChange s).rds = s.rds := rfl
@[simp] theorem sceneChange_scan : (sceneChange s).scan = s.scan := rfl
@[simp] theorem sceneChange_dab : (sceneChange s).dab = s.dab := rfl
@[simp] theorem sceneChange_decoders : (sceneChange s).decoders = s.decoders := rfl
@[simp] theorem sceneChange_progs : (sceneChange s).progs = s.progs := rfl
@[simp] theorem sceneChange_alerts : (sceneChange s).alerts = s.alerts := rfl
@[simp] theorem sceneChange_cap : (sceneChange s).cap = s.cap := rfl
@[simp] theorem sceneChange_ports : (sceneChange s).ports = s.ports := rfl
@[simp] theorem sceneChange_flows : (sceneChange s).flows = s.flows := rfl
@[simp] theorem sceneChange_ghost : (sceneChange s).ghost = s.ghost := rfl
@[simp] theorem sceneChange_retained : (sceneChange s).retained = s.retained := rfl
@[simp] theorem sceneChange_integ : (sceneChange s).integ = s.integ := rfl
end

section
variable (e : Executing) (s : State)
@[simp] theorem holdExecuting_pending : (holdExecuting e s).pending = s.pending := rfl
@[simp] theorem holdExecuting_now : (holdExecuting e s).now = s.now := rfl
@[simp] theorem holdExecuting_draws : (holdExecuting e s).draws = s.draws := rfl
@[simp] theorem holdExecuting_chip : (holdExecuting e s).chip = s.chip := rfl
@[simp] theorem holdExecuting_supply : (holdExecuting e s).supply = s.supply := rfl
@[simp] theorem holdExecuting_reset_ : (holdExecuting e s).reset_ = s.reset_ := rfl
@[simp] theorem holdExecuting_thermal : (holdExecuting e s).thermal = s.thermal := rfl
@[simp] theorem holdExecuting_link : (holdExecuting e s).link = s.link := rfl
@[simp] theorem holdExecuting_events : (holdExecuting e s).events = s.events := rfl
@[simp] theorem holdExecuting_time : (holdExecuting e s).time = s.time := rfl
@[simp] theorem holdExecuting_clocks : (holdExecuting e s).clocks = s.clocks := rfl
@[simp] theorem holdExecuting_cues : (holdExecuting e s).cues = s.cues := rfl
@[simp] theorem holdExecuting_held : (holdExecuting e s).held = s.held := rfl
@[simp] theorem holdExecuting_mgr : (holdExecuting e s).mgr = { s.mgr with executing := some e } := rfl
@[simp] theorem holdExecuting_inputs : (holdExecuting e s).inputs = s.inputs := rfl
@[simp] theorem holdExecuting_feeds : (holdExecuting e s).feeds = s.feeds := rfl
@[simp] theorem holdExecuting_cal : (holdExecuting e s).cal = s.cal := rfl
@[simp] theorem holdExecuting_lanes : (holdExecuting e s).lanes = s.lanes := rfl
@[simp] theorem holdExecuting_rds : (holdExecuting e s).rds = s.rds := rfl
@[simp] theorem holdExecuting_scan : (holdExecuting e s).scan = s.scan := rfl
@[simp] theorem holdExecuting_dab : (holdExecuting e s).dab = s.dab := rfl
@[simp] theorem holdExecuting_decoders : (holdExecuting e s).decoders = s.decoders := rfl
@[simp] theorem holdExecuting_progs : (holdExecuting e s).progs = s.progs := rfl
@[simp] theorem holdExecuting_alerts : (holdExecuting e s).alerts = s.alerts := rfl
@[simp] theorem holdExecuting_cap : (holdExecuting e s).cap = s.cap := rfl
@[simp] theorem holdExecuting_ports : (holdExecuting e s).ports = s.ports := rfl
@[simp] theorem holdExecuting_flows : (holdExecuting e s).flows = s.flows := rfl
@[simp] theorem holdExecuting_ghost : (holdExecuting e s).ghost = s.ghost := rfl
@[simp] theorem holdExecuting_retained : (holdExecuting e s).retained = s.retained := rfl
@[simp] theorem holdExecuting_integ : (holdExecuting e s).integ = s.integ := rfl
end

section
variable (s : State) (st : Nat) (tag : Byte) (p : List Byte)
@[simp] theorem replied_pending : (replied s st tag p).pending = s.pending := rfl
@[simp] theorem replied_now : (replied s st tag p).now = s.now := rfl
@[simp] theorem replied_draws : (replied s st tag p).draws = s.draws := rfl
@[simp] theorem replied_chip : (replied s st tag p).chip = s.chip := rfl
@[simp] theorem replied_supply : (replied s st tag p).supply = s.supply := rfl
@[simp] theorem replied_reset_ : (replied s st tag p).reset_ = s.reset_ := rfl
@[simp] theorem replied_thermal : (replied s st tag p).thermal = s.thermal := rfl
@[simp] theorem replied_events : (replied s st tag p).events = s.events := rfl
@[simp] theorem replied_time : (replied s st tag p).time = s.time := rfl
@[simp] theorem replied_clocks : (replied s st tag p).clocks = s.clocks := rfl
@[simp] theorem replied_cues : (replied s st tag p).cues = s.cues := rfl
@[simp] theorem replied_held : (replied s st tag p).held = s.held := rfl
@[simp] theorem replied_mgr : (replied s st tag p).mgr = s.mgr := rfl
@[simp] theorem replied_inputs : (replied s st tag p).inputs = s.inputs := rfl
@[simp] theorem replied_feeds : (replied s st tag p).feeds = s.feeds := rfl
@[simp] theorem replied_cal : (replied s st tag p).cal = s.cal := rfl
@[simp] theorem replied_lanes : (replied s st tag p).lanes = s.lanes := rfl
@[simp] theorem replied_rds : (replied s st tag p).rds = s.rds := rfl
@[simp] theorem replied_scan : (replied s st tag p).scan = s.scan := rfl
@[simp] theorem replied_dab : (replied s st tag p).dab = s.dab := rfl
@[simp] theorem replied_decoders : (replied s st tag p).decoders = s.decoders := rfl
@[simp] theorem replied_progs : (replied s st tag p).progs = s.progs := rfl
@[simp] theorem replied_alerts : (replied s st tag p).alerts = s.alerts := rfl
@[simp] theorem replied_cap : (replied s st tag p).cap = s.cap := rfl
@[simp] theorem replied_ports : (replied s st tag p).ports = s.ports := rfl
@[simp] theorem replied_flows : (replied s st tag p).flows = s.flows := rfl
@[simp] theorem replied_ghost : (replied s st tag p).ghost = s.ghost := rfl
@[simp] theorem replied_retained : (replied s st tag p).retained = s.retained := rfl
@[simp] theorem replied_integ : (replied s st tag p).integ = s.integ := rfl
end

section
variable (n : Nat) (f : Curtain → Curtain) (s : State)
@[simp] theorem setCurtain_pending : (setCurtain n f s).pending = s.pending := rfl
@[simp] theorem setCurtain_now : (setCurtain n f s).now = s.now := rfl
@[simp] theorem setCurtain_draws : (setCurtain n f s).draws = s.draws := rfl
@[simp] theorem setCurtain_chip : (setCurtain n f s).chip = s.chip := rfl
@[simp] theorem setCurtain_supply : (setCurtain n f s).supply = s.supply := rfl
@[simp] theorem setCurtain_reset_ : (setCurtain n f s).reset_ = s.reset_ := rfl
@[simp] theorem setCurtain_thermal : (setCurtain n f s).thermal = s.thermal := rfl
@[simp] theorem setCurtain_link : (setCurtain n f s).link = s.link := rfl
@[simp] theorem setCurtain_events : (setCurtain n f s).events = s.events := rfl
@[simp] theorem setCurtain_time : (setCurtain n f s).time = s.time := rfl
@[simp] theorem setCurtain_clocks : (setCurtain n f s).clocks = s.clocks := rfl
@[simp] theorem setCurtain_cues : (setCurtain n f s).cues = s.cues := rfl
@[simp] theorem setCurtain_held : (setCurtain n f s).held = s.held := rfl
@[simp] theorem setCurtain_mgr : (setCurtain n f s).mgr = s.mgr := rfl
@[simp] theorem setCurtain_inputs : (setCurtain n f s).inputs = s.inputs := rfl
@[simp] theorem setCurtain_feeds : (setCurtain n f s).feeds = s.feeds := rfl
@[simp] theorem setCurtain_cal : (setCurtain n f s).cal = s.cal := rfl
@[simp] theorem setCurtain_lanes : (setCurtain n f s).lanes = s.lanes := rfl
@[simp] theorem setCurtain_rds : (setCurtain n f s).rds = s.rds := rfl
@[simp] theorem setCurtain_scan : (setCurtain n f s).scan = s.scan := rfl
@[simp] theorem setCurtain_dab : (setCurtain n f s).dab = s.dab := rfl
@[simp] theorem setCurtain_decoders : (setCurtain n f s).decoders = s.decoders := rfl
@[simp] theorem setCurtain_alerts : (setCurtain n f s).alerts = s.alerts := rfl
@[simp] theorem setCurtain_cap : (setCurtain n f s).cap = s.cap := rfl
@[simp] theorem setCurtain_ports : (setCurtain n f s).ports = s.ports := rfl
@[simp] theorem setCurtain_flows : (setCurtain n f s).flows = s.flows := rfl
@[simp] theorem setCurtain_ghost : (setCurtain n f s).ghost = s.ghost := rfl
@[simp] theorem setCurtain_retained : (setCurtain n f s).retained = s.retained := rfl
@[simp] theorem setCurtain_integ : (setCurtain n f s).integ = s.integ := rfl
end

section
variable (n : Nat) (a : AlignState) (s : State)
@[simp] theorem updAlign_pending : (updAlign n a s).pending = s.pending := rfl
@[simp] theorem updAlign_now : (updAlign n a s).now = s.now := rfl
@[simp] theorem updAlign_draws : (updAlign n a s).draws = s.draws := rfl
@[simp] theorem updAlign_chip : (updAlign n a s).chip = s.chip := rfl
@[simp] theorem updAlign_supply : (updAlign n a s).supply = s.supply := rfl
@[simp] theorem updAlign_reset_ : (updAlign n a s).reset_ = s.reset_ := rfl
@[simp] theorem updAlign_thermal : (updAlign n a s).thermal = s.thermal := rfl
@[simp] theorem updAlign_link : (updAlign n a s).link = s.link := rfl
@[simp] theorem updAlign_events : (updAlign n a s).events = s.events := rfl
@[simp] theorem updAlign_time : (updAlign n a s).time = s.time := rfl
@[simp] theorem updAlign_clocks : (updAlign n a s).clocks = s.clocks := rfl
@[simp] theorem updAlign_cues : (updAlign n a s).cues = s.cues := rfl
@[simp] theorem updAlign_held : (updAlign n a s).held = s.held := rfl
@[simp] theorem updAlign_mgr : (updAlign n a s).mgr = s.mgr := rfl
@[simp] theorem updAlign_inputs : (updAlign n a s).inputs = s.inputs := rfl
@[simp] theorem updAlign_feeds : (updAlign n a s).feeds = s.feeds := rfl
@[simp] theorem updAlign_cal : (updAlign n a s).cal = s.cal := rfl
@[simp] theorem updAlign_lanes : (updAlign n a s).lanes = s.lanes := rfl
@[simp] theorem updAlign_rds : (updAlign n a s).rds = s.rds := rfl
@[simp] theorem updAlign_scan : (updAlign n a s).scan = s.scan := rfl
@[simp] theorem updAlign_dab : (updAlign n a s).dab = s.dab := rfl
@[simp] theorem updAlign_decoders : (updAlign n a s).decoders = s.decoders := rfl
@[simp] theorem updAlign_alerts : (updAlign n a s).alerts = s.alerts := rfl
@[simp] theorem updAlign_cap : (updAlign n a s).cap = s.cap := rfl
@[simp] theorem updAlign_ports : (updAlign n a s).ports = s.ports := rfl
@[simp] theorem updAlign_flows : (updAlign n a s).flows = s.flows := rfl
@[simp] theorem updAlign_ghost : (updAlign n a s).ghost = s.ghost := rfl
@[simp] theorem updAlign_retained : (updAlign n a s).retained = s.retained := rfl
@[simp] theorem updAlign_integ : (updAlign n a s).integ = s.integ := rfl
end

section
variable (id : Nat) (l : Lane) (s : State)
@[simp] theorem setLane_pending : (setLane id l s).pending = s.pending := by unfold setLane; split <;> rfl
@[simp] theorem setLane_now : (setLane id l s).now = s.now := by unfold setLane; split <;> rfl
@[simp] theorem setLane_draws : (setLane id l s).draws = s.draws := by unfold setLane; split <;> rfl
@[simp] theorem setLane_chip : (setLane id l s).chip = s.chip := by unfold setLane; split <;> rfl
@[simp] theorem setLane_supply : (setLane id l s).supply = s.supply := by unfold setLane; split <;> rfl
@[simp] theorem setLane_reset_ : (setLane id l s).reset_ = s.reset_ := by unfold setLane; split <;> rfl
@[simp] theorem setLane_thermal : (setLane id l s).thermal = s.thermal := by unfold setLane; split <;> rfl
@[simp] theorem setLane_link : (setLane id l s).link = s.link := by unfold setLane; split <;> rfl
@[simp] theorem setLane_events : (setLane id l s).events = s.events := by unfold setLane; split <;> rfl
@[simp] theorem setLane_time : (setLane id l s).time = s.time := by unfold setLane; split <;> rfl
@[simp] theorem setLane_clocks : (setLane id l s).clocks = s.clocks := by unfold setLane; split <;> rfl
@[simp] theorem setLane_cues : (setLane id l s).cues = s.cues := by unfold setLane; split <;> rfl
@[simp] theorem setLane_held : (setLane id l s).held = s.held := by unfold setLane; split <;> rfl
@[simp] theorem setLane_mgr : (setLane id l s).mgr = s.mgr := by unfold setLane; split <;> rfl
@[simp] theorem setLane_inputs : (setLane id l s).inputs = s.inputs := by unfold setLane; split <;> rfl
@[simp] theorem setLane_feeds : (setLane id l s).feeds = s.feeds := by unfold setLane; split <;> rfl
@[simp] theorem setLane_cal : (setLane id l s).cal = s.cal := by unfold setLane; split <;> rfl
@[simp] theorem setLane_rds : (setLane id l s).rds = s.rds := by unfold setLane; split <;> rfl
@[simp] theorem setLane_scan : (setLane id l s).scan = s.scan := by unfold setLane; split <;> rfl
@[simp] theorem setLane_dab : (setLane id l s).dab = s.dab := by unfold setLane; split <;> rfl
@[simp] theorem setLane_decoders : (setLane id l s).decoders = s.decoders := by unfold setLane; split <;> rfl
@[simp] theorem setLane_progs : (setLane id l s).progs = s.progs := by unfold setLane; split <;> rfl
@[simp] theorem setLane_alerts : (setLane id l s).alerts = s.alerts := by unfold setLane; split <;> rfl
@[simp] theorem setLane_cap : (setLane id l s).cap = s.cap := by unfold setLane; split <;> rfl
@[simp] theorem setLane_ports : (setLane id l s).ports = s.ports := by unfold setLane; split <;> rfl
@[simp] theorem setLane_flows : (setLane id l s).flows = s.flows := by unfold setLane; split <;> rfl
@[simp] theorem setLane_ghost : (setLane id l s).ghost = s.ghost := by unfold setLane; split <;> rfl
@[simp] theorem setLane_retained : (setLane id l s).retained = s.retained := by unfold setLane; split <;> rfl
@[simp] theorem setLane_integ : (setLane id l s).integ = s.integ := by unfold setLane; split <;> rfl
end

section
variable (id : Nat) (f : Lane → Lane) (s : State)
@[simp] theorem updLane_pending : (updLane id f s).pending = s.pending := by unfold updLane; split <;> simp
@[simp] theorem updLane_now : (updLane id f s).now = s.now := by unfold updLane; split <;> simp
@[simp] theorem updLane_draws : (updLane id f s).draws = s.draws := by unfold updLane; split <;> simp
@[simp] theorem updLane_chip : (updLane id f s).chip = s.chip := by unfold updLane; split <;> simp
@[simp] theorem updLane_supply : (updLane id f s).supply = s.supply := by unfold updLane; split <;> simp
@[simp] theorem updLane_reset_ : (updLane id f s).reset_ = s.reset_ := by unfold updLane; split <;> simp
@[simp] theorem updLane_thermal : (updLane id f s).thermal = s.thermal := by unfold updLane; split <;> simp
@[simp] theorem updLane_link : (updLane id f s).link = s.link := by unfold updLane; split <;> simp
@[simp] theorem updLane_events : (updLane id f s).events = s.events := by unfold updLane; split <;> simp
@[simp] theorem updLane_time : (updLane id f s).time = s.time := by unfold updLane; split <;> simp
@[simp] theorem updLane_clocks : (updLane id f s).clocks = s.clocks := by unfold updLane; split <;> simp
@[simp] theorem updLane_cues : (updLane id f s).cues = s.cues := by unfold updLane; split <;> simp
@[simp] theorem updLane_held : (updLane id f s).held = s.held := by unfold updLane; split <;> simp
@[simp] theorem updLane_mgr : (updLane id f s).mgr = s.mgr := by unfold updLane; split <;> simp
@[simp] theorem updLane_inputs : (updLane id f s).inputs = s.inputs := by unfold updLane; split <;> simp
@[simp] theorem updLane_feeds : (updLane id f s).feeds = s.feeds := by unfold updLane; split <;> simp
@[simp] theorem updLane_cal : (updLane id f s).cal = s.cal := by unfold updLane; split <;> simp
@[simp] theorem updLane_rds : (updLane id f s).rds = s.rds := by unfold updLane; split <;> simp
@[simp] theorem updLane_scan : (updLane id f s).scan = s.scan := by unfold updLane; split <;> simp
@[simp] theorem updLane_dab : (updLane id f s).dab = s.dab := by unfold updLane; split <;> simp
@[simp] theorem updLane_decoders : (updLane id f s).decoders = s.decoders := by unfold updLane; split <;> simp
@[simp] theorem updLane_progs : (updLane id f s).progs = s.progs := by unfold updLane; split <;> simp
@[simp] theorem updLane_alerts : (updLane id f s).alerts = s.alerts := by unfold updLane; split <;> simp
@[simp] theorem updLane_cap : (updLane id f s).cap = s.cap := by unfold updLane; split <;> simp
@[simp] theorem updLane_ports : (updLane id f s).ports = s.ports := by unfold updLane; split <;> simp
@[simp] theorem updLane_flows : (updLane id f s).flows = s.flows := by unfold updLane; split <;> simp
@[simp] theorem updLane_ghost : (updLane id f s).ghost = s.ghost := by unfold updLane; split <;> simp
@[simp] theorem updLane_retained : (updLane id f s).retained = s.retained := by unfold updLane; split <;> simp
@[simp] theorem updLane_integ : (updLane id f s).integ = s.integ := by unfold updLane; split <;> simp
end

section
variable (r : Reply) (s : State)
@[simp] theorem putReply_pending : (putReply r s).pending = s.pending := by unfold putReply; split <;> rfl
@[simp] theorem putReply_now : (putReply r s).now = s.now := by unfold putReply; split <;> rfl
@[simp] theorem putReply_draws : (putReply r s).draws = s.draws := by unfold putReply; split <;> rfl
@[simp] theorem putReply_chip : (putReply r s).chip = s.chip := by unfold putReply; split <;> rfl
@[simp] theorem putReply_supply : (putReply r s).supply = s.supply := by unfold putReply; split <;> rfl
@[simp] theorem putReply_reset_ : (putReply r s).reset_ = s.reset_ := by unfold putReply; split <;> rfl
@[simp] theorem putReply_thermal : (putReply r s).thermal = s.thermal := by unfold putReply; split <;> rfl
@[simp] theorem putReply_events : (putReply r s).events = s.events := by unfold putReply; split <;> rfl
@[simp] theorem putReply_time : (putReply r s).time = s.time := by unfold putReply; split <;> rfl
@[simp] theorem putReply_clocks : (putReply r s).clocks = s.clocks := by unfold putReply; split <;> rfl
@[simp] theorem putReply_cues : (putReply r s).cues = s.cues := by unfold putReply; split <;> rfl
@[simp] theorem putReply_held : (putReply r s).held = s.held := by unfold putReply; split <;> rfl
@[simp] theorem putReply_mgr : (putReply r s).mgr = s.mgr := by unfold putReply; split <;> rfl
@[simp] theorem putReply_inputs : (putReply r s).inputs = s.inputs := by unfold putReply; split <;> rfl
@[simp] theorem putReply_feeds : (putReply r s).feeds = s.feeds := by unfold putReply; split <;> rfl
@[simp] theorem putReply_cal : (putReply r s).cal = s.cal := by unfold putReply; split <;> rfl
@[simp] theorem putReply_lanes : (putReply r s).lanes = s.lanes := by unfold putReply; split <;> rfl
@[simp] theorem putReply_rds : (putReply r s).rds = s.rds := by unfold putReply; split <;> rfl
@[simp] theorem putReply_scan : (putReply r s).scan = s.scan := by unfold putReply; split <;> rfl
@[simp] theorem putReply_dab : (putReply r s).dab = s.dab := by unfold putReply; split <;> rfl
@[simp] theorem putReply_decoders : (putReply r s).decoders = s.decoders := by unfold putReply; split <;> rfl
@[simp] theorem putReply_progs : (putReply r s).progs = s.progs := by unfold putReply; split <;> rfl
@[simp] theorem putReply_alerts : (putReply r s).alerts = s.alerts := by unfold putReply; split <;> rfl
@[simp] theorem putReply_cap : (putReply r s).cap = s.cap := by unfold putReply; split <;> rfl
@[simp] theorem putReply_ports : (putReply r s).ports = s.ports := by unfold putReply; split <;> rfl
@[simp] theorem putReply_flows : (putReply r s).flows = s.flows := by unfold putReply; split <;> rfl
@[simp] theorem putReply_ghost : (putReply r s).ghost = s.ghost := by unfold putReply; split <;> rfl
@[simp] theorem putReply_retained : (putReply r s).retained = s.retained := by unfold putReply; split <;> rfl
@[simp] theorem putReply_integ : (putReply r s).integ = s.integ := by unfold putReply; split <;> rfl
end

/-! ### A list with one element replaced -/

theorem upd_of_some {α : Type} {l : List α} {i : Nat} {x : α} (f : α → α) (h : l[i]? = some x) : upd l i f = l.set i (f x) := by
  simp [upd, h]

theorem upd_of_none {α : Type} {l : List α} {i : Nat} (f : α → α) (h : l[i]? = none) : upd l i f = l := by simp [upd, h]

theorem getElem?_upd {α : Type} (l : List α) (i j : Nat) (f : α → α) :
    (upd l i f)[j]? = if j = i then l[j]?.map f else l[j]? := by
  unfold upd
  split
  · rename_i x h
    obtain ⟨hi, rfl⟩ := List.getElem?_eq_some_iff.mp h
    by_cases e : j = i
    · subst e; simp [hi]
    · simp [e, Ne.symm e]
  · rename_i h
    by_cases e : j = i
    · subst e; simp [h]
    · simp [e]

theorem upd_congr {α : Type} {l : List α} {i : Nat} {f g : α → α} (h : ∀ x, l[i]? = some x → f x = g x) : upd l i f = upd l i g := by
  unfold upd
  split
  · rename_i x e; rw [h x e]
  · rfl

/-! ### What an accessor reads after an update -/

theorem progAt_updProgram (n m : Nat) (f : Program → Program) (s : State) :
    progAt (updProgram n f s) m = if m = n then (progAt s m).map f else progAt s m := getElem?_upd s.progs n m f

theorem engineAt_updEngine (e k : Nat) (f : Engine → Engine) (s : State) :
    engineAt (updEngine e f s) k = if k = e then (engineAt s k).map f else engineAt s k := getElem?_upd s.dab.engines e k f

theorem flowAt_updFlow (n m : Nat) (f : Flow → Flow) (s : State) :
    flowAt (updFlow n f s) m = if m = n then (flowAt s m).map f else flowAt s m := getElem?_upd s.flows.flows n m f

theorem inputAt_updInput_same (i : Nat) (f : Input → Input) (s : State) (h : i < s.inputs.length) :
    inputAt (updInput i f s) i = f (inputAt s i) := by
  simp [inputAt, List.getD, getElem?_upd, List.getElem?_eq_getElem h]

theorem inputAt_updInput_other (i j : Nat) (f : Input → Input) (s : State) (h : j ≠ i) : inputAt (updInput i f s) j = inputAt s j := by
  simp [inputAt, List.getD, getElem?_upd, h]

theorem calAt_updCal_same (i : Nat) (f : CalInput → CalInput) (s : State) (h : i < s.cal.inputs.length) :
    calAt (updCal i f s) i = f (calAt s i) := by
  simp [calAt, List.getD, getElem?_upd, List.getElem?_eq_getElem h]

theorem calAt_updCal_other (i j : Nat) (f : CalInput → CalInput) (s : State) (h : j ≠ i) : calAt (updCal i f s) j = calAt s j := by
  simp [calAt, List.getD, getElem?_upd, h]

theorem laneAt_setLane_same (id : Nat) (l x : Lane) (s : State) (h : laneAt s id = some x) : laneAt (setLane id l s) id = some l := by
  unfold laneAt at *
  unfold setLane
  split at h
  · rename_i hlt
    obtain ⟨hi, -⟩ := List.getElem?_eq_some_iff.mp h
    simp [hlt, hi]
  · rename_i hge
    obtain ⟨hi, -⟩ := List.getElem?_eq_some_iff.mp h
    simp [hge, hi]

theorem laneAt_setLane_other (id k : Nat) (l : Lane) (s : State) (h : k ≠ id) : laneAt (setLane id l s) k = laneAt s k := by
  unfold laneAt setLane
  by_cases a : id < 0x80 <;> by_cases b : k < 0x80 <;> simp only [a, b, if_true, if_false]
  · rw [List.getElem?_set_ne (Ne.symm h)]
  · rw [List.getElem?_set_ne (by omega)]

theorem laneAt_updLane (id k : Nat) (f : Lane → Lane) (s : State) :
    laneAt (updLane id f s) k = if k = id then (laneAt s k).map f else laneAt s k := by
  unfold updLane
  split
  · rename_i l h
    by_cases e : k = id
    · subst e; simp [h, laneAt_setLane_same k (f l) l s h]
    · simp [e, laneAt_setLane_other id k (f l) s e]
  · rename_i h
    by_cases e : k = id
    · subst e; simp [h]
    · simp [e]

/-! ### Accessors read one part of the state -/

theorem laneAt_congr {s t : State} (h : t.lanes = s.lanes) (id : Nat) : laneAt t id = laneAt s id := by simp [laneAt, h]
theorem engineAt_congr {s t : State} (h : t.dab = s.dab) (e : Nat) : engineAt t e = engineAt s e := by simp [engineAt, h]
theorem progAt_congr {s t : State} (h : t.progs = s.progs) (n : Nat) : progAt t n = progAt s n := by simp [progAt, h]
theorem inputAt_congr {s t : State} (h : t.inputs = s.inputs) (i : Nat) : inputAt t i = inputAt s i := by simp [inputAt, h]
theorem calAt_congr {s t : State} (h : t.cal = s.cal) (i : Nat) : calAt t i = calAt s i := by simp [calAt, h]
theorem flowAt_congr {s t : State} (h : t.flows = s.flows) (i : Nat) : flowAt t i = flowAt s i := by simp [flowAt, h]
theorem bonded_congr {s t : State} (h : t.chip = s.chip) (i : Nat) : bonded t i = bonded s i := by simp [bonded, h]


end Sys2Proof.Machine
end

