-- ==== Sys2Proof/WellFormed.lean ====
section
/-! DEFINITION. What a command must look like to be one that the world can send: packet parameters of at most 250 bytes
(R353), FIBs of 30 bytes (R194), words and figures within their widths. -/

namespace Sys2Proof

/-- A PARAM field of a packet (R353). -/
def paramWf (p : List Byte) : Bool := decide (p.length ≤ 250)

def fibWf (f : Fib) : Bool := f.raw.length == 30

def signed24 (x : Int) : Bool := decide (-8388608 ≤ x ∧ x ≤ 8388607)

/-- No bin sample exceeds bin full scale, also before the compensation (R106). -/
def binsWf (b : BinSamples) : Bool := b.all fun x => x.2.all fun l => l.all fun c => decide (c.re * c.re + c.im * c.im ≤ 1)

/-- One frame has 12 FIBs and three FIC symbols (Table 7-1). -/
def frameWf (o : FrameObs) : Bool :=
  o.fibs.length == 12 && o.fibs.all fibWf && decide (o.fic.length ≤ 3) && binsWf o.nulls && binsWf o.prs && o.fic.all binsWf &&
  o.peaks.all fun p => binsWf p.prs

/-- Samples of 24 bits at 48, 32 or 24 kHz (R216). -/
def unitWf (u : AudioUnit) : Bool := [48, 32, 24].contains u.rate && u.samples.all fun x => signed24 x.1 && signed24 x.2

/-- At most the 18 symbols of a CIF (Table 7-1), and counts of subchannels 0 to 63. -/
def cifWf (o : CifObs) : Bool :=
  decide (o.symbols.length ≤ 18) && (o.symbols.all fun x => binsWf x.bins) && o.counts.all fun c => decide (c.subch < 64) && c.units.all unitWf

/-- A sensor reading in 1/16 degC fits in 16 bits (R438). -/
def sensorWf (x : Int) : Bool := decide (-32768 ≤ x ∧ x ≤ 32767)

/-- A well-formed command. -/
def Instr.wf : Instr → Bool
  | .nop _ p | .identify _ p | .eventRead _ p | .eventMask _ p | .stageReset _ p | .patchLoad _ p | .patchCommit _ p
  | .timeRead _ p | .cueSet _ p | .cueCancel _ p | .cueList _ p | .undefinedOpcode _ _ p => paramWf p
  | .bandPlan _ p | .rxStart _ p | .rxStop _ p | .frontendGain _ p | .antennaFeed _ p | .diversitySet _ p | .scanPolicy _ p
  | .laneAssign _ p | .laneRelease _ p | .laneList _ p | .laneStatus _ p | .fmParams _ p | .amParams _ p | .rdsConfig _ p
  | .dabEngineAssign _ p | .dabEngineRelease _ p | .dabEngineStatus _ p | .softbitMode _ p => paramWf p
  | .serviceList _ p | .serviceInfo _ p | .announcementPolicy _ p | .alertPolicy _ p => paramWf p
  | .programStop _ p | .programStart _ p | .programAddMember _ p | .programRemoveMember _ p | .programStatus _ p
  | .linkPolicy _ p | .delayStoreConfig _ p | .curtainCloseAndHold _ p | .curtainReleaseAndOpen _ p
  | .curtainSetTimes _ p => paramWf p
  | .portConfig _ p | .slotMap _ p | .statusSlotConfig _ p | .spdifConfig _ p | .portStatus _ p => paramWf p
  | .flowOpen _ p | .flowClose _ p | .flowShape _ p | .classShape _ p | .egressConfig _ p | .flowStats _ p
  | .mailboxRead _ p => paramWf p
  | .calPolicy _ p | .calRun _ p | .calStatus _ p | .calTableRead _ p => paramWf p
  | .refConfig _ p | .samplePlan _ p | .clockOut _ p | .syncArm _ p | .freqTrim _ p | .clockStatus _ p => paramWf p
  | .powerPolicy _ p | .capacityStatus _ p | .ghostLightConfig _ p | .ghostLightEnter _ p | .ghostLightLeave _ p
  | .supplyStatus _ p | .lifecycleRead _ p | .lifecycleAdvance _ p | .retainedWipe _ p => paramWf p
  | .faultLogRead _ p | .integrityCounters _ p | .temperatureRead _ p | .spectrumSnapshot _ p | .selftest _ p => paramWf p
  | .laneUpdate _ f => binsWf f.bins
  | .dabFrame _ o => frameWf o
  | .cifBoundary _ o => cifWf o
  | .tdmFrame port _ _ => decide (port < 2)
  | .sensorRead l b => l.length == 8 && l.all sensorWf && sensorWf b
  | .packetArrival _ _ _ _ p => decide (p.length ≤ 8192)
  | .commandReceipt _ | .replyRead _ | .brokenTransfer _ | .tSlimExpiry _ | .sdaHoldExpiry _ | .replyFifoEntry
  | .promptDueTimer | .prompt _ | .dfcTick | .cueFire | .audioCueEffect | .decisionPoint _ | .fineMapUpdate _ _
  | .binMapUpdate _ _ | .capacityMeasurement _ | .powerWindow _ | .sheddingPass | .restore | .derateDecay
  | .inputFifoDrop _ | .underrun _ _ | .memberReturn _ _ | .thermalRestart => true
  | .gainWindow64us _ c n => decide (c ≤ n)
  | .gainWindow1ms _ _ | .feedFault _ | .feedRetry _ => true
  | .spdifFrame _ _ | .rotationIntervalEnd _ _ | .overlapEnd _ _ _ | .subWindowEnd _ _ | .evaluationWindowEnd _ _ | .selectionChange _
  | .calRetry _ _ | .calIntervalTrigger _ => true
  | .pilotStateChange _ _ | .syncLoopLockChange _ _ | .processingStart | .drainingEnd _ _ => true
  | .rdsBlock _ _ _ _ _ | .rdsGroup _ | .identityLost _ | .identityRecord _ | .eonTaTimeout _ | .alertEndTimer _
  | .stationRecordWrite _ => true
  | .softbitConversionEnd _ | .modelObjectTimeout _ | .engineAbandon _ | .announcementTimeout _ _
  | .decoderFirstValidSample _ | .announcementSourceReady _ => true
  | .curtainClosed _ | .curtainOpened _ | .endDelayExpiry _ | .refinement _ _ | .alignmentFailed _ | .searchRestart _
  | .tracking _ _ | .memberDelayMeasure _ _ _ | .pageRequestGrant | .noDabMemberTimeout _ | .crossfadeEnd _ => true
  | .portLock _ _ | .portStop _ | .fsyncGlitch _ | .portClockLoss _ | .rateStep _ _ | .flowDropRecord _ => true
  | .referenceAbsent | .referencePresent | .buildOutComplete _ _ _ | .pllLossOfLock _ | .pllLock _ | .pllSRelockRetry _
  | .trimStep | .syncCapture | .syncInstant => true
  | .sagWarning _ | .sagCleared _ | .switchOver _ _ | .switchBack _ | .hardHalt _ _ | .mainDomainReturn _
  | .backupPowerOn _ _ _ _ | .backupLoss | .vioLevelChange _ | .resetnLow _ | .resetnRelease _ _ | .watchdogExpiry
  | .firmwareRamError _ | .deviceReady _ | .sceneReapplication | .sceneCapture | .ghostLightEntry | .watchStateChange _
  | .alertLogWrite | .scrub _ _ _ | .integrityRecord _ | .recoveryRunnable _ _ | .faultLogWrite | .boundaryScan _
  | .vmainRiseAfterBackupOnlyStart _ | .generalCall _ => true

end Sys2Proof
end

