-- ==== Sys2Proof/Tests/Slice0.lean ====
section
/-! SUPPORT. Witnesses for the hypotheses of the obligations, the WellFormed smoke test, and tests of one step each. -/

namespace Sys2Proof.Tests

section

open Sys2Proof Sys2Proof.Machine

set_option Elab.async false

/-! ### Witnesses: concrete states and operands that meet the hypotheses of each obligation, clause by clause -/

def rdy : State :=
  { State.reset with
    now := 100000000
    reset_ := { State.reset.reset_ with domain := .ready, doneQueued := true }
    time := { State.reset.time with started := true, source := .pllA }
    clocks := { State.reset.clocks with ref := .present, pllS := .locked, pllA := .locked, pllN := .locked, startLocked := true }
    inputs := State.reset.inputs.map fun x => { x with plan := { x.plan with enable := true } }
    cap := { State.reset.cap with measuredAt := 850 } }

def rx : State := { rdy with mgr := { rdy.mgr with rxRunning := true }, inputs := rdy.inputs.map fun x => { x with receiving := true } }

/-- The main domain off after a hard halt. -/
def gone : State := { rdy with reset_ := { rdy.reset_ with domain := .off, offCause := .hardHalt } }

def busy : State := { rdy with mgr := { rdy.mgr with executing := some { packet := ⟨0x11, 1, []⟩, cue := none, late := false, execDfc := 0, wait := .reception, payload := [] } } }

theorem witness_StepRunsFrontCommand : { rdy with pending := [Instr.dfcTick, .restore] }.pending = .dfcTick :: [.restore] := rfl
theorem witness_EmptyQueueIdles : rdy.pending = [] := rfl
theorem witness_CommandsLeaveTheWaitingQueue : ∃ t, exec (.generalCall .tenBit) rdy = .next t := ⟨_, rfl⟩
theorem witness_VariantStaysAndLifeCycleNeverGoesBack : ∃ t, step { rdy with pending := [.generalCall .tenBit] } = .next t := ⟨_, rfl⟩
theorem witness_StepKeepsBoundsAndUnitCounts : Fits rdy ∧ ∃ t, step { rdy with pending := [.generalCall .tenBit] } = .next t :=
  ⟨by unfold Fits Bounded Shaped; decide +kernel, _, rfl⟩

theorem rdy_turn (p : List Byte) (h : p.length ≤ 250) : MainTurn rdy p := ⟨⟨rfl, rfl, rfl, h⟩, rfl, by decide⟩
theorem rx_turn (p : List Byte) (h : p.length ≤ 250) : MainTurn rx p := ⟨⟨rfl, rfl, rfl, h⟩, rfl, by decide⟩
theorem gone_turn (p : List Byte) (h : p.length ≤ 250) : HostTurn gone p := ⟨rfl, rfl, rfl, h⟩

def lockedPart : State := { rdy with chip := { rdy.chip with life := .retired } }

/-- The four rows and packets on which the witness below shows one refused check each. -/
theorem checks_rows : HostTurn lockedPart [] ∧ hostCommand (.patchCommit 1 []) = some (cmdPatchCommit, 1, []) ∧
    hostCommand (.nop 1 [0]) = some (cmdNop, 1, [0]) ∧ hostCommand (.calStatus 1 [6]) = some (cmdCalStatus, 1, [6]) ∧
    hostCommand (.clockStatus 1 []) = some (cmdClockStatus, 1, []) := ⟨⟨rfl, rfl, rfl, by decide⟩, rfl, rfl, rfl, rfl⟩
theorem witness_ExecutionChecksInTableOrder :
    (lockedLife lockedPart cmdPatchCommit.opc && !lockedLife rdy cmdNop.opc && !cmdNop.len [0] && !lockedLife rdy cmdCalStatus.opc &&
      cmdCalStatus.len [6] && !cmdCalStatus.ids rdy [6] && !lockedLife gone cmdClockStatus.opc && cmdClockStatus.len [] &&
      cmdClockStatus.ids gone [] && domainRefuses gone cmdClockStatus.opc) = true := by decide +kernel
theorem witness_FailedCommandHasNoEffect : hostCommand (.nop 1 [0]) = some (cmdNop, 1, [0]) ∧ cmdNop.opc ≠ 0x06 ∧
    (serve cmdNop (hostCall 1 [0]) rdy).status ≠ stOk ∧ (serve cmdNop (hostCall 1 [0]) rdy).status ≠ stPending :=
  ⟨rfl, by decide +kernel⟩
theorem witness_BusyManagerQueuesHostCommand : hostCommand (.nop 1 []) = some (cmdNop, 1, []) ∧ acceptsOpc busy = true ∧ managerFree busy = false ∧ busy.link.queue.length < 4 ∧
    acceptsOpc { busy with link := { busy.link with queue := List.replicate 4 ⟨0, 0, []⟩ } } = true ∧
    managerFree { busy with link := { busy.link with queue := List.replicate 4 ⟨0, 0, []⟩ } } = false :=
  ⟨rfl, by decide +kernel⟩
theorem witness_UndefinedOpcodeIsRefusedByName : (0xEF : Byte) ∉ opcodeMap ∧ (0xF0 : Byte) ∉ opcodeMap ∧ ¬(0xF0 ≤ (0xEF : Byte).toNat ∧ rdy.chip.life ≠ .field) ∧
    (0xF0 ≤ (0xF0 : Byte).toNat ∧ rdy.chip.life ≠ .field) ∧ gone.chip.life ≠ .field ∧ gone.reset_.domain = .off ∧ rdy.reset_.domain ≠ .off ∧ rdy.reset_.domain ≠ .blackout := by
  decide +kernel

theorem witness_BackupReadsReportAndChangeNothing : HostTurn gone [] ∧ HostTurn rdy [] := ⟨gone_turn [] (by decide), (rdy_turn [] (by decide)).1⟩
theorem witness_HostRowRunsItsCommand : hostCommand (.nop 1 []) = some (cmdNop, 1, []) ∧ HostTurn rdy [] := ⟨rfl, (rdy_turn [] (by decide)).1⟩
theorem witness_EventCommandsReadAndMask : HostTurn gone [31] ∧ HostTurn gone [1, 2, 3, 0x80, 1, 13] ∧ HostTurn gone [] :=
  ⟨gone_turn _ (by decide), gone_turn _ (by decide), gone_turn _ (by decide)⟩

/-! States with one unit in use. -/

def fmLane (l : Lane) (s : State) : State := { s with lanes := { s.lanes with fm := s.lanes.fm.set 0 l } }
def amLane (l : Lane) (s : State) : State := { s with lanes := { s.lanes with am := s.lanes.am.set 0 l } }
def engine (x : Engine) (s : State) : State := { s with dab := { s.dab with engines := s.dab.engines.set 0 x } }
def prog (p : Program) (s : State) : State := { s with progs := s.progs.set 0 p }
def flow (f : Machine.Flow) (s : State) : State := { s with flows := { s.flows with flows := s.flows.flows.set 0 f } }
def port (p : Port) (s : State) : State := { s with ports := { s.ports with tdm := s.ports.tdm.set 0 p } }

def lane1 : Lane := { Lane.free with st := .running, owner := .host, freq := 100000000, mask := 1 }
def engine1 : Engine := { Engine.free with st := .running, owner := .host, freq := 227360000, mask := 1 }
def service : Source := { kind := 2, lane := 0, eid := 0x1001, sid := 0xD210, scids := 0 }
def analogue : Source := { kind := 0, lane := 0, eid := 0, sid := 0, scids := 0 }
def member (x : Source) : Member :=
  { src := x, origin := 1, delta := none, lowSince := none, goodSince := none, betterSince := none, underrun := false, onTimeSince := none,
    concealDue := false, joinedAt := 0, notAdmittedSince := none, lateFrom := 0, rivals := [], measuredAt := none, line := [], trace := Trace.none }
def program1 : Program := { Program.stopped with running := true, members := some (member analogue) :: some (member service) :: List.replicate 10 none }
def component : Component :=
  { sid := 0xD210, scids := 0, subch := 1, tmid := 0, ascty := 63, scid := 0, primary := true, scrambled := false, scrFlag := false, caid := 0, addr := 0, lang := 0,
    apps := [], label := none, labelMask := 0, charset := 0, seen := 0 }
def engineModel : Engine := { engine1 with acq := .locked, eid := some 0x1001, model := { engine1.model with eid := some 0x1001, comps := [component], current := true } }

def stationed : State := { rdy with rds := { rdy.rds with stations := [{ Station.invalid with valid := true, pi := 0xD210 }] } }

theorem witness_MainDomainReadsReportAndChangeNothing : (∀ p : List Byte, p.length ≤ 250 → MainTurn rdy p ∧ MainTurn rx p ∧ MainTurn stationed p ∧ MainTurn (engine engineModel rdy) p) ∧
    laneAt rdy (p1 [0xAF] 0) = some Lane.free ∧ engineAt rdy (p1 [15, 0] 0) = some Engine.free ∧
    serviceInfoLen [0, 0x10, 0xD2] = true ∧ domainFm [0, 0x10, 0xD2] = true ∧
    (stationed.rds.stations.find?
      (fun (x : Station) => x.valid && x.pi == BitVec.ofNat 16 (rd [0, 0x10, 0xD2] 1 2))).isSome = true ∧
    serviceInfoLen [1, 0x01, 0x10, 0x10, 0xD2, 0, 0, 0] = true ∧ domainFm [1, 0x01, 0x10, 0x10, 0xD2, 0, 0, 0] = false ∧
    resolve (engine engineModel rdy) (infoKey [1, 0x01, 0x10, 0x10, 0xD2, 0, 0, 0]) = some 0 ∧
    compOf (engine engineModel rdy) 0 (infoKey [1, 0x01, 0x10, 0x10, 0xD2, 0, 0, 0]) = some component ∧
    progAt rdy (p1 [15] 0) = some Program.stopped ∧ p1 [1] 0 ≤ 2 ∧ (rdy.ports.tdm[p1 [1] 0]?).isSome = true ∧
    p1 [2] 0 ≤ 2 ∧ rdy.ports.tdm[p1 [2] 0]? = none ∧ flowAt rdy (rd [0xFF, 1] 0 2) = some Flow.free ∧
    bonded rdy (p1 [5] 0) = true ∧ bonded rx (p1 [5, 0, 0, 0, 1] 0) = true ∧ (inputAt rx (p1 [5, 0, 0, 0, 1] 0)).receiving = true :=
  ⟨fun p h => ⟨rdy_turn p h, rx_turn p h, ⟨⟨rfl, rfl, rfl, h⟩, rfl, by decide⟩, ⟨rfl, rfl, rfl, h⟩, rfl, by decide⟩, by decide +kernel⟩

theorem witness_DiagnosticReadsAnswer : (∀ p : List Byte, p.length ≤ 250 → MainTurn rdy p) ∧ bonded rdy (p1 [5, 3, 0, 0, 240] 0) = true ∧
    (tableAt rdy (p1 [5, 3, 0, 0, 240] 0) (readPlan rdy (p1 [5, 3, 0, 0, 240] 0) (p1 [5, 3, 0, 0, 240] 1))).initialised = false :=
  ⟨rdy_turn, by decide +kernel⟩

theorem witness_IntegrityCountersClearOnlyTheReturned : (∀ p : List Byte, p.length ≤ 250 → MainTurn rdy p) ∧ rdy.integ.counters.length = 32 ∧
    31 = min 31 (p1 [255, 60, 1] 0) ∧ 1 = min (32 - 31) (clampNat 1 60 (p1 [255, 60, 1] 1)) ∧ p1 [255, 60, 1] 2 = 1 :=
  ⟨rdy_turn, by decide +kernel⟩

theorem witness_StageResetAndPatchCommands : (∀ p : List Byte, p.length ≤ 250 → MainTurn rdy p) ∧
    MainTurn { rdy with mgr := { rdy.mgr with rxStartedSinceReset := true } } [] ∧ rdy.mgr.rxStartedSinceReset = false ∧
    offsetLegal rdy.mgr (rd [0, 0, 0, 0, 7] 0 4) = true ∧ rd [0, 0, 0, 0, 7] 0 4 + 1 ≤ 65536 ∧ patchPasses rdy.mgr.patch [1, 0, 0, 0, 0, 0, 0, 0] = false :=
  ⟨rdy_turn, ⟨⟨rfl, rfl, rfl, by decide⟩, rfl, by decide⟩, by decide +kernel⟩

/-- CUE_SET of an identifier and of 0xFF, carrying a NOP with its CRC. -/
def nopCue (id : Byte) : List Byte := [id, 0, 0, 1, 0, 0, 7, 0, crc8 [0, 7, 0]]

theorem witness_CueSetStoresTheCarriedCommand : (∀ p : List Byte, p.length ≤ 250 → MainTurn rdy p) ∧ cueId (p1 (nopCue 63) 0) = true ∧ carriedCheck rdy (nopCue 63) = stOk ∧
    cueId (p1 (nopCue 0xFF) 0) = true ∧ carriedCheck rdy (nopCue 0xFF) = stOk ∧ 9 ≤ (nopCue 63).length :=
  ⟨rdy_turn, by decide +kernel⟩

theorem witness_CueCancelRemovesPendingCues : (∀ p : List Byte, p.length ≤ 250 → MainTurn rdy p) ∧ cueId (p1 [63] 0) = true ∧ cueId (p1 [0xFF] 0) = true :=
  ⟨rdy_turn, by decide +kernel⟩

/-- Inputs whose demand is counted already, with no measured capacity: RX_START is admitted and waits (R280, R282). -/
def waiting : State := { rx with mgr := rdy.mgr, cap := { rx.cap with cmeas := 0 } }

theorem witness_ReceptionCommandsTakeEffect : (∀ p : List Byte, p.length ≤ 250 → MainTurn rdy p ∧ MainTurn rx p) ∧ bonded rdy (p1 [5, 0, 0, 0, 0, 0, 0] 0) = true ∧ rdy.mgr.rxRunning = false ∧
    feedIds rdy [3, 5, 0, 0, 0, 0] = true ∧ feedIds rdy [3] = true ∧ synthsReady rdy = true ∧ (List.range 6).any (inputEnabled rdy) = true ∧
    admits rdy (demand (startReception rdy) - demand rdy) = true ∧ capacityMet (startReception rdy) = true ∧ rx.mgr.rxRunning = true ∧
    rx.progs.any (·.running) = false ∧ rdy.inputs.length = 6 ∧ rdy.feeds.length = 4 ∧ admits waiting (demand (startReception waiting) - demand waiting) = true ∧
    capacityMet (startReception waiting) = false :=
  ⟨fun p h => ⟨rdy_turn p h, rx_turn p h⟩, by decide +kernel⟩

theorem witness_LaneAssignmentTakesAFreeLane : (∀ p : List Byte, p.length ≤ 250 → MainTurn rdy p) ∧
    p1 [0, 0, 0xE1, 0xF5, 5, 0, 0, 1] 0 ≠ 0xFF ∧ laneAt rdy 0 = some Lane.free ∧ Lane.free.st = .free ∧
    (askLane rdy 0 [0, 0, 0xE1, 0xF5, 5, 0, 0, 1]).mask ≠ 0 ∧ (askLane rdy 0 [0, 0, 0xE1, 0xF5, 5, 0, 0, 1]).start = true ∧
    admits rdy (laneRaise rdy 0 (askLane rdy 0 [0, 0, 0xE1, 0xF5, 5, 0, 0, 1]).mask) = true ∧
    (askLane rdy 0 [0, 0, 0xE1, 0xF5, 5, 0, 0, 0]).mask ≠ 0 ∧ (askLane rdy 0 [0, 0, 0xE1, 0xF5, 5, 0, 0, 0]).start = false ∧
    admits rdy (laneRaise rdy 0 (askLane rdy 0 [0, 0, 0xE1, 0xF5, 5, 0, 0, 0]).mask) = true ∧
    engineAt rdy 15 = some Engine.free ∧ Engine.free.st = .free ∧ (askEngine rdy [15, 0, 0, 0, 0, 0, 0, 0, 1]).mask ≠ 0 ∧
    (askEngine rdy [15, 0, 0, 0, 0, 0, 0, 0, 1]).start = true ∧ engineAdmits rdy 15 Engine.free (askEngine rdy [15, 0, 0, 0, 0, 0, 0, 0, 1]).mask = true ∧
    (askEngine rdy [15, 0, 0, 0, 0, 0, 0, 0, 0]).mask ≠ 0 ∧ (askEngine rdy [15, 0, 0, 0, 0, 0, 0, 0, 0]).start = false ∧
    engineAdmits rdy 15 Engine.free (askEngine rdy [15, 0, 0, 0, 0, 0, 0, 0, 0]).mask = true :=
  ⟨rdy_turn, by decide +kernel⟩

theorem witness_ReleaseFreesOrDrains : (∀ s ∈ [rdy, fmLane lane1 rx, engine engine1 rx], ∀ p : List Byte, p.length ≤ 250 → MainTurn s p) ∧
    (∀ st ∈ [InstState.free, .wings, .running, .draining], laneAt (fmLane { lane1 with st := st } rx) 0 = some { lane1 with st := st } ∧
      (liveState st && soleSource (fmLane { lane1 with st := st } rx) 0) = false ∧ engineAt (engine { engineModel with st := st } rx) 0 = some { engineModel with st := st } ∧
      (liveState st && soleEngine (engine { engineModel with st := st } rx) 0) = false) ∧
    laneAt (prog { program1 with members := some (member analogue) :: List.replicate 11 none } (fmLane lane1 rx)) 0 = some lane1 ∧
    (liveState lane1.st && soleSource (prog { program1 with members := some (member analogue) :: List.replicate 11 none } (fmLane lane1 rx)) 0) = true ∧
    engineAt (engine engineModel rx) 0 = some engineModel ∧ (liveState engineModel.st && soleEngine (engine engineModel rx) 0) = false ∧
    (liveState engineModel.st && soleEngine (prog { program1 with members := some (member service) :: List.replicate 11 none } (engine engineModel rx)) 0) = true :=
  ⟨fun s h p hp => by simp at h; rcases h with rfl | rfl | rfl <;> exact ⟨⟨rfl, rfl, rfl, hp⟩, rfl, by decide⟩, by decide +kernel⟩

theorem witness_ReceiverParametersAreSet : (∀ p : List Byte, p.length ≤ 250 → MainTurn (fmLane lane1 (amLane lane1 (engine engine1 rx))) p) ∧ MainTurn (fmLane lane1 rx) [0, 0, 2] ∧
    laneAt (fmLane lane1 (amLane lane1 (engine engine1 rx))) (p1 [0, 0, 0, 0, 0] 0) = some lane1 ∧ liveState lane1.st = true ∧
    p1 [0, 0, 0, 0, 0] 0 < 0x80 ∧ p1 [0xFF, 0, 0, 0, 0] 0 = 0xFF ∧
    laneAt (fmLane lane1 (amLane lane1 (engine engine1 rx))) (p1 [0x80, 0, 0, 0, 0, 0, 0] 0) = some lane1 ∧ p1 [0xFF, 0, 0, 0, 0, 0, 0] 0 = 0xFF ∧
    engineAt (fmLane lane1 (amLane lane1 (engine engine1 rx))) (p1 [0, 1] 0) = some engine1 ∧ liveState engine1.st = true ∧
    sharesOf (boolOf false (p1 [0, 1] 1)) - engine1.shares ≤ sharesFree (fmLane lane1 (amLane lane1 (engine engine1 rx))) ∧ p1 [0xFF, 1] 0 = 0xFF ∧
    diversityTarget [0, 0, 2] ≠ 1 ∧ highMask (fmLane lane1 rx) 0 1 lane1.freq (p1 [0, 0, 2] 2) ≠ 0 ∧ highMask (fmLane lane1 rx) 0 1 lane1.freq (p1 [0, 0, 2] 2) ≠ lane1.mask ∧
    admits (fmLane lane1 rx) (laneRaise (fmLane lane1 rx) 0 (highMask (fmLane lane1 rx) 0 1 lane1.freq (p1 [0, 0, 2] 2))) = true ∧
    (fmLane lane1 rx).clocks.plan = 0 ∧ laneAt (fmLane lane1 rx) (p1 [0, 0, 2] 1) = some lane1 :=
  ⟨fun p hp => ⟨⟨rfl, rfl, rfl, hp⟩, rfl, by decide⟩, ⟨⟨rfl, rfl, rfl, by decide⟩, rfl, by decide⟩, by decide +kernel⟩

theorem witness_PolicyCommandsOfProgramsAndAlerts : (∀ p : List Byte, p.length ≤ 250 → MainTurn rdy p) ∧ programExists rdy (p1 [15, 0, 0, 0, 0, 0, 0, 0, 0] 0) = true ∧
    progAt rdy (p1 [15, 0, 0, 0, 0, 0, 0, 0, 0, 0, 0, 0] 0) = some Program.stopped ∧ progAt rdy (p1 [15, 1] 0) = some Program.stopped ∧
    progAt rdy (p1 [15] 0) = some Program.stopped :=
  ⟨rdy_turn, by decide +kernel⟩

/-- PROGRAM_SET of program 0 and the service of `service`. -/
def setService : List Byte := [0, 1, 2, 0, 0x01, 0x10, 0x10, 0xD2, 0, 0, 0]

theorem witness_ProgramActionsFormAndChangeTheGroup : (∀ x : Program, MainTurn (prog x rx) setService) ∧ (∀ x : Program, progAt (prog x rx) (p1 setService 0) = some x) ∧
    setService.length = 11 ∧ program1.running = true ∧ Program.stopped.running = false ∧ (parseSource setService).kind = 2 ∧
    { program1.curtain with pos := 0 }.pos = 0 ∧ { program1.curtain with pos := 1 }.pos ≠ 0 ∧
    slotOfSource program1 (parseSource setService) = some (0 + 1) ∧ memberAt program1 1 = some (member service) ∧
    slotOfSource { program1 with members := some (member analogue) :: List.replicate 11 none } (parseSource setService) = none ∧
    blendAdmitted (prog { program1 with members := some (member analogue) :: List.replicate 11 none } rx)
      { program1 with members := some (member analogue) :: List.replicate 11 none } = true ∧
    (slotsOf { program1 with members := some (member analogue) :: List.replicate 11 none }).length < program1.policy.maxMembers ∧
    freeSlot { program1 with members := some (member analogue) :: List.replicate 11 none } = some 1 :=
  ⟨fun x => ⟨⟨rfl, rfl, rfl, by decide⟩, rfl, by show rdy.chip.life ≠ .retired; decide⟩, fun x => rfl, by decide +kernel⟩

theorem witness_CurtainCommandsMoveTheCurtain : (∀ p : List Byte, p.length ≤ 250 → MainTurn rdy p) ∧ [15, 0, 1, 0, 0xFF, 0xFF].length = 6 ∧
    progAt rdy (p1 [15, 0, 1, 0, 0xFF, 0xFF] 0) = some Program.stopped :=
  ⟨rdy_turn, by decide +kernel⟩

def noPort : Port := Port.disabled

theorem witness_PortCommandsConfigureOutputs : (∀ p : List Byte, p.length ≤ 250 → MainTurn rdy p) ∧ (rdy.ports.tdm[p1 [1, 1, 0, 2, 0, 1, 24, 0, 0, 0] 0]?) = some noPort ∧
    p1 [1, 1, 0, 2, 0, 1, 24, 0, 0, 0] 0 ≤ 2 ∧ noPort.st = .disabled ∧ hasData noPort = false ∧
    (parsePort [1, 1, 0, 2, 0, 1, 24, 0, 0, 0]).enable = true ∧ synthsReady rdy = true ∧ (parsePort [1, 1, 0, 2, 0, 1, 24, 0, 0, 0]).target = false ∧
    (parsePort [1, 1, 1, 2, 0, 1, 24, 0, 0, 0]).enable = true ∧ (parsePort [1, 1, 1, 2, 0, 1, 24, 0, 0, 0]).target = true ∧
    (parsePort [1, 0, 0, 2, 0, 1, 24, 0, 0, 0]).enable = false ∧ p1 [0] 0 ≤ 2 ∧ rdy.ports.tdm[p1 [0] 0]? = some noPort ∧
    slotLen [1, 0, 1, 0x30, 0] = true ∧ cmdSlotMap.ids rdy [1, 0, 1, 0x30, 0] = true ∧ rdy.ports.tdm[p1 [1, 0, 1, 0x30, 0] 0]? = some noPort ∧
    (((slotEntries [1, 0, 1, 0x30, 0]).any fun y => y.content == 0x30) && (p1 [1, 0, 1, 0x30, 0] 0 = 0 || (noPort.next.getD noPort.cfg).width != 32)) = false ∧
    p1 [3, 0, 1, 2, 3, 4, 5, 6, 15, 0, 0] 0 ≤ 3 ∧ statusProgramsOk rdy [3, 0, 1, 2, 3, 4, 5, 6, 15, 0, 0] = true ∧
    p1 [1, 15, 0, 0, 0, 0] 1 < rdy.progs.length :=
  ⟨rdy_turn, by decide +kernel⟩

def openFlow : List Byte := [0, 0, 0x20, 0x01, 0x20, 0, 0, 0]

theorem witness_UrgentClassIsForUrgentKindsOnly : (∀ p : List Byte, p.length ≤ 250 → MainTurn rdy p) ∧
    MainTurn (flow { Flow.free with st := .opened, kind := 0x02 } rdy) [0, 0, 0, 0, 0, 0, 0, 0, 0, 0, 0] ∧ flowAt rdy (rd openFlow 0 2) = some Flow.free ∧ openFlow.length = 8 ∧
    sourceExists rdy (rd [0, 0, 0x02, 0, 0, 0, 0, 0] 3 2) = true ∧ (openedFlow [0, 0, 0x02, 0, 0, 0, 0, 0]).cls = 0 ∧
    (openedFlow [0, 0, 0x02, 0, 0, 0, 0, 0]).kind ≠ 0x20 ∧ (openedFlow [0, 0, 0x02, 0, 0, 0, 0, 0]).kind ≠ 0x21 ∧
    sourceExists rdy (rd openFlow 3 2) = true ∧ Flow.free.st = .free ∧ (openedFlow openFlow).kind = 0x20 ∧
    kindMatches (openedFlow openFlow).kind (openedFlow openFlow).source = true ∧
    flowAt (flow { Flow.free with st := .opened, kind := 0x02 } rdy) 0 = some { Flow.free with st := .opened, kind := 0x02 } ∧
    classField (p1 [0, 0, 0, 0, 0, 0, 0, 0, 0, 0, 0] 2) = 0 ∧
    flowAt (flow { Flow.free with st := .opened, kind := 0x20 } rdy) 0 = some { Flow.free with st := .opened, kind := 0x20 } :=
  ⟨rdy_turn, ⟨⟨rfl, rfl, rfl, by decide⟩, rfl, by decide⟩, by decide +kernel⟩

theorem witness_FlowCommandsOpenCloseAndShape : (∀ (f : Machine.Flow) (p : List Byte), p.length ≤ 250 → MainTurn (flow f (fmLane lane1 rx)) p) ∧
    MainTurn { rdy with flows := { rdy.flows with mailbox := true } } [] ∧
    (∀ f : Machine.Flow, flowAt (flow f (fmLane lane1 rx)) (rd [0, 0, 2, 0, 0, 0, 0, 1] 0 2) = some f) ∧
    sourceExists (flow Flow.free (fmLane lane1 rx)) (rd [0, 0, 2, 0, 0, 0, 0, 1] 3 2) = true ∧ Flow.free.st = .free ∧
    flowKinds.contains (openedFlow [0, 0, 2, 0, 0, 0, 0, 1]).kind = true ∧
    kindMatches (openedFlow [0, 0, 2, 0, 0, 0, 0, 1]).kind (openedFlow [0, 0, 2, 0, 0, 0, 0, 1]).source = true ∧
    sourceLive (flow Flow.free (fmLane lane1 rx)) (openedFlow [0, 0, 2, 0, 0, 0, 0, 1]).source = true ∧ (openedFlow [0, 0, 2, 0, 0, 0, 0, 1]).cls ≠ 0 ∧
    { Flow.free with st := .opened }.st = .opened ∧ classField (p1 [0, 0, 3, 0, 0, 0, 0, 0, 0, 0, 0] 2) ≠ 0 ∧
    (rdy.flows.classes[p1 [3, 0, 0, 0, 0, 0, 0] 0]?).isSome = true ∧ rdy.flows.mailbox = false ∧
    { rdy with flows := { rdy.flows with mailbox := true } }.flows.mailbox = true :=
  ⟨fun f p h => ⟨⟨rfl, rfl, rfl, h⟩, rfl, by show rdy.chip.life ≠ .retired; decide⟩, ⟨⟨rfl, rfl, rfl, by decide⟩, rfl, by decide⟩, fun f => rfl, by decide +kernel⟩

theorem witness_CalibrationCommandsTriggerRuns : (∀ p : List Byte, p.length ≤ 250 → MainTurn rx p) ∧ (namedInputs rx [0x3F]).isEmpty = false ∧
    (∀ i ∈ namedInputs rx [0x3F], calFrozen rx i = false ∧ calReceiving rx i = true) ∧
    (∃ i ∈ namedInputs rdy [0x20], calFrozen rdy i = true ∨ calReceiving rdy i = false) ∧ MainTurn rdy [0x20] :=
  ⟨rx_turn, by decide +kernel, by decide +kernel, ⟨5, by decide +kernel⟩, ⟨rfl, rfl, rfl, by decide⟩, rfl, by decide⟩

theorem witness_ClockCommandsConfigureTheSynthesizers : (∀ p : List Byte, p.length ≤ 250 → MainTurn rdy p) ∧ sameRef rdy.clocks (parseRef [0, 0, 0, 0, 0, 0, 0, 0]) = true ∧
    sameRef rdy.clocks (parseRef [0, 0, 0, 0, 0, 1, 0, 0]) = false ∧ clocksIdle rdy = true ∧
    refUp (faultEnds 0x50 0 6 (faultEnds 0x41 0 6 (faultEnds 0x40 0 6 (changeRef (parseRef [0, 0, 0, 0, 0, 1, 0, 0]) rdy)))).clocks = true ∧
    refUp (faultEnds 0x50 0 6 (faultEnds 0x41 0 6 (faultEnds 0x40 0 6 (changeRef (parseRef [0, 0, 0, 0, 0, 1, 0, 0])
      { rdy with clocks := { rdy.clocks with ref := .absent } })))).clocks = false ∧
    planIds rdy [3] = true ∧ p1 [3] 0 ≠ rdy.clocks.plan ∧ rdy.clocks.pllS ≠ .locking ∧ rdy.clocks.pllS ≠ .coasting ∧ rdy.mgr.rxRunning = false ∧
    rx.mgr.rxRunning = true ∧ p1 [3, 1, 1, 0, 4, 63] 0 ≤ 3 ∧ boolOf false (p1 [1] 0) = true ∧
    { rdy.clocks with pllA := PllAState.gated }.pllA ≠ .locked ∧
    200 = clampInt (-20000) 20000 (rdS [200, 0, 0, 0, 0] 0 4) ∧ ((200 : Int) - rdy.clocks.trim).natAbs ≤ 200 ∧
    201 = clampInt (-20000) 20000 (rdS [201, 0, 0, 0, 0] 0 4) ∧ 200 < ((201 : Int) - rdy.clocks.trim).natAbs ∧ boolOf false (p1 [201, 0, 0, 0, 0] 4) = false ∧
    boolOf false (p1 [0] 0) = false ∧ rdy.clocks.pllA = .locked ∧ rdy.clocks.outs.length = 4 :=
  ⟨rdy_turn, by decide +kernel⟩

/-- A watch that has found its station. -/
def watching : State := { gone with ghost := { gone.ghost with watch := .watching, identity := some 0xD210 } }

def ghostFields : List Byte := [1, 0x00, 0xE1, 0xF5, 0x05, 0, 0, 7, 1, 0]

theorem witness_PowerLifeAndRetentionCommands : (∀ p : List Byte, p.length ≤ 250 → MainTurn rdy p ∧ HostTurn watching p) ∧ watchSet (parseGhost ghostFields) = true ∧
    (setGhost (parseGhost ghostFields) rdy).reset_.domain = .ready ∧ watching.ghost.watch ≠ .off ∧ cannotLeave watching = false ∧
    nextLife rdy.chip.life = some .field ∧ p1 [2, 0x3C, 0x5A] 0 = lifeCode .field ∧ rd [2, 0x3C, 0x5A] 1 2 = 0x5A3C ∧
    rdy.ghost.watch = .off ∧ rdy.supply.sag = false ∧ rd [0x3C, 0x5A] 0 2 = 0x5A3C :=
  ⟨fun p h => ⟨rdy_turn p h, ⟨rfl, rfl, rfl, h⟩⟩, by decide +kernel⟩

def reply1 : Reply := ⟨0, 1, [2, 3]⟩
def answered : State := { rdy with link := { rdy.link with fifo := [reply1] } }
def deaf : State := { rdy with link := { rdy.link with ignoring := true } }
def nopBytes : List Byte := [0, 7, 0, crc8 [0, 7, 0]]

theorem witness_LinkTransfersMoveWholePackets : rdy.supply.backupOn = true ∧ rdy.link.ignoring = false ∧ acceptsOpc rdy = true ∧ 4 ≤ nopBytes.length ∧
    p1 nopBytes 2 ≤ 250 ∧ p1 nopBytes 2 + 4 ≤ nopBytes.length ∧ crc8 (nopBytes.take (p1 nopBytes 2 + 4)) = 0 ∧ rdy.link.queue.length < 4 ∧
    crc8 ([0, 7, 0, 1].take (p1 [0, 7, 0, 1] 2 + 4)) ≠ 0 ∧ ([0, 7] : List Byte) ≠ [] ∧ [0, 7].length < 3 ∧ [0, 7, 1, 0].length < p1 [0, 7, 1, 0] 2 + 4 ∧
    answered.supply.backupOn = true ∧ answered.link.ignoring = false ∧ answered.link.fifo = [reply1] ∧ reply1.payload.length + 4 ≤ 6 ∧ 5 < reply1.payload.length + 4 ∧
    rdy.link.fifo = [] ∧ { rdy.link with waiting := some reply1 }.waiting = some reply1 ∧ { rdy.link with waiting := some reply1 }.fifo.length < 4 ∧ rdy.link.waiting = none := by
  decide +kernel

def told : State := { rdy with events := { rdy.events with queue := [{ bit := 0, epoch := 0, eflags := 0, dfc := 0, body := [] }], promptDue := true } }

theorem witness_BusTimeoutsWaitForAStopAndPromptsAreMade : deaf.supply.backupOn = true ∧ deaf.link.ignoring = true ∧ told.supply.backupOn = true ∧ told.events.promptEnable = true ∧
    anyPrompt told.events = true ∧ told.events.promptBase + 960 ≤ told.now ∧ State.reset.supply.backupOn = true ∧ State.reset.now < State.reset.events.promptBase + 960 ∧
    told.events.promptDue = true ∧ told.supply.resetnLow = false ∧ told.reset_.domain = .ready ∧ told.reset_.doneQueued = true ∧
    gone.reset_.domain = .off ∧ { told.reset_ with domain := .blackout }.domain = .blackout := by
  decide +kernel

def cue1 : Cue := { id := 63, target := 0, packet := ⟨0x00, 7, [1]⟩, late := false }
def cue2 : Cue := { cue1 with packet := ⟨0x00, 7, []⟩ }
def cued (c : Cue) : State := { rdy with cues := [c] }
def held1 : HeldEffect := { cue := 63, target := 0, effect := .stop 0 }

theorem witness_TimelineTicksAndCuesFire : rdy.reset_.domain ≠ .off ∧ rdy.time.started = true ∧ rdy.time.source ≠ .held ∧ gone.reset_.domain = .off ∧
    State.reset.reset_.domain ≠ .off ∧ State.reset.time.started = false ∧ { rdy.time with source := .held }.source = .held ∧
    (cued cue1).reset_.domain = .ready ∧ (cued cue1).mgr.cueExec = none ∧ nextCue (cued cue1) = some cue1 ∧ nextCue (cued cue2) = some cue2 ∧
    cueBlocked (cued cue1) cue1.packet = false ∧ cueBlocked (cued cue2) cue2.packet = false ∧ nextCue rdy = none ∧
    { rdy with held := [held1] }.held = [held1] ∧ dfcAfter (held1.target + BitVec.ofNat 32 (carryLag rdy held1.effect)) rdy.time.dfc = false ∧
    dfcAfter (1 + BitVec.ofNat 32 (carryLag rdy held1.effect)) rdy.time.dfc = true ∧ (cued cue1).mgr.executing = none ∧ nextCue (markBlocked (cued cue1)) = some cue1 ∧
    nextCue (markBlocked (cued cue2)) = some cue2 ∧ nextCue (markBlocked rdy) = none ∧ rdy.held = [] := by
  decide +kernel
theorem witness_TimelineTicksAndCuesFire_cueFire : cmdOf cue1.packet.opc = some cmdNop ∧
    serve cmdNop { tag := cue1.packet.tag, p := cue1.packet.param, cue := some cue1.id, scene := false } { cued cue1 with cues := (cued cue1).cues.filter (fun x => x.id != cue1.id) } =
      fail stBadLength { cued cue1 with cues := (cued cue1).cues.filter (fun x => x.id != cue1.id) } ∧
    ∃ r, serve cmdNop { tag := cue2.packet.tag, p := cue2.packet.param, cue := some cue2.id, scene := false } { cued cue2 with cues := (cued cue2).cues.filter (fun x => x.id != cue2.id) } = r ∧
      r.effects = [] ∧ r.wait = none ∧ r.silent = false ∧ r.gate = false ∧ r.state.reset_.domain = .ready :=
  ⟨rfl, rfl, _, rfl, rfl, rfl, rfl, rfl, rfl⟩

def shed1 : ShedEntry := { engine := false, id := 0, mask := 3, step := 1 }
def short : State := fmLane lane1 { rx with cap := { rx.cap with shortfall := true, derate := 20, cmeas := 100 } }
def restoring : State :=
  fmLane lane1 { rx with cap := { rx.cap with restore := true, restoreList := [shed1], restoreSince := some 0, restoredAt := none, derate := 20, derateAt := 0 } }

theorem witness_CapacityRowsMeasureShedAndRestore : rdy.reset_.domain = .ready ∧ rdy.cap.economy = false ∧ { rdy.cap with economy := true }.economy = true ∧ rdy.cap.capMw < 3501 ∧
    rdy.cap.unattainable = false ∧ rdy.cap.shortfall = false ∧ short.reset_.domain = .ready ∧ short.cap.shortfall = true ∧ short.cap.overcommitted = false ∧
    passSettled short = true ∧ shortNow short = true ∧ slewed rdy = false ∧ slewed { rdy with cap := { rdy.cap with slewEnd := rdy.now } } = true ∧ decides busy = false ∧
    shortNow rdy = false ∧ short.mgr.executing = none ∧ short.mgr.cueExec = none ∧ { rdy.cap with unattainable := true }.unattainable = true ∧ faultOpen short 0x70 0 = false ∧ restoring.reset_.domain = .ready ∧ restoring.cap.restore = true ∧
    restoring.cap.restoreList.getLast? = some shed1 ∧ restoring.cap.restoreSince = some 0 ∧ restoring.cap.restoredAt = none ∧ 0 + 480000 ≤ restoring.now ∧
    restoreFits restoring = true ∧ admits restoring (entryCost restoring shed1) = true ∧ 0 < restoring.cap.derate ∧ restoring.cap.derateAt + 480000 ≤ restoring.now ∧
    holdsSlot (becomesRunnable 0x70 0 (faultBegins 0x70 0 0 0 true short)) 0x70 0 = true := by
  decide +kernel

def feeding (f : Feed) : State := { rx with feeds := rx.feeds.set 1 f }
def feedOn : Feed := { Feed.default Variant.named 1 with mode := 1, enabled := true }
def feedWaits (t : Nat) : Feed := { feedOn with enabled := false, waitSince := some t, retryMax := 3 }

theorem witness_FrontEndRowsMoveGainFeedsAndMaps : bonded rx 5 = true ∧ 5 < rx.inputs.length ∧ (inputAt rx 5).receiving = true ∧ pllSUp rx.clocks = true ∧
    (inputAt rx 5).gcfg.fixedMode = false ∧ { (inputAt rx 5).gcfg with fixedMode := true }.fixedMode = true ∧ rx.mgr.rxRunning = true ∧ rdy.mgr.rxRunning = false ∧
    1 < feedLines rx.chip.variant ∧ (feeding feedOn).feeds[1]? = some feedOn ∧ feedOn.enabled = true ∧ feedOn.enabledAt = none ∧
    (feeding (feedWaits 0)).feeds[1]? = some (feedWaits 0) ∧ (feedWaits 0).enabled = false ∧ (feedWaits 0).waitSince = some 0 ∧
    0 + 48 * (feedWaits 0).retryMs ≤ (feeding (feedWaits 0)).now ∧ (feedWaits 0).retries < (feedWaits 0).retryMax ∧
    { feedWaits 0 with retryMax := 0 }.retryMax ≤ { feedWaits 0 with retryMax := 0 }.retries ∧
    holdsSlot (becomesRunnable 0x90 1 (faultBegins 0x90 1 0 0 true (feeding (feedWaits 0)))) 0x90 1 = true ∧
    (feeding (feedWaits 100000000)).feeds[1]? = some (feedWaits 100000000) ∧ (feeding (feedWaits 100000000)).now < 100000000 + 48 * (feedWaits 100000000).retryMs ∧
    gone.reset_.domain = .off ∧ rdy.reset_.domain = .ready ∧ maxInt (List.replicate 8 1807) < 1808 ∧ rdy.cap.thermalHeld = false := by
  decide +kernel

def tripped : State := { gone with reset_ := { gone.reset_ with offCause := .thermal, coolSince := some 0 } }

theorem witness_FrontEndRowsMoveGainFeedsAndMaps_thermalRestart : tripped.supply.backupOn = true ∧ tripped.reset_.domain = .off ∧ tripped.reset_.offCause = .thermal ∧ tripped.reset_.coolSince = some 0 ∧
    0 + 48000 ≤ tripped.now ∧ tripped.supply.resetnLow = false ∧ tripped.thermal.backup ≤ 1840 ∧ 2970 < tripped.supply.vmain := by
  decide +kernel

def program2 (m : Member) : Program := { program1 with members := none :: some m :: List.replicate 10 none }
def fade1 (output : Bool) : Fade := { output := output, old := 0, new := 1, start := 0, ms := 80, reversed := false }
def noDab : Program := { program1 with members := some (member analogue) :: List.replicate 11 none, noDabSince := some 0 }

theorem witness_MemberRowsMarkUnderrunsAndRetirePaths : (∀ p : Program, progAt (prog p rx) 0 = some p) ∧ memberAt program1 1 = some (member service) ∧ program1.running = true ∧
    (member service).underrun = false ∧ 1 < program1.members.length ∧ memberAt (program2 { member analogue with underrun := true }) 1 = some { member analogue with underrun := true } ∧
    (member analogue).src.kind ≠ 2 ∧ 0 < (fade1 false).start + 48 * (fade1 false).ms ∧ (fade1 false).start + 48 * (fade1 false).ms ≤ rx.now ∧
    memberAt (program2 (member analogue)) (fade1 false).new = some (member analogue) ∧ (fade1 true).output = true ∧ (fade1 true).reversed = false ∧
    program1.anchorA = none ∧ { program1 with anchorA := some 0 }.anchorA ≠ none ∧ measureDue rx (member analogue) = true ∧
    measureDue rx { member analogue with measuredAt := some 99520001 } = false ∧
    (member service).src.kind = 2 ∧ { program1 with anchorD := some 0 }.anchorD = some 0 ∧ memberAt program1 0 = some (member analogue) ∧
    { member analogue with onTimeSince := some 99995200 }.onTimeSince = some 99995200 ∧ 99995200 + 4800 ≤ rx.now ∧ rx.now < 99995201 + 4800 ∧ { program1 with anchorA := some 0 }.anchorA = some 0 ∧
    noDab.running = true ∧ pathSlots noDab true = [] ∧ noDab.noDabSince = some 0 ∧ 0 + 2880000 ≤ rx.now ∧ rx.reset_.domain = .ready :=
  ⟨fun _ => rfl, by decide +kernel⟩

def derated : State := { rx with cap := { rx.cap with derate := 100 } }

theorem witness_FifoDropsDerateByTwoPercent : bonded rx 5 = true ∧ (inputAt rx 5).receiving = true ∧ pllSUp rx.clocks = true ∧ rx.integ.counters.length = 32 ∧
    (inputAt rdy 5).receiving = false ∧ pllSUp { rx.clocks with pllS := .locking } = false ∧ 0 < restoring.cap.derate ∧
    restoring.cap.derateAt + 480000 ≤ restoring.now ∧ rdy.cap.derate = 0 ∧ State.reset.now < State.reset.cap.derateAt + 480000 := by
  decide +kernel

theorem witness_FifoDropsDerateByTwoPercent_measurement : rx.reset_.domain = .ready ∧ slewed rx = false := by decide +kernel

def cal (i : Nat) (c : CalInput) (s : State) : State := { s with cal := { s.cal with inputs := s.cal.inputs.set i c } }
def calInput (i : Nat) : CalInput := calAt rx i
def rotor (n : Nat) (ov : Bool) (fails : Nat) : CalInput := { calInput 3 with rotating := true, inOverlap := ov, subWin := n, swapFails := fails }

theorem witness_RotationRowsRehearseAndSwap : ∀ x ∈ [rotor 0 false 0, rotor 15 false 0, rotor 16 false 0, rotor 0 true 0, rotor 0 true 2],
    bonded (cal 3 x rx) 3 = true ∧ 3 < (cal 3 x rx).cal.inputs.length ∧ calReceiving (cal 3 x rx) 3 = true ∧ (calAt (cal 3 x rx) 3).rotating = true ∧
    (((calAt (cal 3 x rx) 3).inOverlap = false ∧ (calAt (cal 3 x rx) 3).subWin < 16) ∨ ((calAt (cal 3 x rx) 3).inOverlap = false ∧ (calAt (cal 3 x rx) 3).subWin = 16) ∨
      ((calAt (cal 3 x rx) 3).inOverlap = true ∧ (20 : Int) ≤ 20 ∧ (128 : Int) ≤ 128 ∧ (20 : Int) < 21 ∧ (128 : Int) < 129)) := by
  decide +kernel

def failing : ValidObs := { clipped := 1, samples := 99999, rms := 0 }
theorem failing_mask (s : State) (i : Nat) : validMask s i failing ≠ 0 := by simp [validMask, windowMask, failing]
/-- A measurement that passes, whatever the own noise of the input is. -/
def passing (s : State) (i : Nat) : ValidObs := { clipped := 0, samples := 1000000, rms := max (-6000) (Config.ownNoise i (inputAt s i).gain + 300) }
theorem passing_mask (s : State) (i : Nat) (h : (inputAt s i).overloaded = false) (hc : concentrated (inputAt s i) = false) :
    validMask s i (passing s i) = 0 := by
  have h1 : ¬ (passing s i).rms < -6000 := by simp [passing]
  have h2 : ¬ (passing s i).rms - Config.ownNoise i (inputAt s i).gain < 300 := by simp only [passing]; omega
  unfold validMask windowMask; simp [h, hc, h1, h2]; simp [passing]

def running (fails len : Nat) : CalInput := { calInput 5 with run := .running, runFirst := false, runFails := fails, runLen := len }
def choosing (l : List (Bool × Nat × Nat)) (x : Option (Int × Int)) : CalInput := { calInput 5 with pendingSel := l, pendingOffGain := x }
def deferred (t : Nat) : CalInput := { calInput 5 with run := .deferred, retryAt := t }

theorem witness_CalibrationRowsTriggerRetryAndSelect : (∀ c : CalInput, bonded (cal 5 c rx) 5 = true ∧ 5 < (cal 5 c rx).cal.inputs.length ∧ calReceiving (cal 5 c rx) 5 = true ∧
      calFrozen (cal 5 c rx) 5 = false ∧ calAt (cal 5 c rx) 5 = c ∧ validMask (cal 5 c rx) 5 failing ≠ 0 ∧ validMask (cal 5 c rx) 5 (passing (cal 5 c rx) 5) = 0) ∧
    decides rx = true ∧ decides busy = false ∧ rx.mgr.executing = none ∧ rx.mgr.cueExec = none ∧ (running 6 30).run = .running ∧ (running 6 30).runFirst = false ∧ (running 6 30).runFails < 7 ∧ (running 6 30).runLen < 31 ∧ (calInput 5).run = .idle ∧
    (choosing [(true, 0, 2), (false, 0, 1)] none).pendingSel = (true, 0, 2) :: [(false, 0, 1)] ∧ (choosing [(false, 0, 1)] none).pendingSel = (false, 0, 1) :: [] ∧
    (choosing [] (some (3, 4))).pendingSel = [] ∧ (choosing [] (some (3, 4))).pendingOffGain = some (3, 4) ∧
    (deferred rx.now).run = .deferred ∧ (deferred rx.now).retryAt ≤ (cal 5 (deferred rx.now) rx).now ∧ faultOpen (cal 5 (deferred rx.now) rx) 0x80 5 = false ∧
    (cal 5 (deferred (rx.now + 1)) rx).now < (deferred (rx.now + 1)).retryAt ∧
    0 = (if (calInput 5).lastTMeas.isSome then (calInput 5).lastAt else (calInput 5).startedAt) ∧ 0 + 48000 * rx.cal.policy.maxInterval ≤ rx.now ∧
    rx.now < { calInput 5 with startedAt := rx.now }.startedAt + 48000 * rx.cal.policy.maxInterval ∧ { calInput 5 with startedAt := rx.now }.lastTMeas = none :=
  ⟨fun c => ⟨rfl, by show 5 < (rx.cal.inputs.set 5 c).length; rw [List.length_set]; decide +kernel, rfl, by show calFrozen rx 5 = false; decide +kernel, rfl, failing_mask _ _, passing_mask _ _ rfl (by show concentrated (inputAt rx 5) = false; decide +kernel)⟩, by decide +kernel⟩

/-- 10 ms of lane figures with one input's samples of a carrier, its tokens whole or not (Table 4-1: 2000 a bin under P0). -/
def figures (lost : Bool) : LaneFigures := { cnr := 5000, lost := if lost then [(0, 1)] else [], bins := [] }
def drain (p : Option Pend) : Lane := { lane1 with st := .draining, pend := p }
def pend1 : Pend := { owner := .host, exact := false, af := none, freq := 101000000, block := 0, mask := 1, asked := 1, pin := false, start := false, opc := 0x19, tag := 7 }
def lanes1 : State := fmLane lane1 (amLane lane1 rx)

theorem witness_LaneRowsUpdateStartAndDrain : Shaped rx ∧ (∀ l : Lane, laneAt (fmLane l rx) 0 = some l ∧ (fmLane l rx).lanes.fm[0]? = some l ∧ (amLane l rx).lanes.am[0]? = some l) ∧
    lane1.st = .running ∧ rx.mgr.rxRunning = true ∧ laneGap rx false (figures false) lane1 = false ∧ laneGap rx true (figures false) lane1 = false ∧
    laneGap rx false (figures true) lane1 = true ∧ { lane1 with first := true }.first = true ∧ rdy.mgr.rxRunning = false ∧
    rx.reset_.domain = .ready ∧ capacityMet (fmLane { lane1 with st := .wings, starting := true } rx) = true ∧
    capacityMet (fmLane { lane1 with st := .wings, starting := true } { rx with cap := { rx.cap with cmeas := 0 } }) = false ∧
    (drain none).st = .draining ∧ (drain none).pend = none ∧ (drain (some pend1)).pend = some pend1 ∧ pend1.owner = .host ∧ pend1.start = false ∧ { pend1 with start := true }.start = true ∧
    laneMask (fmLane (drain (some pend1)) rx) rx.clocks.plan 0 pend1.freq pend1.asked ≠ 0 ∧
    engineAt (engine { engine1 with st := .draining } rx) 0 = some { engine1 with st := .draining } ∧ engine1.pend = none :=
  ⟨by unfold Shaped; decide +kernel, fun _ => ⟨rfl, rfl, rfl⟩, by decide +kernel⟩
theorem witness_LaneRowsUpdateStartAndDrain_shaped (l : Lane) : Shaped (fmLane l rx) := by
  unfold Shaped fmLane; simp only [List.length_set]; decide +kernel

def synced : RdsDecoder := { RdsDecoder.none with synced := true }
def tuned (i : Identity) (r : RdsDecoder) : Lane := { lane1 with ident := i, rds := r }
def known : Identity := { lane1.ident with pi := some 0xD210, last := some 0xD210, shown := some 0xD314, recordAt := some 0, waiting := 2 }
def record1 : Station := { Station.invalid with valid := true, pi := 0xD210, changedAt := some 0 }
def recorded : State := { rx with rds := { rx.rds with stations := [record1], cfg := { rx.rds.cfg with dbStore := true } } }

theorem witness_RdsRowsFollowBlocksIdentityAndRecords : lane1.st = .running ∧ rx.mgr.rxRunning = true ∧ lane1.rds.synced = false ∧ RdsOffset.a ≠ .e ∧
    (tuned known synced).rds.synced = true ∧ (takeBlock 0 .b 3 synced).synced = true ∧ synced.pos = 0 ∧ (takeBlock 0xD210 .a 0 synced).synced = true ∧
    (tuned known synced).ident.pi = some 0xD210 ∧ { synced with ready := true }.ready = true ∧ synced.ready = false ∧ known.carriedAt + 96000 ≤ rx.now ∧
    rx.now < { known with carriedAt := rx.now }.carriedAt + 96000 ∧ 0 < known.waiting ∧ known.recordAt = some 0 ∧ 0 + 24000 ≤ rx.now ∧ known.pi = some 0xD210 ∧
    known.shown = some 0xD314 ∧ blockGap (fmLane lane1 rx) lane1 = false ∧ lane1.ident.waiting = 0 ∧ { lane1 with ident := known, alarmOffAt := some 0 }.alarmOffAt = some 0 ∧ 0 + 96000 ≤ rx.now ∧
    lane1.testOffAt = none ∧ recorded.rds.stations[0]? = some record1 ∧ recorded.reset_.domain = .ready ∧ recorded.rds.cfg.dbStore = true ∧
    record1.changedAt = some 0 ∧ recorded.supply.sag = false ∧ record1.writtenAt = none ∧
    (seekBlock 1 .b .clean false { RdsDecoder.none with prev := some .a }).synced = true ∧
    (seekBlock 1 .b .clean false (seekBlock 1 .e .clean false { RdsDecoder.none with prev := some .a })).synced = false := by
  decide +kernel
theorem witness_RdsRowsFollowBlocksIdentityAndRecords_shaped : Shaped { rx with rds := { rx.rds with stations := record1 :: List.replicate 511 Station.invalid, cfg := { rx.rds.cfg with dbStore := true } } } := by
  unfold Shaped; decide +kernel

/-- A frame of an engine that receives nothing, with a null dip or without. -/
def frame (dip : Bool) : FrameObs :=
  { windows := if dip then List.replicate 24 4 ++ List.replicate 6 1 else [], ref := [], nulls := [], prs := [], fic := [], peaks := [], fibs := [],
    fine := 0, clockPpm := 0, lost := [] }
def acqAt (a : Acq) : Engine := { engine1 with acq := a }
def scanned : Engine := { acqAt .nullSearch with owner := .scan }
def cluster1 (t : Nat) : Cluster := { id := 3, asw := 2, subch := 1, new := true, region := 0, active := 0, clearOnce := 0, usedAt := t }
def announced (t : Nat) : Engine := { acqAt .locked with model := { engine1.model with clusters := [cluster1 t] } }

theorem witness_DabRowsAcquireStoreAndTimeOut : (∀ x : Engine, engineAt (engine x rx) 0 = some x) ∧ (acqAt .nullSearch).st = .running ∧ rx.mgr.rxRunning = true ∧
    (∀ a : Acq, (frameIn (engine (acqAt a) rx) (acqAt a) (frame true)).anyGap = false ∧ peakSeen (frameIn (engine (acqAt a) rx) (acqAt a) (frame true)) (acqAt a) = none ∧
      rhoAtLeast (30 / 100) (frameIn (engine (acqAt a) rx) (acqAt a) (frame true)).base (frame true).ref = false ∧ frameFails (frameIn (engine (acqAt a) rx) (acqAt a) (frame true)) = true) ∧
    nullDip (frame true).windows = true ∧ nullDip (frame false).windows = false ∧ (frameIn rx { acqAt .locked with gapSeen := true } (frame true)).anyGap = true ∧
    { acqAt .locked with failed := 2 }.failed = 2 ∧ Engine.free.st ≠ .running ∧ (acqAt .locked).acq = .locked ∧ (acqAt .hold).acq = .hold ∧ occurs engine1.model = false ∧
    { engine1 with converting := true }.converting = true ∧ engine1.modeNext = none ∧ engine1.converting = false ∧ (acqAt .hold).acq ≠ .locked ∧
    scanned.st = .running ∧ scanned.owner = .scan ∧ engineRank (engine scanned rx) 0 scanned = 5 ∧ scanned.acq ≠ .locked ∧ scanned.acq ≠ .hold ∧
    scanned.startedAt + 240000 ≤ (engine scanned rx).now ∧ engine1.owner ≠ .scan ∧ (announced 0).model.clusters.find? (·.id == 3) = some (cluster1 0) ∧
    (cluster1 0).usedAt + 96000 ≤ rx.now ∧ rx.now < (cluster1 rx.now).usedAt + 96000 ∧
    ({ rx with decoders := [{ Decoder.unowned with engine := some 0 }] }.decoders[0]?) = some { Decoder.unowned with engine := some 0 } ∧ Decoder.unowned.valid = false :=
  ⟨fun _ => rfl, rfl, rfl, fun a => by cases a <;> decide +kernel, by decide +kernel⟩

theorem witness_FreeFlowIsWrongStateToCloseAndReadsZero : MainTurn lanes1 [0, 0, 2, 0, 0, 0, 0, 1] ∧ flowAt lanes1 (rd [0, 0, 2, 0, 0, 0, 0, 1] 0 2) = some Flow.free ∧
    sourceExists lanes1 (rd [0, 0, 2, 0, 0, 0, 0, 1] 3 2) = true ∧ flowKinds.contains (openedFlow [0, 0, 2, 0, 0, 0, 0, 1]).kind = true ∧
    kindMatches (openedFlow [0, 0, 2, 0, 0, 0, 0, 1]).kind (openedFlow [0, 0, 2, 0, 0, 0, 0, 1]).source = true ∧
    sourceLive lanes1 (openedFlow [0, 0, 2, 0, 0, 0, 0, 1]).source = true ∧ (openedFlow [0, 0, 2, 0, 0, 0, 0, 1]).cls ≠ 0 :=
  ⟨⟨⟨rfl, rfl, rfl, by decide⟩, rfl, by decide⟩, by decide +kernel⟩

theorem witness_SyncArmTouchesArmingOnly : MainTurn rdy [1] ∧ rdy.clocks.pllA = .locked ∧ boolOf false (p1 [0] 0) = false ∧ MainTurn rdy [0] ∧ MainTurn rdy [] :=
  ⟨rdy_turn _ (by decide), by decide +kernel, by decide +kernel, rdy_turn _ (by decide), rdy_turn _ (by decide)⟩

def curtain (pos : Rat) (moving : Option Bool) (l : List AfterClose) : Program := { program1 with curtain := { program1.curtain with pos := pos, moving := moving, after := l } }
def announce1 : Announce := { alarm := false, test := false, origin := 1, id := 0, eidPi := 0xD210, other := 0, ty := 1, asw := 2, cluster := 0, subch := 0xFF, new := false, region := 0 }
def holding (air : Bool) (e : Option Nat) (d : Nat) : Holding := { ann := announce1, src := analogue, onAir := air, endedAt := e, delayMs := d, gainDb := 0, overrode := false, ownRebound := false }
def selected (h : Holding) : Program := { curtain 1 none [] with holding := some h }

theorem witness_CurtainRowsMakeTheWaitingChange : (∀ p : Program, progAt (prog p rx) 0 = some p) ∧ (curtain 1 (some true) []).curtain.pos = 1 ∧ (curtain 1 (some true) []).curtain.moving = some true ∧
    (curtain (1 / 2) (some true) []).curtain.pos ≠ 1 ∧ (curtain (1 / 2) (some false) []).curtain.pos ≠ 0 ∧ (curtain 0 (some false) []).curtain.pos = 0 ∧
    (curtain 0 (some false) []).curtain.after = [] ∧ (curtain 0 (some false) [.stop]).curtain.after = [.stop] ∧ (curtain 0 (some false) [.stop]).curtain.pos = 0 ∧ selection program1 = none ∧
    selection (selected (holding false none 0)) = some (holding false none 0) ∧ (selected (holding false none 0)).running = true ∧
    selectionReady (prog (selected (holding false none 0)) rx) (holding false none 0) = true ∧ (selected (holding false none 0)).curtain.pos ≠ 0 ∧
    (selected (holding true (some 99999999) 10000)).holding = some (holding true (some 99999999) 10000) ∧ rx.now < 99999999 + 48 * (holding true (some 99999999) 10000).delayMs ∧
    program1.holding = none ∧ 0 + 48 * (holding true (some 0) 10000).delayMs ≤ rx.now ∧ (selected (holding true (some 0) 10000)).nextHold = none ∧
    bestAlarm (prog (selected (holding true (some 0) 10000)) rx) 0 = none ∧ bestAnn (prog (selected (holding true (some 0) 10000)) rx) (selected (holding true (some 0) 10000)) = none :=
  ⟨fun _ => rfl, by decide +kernel⟩

def aligning (a : AlignState) : Program := { program1 with align := a }
/-- A history whose audio rises evenly, so that it correlates with itself at every lag. -/
def rising : Trace := { acc := [], env := [(1, true)], hit := [], aud := [0xD5, 0xD4, 0xD7, 0xD6] }
def hearing (a : AlignState) (at_ : Nat) : Program := { program1 with align := a, traceA := rising, traceD := rising, trackedAt := at_ }
def asking (n t : Nat) : Program := { program1 with request := some (n, t) }
def crowded : State := { prog (asking 256 5) rx with progs := (prog (asking 256 5) rx).progs.set 1 { program1 with pages := 1 } }

theorem witness_AlignmentRowsSearchRefineTrackAndGrant : (∀ p : Program, progAt (prog p rx) 0 = some p) ∧ (hearing (.refining 0 0 99976000) 0).align = .refining 0 0 99976000 ∧
    99976000 + 24000 ≤ rx.now ∧ (refineAbout 500 (48 * 0) 1 0 (hearing (.refining 0 0 99976000) 0)).any accepted = true ∧ program1.pages = 0 ∧ program1.outDab = false ∧
    rx.now < 99976001 + 24000 ∧ (refineAbout 500 (48 * 0) 1 0 (aligning (.refining 0 0 0))).any accepted = false ∧
    (aligning (.searching rx.now)).align = .searching rx.now ∧ rx.now < rx.now + 144000 ∧
    (aligning (.searching 99856000)).align = .searching 99856000 ∧ 99856000 + 144000 ≤ rx.now ∧ (aligning (.refining 99856000 0 0)).align = .refining 99856000 0 0 ∧
    program1.wasAligned = false ∧ (aligning (.failed 98560000)).align = .failed 98560000 ∧ 98560000 + 1440000 ≤ rx.now ∧ rx.now < 98560001 + 1440000 ∧
    (hearing .aligned 99904000).align = .aligned ∧ (hearing .aligned 99904000).trackedAt + 96000 ≤ rx.now ∧
    (refineAbout 2000 (roundRat (hearing .aligned 99904000).tau) 2 0 (hearing .aligned 99904000)).any (fun o => o.ok && decide (-96 ≤ (o.ticks : Rat) - (hearing .aligned 99904000).tau ∧
      (o.ticks : Rat) - (hearing .aligned 99904000).tau ≤ 96 ∧ o.ticks ≤ 288000)) = true ∧
    (refineAbout 2000 (roundRat program1.tau) 2 0 (aligning .aligned)).any (fun o => !o.ok) = true ∧
    refineAbout 2000 (roundRat program1.tau) 2 0 { aligning .aligned with traceD := { Trace.none with hit := [true] } } = none ∧ rx.now < (hearing .aligned 99904001).trackedAt + 96000 ∧
    program1.badTracks = 0 ∧ program1.align ≠ .aligned ∧ firstWaiting (prog (asking 256 5) rx) = some 0 ∧
    (asking 256 5).request = some (256, 5) ∧ (asking 256 5).pages ≤ 256 ∧ 256 - (asking 256 5).pages ≤ pagesFree (prog (asking 256 5) rx) ∧
    progAt crowded 0 = some (asking 256 5) ∧ firstWaiting crowded = some 0 ∧ pagesFree crowded < 256 - (asking 256 5).pages ∧ firstWaiting rx = none :=
  ⟨fun _ => rfl, by decide +kernel⟩

def portIn (st : PortState) (target : Bool) : Port := { Port.disabled with st := st, cfg := { Port.disabled.cfg with target := target } }
def spdifOn : State := { rx with ports := { rx.ports with spdif := { rx.ports.spdif with running := true, cfg := { rx.ports.spdif.cfg with enable := true } } } }

theorem witness_PortRowsLockStopAndRunFrames : (∀ p : Port, (port p rx).ports.tdm[0]? = some p ∧ faultOpen (port p rx) 0x60 0 = false ∧ faultOpen (port p rx) 0x61 0 = false) ∧
    (portIn .starting false).st = .starting ∧ (portIn .starting false).gated = false ∧ (portIn .starting false).cfg.target = false ∧ (portIn .starting true).okFrames < 4 ∧
    { portIn .starting true with okFrames := 4 }.okFrames = 4 ∧ portConverts (portIn .locked false).cfg = false ∧ (portIn .locked false).frameAt ≠ some rx.now ∧
    { portIn .locked false with frameAt := some rx.now }.frameAt = some rx.now ∧ portConverts (portIn .locked true).cfg = true ∧
    rateAllowed (portIn .locked true).cfg.rate 100001 = true ∧ (100000 - (portIn .locked true).lockPpm).natAbs ≤ 100000 ∧ { portIn .starting false with gated := true }.gated = true ∧
    (portIn .stopping false).st = .stopping ∧ (portIn .stopping false).curtain = 0 ∧ (portIn .stopping false).next = none ∧ (portIn .stopping false).cfg.enable = false ∧
    (portIn .locked true).st ≠ .stopping ∧ (portIn .locked true).st = .locked ∧ (portIn .locked true).gated = false ∧ (portIn .disabled false).st = .disabled ∧
    (portIn .locked true).cfg.target = true ∧ { portIn .locked true with glitchRun := 1 }.glitchRun < 2 ∧ 100000 < ((100001 : Int) - (portIn .locked true).lockPpm).natAbs ∧
    (portIn .locked false).cfg.target = false ∧ spdifOn.ports.spdif.running = true ∧ spdifOn.ports.spdif.gated = false ∧ spdifOn.ports.spdif.cfg.enable = true ∧
    spdifOn.ports.spdif.next = none ∧ spdifOn.ports.spdif.frameAt ≠ some spdifOn.now ∧ spdifOn.ports.tdm[0]? = some Port.disabled ∧
    ({ packet := ⟨0x50, 1, []⟩, cue := none, late := false, execDfc := 0, wait := .port 0, payload := [] } : Executing).wait = .port 0 ∧ rx.ports.spdif.running = false :=
  ⟨fun _ => ⟨rfl, rfl, rfl⟩, by decide +kernel⟩

def flow1 : Machine.Flow := { Flow.free with st := .opened, kind := 0x20, source := 0x2001, cls := 0, limit := 1 }

theorem witness_FlowRowsQueuePacketsAndReportDrops : (∀ f : Machine.Flow, flowAt (flow f rx) 0 = some f) ∧ (flow flow1 rx).reset_.domain = .ready ∧ sourceExists (flow flow1 rx) 0x2001 = true ∧
    flowKinds.contains 0x20 = true ∧ (List.replicate 1024 (0 : Byte)).length ≤ 1024 ∧ givesOutput (flow flow1 rx) 0x20 0x2001 = true ∧ givesOutput (flow flow1 (engine engine1 rx)) 0x15 0x1001 = false ∧
    givesOutput (engine { engine1 with cifsStored := 16 } rx) 0x15 0x1001 = true ∧ repeats 0x20 [] flow1 = false ∧
    repeats 0x14 [0, 0, 7] { flow1 with kind := 0x14, label := [7] } = true ∧ takes 0x20 0x2001 0 flow1 = true ∧ takes 0x21 0x2002 0 flow1 = false ∧
    flow1.queue.length < flow1.limit ∧ flow1.cls = 0 ∧ flow1.held = [] ∧ poolUsed (flow flow1 rx).flows + 512 * (12 + 1024) ≤ 2097152 ∧ (flow flow1 rx).flows.flows.length = 512 ∧ sourceExists (flow flow1 rx) 0x1F01 = true ∧ flowKinds.contains 0x03 = false ∧
    0 < { flow1 with dropsNew := 1 }.dropsNew ∧ flow1.dropRecAt = none ∧ { flow1 with dropRecAt := some 99952001 }.dropRecAt = some 99952001 ∧ rx.now < 99952001 + 48000 ∧ flow1.dropsNew = 0 :=
  ⟨fun _ => rfl, by decide +kernel⟩

def clocked (r : RefState) (a : PllSState) (b : PllAState) (c : PllNState) : State := { rdy with clocks := { rdy.clocks with ref := r, pllS := a, pllA := b, pllN := c } }
def begun : State := { clocked .present .locked .locking .locked with time := { rdy.time with started := false } }

theorem witness_ReferenceAndSynthesizerRowsMoveTheClocks : rdy.reset_.domain = .ready ∧ rdy.clocks.ref ≠ .absent ∧ (clocked .absent .coasting .coasting .locked).clocks.ref = .absent ∧
    (clocked .absent .coasting .coasting .locked).reset_.domain = .ready ∧ (clocked .buildOut .coasting .coasting .locked).clocks.ref = .buildOut ∧
    (clocked .buildOut .coasting .coasting .locked).clocks.pllS = .coasting ∧ (clocked .buildOut .coasting .coasting .locked).clocks.pllA = .coasting ∧
    rdy.clocks.pllS = .locked ∧ rdy.clocks.pllA = .locked ∧ rdy.clocks.ref = .present ∧ rdy.integ.recoveries = [] ∧ rdy.clocks.pllN = .locked ∧
    (clocked .present .locking .locked .locking).clocks.pllS = .locking ∧ faultOpen (clocked .present .locking .locked .locking) 0x41 0 = false ∧
    (clocked .present .locking .locked .locking).clocks.pllN = .locking ∧ (clocked .present .locked .gated .locked).clocks.pllA = .gated ∧
    begun.clocks.pllA = .locking ∧ begun.time.started = false ∧ faultOpen begun 0x50 0 = false ∧ rdy.time.started = true ∧
    faultOpen (faultBegins 0x41 0 0 0 true (clocked .present .locking .locked .locking)) 0x41 0 = true ∧
    (faultBegins 0x41 0 0 0 true (clocked .present .locking .locked .locking)).clocks.pllS = .locking ∧
    holdsSlot (becomesRunnable 0x41 0 (faultBegins 0x41 0 0 0 true (clocked .present .locking .locked .locking))) 0x41 0 = true := by
  decide +kernel

def trimmed (t : Int) (tag : Option Byte) : State := { rdy with clocks := { rdy.clocks with target := t, trimTag := tag } }
def armed : State := { rdy with time := { rdy.time with armed := true, captured := true } }

theorem witness_TrimAndSyncRowsMoveTrimAndTimeline : (trimmed 201 none).clocks.pllS = .locked ∧ (trimmed 201 none).clocks.trim ≠ (trimmed 201 none).clocks.target ∧
    (trimmed 201 none).clocks.stepAt + 48 ≤ (trimmed 201 none).now ∧ (trimmed 201 none).clocks.trimTag = none ∧ (trimmed 200 (some 7)).clocks.trimTag = some 7 ∧
    (trimmed 200 (some 7)).clocks.trim ≠ (trimmed 200 (some 7)).clocks.target ∧ ((trimmed 200 (some 7)).clocks.target - (trimmed 200 (some 7)).clocks.trim).natAbs ≤ 200 ∧
    rdy.clocks.trim = rdy.clocks.target ∧ armed.time.armed = true ∧ armed.clocks.ref ≠ .absent ∧ armed.time.captured = true ∧ rdy.time.armed = false ∧ rdy.time.captured = false := by
  decide +kernel

theorem witness_SupplyRowsFollowTheThresholds : rdy.supply.backupOn = true ∧ rdy.supply.sag = false ∧ 2919 < 2920 ∧ { rdy.supply with sag := true }.sag = true ∧ rdy.supply.onVbak = false ∧
    { rdy.supply with onVbak := true }.onVbak = true := by
  decide +kernel

def hollow : State := { gone with reset_ := { gone.reset_ with offCause := .backupOnly } }
def dark : State := { rdy with supply := { rdy.supply with backupOn := false } }

theorem witness_HaltAndBackupRowsStopAndStartTheDomains : rdy.supply.backupOn = true ∧ rdy.reset_.domain = .ready ∧ gone.supply.backupOn = true ∧ gone.reset_.domain = .off ∧ gone.reset_.offCause = .hardHalt ∧
    gone.supply.resetnLow = false ∧ dark.supply.backupOn = false ∧ rdy.retained.writing = none ∧ hollow.supply.backupOn = true ∧ hollow.reset_.domain = .off ∧ hollow.reset_.offCause = .backupOnly ∧
    hollow.supply.resetnLow = false := by
  decide +kernel

def heldDown (mv : Nat) : State := { gone with supply := { gone.supply with resetnLow := true, vmain := mv }, reset_ := { gone.reset_ with offCause := .resetn } }
def booted (w : Option Nat) (r : Bool) : ReadyObs := { wipeFailed := w, romOk := r, badItems := [], corrected := 0, refPresent := true, cmeasRings := [4] }
def again : State := { rdy with reset_ := { rdy.reset_ with reapplying := true } }
def changed : State := { rx with mgr := { rx.mgr with sceneChanged := some 0 } }

theorem witness_ResetRowsWipeStartAndReapplyTheScene : rdy.supply.backupOn = true ∧ rdy.supply.resetnLow = false ∧ rdy.reset_.domain = .ready ∧ (heldDown 2700).supply.backupOn = true ∧
    (heldDown 2700).supply.resetnLow = true ∧ (heldDown 2700).reset_.offCause = .resetn ∧ 2700 ≤ (heldDown 2700).supply.vmain ∧ (heldDown 2699).supply.resetnLow = true ∧
    (heldDown 2699).supply.vmain < 2700 ∧ State.reset.supply.backupOn = true ∧ State.reset.reset_.domain = .starting ∧ (booted none true).wipeFailed = none ∧
    (booted none true).romOk = true ∧ State.reset.reset_.coreChain < 3 ∧ (booted none false).romOk = false ∧ (booted (some 2) true).wipeFailed = some 2 ∧
    again.supply.backupOn = true ∧ again.reset_.domain = .ready ∧ again.reset_.reapplying = true ∧ again.retained.scene = none ∧ again.integ.recoveries = [] ∧ rdy.reset_.reapplying = false ∧
    captureDue changed = true ∧ changed.supply.backupOn = true ∧ { rdy.supply with sag := true }.sag = true := by
  decide +kernel

def watchful : State := { gone with ghost := { gone.ghost with cfg := { gone.ghost.cfg with auto := true, watch := 1, freq := 100000000 } } }
def seeking (w : WatchState) : State := { gone with ghost := { gone.ghost with watch := w } }
def logged : State := { gone with retained := { gone.retained with alertLog := { gone.retained.alertLog with changed := true } } }

theorem witness_GhostLightRowsWatchAndLog : watchful.supply.backupOn = true ∧ watchful.reset_.domain = .off ∧ watchful.reset_.offCause = .hardHalt ∧ watchful.ghost.watch = .off ∧
    watchful.ghost.cfg.auto = true ∧ watchSet watchful.ghost.cfg = true ∧ 2500 ≤ watchful.supply.vbak ∧ { gone.ghost.cfg with auto := false }.auto = false ∧
    gone.ghost.watch = .off ∧ (seeking .acquiring).ghost.watch = .acquiring ∧ (seeking .acquiring).clocks.pllN = .locked ∧ (seeking .acquiring).ghost.cfg.expectId = 0 ∧
    (seeking .lost).ghost.watch = .lost ∧ { (seeking .lost).clocks with pllN := .locking }.pllN ≠ .locked ∧ (seeking .watching).ghost.watch = .watching ∧ (seeking .watching).ghost.clusters.length < 16 ∧ { gone.ghost.cfg with watch := 2 }.watch = 2 ∧
    logged.supply.backupOn = true ∧ logged.retained.alertLog.changed = true ∧ gone.retained.alertLog.changed = false := by
  decide +kernel

def counted : State := { rdy with integ := { rdy.integ with counters := rdy.integ.counters.set 6 9, recorded := rdy.integ.recorded.set 6 (some (99952000, 8)) } }
def packet1 : FlowPacket := { kind := 0x20, flags := 2, source := 0x2001, dfc := 0, seq := 0, payload := [1], key := none }
def table1 : CalTable := { CalTable.wiped 3 3 with ok := true, initialised := true }
def tabled : State := { rdy with retained := { rdy.retained with tables := rdy.retained.tables.set 15 table1 } }
def faulty : State := faultBegins 0x60 0 0 0 false rdy
def staged : State := { rdy with integ := (faultBegins 0x60 0 0 0 false rdy).integ }

theorem witness_IntegrityRowsCountRecordAndLog : rdy.supply.backupOn = true ∧ rdy.reset_.domain = .ready ∧ tabled.supply.backupOn = true ∧ tabled.retained.tables[15]? = some table1 ∧ table1.ok = true ∧ (((flow { flow1 with queue := [packet1] } rx).flows.flows[0]?).bind fun f => f.queue[0]?) = some packet1 ∧
    recordDue counted 6 = true ∧
    recordDue rdy 6 = false ∧ mayBegin rdy 0x32 0 = false ∧ mayBegin faulty 0x60 0 = true ∧ faultOpen faulty 0x60 0 = true ∧ runningRec faulty = none ∧ (recAt faulty 0x60 0).map (mayStart faulty) = some true ∧
    staged.supply.backupOn = true ∧ staged.supply.sag = false ∧ staged.integ.staging ≠ [] ∧ { rdy.supply with sag := true }.sag = true := by
  decide +kernel

theorem witness_AbsentUnitsAreRefusedByName : bonded rdy 6 = false ∧ feedLines rdy.chip.variant ≤ 4 ∧ rdy.lanes.fm.length ≤ 96 ∧ rdy.dab.engines.length ≤ 16 ∧ rdy.progs.length ≤ 16 ∧
    rdy.decoders.length ≤ 16 ∧ rdy.ports.tdm.length ≤ 2 ∧ rdy.flows.flows.length ≤ 512 := by
  decide +kernel



/-! ### WellFormed: one ill-formed term for each check, which the check refuses -/

def goodFrame : FrameObs :=
  { frame true with fibs := List.replicate 12 { ok := false, raw := List.replicate 30 0, figs := [] } }

theorem test_wf_param_of_251_bytes_refused : (Instr.nop 0 (List.replicate 251 0)).wf = false := by decide +kernel
theorem test_wf_param_of_250_bytes : (Instr.nop 0 (List.replicate 250 0)).wf = true := by decide +kernel
theorem test_wf_bin_above_full_scale_refused : (Instr.laneUpdate 0 { figures false with bins := [(0, [[⟨1, 1 / 100⟩]])] }).wf = false ∧
    (Instr.laneUpdate 0 { figures false with bins := [(0, [[⟨1, 0⟩, ⟨3 / 5, -4 / 5⟩]])] }).wf = true := by decide +kernel
theorem test_wf_frame : (Instr.dabFrame 0 goodFrame).wf = true := by decide +kernel
theorem test_wf_frame_of_eleven_fibs_refused : (Instr.dabFrame 0 { goodFrame with fibs := goodFrame.fibs.drop 1 }).wf = false := by decide +kernel
theorem test_wf_fib_of_29_bytes_refused :
    (Instr.dabFrame 0 { goodFrame with fibs := List.replicate 12 { ok := false, raw := List.replicate 29 0, figs := [] } }).wf = false := by decide +kernel
theorem test_wf_frame_of_four_fic_symbols_refused : (Instr.dabFrame 0 { goodFrame with fic := [[], [], [], []] }).wf = false := by decide +kernel

def cif (symbols sub : Nat) (sample : Int) : CifObs :=
  { symbols := List.replicate symbols { bins := [], lost := true, bad := false }, parityErrors := []
    counts := [{ subch := sub, rsCorr := 0, rsFail := 0, frameFail := 0, audio := 0, units := [{ result := .good, mode := .stereo, rate := 48, samples := [(sample, 0)] }] }] }

theorem test_wf_cif_of_nineteen_symbols_refused : (Instr.cifBoundary 0 (cif 19 0 0)).wf = false := by decide +kernel
theorem test_wf_cif : (Instr.cifBoundary 0 (cif 18 63 8388607)).wf = true := by decide +kernel
theorem test_wf_subchannel_64_refused : (Instr.cifBoundary 0 (cif 18 64 0)).wf = false := by decide +kernel
theorem test_wf_sample_of_25_bits_refused : (Instr.cifBoundary 0 (cif 18 0 8388608)).wf = false ∧ (Instr.cifBoundary 0 (cif 18 0 (-8388609))).wf = false := by decide +kernel
theorem test_wf_third_port_refused : (Instr.tdmFrame 2 (0, 1) true).wf = false := by decide
theorem test_wf_seven_sensors_refused : (Instr.sensorRead (List.replicate 7 0) 0).wf = false := by decide
theorem test_wf_sensor_of_17_bits_refused : (Instr.sensorRead (List.replicate 8 32768) 0).wf = false ∧ (Instr.sensorRead (List.replicate 8 0) (-32769)).wf = false := by decide
theorem test_wf_long_packet_refused : (Instr.packetArrival 0x15 0x1507 0 ⟨false, false⟩ (List.replicate 8193 0)).wf = false := by decide +kernel
theorem test_wf_clips_above_samples_refused : (Instr.gainWindow64us 0 5 4).wf = false := by decide

/-! ### One step each; the expected values are worked examples and tables of the manual -/

/-- The state after one step that runs `i`; the state itself where the step answers no next state. -/
def after (i : Instr) (s : State) : State := match step { s with pending := [i] } with | .next t => t | _ => s

def replies (i : Instr) (s : State) : List Reply := (after i s).link.fifo

/-- The example of chapter 13: NOP with TAG 1 is 00 01 00 80, and a read of an empty FIFO is FE 00 00 0E. -/
theorem test_crc8_of_the_example : crc8 [0x00, 0x01, 0x00] = 0x80 ∧ crc8 [0xFE, 0x00, 0x00] = 0x0E := by decide +kernel
theorem test_receipt_of_the_example_packet : (after (.commandReceipt [0x00, 0x01, 0x00, 0x80]) rdy).link.queue = [⟨0x00, 0x01, []⟩] := by decide +kernel
theorem test_receipt_of_a_damaged_packet : replies (.commandReceipt [0x00, 0x01, 0x00, 0x81]) rdy = [⟨0x12, 0x01, []⟩] := by decide +kernel
theorem test_nop_answers_ok : replies (.nop 0x01 []) rdy = [⟨0x00, 0x01, []⟩] := by decide +kernel
theorem test_nop_of_one_byte_is_a_bad_length : replies (.nop 0x01 [0]) rdy = [⟨0x11, 0x01, []⟩] := by decide +kernel
/-- Table 17-6: RX_START is none of the commands of a gated main domain; NOP is. -/
theorem test_gated_domain_refuses : replies (.rxStart 9 []) gone = [⟨0x22, 9, []⟩] ∧ replies (.nop 9 []) gone = [⟨0x00, 9, []⟩] := by decide +kernel

/-- The example of chapter 14: CUE_SET of LANE_ASSIGN for lane 0x12 with cues 0 to 2 pending. -/
def cueExample : State :=
  { rdy with time := { rdy.time with dfc := 1100050 }, cues := [{ cue2 with id := 0, target := 2000000 }, { cue2 with id := 1, target := 2000000 }, { cue2 with id := 2, target := 2000000 }] }
def cueParam : List Byte :=
  [0xFF, 0x80, 0x4F, 0x12, 0x00] ++ [0x19, 0x2C, 0x08, 0x12, 0xB0, 0x1D, 0xF5, 0x05, 0x05, 0x00, 0x00] ++ [crc8 [0x19, 0x2C, 0x08, 0x12, 0xB0, 0x1D, 0xF5, 0x05, 0x05, 0x00, 0x00]]
theorem test_cue_set_of_the_example :
    replies (.cueSet 5 cueParam) cueExample = [⟨0x00, 5, [3, 0x80, 0x4F, 0x12, 0x00, 0x12, 0xC9, 0x10, 0x00, 0]⟩] := by decide +kernel
/-- The example of chapter 0: DFC 0x10 lies 272 ticks after 0xFFFFFF00; and the counter wraps to 0 (R15). -/
theorem test_target_beyond_the_wrap_is_future : inFuture { rdy with time := { rdy.time with dfc := 0xFFFFFF00 } } 0x10 = true := by decide +kernel
theorem test_dfc_wraps : (after .dfcTick { rdy with time := { rdy.time with dfc := 0xFFFFFFFF } }).time.dfc = 0 := by decide +kernel
/-- The example of chapter 17: 1.498 s after the halt the records carry 71 904. -/
theorem test_off_ticks_count : (after .dfcTick { gone with reset_ := { gone.reset_ with offTicks := 71903 } }).reset_.offTicks = 71904 := by decide +kernel

/-- The examples of chapter 4: computed bins of HB0, and the centre bins of 99.950 MHz under P0 and P2. -/
theorem test_computed_bins_of_the_example :
    computedBins 0 { enable := true, fmRanges := 4, dab := true, fmRaster := 100, amRanges := 0, amRaster := 9 } 0 = 603 := by decide +kernel
theorem test_centre_bins_of_the_example : centreBin false 0 0 99950000 = 666 ∧ centreBin false 2 0 99950000 = 656 ∧ centreBin false 1 0 174928000 = 1185 := by decide +kernel
/-- The example of chapter 5. -/
theorem test_quality_of_the_example : cnrByte 1720 = 109 ∧ lqByte 109 20 12 = 52 ∧ cnrByte 400 = 56 ∧ lqByte 56 20 12 = 0 := by decide +kernel

/-- The example of chapter 7: engines 0 to 13 hold a share each, engine 2 one more, engine 14 another; engine 5 gets no second. -/
def shares : State :=
  { rx with dab := { rx.dab with engines := (List.range 16).map fun n =>
      if n < 15 then { engine1 with shares := if n = 2 then 2 else 1, exact := n == 2, freq := 174928000 + 1712000 * n } else Engine.free } }
theorem test_sixteen_shares_are_held : replies (.softbitMode 6 [5, 1]) shares = [⟨0x21, 6, []⟩] := by decide +kernel

/-- The example of chapter 15: FLOW_OPEN of flow 17 on the data groups of subchannel 7 of engine 5, and what is refused. -/
def flowParam : List Byte := [0x11, 0x00, 0x15, 0x07, 0x15, 0xFF, 0xFF, 0xFF, 0xA0, 0x86, 0x01, 0x00, 0x08, 0x00, 0x20, 0x00]
def fifth (x : Engine) : State := { rx with dab := { rx.dab with engines := rx.dab.engines.set 5 x } }
theorem test_flow_open_of_the_example : replies (.flowOpen 1 flowParam) (fifth engine1) =
    [⟨0x00, 1, [0x11, 0x00, 0x15, 0x07, 0x15, 0xFF, 0xFF, 0x03, 0x80, 0x38, 0x01, 0x00, 0x08, 0x00, 0x20, 0x00]⟩] := by decide +kernel
theorem test_flow_open_refusals : replies (.flowOpen 1 ([0x58, 0x02] ++ flowParam.drop 2)) (fifth { engine1 with st := .draining }) = [⟨0x20, 1, []⟩] ∧
    replies (.flowOpen 1 ([0x12, 0x00] ++ flowParam.drop 2)) (fifth { engine1 with st := .draining }) = [⟨0x22, 1, []⟩] := by decide +kernel
/-- The example of chapter 12: the headers of the alert's two fragments on flow 3. -/
theorem test_fragment_headers_of_the_example : headerWord 0 3 0 24 % 2 ^ 30 = 0x00300018 ∧ headerWord 3 3 1 4 = 0xC0301004 := by decide

/-- Table 17-2: SAG_WARNING below 2.92 V; the record carries reason 0 and the voltages. -/
theorem test_sag_record : ((after (.sagWarning 2919) rdy).events.queue.map fun e => (e.bit, e.body)) = [(10, [0, 0, 0x67, 0x0B, 0xB8, 0x0B])] := by decide +kernel
theorem test_no_sag_at_2920 : exec (.sagWarning 2920) rdy = .next rdy := rfl
/-- R350: ADDR0 high and ADDR1 low are sampled as the stage reset is released. -/
theorem test_release_samples_the_address : (after (.resetnRelease false true) (heldDown 2700)).link.address = 0x31 := by decide +kernel
/-- The example of chapter 18: PLL-A loses lock, fault 0x50 is logged with phase 0 and then phase 1. -/
theorem test_fault_log_of_the_example :
    ((after (.pllLossOfLock .a) rdy).integ.staging.map fun r => (r.code, r.phase)) = [(0x50, 0), (0x50, 1)] := by decide +kernel
/-- R427, R458: a trim target 1000 units away is reached in steps of 200. -/
theorem test_trim_step : (after .trimStep (trimmed 1000 none)).clocks.trim = 200 ∧ (after .trimStep (trimmed (-150) none)).clocks.trim = -150 := by decide +kernel
/-- R292. -/
theorem test_fifo_drop_derates : (after (.inputFifoDrop 5) rx).cap.derate = 2 ∧ (after (.inputFifoDrop 5) { rx with cap := { rx.cap with derate := 19 } }).cap.derate = 20 := by decide +kernel
/-- R44: four clipped samples take 3 dB off, three do not. -/
theorem test_clipping_lowers_the_gain :
    (inputAt (after (.gainWindow64us 0 4 9677) rx) 0).gain + 3 = (inputAt rx 0).gain ∧ (inputAt (after (.gainWindow64us 0 3 9677) rx) 0).gain = (inputAt rx 0).gain := by decide +kernel
/-- R153: block A then block B without an error gives synchronisation at block 3. -/
theorem test_two_blocks_synchronise :
    ((after (.rdsBlock 0 0 .b .clean false) (fmLane { lane1 with rds := { RdsDecoder.none with prev := some .a } } rx)).lanes.fm.head?.map fun l => (l.rds.synced, l.rds.pos)) = some (true, 2) := by decide +kernel
/-- R191: the end of a conversion gives the second share back. -/
theorem test_conversion_end_gives_a_share_back :
    ((after (.softbitConversionEnd 0) (engine { engine1 with converting := true, shares := 2 } rx)).dab.engines.head?.map (·.shares)) = some 1 := by decide +kernel
/-- R497, Table 17-10: the confirmation word is needed to advance the life cycle. -/
theorem test_advance_needs_the_word : (after (.lifecycleAdvance 1 [2, 0x3C, 0x5A]) rdy).chip.life = .field ∧ (after (.lifecycleAdvance 1 [2, 0x3D, 0x5A]) rdy).chip.life = .oem := by decide +kernel
/-- From reset (log entry 6): the first lock of PLL-A after a cold reset keeps the epoch, and DEVICE_READY makes the domain ready. -/
theorem test_first_lock_after_a_cold_reset : (after (.pllLock .a) { State.reset with clocks := { State.reset.clocks with ref := .present } }).time.started = true ∧
    (after (.pllLock .a) { State.reset with clocks := { State.reset.clocks with ref := .present } }).time.epoch = State.reset.time.epoch := by decide +kernel
theorem test_device_ready_from_reset : (after (.deviceReady (booted none true)) State.reset).reset_.domain = .ready := by decide +kernel
/-- EN 300 401, energy dispersal: the sequence begins 0000 0111 1011 1110 (log entry 142). -/
theorem test_dispersal_sequence : (prbsByte 511).1 = 0x07 ∧ (prbsByte (prbsByte 511).2).1 = 0xBE := by decide +kernel
theorem test_empty_queue_idles : step rdy = .next rdy := rfl
theorem test_no_row_has_bits : decodeTableWord 8 0 = none := rfl

end

end Sys2Proof.Tests
end

/-! What every step keeps: the part, the life cycle and the bounds and unit counts. -/

namespace Sys2Proof.Machine

/-- A row that at most marks the provisioning area unwritten (log entry 26) leaves variant and life cycle as they are. -/
theorem runs_of_oemUnwritten {s t : State}
    (h : t.pending = s.pending ∧ (t.chip = s.chip ∨ t.chip = { s.chip with oemWritten := false })) : Runs s t := by
  obtain ⟨pending, chip | chip⟩ := h
  · exact runs_of_keeps ⟨pending, chip⟩
  · simp [Runs, pending, chip]

/-- One case for each row of the table: its own laws say that it keeps the waiting commands and the part, and `Fits`. -/
theorem exec_runs_and_fits : ∀ (i : Instr) (s t : State), exec i s = .next t → Runs s t ∧ (Fits s → Fits t)
  | .nop .., _, _, e => ⟨runs_of_keeps (execNop_keeps _ _ _ e), execNop_fits _ _ _ e⟩
  | .identify .., _, _, e => ⟨runs_of_keeps (execIdentify_keeps _ _ _ e), execIdentify_fits _ _ _ e⟩
  | .eventRead .., _, _, e => ⟨runs_of_keeps (execEventRead_keeps _ _ _ e), execEventRead_fits _ _ _ e⟩
  | .eventMask .., _, _, e => ⟨runs_of_keeps (execEventMask_keeps _ _ _ e), execEventMask_fits _ _ _ e⟩
  | .stageReset .., _, _, e => ⟨runs_of_keeps (execStageReset_keeps _ _ _ e), execStageReset_fits _ _ _ e⟩
  | .patchLoad .., _, _, e => ⟨runs_of_keeps (execPatchLoad_keeps _ _ _ e), execPatchLoad_fits _ _ _ e⟩
  | .patchCommit .., _, _, e => ⟨runs_of_keeps (execPatchCommit_keeps _ _ _ e), execPatchCommit_fits _ _ _ e⟩
  | .timeRead .., _, _, e => ⟨runs_of_keeps (execTimeRead_keeps _ _ _ e), execTimeRead_fits _ _ _ e⟩
  | .cueSet .., _, _, e => ⟨runs_of_keeps (execCueSet_keeps _ _ _ e), execCueSet_fits _ _ _ e⟩
  | .cueCancel .., _, _, e => ⟨runs_of_keeps (execCueCancel_keeps _ _ _ e), execCueCancel_fits _ _ _ e⟩
  | .cueList .., _, _, e => ⟨runs_of_keeps (execCueList_keeps _ _ _ e), execCueList_fits _ _ _ e⟩
  | .undefinedOpcode .., _, _, e => ⟨execUndefinedOpcode_runs _ _ _ _ e, execUndefinedOpcode_fits _ _ _ _ e⟩
  | .bandPlan .., _, _, e => ⟨runs_of_keeps (execBandPlan_keeps _ _ _ e), execBandPlan_fits _ _ _ e⟩
  | .rxStart .., _, _, e => ⟨runs_of_keeps (execRxStart_keeps _ _ _ e), execRxStart_fits _ _ _ e⟩
  | .rxStop .., _, _, e => ⟨runs_of_keeps (execRxStop_keeps _ _ _ e), execRxStop_fits _ _ _ e⟩
  | .frontendGain .., _, _, e => ⟨runs_of_keeps (execFrontendGain_keeps _ _ _ e), execFrontendGain_fits _ _ _ e⟩
  | .antennaFeed .., _, _, e => ⟨runs_of_keeps (execAntennaFeed_keeps _ _ _ e), execAntennaFeed_fits _ _ _ e⟩
  | .diversitySet .., _, _, e => ⟨runs_of_keeps (execDiversitySet_keeps _ _ _ e), execDiversitySet_fits _ _ _ e⟩
  | .scanPolicy .., _, _, e => ⟨runs_of_keeps (execScanPolicy_keeps _ _ _ e), execScanPolicy_fits _ _ _ e⟩
  | .laneAssign .., _, _, e => ⟨runs_of_keeps (execLaneAssign_keeps _ _ _ e), execLaneAssign_fits _ _ _ e⟩
  | .laneRelease .., _, _, e => ⟨runs_of_keeps (execLaneRelease_keeps _ _ _ e), execLaneRelease_fits _ _ _ e⟩
  | .laneList .., _, _, e => ⟨runs_of_keeps (execLaneList_keeps _ _ _ e), execLaneList_fits _ _ _ e⟩
  | .laneStatus .., _, _, e => ⟨runs_of_keeps (execLaneStatus_keeps _ _ _ e), execLaneStatus_fits _ _ _ e⟩
  | .fmParams .., _, _, e => ⟨runs_of_keeps (execFmParams_keeps _ _ _ e), execFmParams_fits _ _ _ e⟩
  | .amParams .., _, _, e => ⟨runs_of_keeps (execAmParams_keeps _ _ _ e), execAmParams_fits _ _ _ e⟩
  | .rdsConfig .., _, _, e => ⟨runs_of_keeps (execRdsConfig_keeps _ _ _ e), execRdsConfig_fits _ _ _ e⟩
  | .dabEngineAssign .., _, _, e => ⟨runs_of_keeps (execDabEngineAssign_keeps _ _ _ e), execDabEngineAssign_fits _ _ _ e⟩
  | .dabEngineRelease .., _, _, e => ⟨runs_of_keeps (execDabEngineRelease_keeps _ _ _ e), execDabEngineRelease_fits _ _ _ e⟩
  | .dabEngineStatus .., _, _, e => ⟨runs_of_keeps (execDabEngineStatus_keeps _ _ _ e), execDabEngineStatus_fits _ _ _ e⟩
  | .softbitMode .., _, _, e => ⟨runs_of_keeps (execSoftbitMode_keeps _ _ _ e), execSoftbitMode_fits _ _ _ e⟩
  | .serviceList .., _, _, e => ⟨runs_of_keeps (execServiceList_keeps _ _ _ e), execServiceList_fits _ _ _ e⟩
  | .serviceInfo .., _, _, e => ⟨runs_of_keeps (execServiceInfo_keeps _ _ _ e), execServiceInfo_fits _ _ _ e⟩
  | .announcementPolicy .., _, _, e => ⟨runs_of_keeps (execAnnouncementPolicy_keeps _ _ _ e), execAnnouncementPolicy_fits _ _ _ e⟩
  | .alertPolicy .., _, _, e => ⟨runs_of_keeps (execAlertPolicy_keeps _ _ _ e), execAlertPolicy_fits _ _ _ e⟩
  | .programStop .., _, _, e => ⟨runs_of_keeps (execProgramStop_keeps _ _ _ e), execProgramStop_fits _ _ _ e⟩
  | .programStart .., _, _, e => ⟨runs_of_keeps (execProgramStart_keeps _ _ _ e), execProgramStart_fits _ _ _ e⟩
  | .programAddMember .., _, _, e => ⟨runs_of_keeps (execProgramAddMember_keeps _ _ _ e), execProgramAddMember_fits _ _ _ e⟩
  | .programRemoveMember .., _, _, e => ⟨runs_of_keeps (execProgramRemoveMember_keeps _ _ _ e), execProgramRemoveMember_fits _ _ _ e⟩
  | .programStatus .., _, _, e => ⟨runs_of_keeps (execProgramStatus_keeps _ _ _ e), execProgramStatus_fits _ _ _ e⟩
  | .linkPolicy .., _, _, e => ⟨runs_of_keeps (execLinkPolicy_keeps _ _ _ e), execLinkPolicy_fits _ _ _ e⟩
  | .delayStoreConfig .., _, _, e => ⟨runs_of_keeps (execDelayStoreConfig_keeps _ _ _ e), execDelayStoreConfig_fits _ _ _ e⟩
  | .curtainCloseAndHold .., _, _, e => ⟨runs_of_keeps (execCurtainCloseAndHold_keeps _ _ _ e), execCurtainCloseAndHold_fits _ _ _ e⟩
  | .curtainReleaseAndOpen .., _, _, e => ⟨runs_of_keeps (execCurtainReleaseAndOpen_keeps _ _ _ e), execCurtainReleaseAndOpen_fits _ _ _ e⟩
  | .curtainSetTimes .., _, _, e => ⟨runs_of_keeps (execCurtainSetTimes_keeps _ _ _ e), execCurtainSetTimes_fits _ _ _ e⟩
  | .portConfig .., _, _, e => ⟨runs_of_keeps (execPortConfig_keeps _ _ _ e), execPortConfig_fits _ _ _ e⟩
  | .slotMap .., _, _, e => ⟨runs_of_keeps (execSlotMap_keeps _ _ _ e), execSlotMap_fits _ _ _ e⟩
  | .statusSlotConfig .., _, _, e => ⟨runs_of_keeps (execStatusSlotConfig_keeps _ _ _ e), execStatusSlotConfig_fits _ _ _ e⟩
  | .spdifConfig .., _, _, e => ⟨runs_of_keeps (execSpdifConfig_keeps _ _ _ e), execSpdifConfig_fits _ _ _ e⟩
  | .portStatus .., _, _, e => ⟨runs_of_keeps (execPortStatus_keeps _ _ _ e), execPortStatus_fits _ _ _ e⟩
  | .flowOpen .., _, _, e => ⟨runs_of_keeps (execFlowOpen_keeps _ _ _ e), execFlowOpen_fits _ _ _ e⟩
  | .flowClose .., _, _, e => ⟨runs_of_keeps (execFlowClose_keeps _ _ _ e), execFlowClose_fits _ _ _ e⟩
  | .flowShape .., _, _, e => ⟨runs_of_keeps (execFlowShape_keeps _ _ _ e), execFlowShape_fits _ _ _ e⟩
  | .classShape .., _, _, e => ⟨runs_of_keeps (execClassShape_keeps _ _ _ e), execClassShape_fits _ _ _ e⟩
  | .egressConfig .., _, _, e => ⟨runs_of_keeps (execEgressConfig_keeps _ _ _ e), execEgressConfig_fits _ _ _ e⟩
  | .flowStats .., _, _, e => ⟨runs_of_keeps (execFlowStats_keeps _ _ _ e), execFlowStats_fits _ _ _ e⟩
  | .mailboxRead .., _, _, e => ⟨runs_of_keeps (execMailboxRead_keeps _ _ _ e), execMailboxRead_fits _ _ _ e⟩
  | .calPolicy .., _, _, e => ⟨runs_of_keeps (execCalPolicy_keeps _ _ _ e), execCalPolicy_fits _ _ _ e⟩
  | .calRun .., _, _, e => ⟨runs_of_keeps (execCalRun_keeps _ _ _ e), execCalRun_fits _ _ _ e⟩
  | .calStatus .., _, _, e => ⟨runs_of_keeps (execCalStatus_keeps _ _ _ e), execCalStatus_fits _ _ _ e⟩
  | .calTableRead .., _, _, e => ⟨runs_of_keeps (execCalTableRead_keeps _ _ _ e), execCalTableRead_fits _ _ _ e⟩
  | .refConfig .., _, _, e => ⟨runs_of_keeps (execRefConfig_keeps _ _ _ e), execRefConfig_fits _ _ _ e⟩
  | .samplePlan .., _, _, e => ⟨runs_of_keeps (execSamplePlan_keeps _ _ _ e), execSamplePlan_fits _ _ _ e⟩
  | .clockOut .., _, _, e => ⟨runs_of_keeps (execClockOut_keeps _ _ _ e), execClockOut_fits _ _ _ e⟩
  | .syncArm .., _, _, e => ⟨runs_of_keeps (execSyncArm_keeps _ _ _ e), execSyncArm_fits _ _ _ e⟩
  | .freqTrim .., _, _, e => ⟨runs_of_keeps (execFreqTrim_keeps _ _ _ e), execFreqTrim_fits _ _ _ e⟩
  | .clockStatus .., _, _, e => ⟨runs_of_keeps (execClockStatus_keeps _ _ _ e), execClockStatus_fits _ _ _ e⟩
  | .powerPolicy .., _, _, e => ⟨runs_of_keeps (execPowerPolicy_keeps _ _ _ e), execPowerPolicy_fits _ _ _ e⟩
  | .capacityStatus .., _, _, e => ⟨runs_of_keeps (execCapacityStatus_keeps _ _ _ e), execCapacityStatus_fits _ _ _ e⟩
  | .ghostLightConfig .., _, _, e => ⟨runs_of_keeps (execGhostLightConfig_keeps _ _ _ e), execGhostLightConfig_fits _ _ _ e⟩
  | .ghostLightEnter .., _, _, e => ⟨runs_of_keeps (execGhostLightEnter_keeps _ _ _ e), execGhostLightEnter_fits _ _ _ e⟩
  | .ghostLightLeave .., _, _, e => ⟨runs_of_keeps (execGhostLightLeave_keeps _ _ _ e), execGhostLightLeave_fits _ _ _ e⟩
  | .supplyStatus .., _, _, e => ⟨runs_of_keeps (execSupplyStatus_keeps _ _ _ e), execSupplyStatus_fits _ _ _ e⟩
  | .lifecycleRead .., _, _, e => ⟨runs_of_keeps (execLifecycleRead_keeps _ _ _ e), execLifecycleRead_fits _ _ _ e⟩
  | .lifecycleAdvance .., _, _, e => ⟨execLifecycleAdvance_runs _ _ _ e, execLifecycleAdvance_fits _ _ _ e⟩
  | .retainedWipe .., _, _, e => ⟨runs_of_keeps (execRetainedWipe_keeps _ _ _ e), execRetainedWipe_fits _ _ _ e⟩
  | .faultLogRead .., _, _, e => ⟨runs_of_keeps (execFaultLogRead_keeps _ _ _ e), execFaultLogRead_fits _ _ _ e⟩
  | .integrityCounters .., _, _, e => ⟨runs_of_keeps (execIntegrityCounters_keeps _ _ _ e), execIntegrityCounters_fits _ _ _ e⟩
  | .temperatureRead .., _, _, e => ⟨runs_of_keeps (execTemperatureRead_keeps _ _ _ e), execTemperatureRead_fits _ _ _ e⟩
  | .spectrumSnapshot .., _, _, e => ⟨runs_of_keeps (execSpectrumSnapshot_keeps _ _ _ e), execSpectrumSnapshot_fits _ _ _ e⟩
  | .selftest .., _, _, e => ⟨runs_of_keeps (execSelftest_keeps _ _ _ e), execSelftest_fits _ _ _ e⟩
  | .commandReceipt .., _, _, e => ⟨runs_of_keeps (execCommandReceipt_keeps _ _ e), execCommandReceipt_fits _ _ e⟩
  | .replyRead .., _, _, e => ⟨runs_of_keeps (execReplyRead_keeps _ _ e), execReplyRead_fits _ _ e⟩
  | .brokenTransfer .., _, _, e => ⟨runs_of_keeps (execBrokenTransfer_keeps _ _ e), execBrokenTransfer_fits _ _ e⟩
  | .tSlimExpiry .., _, _, e => ⟨runs_of_keeps (execTSlimExpiry_keeps _ _ e), execTSlimExpiry_fits _ _ e⟩
  | .sdaHoldExpiry .., _, _, e => ⟨runs_of_keeps (execSdaHoldExpiry_keeps _ _ e), execSdaHoldExpiry_fits _ _ e⟩
  | .replyFifoEntry, _, _, e => ⟨runs_of_keeps (execReplyFifoEntry_keeps _ e), execReplyFifoEntry_fits _ e⟩
  | .promptDueTimer, _, _, e => ⟨runs_of_keeps (execPromptDueTimer_keeps _ e), execPromptDueTimer_fits _ e⟩
  | .prompt .., _, _, e => ⟨runs_of_keeps (execPrompt_keeps _ _ e), execPrompt_fits _ _ e⟩
  | .dfcTick, _, _, e => ⟨runs_of_keeps (execDfcTick_keeps _ e), execDfcTick_fits _ e⟩
  | .cueFire, _, _, e => ⟨execCueFire_runs _ e, execCueFire_fits _ e⟩
  | .audioCueEffect, _, _, e => ⟨runs_of_keeps (execAudioCueEffect_keeps _ e), execAudioCueEffect_fits _ e⟩
  | .decisionPoint .., _, _, e => ⟨runs_of_keeps (execDecisionPoint_keeps _ _ e), execDecisionPoint_fits _ _ e⟩
  | .fineMapUpdate .., _, _, e => ⟨runs_of_keeps (execFineMapUpdate_keeps _ _ _ e), execFineMapUpdate_fits _ _ _ e⟩
  | .binMapUpdate .., _, _, e => ⟨runs_of_keeps (execBinMapUpdate_keeps _ _ _ e), execBinMapUpdate_fits _ _ _ e⟩
  | .capacityMeasurement .., _, _, e => ⟨runs_of_keeps (execCapacityMeasurement_keeps _ _ e), execCapacityMeasurement_fits _ _ e⟩
  | .powerWindow .., _, _, e => ⟨runs_of_keeps (execPowerWindow_keeps _ _ e), execPowerWindow_fits _ _ e⟩
  | .sheddingPass, _, _, e => ⟨runs_of_keeps (execSheddingPass_keeps _ e), execSheddingPass_fits _ e⟩
  | .restore, _, _, e => ⟨runs_of_keeps (execRestore_keeps _ e), execRestore_fits _ e⟩
  | .derateDecay, _, _, e => ⟨runs_of_keeps (execDerateDecay_keeps _ e), execDerateDecay_fits _ e⟩
  | .inputFifoDrop .., _, _, e => ⟨runs_of_keeps (execInputFifoDrop_keeps _ _ e), execInputFifoDrop_fits _ _ e⟩
  | .underrun .., _, _, e => ⟨runs_of_keeps (execUnderrun_keeps _ _ _ e), execUnderrun_fits _ _ _ e⟩
  | .memberReturn .., _, _, e => ⟨runs_of_keeps (execMemberReturn_keeps _ _ _ e), execMemberReturn_fits _ _ _ e⟩
  | .sensorRead .., _, _, e => ⟨runs_of_keeps (execSensorRead_keeps _ _ _ e), execSensorRead_fits _ _ _ e⟩
  | .thermalRestart, _, _, e => ⟨runs_of_keeps (execThermalRestart_keeps _ e), execThermalRestart_fits _ e⟩
  | .gainWindow64us .., _, _, e => ⟨runs_of_keeps (execGainWindow64us_keeps _ _ _ _ e), execGainWindow64us_fits _ _ _ _ e⟩
  | .gainWindow1ms .., _, _, e => ⟨runs_of_keeps (execGainWindow1ms_keeps _ _ _ e), execGainWindow1ms_fits _ _ _ e⟩
  | .feedFault .., _, _, e => ⟨runs_of_keeps (execFeedFault_keeps _ _ e), execFeedFault_fits _ _ e⟩
  | .feedRetry .., _, _, e => ⟨runs_of_keeps (execFeedRetry_keeps _ _ e), execFeedRetry_fits _ _ e⟩
  | .rotationIntervalEnd .., _, _, e => ⟨runs_of_keeps (execRotationIntervalEnd_keeps _ _ _ e), execRotationIntervalEnd_fits _ _ _ e⟩
  | .overlapEnd .., _, _, e => ⟨runs_of_keeps (execOverlapEnd_keeps _ _ _ _ e), execOverlapEnd_fits _ _ _ _ e⟩
  | .subWindowEnd .., _, _, e => ⟨runs_of_keeps (execSubWindowEnd_keeps _ _ _ e), execSubWindowEnd_fits _ _ _ e⟩
  | .evaluationWindowEnd .., _, _, e => ⟨runs_of_keeps (execEvaluationWindowEnd_keeps _ _ _ e), execEvaluationWindowEnd_fits _ _ _ e⟩
  | .selectionChange .., _, _, e => ⟨runs_of_keeps (execSelectionChange_keeps _ _ e), execSelectionChange_fits _ _ e⟩
  | .calRetry .., _, _, e => ⟨runs_of_keeps (execCalRetry_keeps _ _ _ e), execCalRetry_fits _ _ _ e⟩
  | .calIntervalTrigger .., _, _, e => ⟨runs_of_keeps (execCalIntervalTrigger_keeps _ _ e), execCalIntervalTrigger_fits _ _ e⟩
  | .laneUpdate .., _, _, e => ⟨runs_of_keeps (execLaneUpdate_keeps _ _ _ e), execLaneUpdate_fits _ _ _ e⟩
  | .pilotStateChange .., _, _, e => ⟨runs_of_keeps (execPilotStateChange_keeps _ _ _ e), execPilotStateChange_fits _ _ _ e⟩
  | .syncLoopLockChange .., _, _, e => ⟨runs_of_keeps (execSyncLoopLockChange_keeps _ _ _ e), execSyncLoopLockChange_fits _ _ _ e⟩
  | .processingStart, _, _, e => ⟨runs_of_keeps (execProcessingStart_keeps _ e), execProcessingStart_fits _ e⟩
  | .drainingEnd .., _, _, e => ⟨runs_of_keeps (execDrainingEnd_keeps _ _ _ e), execDrainingEnd_fits _ _ _ e⟩
  | .rdsBlock .., _, _, e => ⟨runs_of_keeps (execRdsBlock_keeps _ _ _ _ _ _ e), execRdsBlock_fits _ _ _ _ _ _ e⟩
  | .rdsGroup .., _, _, e => ⟨runs_of_keeps (execRdsGroup_keeps _ _ e), execRdsGroup_fits _ _ e⟩
  | .identityLost .., _, _, e => ⟨runs_of_keeps (execIdentityLost_keeps _ _ e), execIdentityLost_fits _ _ e⟩
  | .identityRecord .., _, _, e => ⟨runs_of_keeps (execIdentityRecord_keeps _ _ e), execIdentityRecord_fits _ _ e⟩
  | .eonTaTimeout .., _, _, e => ⟨runs_of_keeps (execEonTaTimeout_keeps _ _ e), execEonTaTimeout_fits _ _ e⟩
  | .alertEndTimer .., _, _, e => ⟨runs_of_keeps (execAlertEndTimer_keeps _ _ e), execAlertEndTimer_fits _ _ e⟩
  | .stationRecordWrite .., _, _, e => ⟨runs_of_keeps (execStationRecordWrite_keeps _ _ e), execStationRecordWrite_fits _ _ e⟩
  | .dabFrame .., _, _, e => ⟨runs_of_keeps (execDabFrame_keeps _ _ _ e), execDabFrame_fits _ _ _ e⟩
  | .cifBoundary .., _, _, e => ⟨runs_of_keeps (execCifBoundary_keeps _ _ _ e), execCifBoundary_fits _ _ _ e⟩
  | .softbitConversionEnd .., _, _, e => ⟨runs_of_keeps (execSoftbitConversionEnd_keeps _ _ e), execSoftbitConversionEnd_fits _ _ e⟩
  | .modelObjectTimeout .., _, _, e => ⟨runs_of_keeps (execModelObjectTimeout_keeps _ _ e), execModelObjectTimeout_fits _ _ e⟩
  | .engineAbandon .., _, _, e => ⟨runs_of_keeps (execEngineAbandon_keeps _ _ e), execEngineAbandon_fits _ _ e⟩
  | .announcementTimeout .., _, _, e => ⟨runs_of_keeps (execAnnouncementTimeout_keeps _ _ _ e), execAnnouncementTimeout_fits _ _ _ e⟩
  | .decoderFirstValidSample .., _, _, e => ⟨runs_of_keeps (execDecoderFirstValidSample_keeps _ _ e), execDecoderFirstValidSample_fits _ _ e⟩
  | .announcementSourceReady .., _, _, e => ⟨runs_of_keeps (execAnnouncementSourceReady_keeps _ _ e), execAnnouncementSourceReady_fits _ _ e⟩
  | .curtainClosed .., _, _, e => ⟨runs_of_keeps (execCurtainClosed_keeps _ _ e), execCurtainClosed_fits _ _ e⟩
  | .curtainOpened .., _, _, e => ⟨runs_of_keeps (execCurtainOpened_keeps _ _ e), execCurtainOpened_fits _ _ e⟩
  | .endDelayExpiry .., _, _, e => ⟨runs_of_keeps (execEndDelayExpiry_keeps _ _ e), execEndDelayExpiry_fits _ _ e⟩
  | .refinement .., _, _, e => ⟨runs_of_keeps (execRefinement_keeps _ _ _ e), execRefinement_fits _ _ _ e⟩
  | .alignmentFailed .., _, _, e => ⟨runs_of_keeps (execAlignmentFailed_keeps _ _ e), execAlignmentFailed_fits _ _ e⟩
  | .searchRestart .., _, _, e => ⟨runs_of_keeps (execSearchRestart_keeps _ _ e), execSearchRestart_fits _ _ e⟩
  | .tracking .., _, _, e => ⟨runs_of_keeps (execTracking_keeps _ _ _ e), execTracking_fits _ _ _ e⟩
  | .memberDelayMeasure .., _, _, e => ⟨runs_of_keeps (execMemberDelayMeasure_keeps _ _ _ _ e), execMemberDelayMeasure_fits _ _ _ _ e⟩
  | .pageRequestGrant, _, _, e => ⟨runs_of_keeps (execPageRequestGrant_keeps _ e), execPageRequestGrant_fits _ e⟩
  | .noDabMemberTimeout .., _, _, e => ⟨runs_of_keeps (execNoDabMemberTimeout_keeps _ _ e), execNoDabMemberTimeout_fits _ _ e⟩
  | .crossfadeEnd .., _, _, e => ⟨runs_of_keeps (execCrossfadeEnd_keeps _ _ e), execCrossfadeEnd_fits _ _ e⟩
  | .portLock .., _, _, e => ⟨runs_of_keeps (execPortLock_keeps _ _ _ e), execPortLock_fits _ _ _ e⟩
  | .portStop .., _, _, e => ⟨runs_of_keeps (execPortStop_keeps _ _ e), execPortStop_fits _ _ e⟩
  | .tdmFrame .., _, _, e => ⟨runs_of_keeps (execTdmFrame_keeps _ _ _ _ e), execTdmFrame_fits _ _ _ _ e⟩
  | .spdifFrame .., _, _, e => ⟨runs_of_keeps (execSpdifFrame_keeps _ _ _ e), execSpdifFrame_fits _ _ _ e⟩
  | .fsyncGlitch .., _, _, e => ⟨runs_of_keeps (execFsyncGlitch_keeps _ _ e), execFsyncGlitch_fits _ _ e⟩
  | .portClockLoss .., _, _, e => ⟨runs_of_keeps (execPortClockLoss_keeps _ _ e), execPortClockLoss_fits _ _ e⟩
  | .rateStep .., _, _, e => ⟨runs_of_keeps (execRateStep_keeps _ _ _ e), execRateStep_fits _ _ _ e⟩
  | .packetArrival .., _, _, e => ⟨runs_of_keeps (execPacketArrival_keeps _ _ _ _ _ _ e), execPacketArrival_fits _ _ _ _ _ _ e⟩
  | .flowDropRecord .., _, _, e => ⟨runs_of_keeps (execFlowDropRecord_keeps _ _ e), execFlowDropRecord_fits _ _ e⟩
  | .referenceAbsent, _, _, e => ⟨runs_of_keeps (execReferenceAbsent_keeps _ e), execReferenceAbsent_fits _ e⟩
  | .referencePresent, _, _, e => ⟨runs_of_keeps (execReferencePresent_keeps _ e), execReferencePresent_fits _ e⟩
  | .buildOutComplete .., _, _, e => ⟨runs_of_keeps (execBuildOutComplete_keeps _ _ _ _ e), execBuildOutComplete_fits _ _ _ _ e⟩
  | .pllLossOfLock .., _, _, e => ⟨runs_of_keeps (execPllLossOfLock_keeps _ _ e), execPllLossOfLock_fits _ _ e⟩
  | .pllLock .., _, _, e => ⟨runs_of_keeps (execPllLock_keeps _ _ e), execPllLock_fits _ _ e⟩
  | .pllSRelockRetry .., _, _, e => ⟨runs_of_keeps (execPllSRelockRetry_keeps _ _ e), execPllSRelockRetry_fits _ _ e⟩
  | .trimStep, _, _, e => ⟨runs_of_keeps (execTrimStep_keeps _ e), execTrimStep_fits _ e⟩
  | .syncCapture, _, _, e => ⟨runs_of_keeps (execSyncCapture_keeps _ e), execSyncCapture_fits _ e⟩
  | .syncInstant, _, _, e => ⟨runs_of_keeps (execSyncInstant_keeps _ e), execSyncInstant_fits _ e⟩
  | .sagWarning .., _, _, e => ⟨runs_of_keeps (execSagWarning_keeps _ _ e), execSagWarning_fits _ _ e⟩
  | .sagCleared .., _, _, e => ⟨runs_of_keeps (execSagCleared_keeps _ _ e), execSagCleared_fits _ _ e⟩
  | .switchOver .., _, _, e => ⟨runs_of_keeps (execSwitchOver_keeps _ _ _ e), execSwitchOver_fits _ _ _ e⟩
  | .switchBack .., _, _, e => ⟨runs_of_keeps (execSwitchBack_keeps _ _ e), execSwitchBack_fits _ _ e⟩
  | .hardHalt .., _, _, e => ⟨runs_of_keeps (execHardHalt_keeps _ _ _ e), execHardHalt_fits _ _ _ e⟩
  | .mainDomainReturn .., _, _, e => ⟨runs_of_keeps (execMainDomainReturn_keeps _ _ e), execMainDomainReturn_fits _ _ e⟩
  | .backupPowerOn .., _, _, e => ⟨runs_of_oemUnwritten (execBackupPowerOn_keeps _ _ _ _ _ e), execBackupPowerOn_fits _ _ _ _ _ e⟩
  | .backupLoss, _, _, e => ⟨runs_of_oemUnwritten (execBackupLoss_keeps _ e), execBackupLoss_fits _ e⟩
  | .vioLevelChange .., _, _, e => ⟨runs_of_keeps (execVioLevelChange_keeps _ _ e), execVioLevelChange_fits _ _ e⟩
  | .resetnLow .., _, _, e => ⟨runs_of_keeps (execResetnLow_keeps _ _ e), execResetnLow_fits _ _ e⟩
  | .resetnRelease .., _, _, e => ⟨runs_of_keeps (execResetnRelease_keeps _ _ _ e), execResetnRelease_fits _ _ _ e⟩
  | .watchdogExpiry, _, _, e => ⟨runs_of_keeps (execWatchdogExpiry_keeps _ e), execWatchdogExpiry_fits _ e⟩
  | .firmwareRamError .., _, _, e => ⟨runs_of_keeps (execFirmwareRamError_keeps _ _ e), execFirmwareRamError_fits _ _ e⟩
  | .deviceReady .., _, _, e => ⟨runs_of_keeps (execDeviceReady_keeps _ _ e), execDeviceReady_fits _ _ e⟩
  | .sceneReapplication, _, _, e => ⟨execSceneReapplication_runs _ e, execSceneReapplication_fits _ e⟩
  | .sceneCapture, _, _, e => ⟨runs_of_keeps (execSceneCapture_keeps _ e), execSceneCapture_fits _ e⟩
  | .ghostLightEntry, _, _, e => ⟨runs_of_keeps (execGhostLightEntry_keeps _ e), execGhostLightEntry_fits _ e⟩
  | .watchStateChange .., _, _, e => ⟨runs_of_keeps (execWatchStateChange_keeps _ _ e), execWatchStateChange_fits _ _ e⟩
  | .alertLogWrite, _, _, e => ⟨runs_of_keeps (execAlertLogWrite_keeps _ e), execAlertLogWrite_fits _ e⟩
  | .scrub .., _, _, e => ⟨runs_of_keeps (execScrub_keeps _ _ _ _ e), execScrub_fits _ _ _ _ e⟩
  | .integrityRecord .., _, _, e => ⟨runs_of_keeps (execIntegrityRecord_keeps _ _ e), execIntegrityRecord_fits _ _ e⟩
  | .recoveryRunnable .., _, _, e => ⟨runs_of_keeps (execRecoveryRunnable_keeps _ _ _ e), execRecoveryRunnable_fits _ _ _ e⟩
  | .faultLogWrite, _, _, e => ⟨runs_of_keeps (execFaultLogWrite_keeps _ e), execFaultLogWrite_fits _ e⟩
  | .boundaryScan .., _, _, e => ⟨runs_of_keeps (execBoundaryScan_keeps _ _ e), execBoundaryScan_fits _ _ e⟩
  | .vmainRiseAfterBackupOnlyStart .., _, _, e => ⟨runs_of_keeps (execVmainRiseAfterBackupOnlyStart_keeps _ _ e), execVmainRiseAfterBackupOnlyStart_fits _ _ e⟩
  | .generalCall .., _, _, e => ⟨runs_of_keeps (execGeneralCall_keeps _ _ e), execGeneralCall_fits _ _ e⟩

theorem exec_runs {i : Instr} {s t : State} (e : exec i s = .next t) : Runs s t := (exec_runs_and_fits i s t e).1

theorem exec_fits {i : Instr} {s t : State} (e : exec i s = .next t) (h : Fits s) : Fits t := (exec_runs_and_fits i s t e).2 h

/-- A step idles, or runs the front command on the state whose queue is the rest. -/
theorem step_cases {s t : State} (e : step s = .next t) :
    t = s ∨ ∃ c rest, s.pending = c :: rest ∧ exec c { s with pending := rest } = .next t := by
  unfold step at e
  split at e
  · cases e; exact .inl rfl
  · next c rest hp => exact .inr ⟨c, rest, hp, e⟩

/-- Settles O4: every row meets `Runs`, and taking the front command off the queue leaves the part alone. -/
theorem variantStaysAndLifeCycleNeverGoesBack : Obligations.VariantStaysAndLifeCycleNeverGoesBack := by
  intro s t e
  obtain rfl | ⟨c, rest, -, he⟩ := step_cases e
  · exact ⟨rfl, Nat.le_refl _⟩
  · exact (exec_runs he).2

/-- Settles O5: every row keeps `Fits`, which does not read the queue of waiting commands. -/
theorem stepKeepsBoundsAndUnitCounts : Obligations.StepKeepsBoundsAndUnitCounts := by
  intro s t h e
  obtain rfl | ⟨c, rest, -, he⟩ := step_cases e
  · exact h
  · exact exec_fits he h

end Sys2Proof.Machine

/-! What counting, logging and the end of a fault leave: the frames `Reports` and `Handles` of the shared operations. -/

namespace Sys2Proof.Machine

theorem Reports.refl (s : State) : Reports s s := rfl

theorem Reports.ports {s t : State} (h : Reports s t) : t.ports = s.ports := by
  unfold Reports at h
  rw [h]

theorem Reports.trans {s t u : State} (h : Reports s t) (k : Reports t u) : Reports s u := by
  unfold Reports at h k ⊢
  exact k.trans (by rw [h])

theorem Handles.trans {s t u : State} (h : Handles s t) (k : Handles t u) : Handles s u :=
  ⟨k.1.trans (by rw [h.1]), k.2.trans h.2⟩

theorem handles_of_reports {s t : State} (h : Reports s t) : Handles s t := by
  exact ⟨by rw [h.ports]; exact h, by rw [h.ports]⟩

theorem Handles.refl (s : State) : Handles s s := handles_of_reports (Reports.refl s)

theorem setInteg_reports (s : State) (x : Integrity) : Reports s { s with integ := x } := rfl

theorem ite_reports {s a b : State} {c : Prop} [Decidable c] (ha : Reports s a) (hb : Reports s b) :
    Reports s (if c then a else b) := by
  split <;> assumption

theorem setRecs_reports (l : List Recovery) (s : State) : Reports s (setRecs l s) := rfl

theorem updRec_reports (code inst : Nat) (f : Recovery → Recovery) (s : State) : Reports s (updRec code inst f s) := rfl

theorem count_reports (i n inst : Nat) (s : State) : Reports s (count i n inst s) := by
  unfold count; dsimp only
  (repeat' split) <;> rfl

theorem logPhase_reports (rank code phase other a : Nat) (b : Int) (s : State) :
    Reports s (logPhase rank code phase other a b s) := by
  have counted (x : Integrity) : Reports s (count 31 1 0 { s with integ := x }) := (setInteg_reports s x).trans (count_reports _ _ _ _)
  exact ite_reports (counted _) (ite_reports (counted _) (setInteg_reports s _))

theorem logRec_reports (r : Recovery) (phase other : Nat) (s : State) : Reports s (logRec r phase other s) := by
  unfold logRec
  exact ite_reports (Reports.refl s) (logPhase_reports _ _ _ _ _ _ _)

/-- Gating or freeing a port is all that a recovery does to it (R320). -/
theorem updPort_handles (n : Nat) (f : Port → Port) (s : State)
    (h : ∀ p, ((f p).cfg, (f p).next, (f p).slots, (f p).slotsNext, (f p).losses) = (p.cfg, p.next, p.slots, p.slotsNext, p.losses)) :
    Handles s (updPort n f s) := by
  refine ⟨rfl, List.ext_getElem? fun i => ?_⟩
  simp only [updPort_ports, List.getElem?_map, getElem?_upd]
  split
  · simp only [Option.map_map, Function.comp_def, h]
  · rfl

theorem freePort_handles (r : Recovery) (s : State) : Handles s (freePort r s) := by
  unfold freePort
  split
  · exact updPort_handles _ _ _ fun _ => rfl
  · exact Handles.refl s

theorem startRec_handles (r : Recovery) (s : State) : Handles s (startRec r s) := by
  have started (phase : Nat) := handles_of_reports ((updRec_reports r.code r.inst (fun x => { x with phase := .running, ready := true }) s).trans
    (logRec_reports r phase 0 _))
  unfold startRec
  split
  · exact (started 5).trans (freePort_handles _ _)
  · exact started 1

theorem slotFree_handles (s : State) : Handles s (slotFree s) := by
  unfold slotFree
  split
  · exact Handles.refl s
  · split
    · exact startRec_handles _ _
    · exact Handles.refl s

theorem faultEnds_handles (code inst phase : Nat) (s : State) : Handles s (faultEnds code inst phase s) := by
  unfold faultEnds
  split
  · exact Handles.refl s
  · exact (handles_of_reports ((setRecs_reports _ s).trans (logRec_reports _ _ _ _))).trans (slotFree_handles _)

theorem forEach_reports {α : Type} (l : List α) (f : α → State → State) (s : State) (h : ∀ x u, Reports u (f x u)) :
    Reports s (forEach l f s) :=
  foldl_inv (Reports s) l _ s (Reports.refl s) fun _ x hu => hu.trans (h x _)

theorem forEach_handles {α : Type} (l : List α) (f : α → State → State) (s : State) (h : ∀ x u, Handles u (f x u)) :
    Handles s (forEach l f s) :=
  foldl_inv (Handles s) l _ s (Handles.refl s) fun _ x hu => hu.trans (h x _)

end Sys2Proof.Machine

/-! The timeline: one tick, the next due cue, and the held audio effects. -/

namespace Sys2Proof.Machine

/-! ### One tick (R27, R336, R473) -/

/-- Every lane and decoder gives its sample. -/
def deliver (s : State) : State :=
  { s with lanes := { s.lanes with fm := s.lanes.fm.map (popLane s false), am := s.lanes.am.map (popLane s true) },
           decoders := s.decoders.map popDecoder }

/-- A tick of audio before failing blocks are counted. -/
def mixed (s : State) : State := { deliver s with progs := s.progs.map (mixProgram (deliver s)) }

theorem mixAll_reports (s : State) : Reports (mixed s) (mixAll s) := by
  refine forEach_reports _ _ _ fun n u => ?_
  split
  · exact count_reports _ _ _ _
  · exact Reports.refl u

theorem laneAt_mixed (s : State) (id : Nat) : laneAt (mixed s) id = (laneAt s id).map (popLane s (isAm id)) := by
  unfold laneAt mixed deliver isAm
  by_cases h : id < 0x80
  · simp [h, Nat.not_le.mpr h]
  · simp [h, Nat.le_of_not_lt h]

theorem portsRestarted_handles (s : State) : Handles s (portsRestarted s) := by
  unfold portsRestarted
  split
  · exact faultEnds_handles _ _ _ _
  · exact Handles.refl s

theorem portsRecovered_handles (s : State) : Handles s (portsRecovered s) := by
  refine forEach_handles _ _ _ fun n u => ?_
  split
  · split
    · exact (faultEnds_handles _ _ _ _).trans (faultEnds_handles _ _ _ _)
    · exact Handles.refl u
  · exact Handles.refl u

/-- What a running tick counts and moves once the audio is mixed. -/
def tickUnits (s : State) : State :=
  { s with time := { s.time with dfc := s.time.dfc + 1 }, progs := s.progs.map tickProgram,
           ports := { s.ports with tdm := s.ports.tdm.map tickPort, spdif := tickSpdif s.ports.spdif },
           flows := tickBuckets s.flows }

theorem tickRunning_handles (s : State) : Handles (tickUnits (mixAll s)) (tickRunning s) :=
  (portsRestarted_handles _).trans (portsRecovered_handles _)

/-- A running tick is the mixed audio with its units moved on, but for reports, recoveries and the ports. -/
theorem tickRunning_eq (s : State) : tickRunning s =
    { tickUnits (mixed s) with events := (tickRunning s).events, integ := (tickRunning s).integ, ports := (tickRunning s).ports } := by
  have mix := mixAll_reports s
  have tick := (tickRunning_handles s).1
  refine tick.trans ?_
  have ports : (tickRunning s).ports = { (tickUnits (mixAll s)).ports with tdm := (tickRunning s).ports.tdm } := congrArg State.ports tick
  rw [ports]
  unfold tickUnits
  rw [mix]

theorem execDfcTick_runs {s : State} (on : s.reset_.domain ≠ .off) (started : s.time.started = true) (source : s.time.source ≠ .held) :
    execDfcTick s = .next (tickRunning { s with now := s.now + 1 }) := by
  simp [execDfcTick, timelineTicks, mainOff, on, started, source]

theorem execDfcTick_off {s : State} (off : s.reset_.domain = .off) :
    execDfcTick s = .next (tickOff { s with now := s.now + 1 }) := by
  simp [execDfcTick, mainOff, off]

theorem execDfcTick_held {s : State} (on : s.reset_.domain ≠ .off) (held : s.time.started = false ∨ s.time.source = .held) :
    execDfcTick s = .next { s with now := s.now + 1 } := by
  obtain h | h := held <;> simp [execDfcTick, timelineTicks, mainOff, on, h]

/-! ### Cues (R29 to R35) -/

/-- No opcode of the map is one of the vendor tests 0xF0 to 0xFF. -/
theorem vendorOpcode_of_cmdOf {opc : Byte} {k : Cmd} (s : State) (h : cmdOf opc = some k) : vendorOpcode s opc = false := by
  have below : ∀ k ∈ allCmds, k.opc.toNat < 0xF0 := by decide
  have hk : k.opc = opc := by simpa using List.find?_some h
  have := below k (List.mem_of_find?_eq_some h)
  simp [vendorOpcode, ← hk, this]

/-- Without a command in execution no cue is held back. -/
theorem markBlocked_free {s : State} (h : s.mgr.executing = none) : markBlocked s = s := by
  simp [markBlocked, cueBlocked, h]

theorem holdEffects_nil (c : Cue) (s : State) : holdEffects c [] s = s := by
  unfold holdEffects
  split
  · simp
  · rfl

/-- A carried command that ends at once, with no audio effect: its `EV_CUE` (R33). -/
theorem finishCue_ends {c : Cue} {late : Bool} {r : Res} {before : State} (effects : r.effects = []) (wait : r.wait = none)
    (silent : r.silent = false) (gate : r.gate = false) :
    finishCue c late r before =
      reportCue c.id late c.packet r.status (stampDfc before) r.payload
        (if mainReady r.state then markScene before r.state else r.state) := by
  simp [finishCue, gateMain, holdEffects_nil, effects, wait, silent, gate]

/-- The call that a cue makes of its command. -/
def cueCall (c : Cue) : Call := { tag := c.packet.tag, p := c.packet.param, cue := some c.id, scene := false }

/-- The cue is no longer pending. -/
def dropCue (c : Cue) (s : State) : State := { s with cues := s.cues.filter fun x => x.id != c.id }

theorem stampDfc_ready {s : State} (ready : s.reset_.domain = .ready) : stampDfc s = s.time.dfc := by
  simp [stampDfc, mainOff, ready]

section
variable {s : State} {c : Cue} {k : Cmd} (ready : s.reset_.domain = .ready) (idle : s.mgr.cueExec = none)
include ready idle

theorem execCueFire_none (due : nextCue (markBlocked s) = none) : execCueFire s = .next (markBlocked s) := by
  simp [execCueFire, mainReady, ready, idle, due]

/-- The next due cue runs its command. -/
theorem execCueFire_some (due : nextCue (markBlocked s) = some c) (cmd : cmdOf c.packet.opc = some k) :
    execCueFire s = .next (finishCue c (cueLate (markBlocked s) c) (serve k (cueCall c) (dropCue c (markBlocked s)))
      (dropCue c (markBlocked s))) := by
  simp [execCueFire, fireCue, cueCall, dropCue, mainReady, ready, idle, due, cmd, vendorOpcode_of_cmdOf s cmd]

/-- The carried command ends at once: the cue is gone and its `EV_CUE` has status and DFC of execution. -/
theorem execCueFire_ends {r : Res} (due : nextCue (markBlocked s) = some c) (cmd : cmdOf c.packet.opc = some k)
    (served : serve k (cueCall c) (dropCue c (markBlocked s)) = r) (effects : r.effects = []) (wait : r.wait = none)
    (silent : r.silent = false) (gate : r.gate = false) (stays : r.state.reset_.domain = .ready) :
    execCueFire s = .next (evCue c.id (flag (cueLate (markBlocked s) c)) c.packet.opc c.packet.tag r.status s.time.dfc r.payload
      (markScene (dropCue c (markBlocked s)) r.state)) := by
  have stamp : stampDfc (dropCue c (markBlocked s)) = s.time.dfc := stampDfc_ready ready
  rw [execCueFire_some ready idle due cmd, served, finishCue_ends effects wait silent gate, stamp]
  simp [reportCue, mainReady, stays]

/-- The carried command fails: nothing but the cue and its `EV_CUE` changes (R381). -/
theorem execCueFire_fails {st : Nat} (due : nextCue (markBlocked s) = some c) (cmd : cmdOf c.packet.opc = some k)
    (served : serve k (cueCall c) (dropCue c (markBlocked s)) = fail st (dropCue c (markBlocked s))) :
    execCueFire s = .next (evCue c.id (flag (cueLate (markBlocked s) c)) c.packet.opc c.packet.tag st s.time.dfc []
      (dropCue c (markBlocked s))) := by
  have ends := execCueFire_ends ready idle due cmd served rfl rfl rfl rfl ready
  simpa only [fail, markScene_self] using ends

end

theorem execCueFire_idle {s : State} (h : s.reset_.domain ≠ .ready ∨ s.mgr.cueExec ≠ none) : execCueFire s = .next s := by
  have : (!mainReady s || s.mgr.cueExec.isSome) = true := by
    obtain h | h := h
    · simp [mainReady, h]
    · simp [Option.isSome_iff_ne_none.mpr h]
  simp [execCueFire, this]

/-! ### Held audio effects (R29, R303, R312) -/

theorem execAudioCueEffect_due {s : State} {e : HeldEffect} (held : s.held = [e])
    (due : dfcAfter (e.target + BitVec.ofNat 32 (carryLag s e.effect)) s.time.dfc = false) :
    execAudioCueEffect s = .next (markScene s (applyEffect e.effect { s with held := [] })) := by
  have : effectDue s e = true := by simp [effectDue, inFuture, due]
  simp [execAudioCueEffect, held, this, applyEffects]

theorem execAudioCueEffect_early {s : State}
    (early : ∀ e ∈ s.held, dfcAfter (e.target + BitVec.ofNat 32 (carryLag s e.effect)) s.time.dfc = true) :
    execAudioCueEffect s = .next s := by
  have : s.held.filter (effectDue s) = [] := List.filter_eq_nil_iff.mpr fun e he => by simp [effectDue, inFuture, early e he]
  simp [execAudioCueEffect, this]

/-- Settles O39: one lemma above for each way in which `DFC_TICK`, `CUE_FIRE` and `AUDIO_CUE_EFFECT` end. -/
theorem timelineTicksAndCuesFire : Obligations.TimelineTicksAndCuesFire := by
  intro s
  refine ⟨?_, execDfcTick_off, execDfcTick_held, ?_, ?_, markBlocked_free, execCueFire_none, execCueFire_idle, ?_,
    execAudioCueEffect_early⟩
  · intro on started source
    refine ⟨_, execDfcTick_runs on started source, ?_⟩
    rw [tickRunning_eq]
    refine ⟨rfl, rfl, ?_, fun id => laneAt_mixed _ id, rfl, rfl, rfl, rfl, rfl, rfl, rfl, rfl⟩
    simp [tickUnits, mixed, deliver]
  · rintro _ c k st _ rfl ready idle due cmd rfl served
    exact execCueFire_fails ready idle due cmd served
  · rintro _ c k r _ rfl ready idle due cmd rfl served effects wait silent gate stays
    exact ⟨_, execCueFire_ends ready idle due cmd served effects wait silent gate stays, markScene_cases _ _⟩
  · intro e held due
    exact ⟨_, execAudioCueEffect_due held due, markScene_cases _ _⟩

end Sys2Proof.Machine

/-! The state after reset and the unit counts of the variants. -/

namespace Sys2Proof.Machine

/-- Settles O6: every list of the reset state is empty or made with the length that its kind has. -/
theorem resetMeetsBoundsAndUnitCounts : Obligations.ResetMeetsBoundsAndUnitCounts := by
  unfold Obligations.ResetMeetsBoundsAndUnitCounts State.reset
  rw [fits_mk]
  simp [-List.reduceReplicate, Events.reset, Integrity.reset, Retained.wiped, Cal.reset, Lanes.reset, Dab.reset, Flows.reset, Ports.reset, Clocks.start, Rds.reset]

/-- Settles O7: the units are copies of one default each, and the rest stands in `State.reset`. -/
theorem resetStateHoldsGivenValues : Obligations.ResetStateHoldsGivenValues := by
  have lanes : ∀ l ∈ State.reset.lanes.fm ++ State.reset.lanes.am, l = Lane.free := fun l hl =>
    (List.mem_append.mp hl).elim List.eq_of_mem_replicate List.eq_of_mem_replicate
  have inputs : ∀ i < 6, ∃ x, State.reset.inputs[i]? = some x ∧ x.receiving = false ∧ x.plan = BandPlan.default ∧ x.gcfg = GainCfg.default i :=
    fun i hi => ⟨Input.default i, by simp [State.reset, hi], rfl, rfl, rfl⟩
  have ports : ∀ p ∈ State.reset.ports.tdm, p.st = .disabled := by decide
  exact ⟨rfl, rfl, rfl, rfl, rfl, rfl, rfl, rfl, rfl, rfl, rfl, lanes, fun _ => List.eq_of_mem_replicate, fun _ => List.eq_of_mem_replicate,
    fun _ => List.eq_of_mem_replicate, inputs, ports, rfl, rfl, rfl, fun _ => List.eq_of_mem_replicate, rfl, rfl, rfl, rfl⟩

/-- The inputs that a variant lacks: HB2 and HB3 in tier 24, LB0 and LB1 in V parts (R4). -/
theorem bonded_iff (v : Variant) (i : Nat) :
    v.bonded i = true ↔ i < 2 ∨ ((i = 2 ∨ i = 3) ∧ v.tier ≠ .t24) ∨ ((i = 4 ∨ i = 5) ∧ v.whole = true) := by
  unfold Variant.bonded
  split
  · grind
  · grind

/-- Settles O8: the counts are Table 0-1 by tier, and `bonded_iff` is R4. -/
theorem unitCountsOfTheVariant : Obligations.UnitCountsOfTheVariant := by
  intro v
  have engines : v.engines = (match v.tier with | .t96 => 16 | .t48 => 8 | .t24 => 4) := by
    unfold Variant.engines Tier.scale; cases v.tier <;> rfl
  exact ⟨rfl, rfl, engines, rfl, rfl, bonded_iff v⟩

end Sys2Proof.Machine

/-! Host commands that find the stage manager free: what their rows run, and the assignment of a free lane or engine. -/

namespace Sys2Proof.Machine

/-- The row of a host command is `hostRow` of that command, with the PARAM bytes that the row sends. -/
theorem exec_eq_hostRow {i : Instr} {k : Cmd} {tag : Byte} {p : List Byte} (s : State) (h : hostCommand i = some (k, tag, p)) :
    exec i s = hostRow k tag p s := by
  cases i <;> cases h <;> rfl

/-- Settles O13: every row of a host command is `hostRow` of it, which runs the command on a free manager. -/
theorem hostRowRunsItsCommand : Obligations.HostRowRunsItsCommand := by
  intro i k tag p s row turn
  rw [exec_eq_hostRow s row, hostRow_turn turn]
  rfl

/-! ### Assignment of a free unit (R21, R119, R173) -/

theorem laneAt_putLane {s : State} {id : Nat} {l : Lane} (o : Owner) (freq mask : Nat) (pin start : Bool) (af : Option Id16)
    (h : laneAt s id = some l) :
    laneAt (putLane id o freq mask pin start af s) id = some (assignedLane s (isAm id) o freq mask pin start af) := by
  simp [putLane, laneAt_updLane, h]

theorem engineAt_putEngine {s : State} {e : Nat} {x : Engine} (o : Owner) (block freq mask : Nat) (pin start : Bool)
    (h : engineAt s e = some x) :
    engineAt (putEngine e o block freq mask pin start s) e =
      some (assignedEngine s s.dab.defaultExact o block freq mask pin start) := by
  simp [putEngine, engineAt_updEngine, h]

section
variable {tag : Byte} {p : List Byte} {s : State} (turn : MainTurn s p)
include turn

/-- `LANE_ASSIGN` of a lane by name passes the shared checks, and R113 leaves it an input. -/
theorem serve_laneAssign_named {l : Lane} (len : p.length = 8) (named : p1 p 0 ≠ 0xFF) (lane : laneAt s (p1 p 0) = some l)
    (served : (askLane s (p1 p 0) p).mask ≠ 0) :
    serve cmdLaneAssign (hostCall tag p) s = assignLane (p1 p 0) (askLane s (p1 p 0) p) tag s := by
  have ids : laneAssignIds s p = true := by simp [laneAssignIds, named, laneExists, lane]
  rw [serve_main turn (by simp [cmdLaneAssign, lenIn, hostCall, len]) ids]
  simp [cmdLaneAssign, bodyLaneAssign, hostCall, named, served]

theorem serve_dabEngineAssign_named {x : Engine} (len : p.length = 9) (named : p1 p 0 ≠ 0xFF) (engine : engineAt s (p1 p 0) = some x)
    (served : (askEngine s p).mask ≠ 0) :
    serve cmdDabEngineAssign (hostCall tag p) s = assignEngine (p1 p 0) (askEngine s p) tag s := by
  have ids : cmdDabEngineAssign.ids s p = true := by simp [cmdDabEngineAssign, engineExists, engine]
  rw [serve_main turn (by simp [cmdDabEngineAssign, lenIn, hostCall, len]) ids]
  simp [cmdDabEngineAssign, bodyDabEngineAssign, hostCall, named, served]

end

/-- An admitted assignment is put on a free lane, and waits for processing unless `start` is 1. -/
theorem assignLane_free {s : State} {id : Nat} {l : Lane} (a : Ask) (tag : Byte) (lane : laneAt s id = some l) (free : l.st = .free)
    (room : admits s (laneRaise s id a.mask) = true) :
    assignLane id a tag s =
      if a.start then okay (laneReply id a 1) (putLane id .host a.freq a.mask a.pin a.start none s)
      else { status := stOk, payload := laneReply id a 2, state := putLane id .host a.freq a.mask a.pin a.start none s,
             wait := some (.lane id) } := by
  simp [assignLane, lane, free, assignFreeLane, room]

theorem assignEngine_free {s : State} {e : Nat} {x : Engine} (a : Ask) (tag : Byte) (engine : engineAt s e = some x) (free : x.st = .free)
    (room : engineAdmits s e x a.mask = true) :
    assignEngine e a tag s =
      if a.start then okay (engineReply e a s.dab.defaultExact 1) (putEngine e .host a.block a.freq a.mask a.pin a.start s)
      else { status := stOk, payload := engineReply e a s.dab.defaultExact 2,
             state := putEngine e .host a.block a.freq a.mask a.pin a.start s, wait := some (.engine e) } := by
  simp [assignEngine, engine, free, assignFreeEngine, room]

/-- Settles O23: the named unit is free, so `assignLane_free` and `assignEngine_free` say how the command ends. -/
theorem laneAssignmentTakesAFreeLane : Obligations.LaneAssignmentTakesAFreeLane := by
  intro tag p s turn
  constructor
  · intro l len named lane free served room
    have ends := (serve_laneAssign_named (tag := tag) turn len named lane served).trans (assignLane_free _ tag lane free room)
    refine ⟨laneAt_putLane _ _ _ _ _ _ lane, fun start => ?_, fun start => ?_⟩
    · exact row_okay turn.1 (by simpa [start] using ends)
    · exact row_waits turn.1 (by simpa [start] using ends) rfl rfl rfl rfl
  · intro x len named engine free served room
    have ends := (serve_dabEngineAssign_named (tag := tag) turn len named engine served).trans (assignEngine_free _ tag engine free room)
    refine ⟨fun b => ⟨_, engineAt_putEngine _ _ _ _ _ _ engine, rfl, rfl, rfl, rfl, rfl, rfl, rfl, rfl⟩,
      fun start => ?_, fun start => ?_⟩
    · exact row_okay turn.1 (by simpa [start] using ends)
    · exact row_waits turn.1 (by simpa [start] using ends) rfl rfl rfl rfl

end Sys2Proof.Machine

/-! What the shared operations leave alone: `UnitsStay` where only records, replies, flows and calibration move, `ShedFrame` where
lanes, engines and programs change too. -/

namespace Sys2Proof.Machine

/-! ### Recoveries (R512, R513) -/

theorem raise_reports (bit : Nat) (body : List Byte) (s : State) : Reports s (raise bit body s) := rfl

theorem Handles.withCap {s t : State} (h : Handles s t) (c : Capacity) : Handles { s with cap := c } { t with cap := c } :=
  ⟨by rw [h.1], h.2⟩

theorem gatePort_keeps_settings (p : Port) :
    ((gatePort p).cfg, (gatePort p).next, (gatePort p).slots, (gatePort p).slotsNext, (gatePort p).losses) =
      (p.cfg, p.next, p.slots, p.slotsNext, p.losses) := by
  unfold gatePort
  split <;> rfl

theorem abortRec_handles (r : Recovery) (rank : Nat) (s : State) : Handles s (abortRec r rank s) := by
  have logged := handles_of_reports ((updRec_reports r.code r.inst (fun x => { x with phase := .aborted rank }) s).trans
    (logRec_reports r 3 rank _))
  unfold abortRec
  split
  · exact logged.trans (updPort_handles _ _ _ gatePort_keeps_settings)
  · exact logged

theorem queueRec_handles (r : Recovery) (rank : Nat) (s : State) : Handles s (queueRec r rank s) :=
  handles_of_reports ((updRec_reports _ _ _ s).trans (logRec_reports _ _ _ _))

theorem becomesRunnable_handles (code inst : Nat) (s : State) : Handles s (becomesRunnable code inst s) := by
  have ready := handles_of_reports (updRec_reports code inst (fun x => { x with ready := true }) s)
  unfold becomesRunnable
  split
  · exact Handles.refl s
  · split
    · split
      · exact ready.trans (startRec_handles _ _)
      · exact ready
    · split
      · exact Handles.refl s
      · split
        · exact (ready.trans (abortRec_handles _ _ _)).trans (startRec_handles _ _)
        · split
          · exact ready.trans (queueRec_handles _ _ _)
          · exact ready

theorem faultBegins_handles (code inst a : Nat) (b : Int) (ready : Bool) (s : State) :
    Handles s (faultBegins code inst a b ready s) := by
  unfold faultBegins
  split
  · split <;> exact handles_of_reports ((updRec_reports _ _ _ s).trans (logRec_reports _ _ _ _))
  · have opened (r : Recovery) := handles_of_reports ((setRecs_reports (s.integ.recoveries ++ [r]) s).trans (logRec_reports r 0 0 _))
    dsimp only
    split
    · exact (opened _).trans (becomesRunnable_handles _ _ _)
    · split
      · exact opened _
      · split
        · exact (opened _).trans (abortRec_handles _ _ _)
        · exact (opened _).trans (queueRec_handles _ _ _)

/-! ### Operations that leave every unit as it is -/

/-- Time, clocks, cues, inputs, lanes, engines, programs, capacity and the S/PDIF output stay. -/
@[simp, reducible] def UnitsStay (s t : State) : Prop :=
  t.now = s.now ∧ t.clocks = s.clocks ∧ t.cues = s.cues ∧ t.inputs = s.inputs ∧ t.lanes = s.lanes ∧ t.dab = s.dab ∧
  t.progs = s.progs ∧ t.cap = s.cap ∧ t.ports.spdif = s.ports.spdif

section
variable {s t u : State} (h : UnitsStay s t)
include h

theorem UnitsStay.inputs : t.inputs = s.inputs := by simp_all
theorem UnitsStay.lanes : t.lanes = s.lanes := by simp_all
theorem UnitsStay.cap : t.cap = s.cap := by simp_all
theorem UnitsStay.trans (k : UnitsStay t u) : UnitsStay s u := by simp_all

end

theorem forEach_unitsStay {α : Type} (l : List α) (f : α → State → State) (s : State) (h : ∀ x u, UnitsStay u (f x u)) :
    UnitsStay s (forEach l f s) :=
  foldl_inv (UnitsStay s) l _ s (by simp) fun _ x hu => hu.trans (h x _)

theorem Handles.unitsStay {s t : State} (h : Handles s t) : UnitsStay s t := by
  rw [h.1]
  simp

@[simp] theorem raise_unitsStay (bit : Nat) (body : List Byte) (s : State) : UnitsStay s (raise bit body s) :=
  (handles_of_reports (raise_reports bit body s)).unitsStay

@[simp] theorem count_unitsStay (i n inst : Nat) (s : State) : UnitsStay s (count i n inst s) :=
  (handles_of_reports (count_reports i n inst s)).unitsStay

@[simp] theorem faultBegins_unitsStay (code inst a : Nat) (b : Int) (ready : Bool) (s : State) :
    UnitsStay s (faultBegins code inst a b ready s) := (faultBegins_handles code inst a b ready s).unitsStay

@[simp] theorem faultEnds_unitsStay (code inst phase : Nat) (s : State) : UnitsStay s (faultEnds code inst phase s) :=
  (faultEnds_handles code inst phase s).unitsStay

@[simp] theorem completeWait_unitsStay (e : Executing) (s : State) : UnitsStay s (completeWait e s) := by
  unfold completeWait reportCue evCue
  split <;> simp

@[simp] theorem finishWait_unitsStay (w : Wait) (s : State) : UnitsStay s (finishWait w s) := by
  unfold finishWait
  dsimp only
  (repeat' split) <;> simp

@[simp] theorem produce_unitsStay (kind source qual : Nat) (failed : Bool) (key : Option (Nat × Nat × Nat)) (payload : List Byte)
    (s : State) : UnitsStay s (produce kind source qual failed key payload s) := by
  refine forEach_unitsStay _ _ s fun i u => ?_
  (repeat' split) <;> simp

/-! ### Shedding, releases and programs (R26, R174, R240, R284) -/

/-- Clocks, cues, inputs, the S/PDIF output and the count of passes stay, whatever units and programs do. -/
@[simp, reducible] def ShedFrame (s t : State) : Prop :=
  t.clocks = s.clocks ∧ t.cues = s.cues ∧ t.inputs = s.inputs ∧ t.ports.spdif = s.ports.spdif ∧
  t.cap.shedPasses = s.cap.shedPasses

theorem ShedFrame.trans {s t u : State} (h : ShedFrame s t) (k : ShedFrame t u) : ShedFrame s u := by
  simp_all

theorem forEach_shedFrame {α : Type} (l : List α) (f : α → State → State) (s : State) (h : ∀ x u, ShedFrame u (f x u)) :
    ShedFrame s (forEach l f s) :=
  foldl_inv (ShedFrame s) l _ s (by simp) fun _ x hu => hu.trans (h x _)

@[simp] theorem ite_shedFields (c : Prop) [Decidable c] (a b : State) :
    (if c then a else b).clocks = (if c then a.clocks else b.clocks) ∧ (if c then a else b).cues = (if c then a.cues else b.cues) ∧
    (if c then a else b).inputs = (if c then a.inputs else b.inputs) ∧
    (if c then a else b).ports.spdif = (if c then a.ports.spdif else b.ports.spdif) ∧
    (if c then a else b).cap.shedPasses = (if c then a.cap.shedPasses else b.cap.shedPasses) := by
  split <;> simp

@[simp] theorem takeOwn_shedFrame (n : Nat) (s : State) : ShedFrame s (takeOwn n s) := by
  unfold takeOwn loseLoan
  (repeat' split) <;> simp

@[simp] theorem releaseOwn_shedFrame (n : Nat) (s : State) : ShedFrame s (releaseOwn n s) := by
  unfold releaseOwn
  split <;> simp

@[simp] theorem assignOwn_shedFrame (n : Nat) (s : State) : ShedFrame s (assignOwn n s) := by
  unfold assignOwn
  split <;> simp

@[simp] theorem fitOwn_shedFrame (n : Nat) (s : State) : ShedFrame s (fitOwn n s) := by
  unfold fitOwn
  (repeat' split) <;> simp

@[simp] theorem releaseLoans_shedFrame (n : Nat) (t : Source → Bool) (s : State) : ShedFrame s (releaseLoans n t s) := by
  simp [releaseLoans]

theorem lend_shedFrame {n : Nat} {key : Source} {s t : State} (h : lend n key s = some t) : ShedFrame s t := by
  unfold lend at h
  (repeat' split at h) <;> cases h
  simp

@[simp] theorem setAnchor_shedFrame (n : Nat) (dab : Bool) (slot : Option Nat) (s : State) : ShedFrame s (setAnchor n dab slot s) := by
  simp [setAnchor, realign]

@[simp] theorem removeMember_shedFrame (n slot : Nat) (s : State) : ShedFrame s (removeMember n slot s) := by
  unfold removeMember evLink
  split <;> simp

@[simp] theorem laneLeaves_shedFrame (id : Nat) (s : State) : ShedFrame s (laneLeaves id s) := by
  refine forEach_shedFrame _ _ s fun n u => ?_
  split <;> simp

@[simp] theorem dropUnserved_shedFrame (n slot : Nat) (s : State) : ShedFrame s (dropUnserved n slot s) := by
  unfold dropUnserved
  (repeat' split) <;> simp

@[simp] theorem engineLeaves_shedFrame (e : Nat) (before s : State) : ShedFrame s (engineLeaves e before s) := by
  refine forEach_shedFrame _ _ s fun n u => ?_
  split
  · exact forEach_shedFrame _ _ u fun i v => dropUnserved_shedFrame n i v
  · simp

@[simp] theorem closeWhere_shedFrame (t : Flow → Bool) (reason : Nat) (s : State) : ShedFrame s (closeWhere t reason s) := by
  refine forEach_shedFrame _ _ s fun i u => ?_
  unfold deviceClose evFlowDrop
  (repeat' split) <;> simp

@[simp] theorem raiseEdge_shedFrame (a : Announce) (start : Bool) (s : State) : ShedFrame s (raiseEdge a start s) := by
  simp [raiseEdge, flowEdge, evAnnounce]

@[simp] theorem endAnnWhere_shedFrame (t : Announce → Bool) (s : State) : ShedFrame s (endAnnWhere t s) := by
  refine forEach_shedFrame _ endAnn s fun a u => ?_
  unfold endAnn
  split <;> simp

@[simp] theorem forgetShed_shedFrame (engine : Bool) (id : Nat) (s : State) : ShedFrame s (forgetShed engine id s) := by
  simp [forgetShed]

@[simp] theorem quietLane_shedFrame (id : Nat) (s : State) : ShedFrame s (quietLane id s) := by
  simp [quietLane, dropWait, closeLaneFlows]

@[simp] theorem releaseLane_shedFrame (id : Nat) (s : State) : ShedFrame s (releaseLane id s) := by
  unfold releaseLane drainLane freeLane
  (repeat' split) <;> simp

@[simp] theorem quietEngine_shedFrame (e : Nat) (s : State) : ShedFrame s (quietEngine e s) := by
  simp [quietEngine, dropWait, closeEngineFlows, stopDecoders]

@[simp] theorem freeEngine_shedFrame (e : Nat) (s : State) : ShedFrame s (freeEngine e s) := by
  unfold freeEngine bumpServices
  dsimp only
  (repeat' split) <;> simp

@[simp] theorem releaseEngine_shedFrame (e : Nat) (s : State) : ShedFrame s (releaseEngine e s) := by
  unfold releaseEngine drainEngine
  (repeat' split) <;> simp

@[simp] theorem setLaneMask_shedFrame (id new : Nat) (s : State) : ShedFrame s (setLaneMask id new s) := by
  unfold setLaneMask
  split <;> simp

@[simp] theorem setEngineMask_shedFrame (e new : Nat) (s : State) : ShedFrame s (setEngineMask e new s) := by
  unfold setEngineMask
  split <;> simp

/-! ### Selections (R224 to R232) -/

@[simp] theorem selectAnn_shedFrame (n : Nat) (p : Program) (a : Announce) (s : State) : ShedFrame s (selectAnn n p a s) := by
  unfold selectAnn
  dsimp only
  split
  · simp
  · split
    · simp
    · split
      · next lent => simpa using lend_shedFrame lent
      · split <;> simp

@[simp] theorem dropSelection_shedFrame (n : Nat) (p : Program) (s : State) : ShedFrame s (dropSelection n p s) := by
  have := forEach_shedFrame ((p.nextHold.toList ++ p.holding.toList).filter fun h => !h.onAir) (fun h => releaseLoans n fun k => k == h.src)
    (updProgram n (fun p => { p with nextHold := none, holding := p.holding.filter (·.onAir) }) s) fun _ _ => releaseLoans_shedFrame _ _ _
  simp_all [dropSelection]

@[simp] theorem feedSelection_shedFrame (n : Nat) (s : State) : ShedFrame s (feedSelection n s) := by
  unfold feedSelection
  dsimp only
  split
  · simp
  · split
    · simp
    · split
      · next lent => exact lend_shedFrame lent
      · split <;> simp

@[simp] theorem reselect_shedFrame (n : Nat) (s : State) : ShedFrame s (reselect n s) := by
  unfold reselect
  dsimp only
  (repeat' split) <;> simp

@[simp] theorem reselectAll_shedFrame (s : State) : ShedFrame s (reselectAll s) :=
  forEach_shedFrame _ _ _ fun n u => by simp

end Sys2Proof.Machine

/-! The fabric's capacity: measurement and VCORE control, power windows, shedding passes, restoring and the derate. -/

namespace Sys2Proof.Machine

/-! ### Measurement (R273, R276, R278, R283) -/

theorem takePolicy_keeps_measurement (c : Capacity) :
    (takePolicy c).cmeas = c.cmeas ∧ (takePolicy c).measuredAt = c.measuredAt ∧ (takePolicy c).powerMw = c.powerMw ∧
    (takePolicy c).next = none := by
  unfold takePolicy
  split
  · next none_asked => exact ⟨rfl, rfl, rfl, none_asked⟩
  · exact ⟨rfl, rfl, rfl, rfl⟩

/-- A policy that was asked for is in force (R276). -/
theorem takePolicy_takes {c : Capacity} {x : PowerSet} (asked : c.next = some x) :
    (takePolicy c).economy = x.economy ∧ (takePolicy c).capMw = x.capMw ∧ (takePolicy c).ceiling = x.ceiling ∧
    (takePolicy c).restore = x.restore := by
  simp [takePolicy, asked]

/-- VCORE control and the judgement of a shortfall leave the measurement, the policy and the input power. -/
def SameMeasure (a b : Capacity) : Prop :=
  b.cmeas = a.cmeas ∧ b.measuredAt = a.measuredAt ∧ b.powerMw = a.powerMw ∧ b.next = a.next ∧ b.economy = a.economy ∧
  b.capMw = a.capMw ∧ b.ceiling = a.ceiling ∧ b.restore = a.restore

theorem SameMeasure.refl (c : Capacity) : SameMeasure c c := ⟨rfl, rfl, rfl, rfl, rfl, rfl, rfl, rfl⟩

/-- `t` is `s` with another capacity that has the same measurement and policy, once reports are set aside. -/
def Controls (s t : State) : Prop := SameMeasure s.cap t.cap ∧ Handles { s with cap := t.cap } t

theorem Controls.trans {s t u : State} (h : Controls s t) (k : Controls t u) : Controls s u := by
  obtain ⟨hc, hs⟩ := h
  obtain ⟨kc, ks⟩ := k
  exact ⟨by simp_all [SameMeasure], (hs.withCap u.cap).trans ks⟩

theorem controls_setCap {f : Capacity → Capacity} {s : State} (h : SameMeasure s.cap (f s.cap)) : Controls s (setCap f s) :=
  ⟨h, Handles.refl _⟩

theorem controls_of_handles {s t : State} (h : Handles s t) : Controls s t := by
  refine ⟨by rw [h.unitsStay.cap]; exact SameMeasure.refl _, ?_⟩
  rw [h.unitsStay.cap]
  exact h

theorem Controls.refl (s : State) : Controls s s := controls_of_handles (Handles.refl s)

theorem ite_controls {s a b : State} {c : Prop} [Decidable c] (ha : Controls s a) (hb : Controls s b) :
    Controls s (if c then a else b) := by
  split <;> assumption

theorem setVcore_controls (v : Nat) (s : State) : Controls s (setVcore v s) :=
  ite_controls (Controls.refl s) (controls_setCap (SameMeasure.refl _))

theorem controlVcore_controls (s : State) : Controls s (controlVcore s) := by
  have rich (n : Nat) : Controls s (setCap (fun c => { c with richMs := n }) s) := controls_setCap (SameMeasure.refl _)
  exact ite_controls (setVcore_controls _ s) (ite_controls (setVcore_controls _ s)
    (ite_controls ((rich _).trans (setVcore_controls _ _)) (rich _)))

theorem judgeShortfall_controls (s : State) : Controls s (judgeShortfall s) := by
  have ends (code : Nat) (t : State) : Controls t (faultEnds code 0 2 t) := controls_of_handles (faultEnds_handles _ _ _ _)
  have begins (a : Int) (t : State) : Controls t (faultBegins 0x70 0 0 a false t) := controls_of_handles (faultBegins_handles _ _ _ _ _ _)
  have marked (a b : Bool) : Controls s (setCap (fun c => { c with shortfall := a, overcommitted := b }) s) :=
    controls_setCap (SameMeasure.refl _)
  have judged (a b : Bool) (c : Prop) [Decidable c] := ite_controls (c := c) ((marked a b).trans (ends 0x71 _)) (marked a b)
  exact ite_controls ((judged _ _ _).trans (begins _ _)) (ite_controls ((judged _ _ _).trans (ends _ _)) (judged _ _ _))

/-- What follows a measurement leaves it and the policy alone. -/
theorem afterMeasurement_controls (s : State) : Controls s (trackRestore (judgeShortfall (countShort (controlVcore s)))) := by
  have counted (t : State) : Controls t (countShort t) := controls_setCap (SameMeasure.refl _)
  have tracked (t : State) : Controls t (trackRestore t) := controls_setCap (SameMeasure.refl _)
  exact (((controlVcore_controls s).trans (counted _)).trans (judgeShortfall_controls _)).trans (tracked _)

theorem execCapacityMeasurement_discarded {s : State} (rings : List Nat) (slewing : slewed s = true) :
    execCapacityMeasurement rings s = .next s := by
  simp [execCapacityMeasurement, slewing]

theorem execCapacityMeasurement_taken {s : State} (rings : List Nat) (ready : s.reset_.domain = .ready) (still : slewed s = false) :
    execCapacityMeasurement rings s = .next (trackRestore (judgeShortfall (countShort (controlVcore
      (setCap (fun c => takePolicy (measure rings c)) s))))) := by
  simp [execCapacityMeasurement, mainReady, ready, still]

/-! ### Windows of input power (R278) -/

theorem setVcore_cap_eq (v : Nat) (s : State) :
    setVcore v s = { s with cap := (setVcore v s).cap } ∧ (setVcore v s).cap.powerMw = s.cap.powerMw ∧
    (setVcore v s).cap.vcap = s.cap.vcap := by
  unfold setVcore
  split <;> exact ⟨rfl, rfl, rfl⟩

theorem moveCap_powerMw (mw floor : Nat) (c : Capacity) : (moveCap mw floor c).powerMw = c.powerMw := by
  unfold moveCap
  dsimp only
  (repeat' split) <;> rfl

/-- A window over the cap takes `V_cap` down, not below what protected work needs while the cap is unattainable (R286). -/
theorem moveCap_vcap_over {mw : Nat} (floor : Nat) {c : Capacity} (high : c.capMw < mw) :
    (moveCap mw floor c).vcap = if c.unattainable = true then max (max 600 (c.vcore - 5)) floor else max 600 (c.vcore - 5) := by
  simp [moveCap, high]

/-- The window is recorded and the cap ceiling has moved; VCORE has not yet. -/
def windowState (mw : Nat) (s : State) : State :=
  setCap (moveCap mw (vFor (demand s) s)) (setCap (fun c => { c with powerMw := mw }) s)

section
variable {s : State} (mw : Nat) (ready : s.reset_.domain = .ready)
include ready

theorem execPowerWindow_performance (performance : s.cap.economy = false) :
    execPowerWindow mw s = .next { s with cap := { s.cap with powerMw := mw, underCap := 0 } } := by
  simp [execPowerWindow, mainReady, ready, performance, setCap]

/-- Under Economy the cap ceiling moves, and VCORE with it or not. -/
theorem execPowerWindow_economy (economy : s.cap.economy = true) :
    ∃ t, execPowerWindow mw s = .next t ∧ t = { s with cap := t.cap } ∧ t.cap.powerMw = mw ∧
      t.cap.vcap = (moveCap mw (vFor (demand s) s) { s.cap with powerMw := mw }).vcap := by
  have moved : (windowState mw s).cap.powerMw = mw := moveCap_powerMw _ _ _
  refine ⟨if mayFall (windowState mw s) 112 then setVcore ((windowState mw s).cap.vcore - 5) (windowState mw s) else windowState mw s,
    by simp [execPowerWindow, mainReady, ready, economy, windowState], ?_⟩
  split
  · obtain ⟨only, power, vcap⟩ := setVcore_cap_eq ((windowState mw s).cap.vcore - 5) (windowState mw s)
    exact ⟨only, power.trans moved, vcap⟩
  · exact ⟨rfl, moved, rfl⟩

end

/-! ### Shedding (R283 to R288) -/

@[simp] theorem shedOne_shedFrame (step : Nat) (engine : Bool) (id : Nat) (s : State) : ShedFrame s (shedOne step engine id s).1 := by
  unfold shedOne keepOne drawNat
  dsimp only
  (repeat' split) <;> simp

@[simp] theorem passStep_shedFrame (lim : Rat) (p : Pass) (step : Nat) : ShedFrame p.s (passStep lim p step).s := by
  refine foldl_inv (fun q : Pass => ShedFrame p.s q.s) _ _ p (by simp) fun q x hq => ?_
  have one := shedOne_shedFrame step x.1 x.2 q.s
  split
  · exact hq
  · split <;> next e => rw [e] at one; exact hq.trans one

@[simp] theorem shedRecords_shedFrame (cause before after k : Nat) (l : List Shed) (s : State) :
    ShedFrame s (shedRecords cause before after k l s) := by
  induction k generalizing l s with
  | zero => simp [shedRecords]
  | succ k ih =>
    have record : ShedFrame s (evShed cause before after (l.take 12) s) := by simp [evShed]
    unfold shedRecords
    dsimp only
    split
    · exact record
    · exact record.trans (ih _ _)

@[simp] theorem raiseCap_shedFrame (left : Nat) (s : State) : ShedFrame s (raiseCap left s) := by
  simp [raiseCap, evShed]

@[simp] theorem overcommit_shedFrame (left : Nat) (s : State) : ShedFrame s (overcommit left s) := by
  simp [overcommit, evShed]

/-- One pass is counted; clocks, cues, inputs and the S/PDIF output stay. -/
theorem sheddingPass_counts (s : State) :
    (sheddingPass s).cap.shedPasses = min 65535 (s.cap.shedPasses + 1) ∧ (sheddingPass s).clocks = s.clocks ∧
    (sheddingPass s).inputs = s.inputs ∧ (sheddingPass s).ports.spdif = s.ports.spdif ∧ (sheddingPass s).cues = s.cues := by
  unfold sheddingPass
  dsimp only
  split <;> simp

theorem execSheddingPass_idle {s : State} (h : decides s = false ∨ s.cap.shortfall = false ∨ shortNow s = false) :
    execSheddingPass s = .next s := by
  obtain h | h | h := h <;> simp [execSheddingPass, h]

/-- In a shortfall, with the slot of fault 0x70 free or its own, a pass runs. -/
theorem execSheddingPass_runs {s : State} (ready : s.reset_.domain = .ready) (free : decides s = true) (short : s.cap.shortfall = true)
    (now : shortNow s = true) (able : s.cap.overcommitted = false) (settled : passSettled s = true)
    (slot : faultOpen s 0x70 0 = false ∨ holdsSlot (becomesRunnable 0x70 0 s) 0x70 0 = true) :
    execSheddingPass s = .next (sheddingPass (becomesRunnable 0x70 0 s)) := by
  have runs : (holdsSlot (becomesRunnable 0x70 0 s) 0x70 0 || !faultOpen (becomesRunnable 0x70 0 s) 0x70 0) = true := by
    rw [faultOpen_keys (keys_becomesRunnable 0x70 0 s)]
    obtain h | h := slot <;> simp [h]
  simp only [execSheddingPass, mainReady, ready, free, short, now, able, settled, runs]
  simp

/-! ### Restoring (R290) -/

theorem setLaneMask_frame (id new : Nat) (s : State) :
    (setLaneMask id new s).cap = s.cap ∧ (setLaneMask id new s).progs = s.progs ∧ (setLaneMask id new s).link = s.link ∧
    (setLaneMask id new s).now = s.now := by
  unfold setLaneMask
  split <;> simp

theorem setEngineMask_frame (e new : Nat) (s : State) :
    (setEngineMask e new s).cap = s.cap ∧ (setEngineMask e new s).progs = s.progs ∧ (setEngineMask e new s).link = s.link ∧
    (setEngineMask e new s).now = s.now := by
  unfold setEngineMask
  split <;> exact ⟨rfl, rfl, rfl, rfl⟩

@[simp] theorem raise_link (bit : Nat) (body : List Byte) (s : State) : (raise bit body s).link = s.link := rfl

/-- The entry leaves the list at this instant; programs and the control link stay. -/
theorem restoreOne_takes_entry (x : ShedEntry) (s : State) :
    (restoreOne x s).cap.restoreList = s.cap.restoreList.dropLast ∧ (restoreOne x s).cap.restoredAt = some s.now ∧
    (restoreOne x s).progs = s.progs ∧ (restoreOne x s).link = s.link := by
  unfold restoreOne
  dsimp only
  split <;> split <;> simp [evShed, setEngineMask_frame, setLaneMask_frame]

theorem execRestore_busy {s : State} (busy : decides s = false) : execRestore s = .next s := by
  unfold execRestore
  split
  · simp [busy]
  · rfl

theorem execRestore_restores {s : State} {x : ShedEntry} {since : Nat} (ready : s.reset_.domain = .ready) (free : decides s = true)
    (enabled : s.cap.restore = true) (last : s.cap.restoreList.getLast? = some x) (headroom : s.cap.restoreSince = some since)
    (first : s.cap.restoredAt = none) (waited : since + 480000 ≤ s.now) (fits : restoreFits s = true)
    (room : admits s (entryCost s x) = true) : execRestore s = .next (restoreOne x s) := by
  simp [execRestore, last, headroom, mainReady, ready, free, enabled, fits, first, elapsed, waited, room]

/-! ### The derate (R292) -/

theorem execDerateDecay_decays {s : State} (derated : 0 < s.cap.derate) (quiet : s.cap.derateAt + 480000 ≤ s.now) :
    execDerateDecay s = .next { s with cap := { s.cap with derate := s.cap.derate - 1, derateAt := s.now } } := by
  simp [execDerateDecay, derated, elapsed, quiet, setCap]

/-- Settles O40: one lemma above for each way in which the five rows end. -/
theorem capacityRowsMeasureShedAndRestore : Obligations.CapacityRowsMeasureShedAndRestore := by
  intro s ready
  have free (e : s.mgr.executing = none) (c : s.mgr.cueExec = none) : decides s = true := by simp [decides, e, c]
  refine ⟨fun rings => execCapacityMeasurement_discarded rings, fun rings still => ?_, fun mw => execPowerWindow_performance mw ready,
    fun mw economy => ?_, fun idle => execSheddingPass_idle (.inr idle), fun e c short now able settled slot => ?_,
    fun x since e c enabled last headroom first waited fits room => ?_,
    fun busy => ⟨execSheddingPass_idle (.inl busy), execRestore_busy busy⟩, execDerateDecay_decays⟩
  · refine ⟨_, execCapacityMeasurement_taken rings ready still, ?_⟩
    obtain ⟨⟨cmeas, measuredAt, power, next, economy, capMw, ceiling, restore⟩, handled⟩ :=
      afterMeasurement_controls (setCap (fun c => takePolicy (measure rings c)) s)
    obtain ⟨k1, k2, k3, k4⟩ := takePolicy_keeps_measurement (measure rings s.cap)
    refine ⟨cmeas.trans k1, measuredAt.trans k2, next.trans k4, power.trans k3, fun x asked => ?_, handled⟩
    obtain ⟨t1, t2, t3, t4⟩ := takePolicy_takes (c := measure rings s.cap) asked
    exact ⟨economy.trans t1, capMw.trans t2, ceiling.trans t3, restore.trans t4⟩
  · obtain ⟨t, row, only, power, vcap⟩ := execPowerWindow_economy mw ready economy
    exact ⟨t, row, power, only, fun high => vcap.trans (moveCap_vcap_over _ high)⟩
  · obtain ⟨_, clocks, cues, inputs, _, _, _, cap, spdif⟩ := (becomesRunnable_handles 0x70 0 s).unitsStay
    obtain ⟨passes, clocks', inputs', spdif', cues'⟩ := sheddingPass_counts (becomesRunnable 0x70 0 s)
    exact ⟨_, execSheddingPass_runs ready (free e c) short now able settled slot, by rw [passes, cap], clocks'.trans clocks,
      inputs'.trans inputs, spdif'.trans spdif, cues'.trans cues⟩
  · exact ⟨_, execRestore_restores ready (free e c) enabled last headroom first waited fits room, restoreOne_takes_entry x s⟩

end Sys2Proof.Machine

/-! Lanes and engines: the 10 ms update, pilot and loop, the start of processing and the end of draining. -/

namespace Sys2Proof.Machine

/-! ### One lane changes, the others stay -/

/-- Lane `id` has become `m`, and every other lane is as it was. -/
def LaneBecomes (id : Nat) (m : Lane) (s t : State) : Prop := laneAt t id = some m ∧ ∀ k, k ≠ id → laneAt t k = laneAt s k

section
variable {id : Nat} {l m n : Lane} {s t u : State}

theorem laneBecomes_refl (h : laneAt s id = some l) : LaneBecomes id l s s := ⟨h, fun _ _ => rfl⟩

theorem laneBecomes_setLane (m : Lane) (h : laneAt s id = some l) : LaneBecomes id m s (setLane id m s) :=
  ⟨laneAt_setLane_same id m l s h, fun k ne => laneAt_setLane_other id k m s ne⟩

theorem laneBecomes_updLane (f : Lane → Lane) (h : laneAt s id = some l) : LaneBecomes id (f l) s (updLane id f s) :=
  ⟨by simp [laneAt_updLane, h], fun k ne => by simp [laneAt_updLane, ne]⟩

theorem LaneBecomes.trans (h : LaneBecomes id m s t) (k : LaneBecomes id n t u) : LaneBecomes id n s u :=
  ⟨k.1, fun i ne => (k.2 i ne).trans (h.2 i ne)⟩

theorem LaneBecomes.of_lanes (h : LaneBecomes id m s t) (stay : u.lanes = t.lanes) : LaneBecomes id m s u :=
  ⟨(laneAt_congr stay id).trans h.1, fun k ne => (laneAt_congr stay k).trans (h.2 k ne)⟩

end

/-- Time, inputs, engines, programs and capacity stay: at most lanes change. -/
@[simp, reducible] def LanesOnly (s t : State) : Prop :=
  t.now = s.now ∧ t.inputs = s.inputs ∧ t.dab = s.dab ∧ t.progs = s.progs ∧ t.cap = s.cap

/-! ### LANE_UPDATE (R126 to R151) -/

@[simp] theorem noteLq_unitsStay (id : Nat) (s : State) : UnitsStay s (noteLq id s) := by
  unfold noteLq changeStation updStation
  (repeat' split) <;> simp

@[simp] theorem laneStats_lanesOnly (id : Nat) (s : State) : LanesOnly s (laneStats id s) := by
  unfold laneStats
  (repeat' split) <;> simp

/-- The statistics flow moves one counter of its lane (R151). -/
theorem laneStats_becomes {id : Nat} {l : Lane} {s : State} (h : laneAt s id = some l) :
    ∃ n, LaneBecomes id { l with statsMs := n } s (laneStats id s) := by
  have counted (n : Nat) := laneBecomes_setLane (id := id) { l with statsMs := n } h
  simp only [laneStats, h]
  split
  · exact ⟨_, counted _⟩
  · exact ⟨0, (counted 0).of_lanes (by simp)⟩

section
variable {id : Nat} {f : LaneFigures} {l : Lane} {s : State} (lane : laneAt s id = some l) (running : l.st = .running)
include lane running

/-- During reception the update's result is the lane, but for the counter of its statistics flow. -/
theorem execLaneUpdate_receiving (rx : s.mgr.rxRunning = true) : ∃ t n, execLaneUpdate id f s = .next t ∧
    LaneBecomes id { updateLane s (isAm id) f l with statsMs := n } s t ∧ LanesOnly s t := by
  have updated := (laneBecomes_setLane (updateLane s (isAm id) f l) lane).of_lanes (noteLq_unitsStay id _).lanes
  obtain ⟨n, noted⟩ := laneStats_becomes updated.1
  have counted := (updated.trans noted).of_lanes (count_unitsStay 15 f.lost.length 0 _).lanes
  exact ⟨_, n, by simp [execLaneUpdate, lane, running, rx], counted, by simp⟩

/-- Without reception the lane conceals. -/
theorem execLaneUpdate_stopped (rx : s.mgr.rxRunning = false) : ∃ t n, execLaneUpdate id f s = .next t ∧
    LaneBecomes id { concealLane l with statsMs := n } s t := by
  have concealed := laneBecomes_setLane (concealLane l) lane
  obtain ⟨n, noted⟩ := laneStats_becomes concealed.1
  exact ⟨_, n, by simp [execLaneUpdate, lane, running, rx], concealed.trans noted⟩

end

/-- The parts of a lane that an assignment sets. -/
@[simp, reducible] def SameAssignment (l m : Lane) : Prop :=
  m.st = l.st ∧ m.freq = l.freq ∧ m.mask = l.mask ∧ m.owner = l.owner ∧ m.pinned = l.pinned ∧ m.ident = l.ident

/-- The figures of an update without a gap (Table 5-4). -/
def MeasuredFrom (am : Bool) (f : LaneFigures) (l m : Lane) : Prop :=
  m.raw.cnr = cnrByte (f.cnr : Rat) ∧ m.raw.lq = lqByte m.raw.cnr m.raw.mpImp m.raw.adj ∧ (l.first = true → m.smoothed = m.raw) ∧
  m.freqOffset = meanInt m.offsets ∧ m.offsets.length ≤ 10 ∧ m.levels.length = (if am = true then 2 else 4)

theorem measureLane_measures (s : State) (am : Bool) (f : LaneFigures) (x : List Cx) (l : Lane) :
    MeasuredFrom am f l (measureLane s am f x l) := by
  refine ⟨rfl, rfl, fun first => ?_, rfl, ?_, ?_⟩
  · simp [measureLane, first]
  · simp [measureLane]
  · cases am <;> rfl

theorem laneAudioStep_length (s : State) (am : Bool) (bb : List Cx × List Branch) (l : Lane) :
    (laneAudioStep s am bb l).audio.length ≤ 960 := by
  simp [laneAudioStep, fillFront]
  omega

/-- Figures, flags, parameters and assignment are the same. -/
@[simp, reducible] def SameFigures (l m : Lane) : Prop :=
  m.raw = l.raw ∧ m.smoothed = l.smoothed ∧ m.offsets = l.offsets ∧ m.freqOffset = l.freqOffset ∧ m.levels = l.levels ∧
  m.mute = l.mute ∧ m.valid = l.valid ∧ m.concealing = l.concealing ∧ m.fm = l.fm ∧ m.am = l.am ∧ m.fmNext = l.fmNext ∧
  m.amNext = l.amNext ∧ SameAssignment l m

@[simp] theorem laneAudioStep_sameFigures (s : State) (am : Bool) (bb : List Cx × List Branch) (l : Lane) :
    SameFigures l (laneAudioStep s am bb l) := by
  and_intros <;> rfl

@[simp] theorem noteAudio_sameFigures (l : Lane) : SameFigures l (noteAudio l) := by
  and_intros <;> rfl

@[simp] theorem noteAudio_audio (l : Lane) : (noteAudio l).audio = l.audio := rfl

@[simp] theorem measureLane_leaves (s : State) (am : Bool) (f : LaneFigures) (x : List Cx) (l : Lane) :
    SameAssignment l (measureLane s am f x l) ∧ (measureLane s am f x l).concealing = false ∧ (measureLane s am f x l).fm = l.fm ∧
    (measureLane s am f x l).am = l.am ∧ (measureLane s am f x l).fmNext = l.fmNext ∧ (measureLane s am f x l).amNext = l.amNext := by
  and_intros <;> rfl

theorem updateLane_whole {s : State} {am : Bool} {f : LaneFigures} {l : Lane} (whole : laneGap s am f l = false) :
    ∃ bb, updateLane s am f l = { noteAudio (laneAudioStep s am bb (measureLane s am f bb.1
      (takeParams (takeLost am s.now f { l with bins := carryBins s am f.bins })))) with first := false } := by
  simp only [updateLane, whole]
  exact ⟨_, rfl⟩

theorem updateLane_gap {s : State} {am : Bool} {f : LaneFigures} {l : Lane} (gap : laneGap s am f l = true) :
    ∃ bb, updateLane s am f l = { noteAudio (laneAudioStep s am bb (concealLane
      (takeLost am s.now f { l with bins := carryBins s am f.bins }))) with audioRms := l.audioRms, silenceMs := l.silenceMs } := by
  simp only [updateLane, gap]
  exact ⟨_, rfl⟩

theorem MeasuredFrom.same {am : Bool} {f : LaneFigures} {l m n : Lane} (h : MeasuredFrom am f l m) (k : SameFigures m n) :
    MeasuredFrom am f l n := by
  obtain ⟨raw, smoothed, offsets, freqOffset, levels, -⟩ := k
  unfold MeasuredFrom
  rwa [raw, smoothed, offsets, freqOffset, levels]

theorem updateLane_measured {s : State} {am : Bool} {f : LaneFigures} {l : Lane} (whole : laneGap s am f l = false) :
    MeasuredFrom am f l (updateLane s am f l) ∧ SameAssignment l (updateLane s am f l) ∧ (updateLane s am f l).audio.length ≤ 960 ∧
    (updateLane s am f l).first = false ∧ (updateLane s am f l).concealing = false ∧
    (updateLane s am f l).fm = l.fmNext.getD l.fm ∧ (updateLane s am f l).am = l.amNext.getD l.am ∧
    (updateLane s am f l).fmNext = none ∧ (updateLane s am f l).amNext = none := by
  obtain ⟨bb, same⟩ := updateLane_whole whole
  have measured := measureLane_measures s am f bb.1 (takeParams (takeLost am s.now f { l with bins := carryBins s am f.bins }))
  have heard := (measured.same (laneAudioStep_sameFigures s am bb _)).same (noteAudio_sameFigures _)
  rw [same]
  refine ⟨heard.same (by simp), by simp [takeParams, takeLost], ?_, by simp [takeParams, takeLost]⟩
  simpa using laneAudioStep_length s am bb _

/-- A gap holds every figure (R131). -/
theorem updateLane_concealed {s : State} {am : Bool} {f : LaneFigures} {l : Lane} (gap : laneGap s am f l = true) :
    (updateLane s am f l).valid = false ∧ (updateLane s am f l).concealing = true ∧ (updateLane s am f l).raw = l.raw ∧
    (updateLane s am f l).smoothed = l.smoothed ∧ (updateLane s am f l).mute = l.mute ∧
    (updateLane s am f l).freqOffset = l.freqOffset ∧ (updateLane s am f l).fmNext = l.fmNext ∧
    (updateLane s am f l).amNext = l.amNext ∧ (updateLane s am f l).audioRms = l.audioRms := by
  obtain ⟨bb, same⟩ := updateLane_gap gap
  rw [same]
  simp [concealLane, takeLost]

/-! ### Pilot and carrier loop (R136, R147) -/

theorem pilotAfter_present {o : PilotObs} {cnr : Nat} (was : Bool) (locks : o.locked = true ∨ 80 ≤ cnr) (strong : 2000 ≤ o.least)
    (long : 50 ≤ o.ms) : pilotAfter o cnr was = true := by
  simp [pilotAfter, locks, strong, long]

theorem pilotAfter_absent {o : PilotObs} (cnr : Nat) (was : Bool) (gone : o.locked = false ∨ o.most < 1000) (weak : o.least < 2000)
    (long : 20 ≤ o.ms) : pilotAfter o cnr was = false := by
  simp [pilotAfter, gone, Nat.not_le.mpr weak, long]

theorem pilotAfter_short {o : PilotObs} (cnr : Nat) (was : Bool) (short : o.ms < 20) : pilotAfter o cnr was = was := by
  have : ¬ 20 ≤ o.ms ∧ ¬ 50 ≤ o.ms := by omega
  simp [pilotAfter, this]

theorem loopAfter_locked {o : LoopObs} {cnr : Nat} (was : Bool) (near : o.most ≤ 20 ∨ (80 ≤ cnr ∧ o.drift ≤ 1000))
    (long : 100 ≤ o.ms) (capture : o.offset.natAbs ≤ 100) : loopAfter o cnr was = true := by
  simp [loopAfter, near, long, capture]

theorem loopAfter_unlocked {o : LoopObs} {cnr : Nat} (was : Bool) (beyond : 60 < o.least) (far : 20 < o.most) (weak : cnr < 80)
    (long : 50 ≤ o.ms) : loopAfter o cnr was = false := by
  have : ¬ o.most ≤ 20 ∧ ¬ 80 ≤ cnr := by omega
  simp [loopAfter, this, beyond, long]

theorem loopAfter_short {o : LoopObs} (cnr : Nat) (was : Bool) (short : o.ms < 50) : loopAfter o cnr was = was := by
  have : ¬ 100 ≤ o.ms ∧ ¬ 50 ≤ o.ms := by omega
  simp [loopAfter, this]

theorem execPilotStateChange_running {s : State} {id : Nat} {l : Lane} (o : PilotObs) (lane : s.lanes.fm[id]? = some l) (fm : id < 0x80)
    (running : l.st = .running) : execPilotStateChange id o s =
      .next { s with lanes := { s.lanes with fm := s.lanes.fm.set id { l with pilot := pilotAfter o l.raw.cnr l.pilot } } } := by
  simp [execPilotStateChange, lane, running, updLane, laneAt, setLane, fm]

theorem execSyncLoopLockChange_running {s : State} {id : Nat} {l : Lane} (o : LoopObs) (lane : s.lanes.am[id]? = some l)
    (running : l.st = .running) : execSyncLoopLockChange (id + 0x80) o s =
      .next { s with lanes := { s.lanes with am := s.lanes.am.set id { l with loop := loopAfter o l.raw.cnr l.loop } } } := by
  simp [execSyncLoopLockChange, lane, running, updLane, laneAt, setLane, isAm]

end Sys2Proof.Machine

/-! Processing starts, draining ends (R20, R21, R282). -/

namespace Sys2Proof.Machine

/-! ### One operation on every unit of a list -/

/-- An operation that changes the unit it names by `g`, and no other, changes every unit of a list once. -/
theorem get_forEach {α β : Type} [DecidableEq α] {get : State → α → β} {step : α → State → State} {g : β → β}
    {P : State → Prop}
    (keeps : ∀ i u, P u → P (step i u)) (other : ∀ i j u, j ≠ i → get (step i u) j = get u j) {l : List α} {s : State}
    (same : ∀ i ∈ l, ∀ u, P u → get (step i u) i = g (get u i)) (nodup : l.Nodup) (hs : P s) (j : α) :
    get (forEach l step s) j = if j ∈ l then g (get s j) else get s j := by
  induction l generalizing s with
  | nil => simp [forEach]
  | cons i l ih =>
    obtain ⟨fresh, rest⟩ := List.nodup_cons.mp nodup
    have after := ih (fun k hk => same k (List.mem_cons_of_mem i hk)) rest (keeps i s hs)
    change get (forEach l step (step i s)) j = _
    rw [after]
    by_cases e : j = i
    · subst e
      simp [fresh, same j (List.mem_cons_self ..) s hs]
    · simp [e, other i j s e]

/-! ### Inputs that wait (R108, R282) -/

@[simp] theorem calTrigger_unitsStay (i : Nat) (byCommand : Bool) (s : State) : UnitsStay s (calTrigger i byCommand s) := by
  unfold calTrigger
  split <;> simp

@[simp] theorem calStart_unitsStay (i : Nat) (s : State) : UnitsStay s (calStart i s) := by
  unfold calStart endDeferral
  dsimp only
  (repeat' split) <;> simp

/-- An input that waits starts. -/
def startInput (i : Nat) (s : State) : State := if (inputAt s i).waiting then inputStarts i s else s

theorem startInputs_eq {s : State} (met : capacityMet s = true) : startInputs s = forEach (List.range 6) startInput s := by
  simp [startInputs, met]
  rfl

/-- Time, lanes, engines, programs and capacity stay: at most inputs and their calibration change. -/
@[simp, reducible] def InputsOnly (s t : State) : Prop :=
  t.now = s.now ∧ t.lanes = s.lanes ∧ t.dab = s.dab ∧ t.progs = s.progs ∧ t.cap = s.cap

theorem InputsOnly.trans {s t u : State} (h : InputsOnly s t) (k : InputsOnly t u) : InputsOnly s u := by
  simp_all

theorem startInput_inputsOnly (i : Nat) (s : State) : InputsOnly s (startInput i s) := by
  unfold startInput inputStarts
  split <;> simp

theorem startInput_inputs_length (i : Nat) (s : State) : (startInput i s).inputs.length = s.inputs.length := by
  unfold startInput inputStarts
  split <;> simp

/-- An input receives, and an input waits. -/
def reception (s : State) (i : Nat) : Bool × Bool := ((inputAt s i).receiving, (inputAt s i).waiting)

theorem reception_startInput_same {i : Nat} {s : State} (h : i < s.inputs.length) :
    reception (startInput i s) i = ((inputAt s i).receiving || (inputAt s i).waiting, false) := by
  unfold startInput inputStarts reception
  split
  · next waits => simp [inputAt_congr (calStart_unitsStay _ _).inputs, inputAt_updInput_same _ _ _ h, waits]
  · next idle => simp [idle]

theorem inputAt_startInput_other {i j : Nat} (s : State) (h : j ≠ i) : inputAt (startInput i s) j = inputAt s j := by
  unfold startInput inputStarts
  split
  · rw [inputAt_congr (calStart_unitsStay _ _).inputs, inputAt_updInput_other _ _ _ _ h]
  · rfl

theorem startInputs_inputsOnly (s : State) : InputsOnly s (startInputs s) := by
  unfold startInputs
  split
  · exact foldl_inv (InputsOnly s) _ _ s (by simp) fun u i h => h.trans (startInput_inputsOnly i u)
  · simp

theorem startInputs_receiving {s : State} (met : capacityMet s = true) (six : s.inputs.length = 6) {i : Nat} (h : i < 6) :
    (inputAt (startInputs s) i).receiving = ((inputAt s i).receiving || (inputAt s i).waiting) := by
  have started := get_forEach (get := reception) (step := startInput) (g := fun x => (x.1 || x.2, false))
    (P := fun u => u.inputs.length = 6) (fun i u hu => (startInput_inputs_length i u).trans hu)
    (fun i j u ne => by simp [reception, inputAt_startInput_other u ne])
    (fun i hi u hu => reception_startInput_same (by rw [hu]; exact List.mem_range.mp hi)) List.nodup_range six i
  rw [← startInputs_eq met, if_pos (List.mem_range.mpr h)] at started
  exact congrArg Prod.fst started

/-! ### Lanes and engines in the wings -/

/-- A lane that waits in the wings runs from now on (R20). -/
def begunLane (now : Nat) (l : Lane) : Lane :=
  if l.st = .wings ∧ l.starting = true then
    { l with st := .running, starting := false, first := true, startedAt := now, doneTag := none } else l

theorem laneAt_startLane (id k : Nat) (s : State) :
    laneAt (startLane id s) k = if k = id then (laneAt s k).map (begunLane s.now) else laneAt s k := by
  cases lane : laneAt s id with
  | none =>
    by_cases h : k = id
    · subst h; simp [startLane, lane]
    · simp [startLane, lane, h]
  | some l =>
    by_cases waits : l.st = .wings ∧ l.starting = true
    · rw [← laneAt_updLane]
      refine laneAt_congr ?_ k
      cases tag : l.doneTag <;> simp [startLane, updLane, lane, waits, begunLane, evCmdDone, tag]
    · have stays : startLane id s = s := by
        have : (l.st == .wings && l.starting) = false := by simpa using waits
        simp [startLane, lane, this]
      rw [stays]
      by_cases h : k = id
      · subst h; simp [lane, begunLane, waits]
      · simp [h]

theorem startLane_becomes {id : Nat} {l : Lane} {s : State} (lane : laneAt s id = some l) :
    LaneBecomes id (begunLane s.now l) s (startLane id s) :=
  ⟨by simp [laneAt_startLane, lane], fun k ne => by simp [laneAt_startLane, ne]⟩

@[simp] theorem startLane_lanesOnly (id : Nat) (s : State) : LanesOnly s (startLane id s) := by
  unfold startLane evCmdDone
  dsimp only
  (repeat' split) <;> simp

/-- An engine that waits in the wings begins with the null search (Table 7-4). -/
def begunEngine (now : Nat) (x : Engine) : Engine :=
  if x.st = .wings ∧ x.starting = true then
    { x with st := .running, starting := false, acq := .nullSearch, startedAt := now, doneTag := none } else x

theorem engineAt_startEngine (e k : Nat) (s : State) :
    engineAt (startEngine e s) k = if k = e then (engineAt s k).map (begunEngine s.now) else engineAt s k := by
  cases engine : engineAt s e with
  | none =>
    by_cases h : k = e
    · subst h; simp [startEngine, engine]
    · simp [startEngine, engine, h]
  | some x =>
    by_cases waits : x.st = .wings ∧ x.starting = true
    · have begun : (startEngine e s).dab = (updEngine e (begunEngine s.now) s).dab := by
        have same : upd s.dab.engines e (begunEngine s.now) = upd s.dab.engines e (fun x => { x with
            st := .running, starting := false, acq := .nullSearch, startedAt := s.now, doneTag := none }) := by
          refine upd_congr fun y hy => ?_
          cases hy.symm.trans engine
          simp [begunEngine, waits]
        cases tag : x.doneTag <;> simp [startEngine, engine, waits, evCmdDone, tag, updEngine, same]
      rw [engineAt_congr begun, engineAt_updEngine]
    · have stays : startEngine e s = s := by
        have : (x.st == .wings && x.starting) = false := by simpa using waits
        simp [startEngine, engine, this]
      rw [stays]
      by_cases h : k = e
      · subst h; simp [engine, begunEngine, waits]
      · simp [h]

/-- Time, inputs, lanes, programs and capacity stay: at most engines change. -/
@[simp, reducible] def EnginesOnly (s t : State) : Prop :=
  t.now = s.now ∧ t.inputs = s.inputs ∧ t.lanes = s.lanes ∧ t.progs = s.progs ∧ t.cap = s.cap

theorem startEngine_enginesOnly (e : Nat) (s : State) : EnginesOnly s (startEngine e s) := by
  unfold startEngine evCmdDone
  dsimp only
  (repeat' split) <;> simp

/-! ### Everything that has been admitted begins (R282) -/

theorem laneAt_startAntennas (s : State) (id : Nat) : laneAt (startAntennas s) id = (laneAt s id).map fun l => { l with held := 0 } := by
  unfold laneAt startAntennas
  split <;> simp

theorem engineAt_startAntennas (s : State) (e : Nat) :
    engineAt (startAntennas s) e = (engineAt s e).map fun x => fitEngine { x with held := 0 } := by
  simp [engineAt, startAntennas]

theorem mem_laneIds {s : State} {id : Nat} {l : Lane} (lane : laneAt s id = some l) : id ∈ laneIds s := by
  unfold laneAt at lane
  unfold laneIds
  split at lane
  · obtain ⟨h, -⟩ := List.getElem?_eq_some_iff.mp lane
    simp [h]
  · obtain ⟨h, -⟩ := List.getElem?_eq_some_iff.mp lane
    exact List.mem_append_right _ (List.mem_map.mpr ⟨id - 0x80, List.mem_range.mpr h, by omega⟩)

theorem laneIds_nodup {s : State} (h : s.lanes.fm.length ≤ 0x80) : (laneIds s).Nodup := by
  refine List.Nodup.append List.nodup_range (List.nodup_range.map fun a b e => by simpa using e) ?_
  simp only [List.disjoint_left, List.mem_range, List.mem_map, not_exists, not_and]
  omega

/-- The lanes of a variant have their identifiers below 0x80 (Table 1-2). -/
theorem fmLanes_le (v : Variant) : v.fmLanes ≤ 0x80 := by
  unfold Variant.fmLanes
  cases v.tier <;> decide

/-- The first half of `startAll`: antennas held back and lanes in the wings have begun. -/
def lanesBegun (s : State) : State := forEach (laneIds s) startLane (startAntennas s)

theorem lanesBegun_lanesOnly (s : State) : LanesOnly (startAntennas s) (lanesBegun s) :=
  foldl_inv (LanesOnly (startAntennas s)) _ _ _ (by simp) fun u id h => by
    have := startLane_lanesOnly id u
    simp_all

/-- Its second half: engines in the wings have begun. -/
def enginesBegun (s : State) : State := forEach (List.range s.dab.engines.length) startEngine s

theorem enginesBegun_enginesOnly (s : State) : EnginesOnly s (enginesBegun s) :=
  foldl_inv (EnginesOnly s) _ _ _ (by simp) fun u e h => by
    have := startEngine_enginesOnly e u
    simp_all

theorem startAll_eq (s : State) : startAll s = finishWait .reception (enginesBegun (lanesBegun s)) := rfl

theorem startAll_frame (s : State) : (startAll s).inputs = s.inputs ∧ (startAll s).progs = s.progs ∧ (startAll s).cap = s.cap := by
  obtain ⟨_, inputs, _, progs, cap⟩ := lanesBegun_lanesOnly s
  obtain ⟨_, inputs', _, progs', cap'⟩ := enginesBegun_enginesOnly (lanesBegun s)
  rw [startAll_eq]
  simp [inputs', progs', cap', inputs, progs, cap, startAntennas]

theorem laneAt_startAll {s : State} {id : Nat} {l : Lane} (ids : s.lanes.fm.length ≤ 0x80) (lane : laneAt s id = some l) :
    laneAt (startAll s) id = some (begunLane s.now { l with held := 0 }) := by
  have stay : (startAll s).lanes = (lanesBegun s).lanes := by
    have := enginesBegun_enginesOnly (lanesBegun s)
    rw [startAll_eq]
    simp_all
  have begun := get_forEach (get := laneAt) (step := startLane) (g := Option.map (begunLane s.now)) (P := fun u => u.now = s.now)
    (fun i u hu => (startLane_lanesOnly i u).1.trans hu) (fun i j u ne => by simp [laneAt_startLane, ne])
    (fun i _ u hu => by simp [laneAt_startLane, hu]) (laneIds_nodup ids) (s := startAntennas s) rfl id
  rw [laneAt_congr stay, lanesBegun, begun, if_pos (mem_laneIds lane), laneAt_startAntennas, lane]
  rfl

theorem engineAt_startAll {s : State} {e : Nat} {x : Engine} (engine : engineAt s e = some x) :
    engineAt (startAll s) e = some (begunEngine s.now (fitEngine { x with held := 0 })) := by
  obtain ⟨now, _, dab, _⟩ := lanesBegun_lanesOnly s
  have stay : (startAll s).dab = (enginesBegun (lanesBegun s)).dab := by simp [startAll_eq]
  have fitted : engineAt (lanesBegun s) e = some (fitEngine { x with held := 0 }) := by
    rw [engineAt_congr dab, engineAt_startAntennas, engine]
    rfl
  have inside : e ∈ List.range (lanesBegun s).dab.engines.length := List.mem_range.mpr (List.getElem?_eq_some_iff.mp fitted).1
  have begun := get_forEach (get := engineAt) (step := startEngine) (g := Option.map (begunEngine s.now)) (P := fun u => u.now = s.now)
    (fun i u hu => (startEngine_enginesOnly i u).1.trans hu) (fun i j u ne => by simp [engineAt_startEngine, ne])
    (fun i _ u hu => by simp [engineAt_startEngine, hu])
    (List.nodup_range (n := (lanesBegun s).dab.engines.length)) (s := lanesBegun s) now e
  rw [engineAt_congr stay, enginesBegun, begun, if_pos inside, fitted]
  rfl

theorem execProcessingStart_begins {s : State} (ready : s.reset_.domain = .ready) (met : capacityMet s = true) :
    execProcessingStart s = .next (startAll (startInputs s)) := by
  simp [execProcessingStart, mainReady, ready, met, beginAll]

theorem execProcessingStart_unmet {s : State} (unmet : capacityMet s = false) : execProcessingStart s = .next s := by
  simp [execProcessingStart, unmet]

/-! ### The end of draining (R21) -/

theorem freeLane_frees {id : Nat} {l : Lane} {s : State} (lane : laneAt s id = some l) :
    LaneBecomes id Lane.free s (freeLane id s) :=
  laneBecomes_updLane (s := forgetShed false id s) (fun _ => Lane.free) lane

theorem freeEngine_engines (e : Nat) (s : State) :
    (freeEngine e s).dab.engines = upd s.dab.engines e fun _ => Engine.free := by
  unfold freeEngine
  dsimp only
  (repeat' split) <;> rfl

theorem engineAt_freeEngine {e : Nat} {x : Engine} {s : State} (k : Nat) (engine : engineAt s e = some x) :
    engineAt (freeEngine e s) k = if k = e then some Engine.free else engineAt s k := by
  unfold engineAt at *
  rw [freeEngine_engines, getElem?_upd]
  by_cases h : k = e
  · subst h; simp [engine]
  · simp [h]

theorem freeEngine_frame (e : Nat) (s : State) :
    (freeEngine e s).lanes = s.lanes ∧ (freeEngine e s).progs = s.progs ∧ (freeEngine e s).events = s.events := by
  unfold freeEngine
  dsimp only
  (repeat' split) <;> exact ⟨rfl, rfl, rfl⟩

/-- The pending assignment of the host as it stands in the wings, still to begin unless it asked for the wings. -/
def pendingLane (s : State) (id : Nat) (p : Pend) : Lane :=
  { assignedLane s (isAm id) .host p.freq (laneMask s s.clocks.plan id p.freq p.asked) p.pin p.start p.af with
    doneTag := if p.start then none else some (p.opc, p.tag) }

theorem pendingLane_starting (s : State) (id : Nat) (p : Pend) : (pendingLane s id p).starting = !p.start := rfl

/-- The pending assignment is put on its lane. -/
def putPending (s : State) (id : Nat) (p : Pend) : State :=
  putLane id .host p.freq (laneMask s s.clocks.plan id p.freq p.asked) p.pin p.start p.af s

/-- With `start` 0 its command is noted, to be done when processing begins (R282). -/
def notePending (s : State) (id : Nat) (p : Pend) : State :=
  updLane id (fun l => { l with doneTag := some (p.opc, p.tag) }) (putPending s id p)

@[simp] theorem putPending_lanesOnly (s : State) (id : Nat) (p : Pend) : LanesOnly s (putPending s id p) := by
  simp [putPending, putLane]

@[simp] theorem notePending_lanesOnly (s : State) (id : Nat) (p : Pend) : LanesOnly s (notePending s id p) := by
  simp [notePending]

theorem execDrainingEnd_unassigned {id : Nat} {l : Lane} {s : State} (lane : laneAt s id = some l) (draining : l.st = .draining)
    (none_pending : l.pend = none) : execDrainingEnd false id s = .next (freeLane id s) := by
  simp [execDrainingEnd, lane, draining, endLaneDrain, none_pending]

section
variable {id : Nat} {l : Lane} {s : State} {p : Pend} (lane : laneAt s id = some l) (pending : l.pend = some p)
include lane

theorem putPending_becomes (start : p.start = true) : LaneBecomes id (pendingLane s id p) s (putPending s id p) := by
  have put : LaneBecomes id (assignedLane s (isAm id) .host p.freq (laneMask s s.clocks.plan id p.freq p.asked) p.pin p.start p.af) s
      (putPending s id p) := laneBecomes_updLane _ lane
  rw [pendingLane, if_pos start]
  exact put

theorem notePending_becomes (start : p.start = false) : LaneBecomes id (pendingLane s id p) s (notePending s id p) := by
  have put : LaneBecomes id (assignedLane s (isAm id) .host p.freq (laneMask s s.clocks.plan id p.freq p.asked) p.pin p.start p.af) s
      (putPending s id p) := laneBecomes_updLane _ lane
  rw [pendingLane, if_neg (by simp [start])]
  exact put.trans (laneBecomes_updLane _ put.1)

include pending

theorem endLaneDrain_pending (host : p.owner = .host) (served : laneMask s s.clocks.plan id p.freq p.asked ≠ 0) :
    endLaneDrain id s = if p.start then evCmdDone p.opc p.tag stOk (putPending s id p)
      else if capacityMet (notePending s id p) then startLane id (notePending s id p) else notePending s id p := by
  simp only [endLaneDrain, lane, pending, served, host]
  rfl

/-- It takes effect: in the wings, or running once the capacity carries it (R282). -/
theorem execDrainingEnd_assigned (draining : l.st = .draining) (host : p.owner = .host)
    (served : laneMask s s.clocks.plan id p.freq p.asked ≠ 0) : ∃ t m, execDrainingEnd false id s = .next t ∧ LaneBecomes id m s t ∧
      t.dab = s.dab ∧ t.progs = s.progs ∧
      (m = pendingLane s id p ∨ p.start = false ∧ m = begunLane s.now (pendingLane s id p)) := by
  have row : execDrainingEnd false id s = .next (endLaneDrain id s) := by simp [execDrainingEnd, lane, draining]
  rw [row, endLaneDrain_pending lane pending host served]
  cases start : p.start with
  | true => exact ⟨_, _, rfl, (putPending_becomes lane start).of_lanes (raise_unitsStay _ _ _).lanes, by simp [evCmdDone],
      by simp [evCmdDone], .inl rfl⟩
  | false =>
    have noted := notePending_becomes lane start
    simp only [Bool.false_eq_true, if_false]
    split
    · exact ⟨_, _, rfl, noted.trans (startLane_becomes noted.1), by simp, by simp, .inr ⟨trivial, by simp⟩⟩
    · exact ⟨_, _, rfl, noted, by simp, by simp, .inl rfl⟩

end

theorem execDrainingEnd_engine {e : Nat} {x : Engine} {s : State} (engine : engineAt s e = some x) (draining : x.st = .draining)
    (none_pending : x.pend = none) : execDrainingEnd true e s = .next (freeEngine e s) := by
  simp [execDrainingEnd, engine, draining, endEngineDrain, none_pending]

/-- Settles O46: `updateLane_measured` and `updateLane_concealed` say what an update makes of its lane, `laneAt_startAll` and
`engineAt_startAll` what the start of processing makes of each unit, `execDrainingEnd_assigned` what draining ends in. -/
theorem laneRowsUpdateStartAndDrain : Obligations.LaneRowsUpdateStartAndDrain := by
  intro s shaped
  obtain ⟨six, _, _, fm, _⟩ := shaped
  have ids : s.lanes.fm.length ≤ 0x80 := fm ▸ fmLanes_le _
  refine ⟨fun id f l lane running rx whole => ?_, fun id f l lane running rx gap => ?_, fun id f l lane running rx => ?_,
    fun id o l => execPilotStateChange_running o,
    fun o c was => ⟨pilotAfter_present was, pilotAfter_absent c was, pilotAfter_short c was⟩,
    fun id o l => execSyncLoopLockChange_running o,
    fun o c was => ⟨loopAfter_locked was, loopAfter_unlocked was, loopAfter_short c was⟩,
    fun ready met => ?_, execProcessingStart_unmet, fun id l lane draining pending => ?_,
    fun id l p lane draining pending host served => ?_, fun e x engine draining pending => ?_⟩
  · obtain ⟨t, n, row, ⟨here, others⟩, -, -, dab, progs, cap⟩ := execLaneUpdate_receiving (f := f) lane running rx
    obtain ⟨⟨cnr, lq, smoothed, offset, offsets, levels⟩, ⟨st, freq, mask, owner, pinned, ident⟩, audio, first,
      concealing, fmSet, amSet, fmNext, amNext⟩ := updateLane_measured whole
    exact ⟨t, _, row, here, cnr, lq, smoothed, first, concealing, offset, offsets, levels, fmSet, amSet, fmNext, amNext, audio,
      st.trans running, freq, mask, owner, pinned, ident, others, progs, dab, cap⟩
  · obtain ⟨t, n, row, ⟨here, others⟩, -, -, dab, progs, cap⟩ := execLaneUpdate_receiving (f := f) lane running rx
    obtain ⟨valid, concealing, raw, smoothed, mute, offset, fmNext, amNext, audioRms⟩ := updateLane_concealed gap
    exact ⟨t, _, row, here, valid, concealing, raw, smoothed, mute, offset, fmNext, amNext, audioRms, others, progs, dab, cap⟩
  · obtain ⟨t, n, row, here, others⟩ := execLaneUpdate_stopped (f := f) lane running rx
    exact ⟨t, _, row, here, rfl, rfl, rfl, rfl, others⟩
  · obtain ⟨now, lanes, dab, progs, cap⟩ := startInputs_inputsOnly s
    obtain ⟨inputs, progs', cap'⟩ := startAll_frame (startInputs s)
    refine ⟨_, execProcessingStart_begins ready met, fun id l lane => ?_, fun e x engine => ?_, fun i hi => ?_, progs'.trans progs,
      cap'.trans cap⟩
    · rw [laneAt_startAll (lanes ▸ ids) ((laneAt_congr lanes id).trans lane), now]
      unfold begunLane
      split <;> rfl
    · refine ⟨_, engineAt_startAll ((engineAt_congr dab e).trans engine), ?_⟩
      rw [now]
      by_cases waits : x.st = .wings ∧ x.starting = true
      · simp [begunEngine, fitEngine, waits]
      · simp [begunEngine, fitEngine, waits]
    · rw [inputAt_congr inputs]
      exact startInputs_receiving met six hi
  · obtain ⟨here, others⟩ := freeLane_frees lane
    refine ⟨_, execDrainingEnd_unassigned lane draining pending, here, others, ?_, ?_, ?_⟩ <;> simp [freeLane, forgetShed]
  · obtain ⟨t, m, row, ⟨here, others⟩, dab, progs, which⟩ := execDrainingEnd_assigned lane pending draining host served
    refine ⟨t, m, row, here, ?_⟩
    obtain rfl | ⟨start, rfl⟩ := which
    · exact ⟨rfl, rfl, rfl, rfl, fun start => ⟨rfl, by simp [pendingLane_starting, start]⟩,
        fun start => .inr ⟨rfl, by simp [pendingLane_starting, start], by simp [pendingLane, start]⟩, others, dab, progs⟩
    · rw [begunLane, if_pos ⟨rfl, by simp [pendingLane_starting, start]⟩]
      exact ⟨rfl, rfl, rfl, rfl, fun wings => by simp [wings] at start, fun _ => .inl ⟨rfl, rfl, rfl⟩, others, dab, progs⟩
  · obtain ⟨lanes, progs, events⟩ := freeEngine_frame e s
    exact ⟨_, execDrainingEnd_engine engine draining pending, by simp [engineAt_freeEngine e engine],
      fun k ne => by simp [engineAt_freeEngine k engine, ne], lanes, progs, events⟩

end Sys2Proof.Machine

/-! Inputs: the gain rows, and what each shared operation leaves of an input. -/

namespace Sys2Proof.Machine

/-! ### One input changes -/

/-- A part of an input that a change leaves is the same on every input. -/
theorem inputAt_updInput_part {α : Type} (g : Input → α) {f : Input → Input} (i j : Nat) (s : State) (same : ∀ x, g (f x) = g x) :
    g (inputAt (updInput i f s) j) = g (inputAt s j) := by
  by_cases h : j = i
  · subst h
    by_cases inside : j < s.inputs.length
    · rw [inputAt_updInput_same _ _ _ inside, same]
    · simp [inputAt, List.getD, getElem?_upd, List.getElem?_eq_none (Nat.le_of_not_lt inside)]
  · rw [inputAt_updInput_other _ _ _ _ h]

/-- At most input `i` and reports change. -/
def OwnInput (i : Nat) (s t : State) : Prop :=
  (∀ j, j ≠ i → inputAt t j = inputAt s j) ∧ t.inputs.length = s.inputs.length ∧ Reports { s with inputs := t.inputs } t

section
variable {i : Nat} {s t u : State}

theorem OwnInput.refl (i : Nat) (s : State) : OwnInput i s s := ⟨fun _ _ => rfl, rfl, Reports.refl s⟩

theorem OwnInput.trans (h : OwnInput i s t) (k : OwnInput i t u) : OwnInput i s u := by
  obtain ⟨others, length, only⟩ := h
  obtain ⟨others', length', only'⟩ := k
  refine ⟨fun j ne => (others' j ne).trans (others j ne), length'.trans length, ?_⟩
  unfold Reports at only only' ⊢
  exact only'.trans (by rw [only])

theorem OwnInput.withCal (h : OwnInput i s t) (c : Cal) : OwnInput i { s with cal := c } { t with cal := c } := by
  obtain ⟨others, length, only⟩ := h
  refine ⟨others, length, ?_⟩
  unfold Reports at only ⊢
  rw [only]

theorem OwnInput.cal (h : OwnInput i s t) : t.cal = s.cal := by
  obtain ⟨-, -, only⟩ := h
  unfold Reports at only
  rw [only]

theorem ownInput_of_reports (h : Reports s t) : OwnInput i s t := by
  have inputs := (handles_of_reports h).unitsStay.inputs
  refine ⟨fun j _ => inputAt_congr inputs j, by rw [inputs], ?_⟩
  rw [inputs]
  exact h

theorem updInput_ownInput (i : Nat) (f : Input → Input) (s : State) : OwnInput i s (updInput i f s) :=
  ⟨fun j ne => inputAt_updInput_other i j f s ne, by simp [updInput], rfl⟩

end

/-! ### Gain and overload (R44 to R47, R54, R55) -/

section
variable (i j : Nat) (s : State)

theorem judgeOverload_ownInput : OwnInput i s (judgeOverload i s) := by
  unfold judgeOverload
  dsimp only
  split
  · exact OwnInput.refl i s
  · exact (updInput_ownInput i _ s).trans (ownInput_of_reports (raise_reports _ _ _))

theorem inputAt_judgeOverload_part {α : Type} (g : Input → α) (same : ∀ x b, g { x with overloaded := b } = g x) :
    g (inputAt (judgeOverload i s) j) = g (inputAt s j) := by
  unfold judgeOverload
  dsimp only
  split
  · rfl
  · unfold evInput evLane
    rw [inputAt_congr (raise_unitsStay _ _ _).inputs]
    exact inputAt_updInput_part g i j s fun x => same x _

theorem setGain_ownInput (new : Nat) : OwnInput i s (setGain i new s) := updInput_ownInput i _ s

theorem inputAt_setGain_gcfg (new : Nat) : (inputAt (setGain i new s) j).gcfg = (inputAt s j).gcfg :=
  inputAt_updInput_part (·.gcfg) i j s fun x => by split <;> rfl

theorem inputAt_setGain_rms (new : Nat) : (inputAt (setGain i new s) j).rms = (inputAt s j).rms :=
  inputAt_updInput_part (·.rms) i j s fun x => by split <;> rfl

theorem inputAt_setGain_gain (new : Nat) (inside : i < s.inputs.length) : (inputAt (setGain i new s) i).gain = new := by
  rw [setGain, inputAt_updInput_same _ _ _ inside]
  split
  · next same => exact same
  · rfl

theorem applyGainCfg_ownInput : OwnInput i s (applyGainCfg i s) :=
  ((updInput_ownInput i _ s).trans (setGain_ownInput i _ _)).trans (judgeOverload_ownInput i _)

theorem inputAt_applyGainCfg_gcfg : (inputAt (applyGainCfg i s) j).gcfg = (inputAt s j).gcfg := by
  unfold applyGainCfg
  rw [inputAt_judgeOverload_part i j _ (·.gcfg) fun _ _ => rfl, inputAt_setGain_gcfg, inputAt_updInput_part (·.gcfg)]
  exact fun _ => rfl

theorem firstStep_ownInput : OwnInput i s (firstStep i s) := by
  unfold firstStep
  split
  · exact applyGainCfg_ownInput i s
  · exact OwnInput.refl i s

theorem inputAt_firstStep_gcfg : (inputAt (firstStep i s) j).gcfg = (inputAt s j).gcfg := by
  unfold firstStep
  split
  · exact inputAt_applyGainCfg_gcfg i j s
  · rfl

end

/-! ### The 64 us window (R44, R45) -/

/-- The window's clipped samples are noted; the gain has not moved yet. -/
def noteClips (i clipped samples : Nat) (s : State) : State :=
  updInput i (fun x => { x with
    clipHist := ((s.now, clipped, samples) :: x.clipHist).take clipWindows,
    clipMs := (x.clipMs.1 + clipped, x.clipMs.2 + samples), clipSeen := x.clipSeen || decide (0 < clipped) }) (count i clipped i s)

section
variable (i c n j : Nat) (s : State)

theorem noteClips_ownInput : OwnInput i s (noteClips i c n s) :=
  (ownInput_of_reports (count_reports i c i s)).trans (updInput_ownInput i _ _)

theorem inputAt_noteClips_gcfg : (inputAt (noteClips i c n s) j).gcfg = (inputAt s j).gcfg := by
  rw [noteClips, inputAt_updInput_part (·.gcfg), inputAt_congr (count_unitsStay _ _ _ _).inputs]
  exact fun _ => rfl

theorem inputAt_noteClips_gain : (inputAt (noteClips i c n s) j).gain = (inputAt s j).gain := by
  rw [noteClips, inputAt_updInput_part (·.gain), inputAt_congr (count_unitsStay _ _ _ _).inputs]
  exact fun _ => rfl

theorem gainWindow64_eq : gainWindow64 i c n s = judgeOverload i
    (if !(inputAt s i).gcfg.fixedMode && decide (4 ≤ c) then
      setGain i (limitGain (inputAt s i).gcfg (((inputAt s i).gain : Int) - 3)) (noteClips i c n s) else noteClips i c n s) := by
  rw [← inputAt_noteClips_gcfg i c n i s, ← inputAt_noteClips_gain i c n i s]
  rfl

theorem gainWindow64_ownInput : OwnInput i s (gainWindow64 i c n s) := by
  rw [gainWindow64_eq]
  refine OwnInput.trans ?_ (judgeOverload_ownInput i _)
  split
  · exact (noteClips_ownInput i c n s).trans (setGain_ownInput i _ _)
  · exact noteClips_ownInput i c n s

theorem inputAt_gainWindow64_gcfg : (inputAt (gainWindow64 i c n s) j).gcfg = (inputAt s j).gcfg := by
  rw [gainWindow64_eq, inputAt_judgeOverload_part i j _ (·.gcfg) fun _ _ => rfl]
  split
  · rw [inputAt_setGain_gcfg, inputAt_noteClips_gcfg]
  · rw [inputAt_noteClips_gcfg]

variable {i c s}

/-- Few clipped samples, or the fixed mode, keep the gain. -/
theorem inputAt_gainWindow64_keeps (h : c < 4 ∨ (inputAt s i).gcfg.fixedMode = true) :
    (inputAt (gainWindow64 i c n s) i).gain = (inputAt s i).gain := by
  have still : (!(inputAt s i).gcfg.fixedMode && decide (4 ≤ c)) = false := by
    obtain few | fixed := h
    · simp [few]
    · simp [fixed]
  rw [gainWindow64_eq, still, inputAt_judgeOverload_part i i _ (·.gain) fun _ _ => rfl, if_neg Bool.false_ne_true, inputAt_noteClips_gain]

/-- The fast down-step of automatic mode. -/
theorem inputAt_gainWindow64_steps (inside : i < s.inputs.length) (clips : 4 ≤ c) (automatic : (inputAt s i).gcfg.fixedMode = false) :
    (inputAt (gainWindow64 i c n s) i).gain = limitGain (inputAt s i).gcfg (((inputAt s i).gain : Int) - 3) := by
  have steps : (!(inputAt s i).gcfg.fixedMode && decide (4 ≤ c)) = true := by simp [automatic, clips]
  obtain ⟨-, length, -⟩ := noteClips_ownInput i c n s
  rw [gainWindow64_eq, steps, inputAt_judgeOverload_part i i _ (·.gain) fun _ _ => rfl, if_pos rfl,
    inputAt_setGain_gain i _ _ (length ▸ inside)]

end

/-! ### The 1 ms window (R44, R80) -/

section
variable (i : Nat) (rms : Int) (s : State)

/-- A measured step touches the input and the calibration's step sizes. -/
theorem measureStep_ownInput : OwnInput i { s with cal := (measureStep i rms s).cal } (measureStep i rms s) := by
  have ended := updInput_ownInput i (fun x => { x with stepPending := none }) s
  unfold measureStep
  dsimp only
  split
  · exact OwnInput.refl i s
  · split
    · exact ended.withCal _
    · exact ended

theorem inputAt_measureStep_part {α : Type} (g : Input → α) (same : ∀ x p, g { x with stepPending := p } = g x) :
    g (inputAt (measureStep i rms s) i) = g (inputAt s i) := by
  have ended := inputAt_updInput_part g i i s fun x => same x none
  unfold measureStep
  dsimp only
  split
  · rfl
  · split
    · exact ended
    · exact ended

theorem gainWindow1_ownInput : OwnInput i { s with cal := (gainWindow1 i rms s).cal } (gainWindow1 i rms s) := by
  have later : OwnInput i (measureStep i rms s) (gainWindow1 i rms s) :=
    ((updInput_ownInput i _ _).trans (setGain_ownInput i _ _)).trans (judgeOverload_ownInput i _)
  rw [later.cal]
  exact (measureStep_ownInput i rms s).trans later

variable {i s}

theorem inputAt_gainWindow1_rms (inside : i < s.inputs.length) : (inputAt (gainWindow1 i rms s) i).rms = rms := by
  obtain ⟨-, length, -⟩ := measureStep_ownInput i rms s
  unfold gainWindow1
  rw [inputAt_judgeOverload_part i i _ (·.rms) fun _ _ => rfl, inputAt_setGain_rms, inputAt_updInput_same _ _ _ (length ▸ inside)]

theorem inputAt_gainWindow1_fixed (inside : i < s.inputs.length) (fixed : (inputAt s i).gcfg.fixedMode = true) :
    (inputAt (gainWindow1 i rms s) i).gain = (inputAt s i).gain := by
  obtain ⟨-, length, -⟩ := measureStep_ownInput i rms s
  have measured : i < (measureStep i rms s).inputs.length := length ▸ inside
  have gcfg := inputAt_measureStep_part i rms s (·.gcfg) fun _ _ => rfl
  have gain := inputAt_measureStep_part i rms s (·.gain) fun _ _ => rfl
  unfold gainWindow1
  rw [inputAt_judgeOverload_part i i _ (·.gain) fun _ _ => rfl, inputAt_setGain_gain i _ _ (by simpa [updInput] using measured),
    inputAt_updInput_same _ _ _ measured]
  simp [gainDecision, gcfg, gain, fixed]

end

section
variable {i : Nat} {s : State} (bonds : bonded s i = true) (receives : (inputAt s i).receiving = true) (clocked : pllSUp s.clocks = true)
include bonds receives clocked

theorem execGainWindow64us_sampling (c n : Nat) : execGainWindow64us i c n s = .next (gainWindow64 i c n (firstStep i s)) := by
  simp [execGainWindow64us, sampling, bonds, receives, clocked]

theorem execGainWindow1ms_sampling (rms : Int) : execGainWindow1ms i rms s = .next (gainWindow1 i rms (firstStep i s)) := by
  simp [execGainWindow1ms, sampling, bonds, receives, clocked]

theorem execBinMapUpdate_sampling (l : List Int) : execBinMapUpdate i l s =
    .next (updInput i (fun x => { x with binMap := l.map (compensated x), binDfc := s.time.dfc }) s) := by
  simp [execBinMapUpdate, sampling, bonds, receives, clocked]

end

end Sys2Proof.Machine

/-! Feed lines, temperatures and the start after a thermal trip. -/

namespace Sys2Proof.Machine

/-! ### Feed lines (R60) -/

theorem feeds_getD {n : Nat} {f : Feed} {s : State} (d : Feed) (line : s.feeds[n]? = some f) : s.feeds.getD n d = f := by simp [line]

theorem updFeed_of_some {n : Nat} {f : Feed} {s : State} (g : Feed → Feed) (line : s.feeds[n]? = some f) :
    updFeed n g s = { s with feeds := s.feeds.set n (g f) } := by
  unfold updFeed
  rw [upd_of_some g line]

theorem Handles.feeds {s t : State} (h : Handles s t) : t.feeds = s.feeds := by rw [h.1]

/-- Recoveries of other units see nothing of the feed lines. -/
theorem Handles.withFeeds {s t : State} (h : Handles s t) (l : List Feed) : Handles { s with feeds := l } { t with feeds := l } :=
  ⟨by rw [h.1], h.2⟩

theorem Reports.feeds {s t : State} (h : Reports s t) : t.feeds = s.feeds := (handles_of_reports h).feeds

/-- Aborting a recovery of a rank other than a port's gates nothing (R320). -/
theorem abortRec_reports {r : Recovery} (rank : Nat) (s : State) (other : r.rank ≠ 6) : Reports s (abortRec r rank s) := by
  unfold abortRec
  rw [if_neg other]
  exact (updRec_reports _ _ _ s).trans (logRec_reports _ _ _ _)

/-- A fault of a rank below the ports' that does not run at once touches no port. -/
theorem faultBegins_reports {code : Nat} (inst a : Nat) (b : Int) (s : State) (low : 6 ≤ rankOf code) :
    Reports s (faultBegins code inst a b false s) := by
  unfold faultBegins
  split
  · split <;> exact (updRec_reports _ _ _ s).trans (logRec_reports _ _ _ _)
  · have opened (r : Recovery) := (setRecs_reports (s.integ.recoveries ++ [r]) s).trans (logRec_reports r 0 0 _)
    dsimp only
    rw [if_neg Bool.false_ne_true]
    split
    · exact opened _
    · split
      · next q _ above => exact (opened _).trans (abortRec_reports _ _ (by omega))
      · exact (opened _).trans ((updRec_reports _ _ _ _).trans (logRec_reports _ _ _ _))

/-- The retries after a failure: one more within a second of the line's last start. -/
def retriesAfter (now : Nat) (f : Feed) : Nat :=
  if (match f.enabledAt with | some t => decide (now ≤ t + 48000) | none => false) then min 255 (f.retries + 1) else f.retries

/-- The line that fails waits from now on. -/
def failedFeed (now : Nat) (f : Feed) : Feed :=
  { f with enabled := false, faultLow := true, retries := retriesAfter now f, waitSince := some now, enabledAt := none }

/-- The line after its wait: latched off once the retries are used up, else as its mode asks. -/
def retriedFeed (s : State) (n : Nat) (f : Feed) : Feed :=
  if f.retryMax ≤ f.retries then { f with latched := true, waitSince := none, faultLow := false }
  else { f with waitSince := none, faultLow := false, enabled := feedWanted s n f,
                enabledAt := if feedWanted s n f then some s.now else none }

section
variable {n : Nat} {f : Feed} {s : State} (line : s.feeds[n]? = some f)
include line

theorem feedFault_fails : Reports { s with feeds := s.feeds.set n (failedFeed s.now f) } (feedFault n s) := by
  unfold feedFault
  dsimp only
  rw [feeds_getD _ line, updFeed_of_some _ line]
  exact (raise_reports _ _ _).trans (faultBegins_reports _ _ _ _ (by decide))

theorem idleFeedFault_notes : idleFeedFault n s = if f.latched = true ∨ f.waitSince ≠ none
    then { s with feeds := s.feeds.set n { f with faultLow := true } }
    else evAntFault n 0 f.retries { s with feeds := s.feeds.set n { f with faultLow := true } } := by
  unfold idleFeedFault
  rw [feeds_getD _ line, updFeed_of_some _ line]
  simp [Option.isSome_iff_ne_none]

theorem feedRetry_retries : Handles { s with feeds := s.feeds.set n (retriedFeed s n f) } (feedRetry n s) := by
  unfold feedRetry retriedFeed
  dsimp only
  rw [feeds_getD _ line]
  split
  · rw [updFeed_of_some _ line]
    exact ((faultEnds_handles _ _ _ _).trans (handles_of_reports (raise_reports _ _ _))).trans (faultBegins_handles _ _ _ _ _ _)
  · rw [updFeed_of_some _ line]
    exact faultEnds_handles _ _ _ _

variable (has : n < feedLines s.chip.variant)
include has

theorem execFeedFault_enabled (on : f.enabled = true) : execFeedFault n s = .next (feedFault n s) := by
  unfold execFeedFault
  rw [if_neg (Nat.not_le.mpr has), feeds_getD _ line, if_pos on]

theorem execFeedFault_disabled (off : f.enabled = false) : execFeedFault n s = .next (idleFeedFault n s) := by
  unfold execFeedFault
  rw [if_neg (Nat.not_le.mpr has), feeds_getD _ line, if_neg (by simp [off])]

theorem execFeedRetry_early {t : Nat} (waits : f.waitSince = some t) (early : s.now < t + 48 * f.retryMs) :
    execFeedRetry n s = .next s := by
  unfold execFeedRetry
  dsimp only
  have : ¬ t + 48 * f.retryMs ≤ s.now := by omega
  rw [if_neg (Nat.not_le.mpr has), feeds_getD _ line]
  simp [waits, elapsed, ticksOfMs, this]

theorem execFeedRetry_turn {t : Nat} (waits : f.waitSince = some t) (due : t + 48 * f.retryMs ≤ s.now)
    (turn : holdsSlot (becomesRunnable 0x90 n s) 0x90 n = true) :
    execFeedRetry n s = .next (feedRetry n (becomesRunnable 0x90 n s)) := by
  unfold execFeedRetry
  dsimp only
  rw [if_neg (Nat.not_le.mpr has), feeds_getD _ line]
  simp [waits, elapsed, ticksOfMs, due, turn]

end

/-- What a line's mode asks for does not depend on recoveries. -/
theorem feedWanted_handles {s t : State} (h : Handles s t) (n : Nat) (f : Feed) : feedWanted t n f = feedWanted s n f := by
  rw [h.1]
  rfl

theorem retriedFeed_handles {s t : State} (h : Handles s t) (n : Nat) (f : Feed) : retriedFeed t n f = retriedFeed s n f := by
  obtain ⟨now, -⟩ := h.unitsStay
  unfold retriedFeed
  rw [feedWanted_handles h, now]

/-! ### Temperatures (R279, R438, R515) -/

theorem execSensorRead_off {s : State} (l : List Int) (b : Int) (off : s.reset_.domain = .off) :
    execSensorRead l b s = .next (trackCool (setSensors l b s)) := by
  simp [execSensorRead, off]

/-- Below 113 degC with no ceiling frozen nothing is raised and no trip counts. -/
theorem thermalCeiling_cool {s : State} (cool : maxInt s.thermal.sensors < 1808) (free : s.cap.thermalHeld = false) :
    thermalCeiling s = s := by
  have : ¬ 1888 ≤ maxInt s.thermal.sensors := by omega
  simp [thermalCeiling, free, this]

theorem countTrip_cool {s : State} (cool : maxInt s.thermal.sensors < 1808) :
    countTrip s = { s with thermal := { s.thermal with tripReads := 0 } } := by
  have : ¬ 2160 ≤ maxInt s.thermal.sensors := by omega
  simp [countTrip, this]

/-- The triggers of calibration move calibration alone. -/
theorem tempTriggers_calOnly (before : Int) (s : State) : tempTriggers before s = { s with cal := (tempTriggers before s).cal } := by
  have one (i : Nat) (u : State) : tempTrigger before i u = { u with cal := (tempTrigger before i u).cal } := by
    unfold tempTrigger calTrigger
    dsimp only
    split
    · split <;> rfl
    · rfl
  refine foldl_inv (fun u => u = { s with cal := u.cal }) _ _ s rfl fun u i h => ?_
  rw [one i u]
  exact congrArg (fun v : State => { v with cal := (tempTrigger before i u).cal }) h

theorem decideTriggers_judges {s : State} (on : mainOff s = false) : decideTriggers s = { s with
    cal := (decideTriggers s).cal,
    thermal := { s.thermal with judged := if decides s then roundDiv s.thermal.sensors.sum (max 1 s.thermal.sensors.length) else s.thermal.judged } } := by
  unfold decideTriggers
  split
  · rw [tempTriggers_calOnly]
    simp [tDie, on]
  · rfl

theorem sensorsRunning_cool {s u : State} (ready : mainReady s = true) (judged : decideTriggers s = u)
    (cool : maxInt u.thermal.sensors < 1808) (free : u.cap.thermalHeld = false) :
    sensorsRunning s = { u with thermal := { u.thermal with tripReads := 0 } } := by
  unfold sensorsRunning
  dsimp only
  rw [if_pos ready, judged, thermalCeiling_cool cool free, countTrip_cool cool, if_neg (by simp)]

/-- A cool reading of a running domain is recorded, counts no trip and may trigger calibration. -/
theorem execSensorRead_cool {s : State} {l : List Int} (b : Int) (ready : s.reset_.domain = .ready) (cool : maxInt l < 1808)
    (free : s.cap.thermalHeld = false) : ∃ c, execSensorRead l b s = .next { s with
      cal := c,
      thermal := { sensors := l, backup := b, tripReads := 0,
                   judged := if decides s then roundDiv l.sum (max 1 l.length) else s.thermal.judged } } := by
  have running : execSensorRead l b s = .next (sensorsRunning (setSensors l b s)) := by simp [execSensorRead, ready]
  have judged := decideTriggers_judges (s := setSensors l b s) (by simp [mainOff, setSensors, ready])
  refine ⟨(decideTriggers (setSensors l b s)).cal, running.trans ?_⟩
  rw [sensorsRunning_cool (by simp [mainReady, setSensors, ready]) judged cool free]
  rfl

/-! ### A start of the main domain (R476, R487, R515) -/

theorem endWatch_off (s : State) : (endWatch s).ghost.watch = .off := by
  unfold endWatch
  split
  · assumption
  · rfl

theorem endMainFaults_reports (s : State) : Reports s (endMainFaults s) :=
  (foldl_inv (Reports s) _ _ s (Reports.refl s) fun _ _ h => h.trans (logRec_reports _ _ _ _)).trans (setRecs_reports _ _)

/-- The domain starts with its cause, no watch left. -/
theorem startMain_starts (cause : ResetCause) (skip : Bool) (s : State) :
    (startMain cause skip s).reset_.domain = .starting ∧ (startMain cause skip s).reset_.cause = cause ∧
    (startMain cause skip s).reset_.offCause = .none ∧ (startMain cause skip s).ghost.watch = .off := by
  have faults (u : State) : (endMainFaults u).ghost = u.ghost := by rw [endMainFaults_reports u]
  unfold startMain
  simp [setDomain, wipeMain, discardLink, faults, endWatch_off]

theorem execThermalRestart_starts {s : State} {since : Nat} (backup : s.supply.backupOn = true) (off : s.reset_.domain = .off)
    (tripped : s.reset_.offCause = .thermal) (held : s.reset_.coolSince = some since) (cooled : since + 48000 ≤ s.now)
    (released : s.supply.resetnLow = false) (cool : s.thermal.backup ≤ 1840) (supplied : 2970 < s.supply.vmain) :
    execThermalRestart s = .next (startMain .thermal false (evThermal 3 s.thermal.backup s)) := by
  simp [execThermalRestart, mainOff, elapsed, backup, off, tripped, held, cooled, released, cool, supplied]

end Sys2Proof.Machine

/-! The update of the fine maps: what its passes over lanes, engines and programs leave of the front end and the scan. -/

namespace Sys2Proof.Machine

/-! ### The reset state and the scan policy (R123, R424) -/

/-- The reset state and the scan policy stay. -/
@[simp, reducible] def PolicyStays (s t : State) : Prop :=
  t.reset_ = s.reset_ ∧ t.scan.policy = s.scan.policy ∧ t.scan.next = s.scan.next

theorem PolicyStays.trans {s t u : State} (h : PolicyStays s t) (k : PolicyStays t u) : PolicyStays s u := by
  simp_all

theorem forEach_policyStays {α : Type} (l : List α) (f : α → State → State) (s : State) (h : ∀ x u, PolicyStays u (f x u)) :
    PolicyStays s (forEach l f s) :=
  foldl_inv (PolicyStays s) l _ s (by simp) fun _ x hu => hu.trans (h x _)

theorem Handles.policyStays {s t : State} (h : Handles s t) : PolicyStays s t := by
  rw [h.1]
  simp

@[simp] theorem ite_policy (c : Prop) [Decidable c] (a b : State) :
    (if c then a else b).reset_ = (if c then a.reset_ else b.reset_) ∧
    (if c then a else b).scan.policy = (if c then a.scan.policy else b.scan.policy) ∧
    (if c then a else b).scan.next = (if c then a.scan.next else b.scan.next) := by
  split <;> simp

@[simp] theorem raise_policyStays (bit : Nat) (body : List Byte) (s : State) : PolicyStays s (raise bit body s) :=
  (handles_of_reports (raise_reports bit body s)).policyStays

@[simp] theorem count_policyStays (i n inst : Nat) (s : State) : PolicyStays s (count i n inst s) :=
  (handles_of_reports (count_reports i n inst s)).policyStays

@[simp] theorem completeWait_policyStays (e : Executing) (s : State) : PolicyStays s (completeWait e s) := by
  unfold completeWait reportCue evCue
  split <;> simp

@[simp] theorem finishWait_policyStays (w : Wait) (s : State) : PolicyStays s (finishWait w s) := by
  unfold finishWait
  dsimp only
  (repeat' split) <;> simp

/-! ### Programs and decoders (R211 to R213, R240) -/

@[simp] theorem takeOwn_policyStays (n : Nat) (s : State) : PolicyStays s (takeOwn n s) := by
  unfold takeOwn loseLoan
  (repeat' split) <;> simp

@[simp] theorem releaseOwn_policyStays (n : Nat) (s : State) : PolicyStays s (releaseOwn n s) := by
  unfold releaseOwn
  split <;> simp

@[simp] theorem assignOwn_policyStays (n : Nat) (s : State) : PolicyStays s (assignOwn n s) := by
  unfold assignOwn
  split <;> simp

@[simp] theorem fitOwn_policyStays (n : Nat) (s : State) : PolicyStays s (fitOwn n s) := by
  unfold fitOwn
  (repeat' split) <;> simp

@[simp] theorem releaseLoans_policyStays (n : Nat) (t : Source → Bool) (s : State) : PolicyStays s (releaseLoans n t s) := by
  simp [releaseLoans]

theorem lend_policyStays {n : Nat} {key : Source} {s t : State} (h : lend n key s = some t) : PolicyStays s t := by
  unfold lend at h
  (repeat' split at h) <;> cases h
  simp

@[simp] theorem setAnchor_policyStays (n : Nat) (dab : Bool) (slot : Option Nat) (s : State) : PolicyStays s (setAnchor n dab slot s) := by
  simp [setAnchor, realign]

@[simp] theorem removeMember_policyStays (n slot : Nat) (s : State) : PolicyStays s (removeMember n slot s) := by
  unfold removeMember evLink
  split <;> simp

@[simp] theorem laneLeaves_policyStays (id : Nat) (s : State) : PolicyStays s (laneLeaves id s) := by
  refine forEach_policyStays _ _ s fun n u => ?_
  split <;> simp

@[simp] theorem dropUnserved_policyStays (n slot : Nat) (s : State) : PolicyStays s (dropUnserved n slot s) := by
  unfold dropUnserved
  (repeat' split) <;> simp

@[simp] theorem engineLeaves_policyStays (e : Nat) (before s : State) : PolicyStays s (engineLeaves e before s) := by
  refine forEach_policyStays _ _ s fun n u => ?_
  split
  · exact forEach_policyStays _ _ u fun i v => dropUnserved_policyStays n i v
  · simp

/-! ### Releases of lanes and engines (R120, R174) -/

@[simp] theorem closeWhere_policyStays (t : Flow → Bool) (reason : Nat) (s : State) : PolicyStays s (closeWhere t reason s) := by
  refine forEach_policyStays _ _ s fun i u => ?_
  unfold deviceClose evFlowDrop
  (repeat' split) <;> simp

@[simp] theorem produce_policyStays (kind source qual : Nat) (failed : Bool) (key : Option (Nat × Nat × Nat)) (payload : List Byte)
    (s : State) : PolicyStays s (produce kind source qual failed key payload s) := by
  refine forEach_policyStays _ _ s fun i u => ?_
  (repeat' split) <;> simp

@[simp] theorem raiseEdge_policyStays (a : Announce) (start : Bool) (s : State) : PolicyStays s (raiseEdge a start s) := by
  simp [raiseEdge, flowEdge, evAnnounce]

@[simp] theorem endAnnWhere_policyStays (t : Announce → Bool) (s : State) : PolicyStays s (endAnnWhere t s) := by
  refine forEach_policyStays _ endAnn s fun a u => ?_
  unfold endAnn
  split <;> simp

@[simp] theorem forgetShed_policyStays (engine : Bool) (id : Nat) (s : State) : PolicyStays s (forgetShed engine id s) := by
  simp [forgetShed]

@[simp] theorem quietLane_policyStays (id : Nat) (s : State) : PolicyStays s (quietLane id s) := by
  simp [quietLane, dropWait, closeLaneFlows]

@[simp] theorem drainLane_policyStays (id : Nat) (s : State) : PolicyStays s (drainLane id s) := by
  simp [drainLane]

@[simp] theorem releaseLane_policyStays (id : Nat) (s : State) : PolicyStays s (releaseLane id s) := by
  unfold releaseLane freeLane
  (repeat' split) <;> simp

@[simp] theorem quietEngine_policyStays (e : Nat) (s : State) : PolicyStays s (quietEngine e s) := by
  simp [quietEngine, dropWait, closeEngineFlows, stopDecoders]

@[simp] theorem drainEngine_policyStays (e : Nat) (s : State) : PolicyStays s (drainEngine e s) := by
  simp [drainEngine]

@[simp] theorem freeEngine_policyStays (e : Nat) (s : State) : PolicyStays s (freeEngine e s) := by
  unfold freeEngine bumpServices
  dsimp only
  (repeat' split) <;> simp

@[simp] theorem releaseEngine_policyStays (e : Nat) (s : State) : PolicyStays s (releaseEngine e s) := by
  unfold releaseEngine
  (repeat' split) <;> simp

/-! ### Selections (R224 to R232) -/

@[simp] theorem selectAnn_policyStays (n : Nat) (p : Program) (a : Announce) (s : State) : PolicyStays s (selectAnn n p a s) := by
  unfold selectAnn
  dsimp only
  split
  · simp
  · split
    · simp
    · split
      · next lent => simpa using lend_policyStays lent
      · split <;> simp

@[simp] theorem dropSelection_policyStays (n : Nat) (p : Program) (s : State) : PolicyStays s (dropSelection n p s) := by
  have := forEach_policyStays ((p.nextHold.toList ++ p.holding.toList).filter fun h => !h.onAir) (fun h => releaseLoans n fun k => k == h.src)
    (updProgram n (fun p => { p with nextHold := none, holding := p.holding.filter (·.onAir) }) s) fun _ _ => releaseLoans_policyStays _ _ _
  simp_all [dropSelection]

@[simp] theorem feedSelection_policyStays (n : Nat) (s : State) : PolicyStays s (feedSelection n s) := by
  unfold feedSelection
  dsimp only
  split
  · simp
  · split
    · simp
    · split
      · next lent => exact lend_policyStays lent
      · split <;> simp

@[simp] theorem reselect_policyStays (n : Nat) (s : State) : PolicyStays s (reselect n s) := by
  unfold reselect
  dsimp only
  (repeat' split) <;> simp

@[simp] theorem reselectAll_policyStays (s : State) : PolicyStays s (reselectAll s) :=
  forEach_policyStays _ _ _ fun n u => by simp

/-! ### The passes of one update (R123, R124, R169, R238, R490) -/

/-- Inputs, clocks, the reset state and the scan policy stay. -/
@[simp, reducible] def PassFrame (s t : State) : Prop := t.inputs = s.inputs ∧ t.clocks = s.clocks ∧ PolicyStays s t

theorem PassFrame.trans {s t u : State} (h : PassFrame s t) (k : PassFrame t u) : PassFrame s u := by
  simp_all

theorem forEach_passFrame {α : Type} (l : List α) (f : α → State → State) (s : State) (h : ∀ x u, PassFrame u (f x u)) :
    PassFrame s (forEach l f s) :=
  foldl_inv (PassFrame s) l _ s (by simp) fun _ x hu => hu.trans (h x _)

theorem foldl_passFrame {α β : Type} (get : β → State) (l : List α) (f : β → α → β) (b : β)
    (h : ∀ c x, PassFrame (get c) (get (f c x))) : PassFrame (get b) (get (l.foldl f b)) :=
  foldl_inv (fun c => PassFrame (get b) (get c)) l f b (by simp) fun c x hc => hc.trans (h c x)

@[simp] theorem setAbsent_passFrame (kind id : Nat) (t : Option Nat) (s : State) : PassFrame s (setAbsent kind id t s) := by
  unfold setAbsent
  split <;> simp

@[simp] theorem releaseUnit_passFrame (kind id : Nat) (s : State) : PassFrame s (releaseUnit kind id s) := by
  unfold releaseUnit
  split <;> simp

@[simp] theorem putUnit_passFrame (kind id : Nat) (o : Owner) (af : Option Id16) (freq mask : Nat) (s : State) :
    PassFrame s (putUnit kind id o af freq mask s) := by
  unfold putUnit putEngine putLane
  split <;> simp

@[simp] theorem drainLane_passFrame (id : Nat) (s : State) : PassFrame s (drainLane id s) := by
  simp [drainLane]

@[simp] theorem drainEngine_passFrame (e : Nat) (s : State) : PassFrame s (drainEngine e s) := by
  simp [drainEngine]

@[simp] theorem redirectUnit_passFrame (kind id : Nat) (o : Owner) (af : Option Id16) (freq mask : Nat) (s : State) :
    PassFrame s (redirectUnit kind id o af freq mask s) := by
  unfold redirectUnit redirectEngine redirectLane
  dsimp only
  (repeat' split) <;> simp

@[simp] theorem scanRelease_passFrame (c : ScanPolicy) (kind id : Nat) (s : State) : PassFrame s (scanRelease c kind id s) := by
  unfold scanRelease
  dsimp only
  (repeat' split) <;> simp

@[simp] theorem watchRelease_passFrame (kind id : Nat) (s : State) : PassFrame s (watchRelease kind id s) := by
  unfold watchRelease
  (repeat' split) <;> simp

@[simp] theorem afRelease_passFrame (id : Nat) (s : State) : PassFrame s (afRelease id s) := by
  unfold afRelease
  dsimp only
  (repeat' split) <;> simp

@[simp] theorem releasePass_passFrame (c : ScanPolicy) (s : State) : PassFrame s (releasePass c s) :=
  forEach_passFrame _ _ s fun k u => forEach_passFrame _ _ u fun id v => scanRelease_passFrame c k id v

@[simp] theorem watchReleases_passFrame (s : State) : PassFrame s (watchReleases s) :=
  forEach_passFrame _ _ s fun k u => forEach_passFrame _ _ u fun id v => watchRelease_passFrame k id v

@[simp] theorem watchPass_passFrame (c : ScanPolicy) (s : State) : PassFrame s (watchPass c s) := by
  unfold watchPass
  dsimp only
  (repeat' split) <;> simp

theorem afAssign_passFrame (c : ScanPolicy) (acc : State × List Id16 × Bool) (x : Id16 × Nat × Int) :
    PassFrame acc.1 (afAssign c acc x).1 := by
  unfold afAssign
  dsimp only
  (repeat' split) <;> simp

@[simp] theorem afPass_passFrame (c : ScanPolicy) (s : State) : PassFrame s (afPass c s) := by
  have released := forEach_passFrame (List.range s.lanes.fm.length) afRelease s afRelease_passFrame
  unfold afPass
  dsimp only
  split
  · exact released
  · exact released.trans (foldl_passFrame Prod.fst _ _ _ (afAssign_passFrame c))

theorem assignCarrier_passFrame (c : ScanPolicy) (acc : State × Bool) (p : Point) : PassFrame acc.1 (assignCarrier c acc p).1 := by
  unfold assignCarrier
  dsimp only
  (repeat' split) <;> simp

@[simp] theorem assignPass_passFrame (c : ScanPolicy) (s : State) : PassFrame s (assignPass c s) :=
  foldl_passFrame Prod.fst _ _ (s, false) (assignCarrier_passFrame c)

@[simp] theorem displaceKind_passFrame (c : ScanPolicy) (kind : Nat) (s : State) : PassFrame s (displaceKind c kind s) := by
  unfold displaceKind
  dsimp only
  (repeat' split) <;> simp

@[simp] theorem displacePass_passFrame (c : ScanPolicy) (s : State) : PassFrame s (displacePass c s) :=
  forEach_passFrame _ _ s (displaceKind_passFrame c)

/-- The policy that waited is in force; inputs, clocks and the reset state stay. -/
theorem scanUpdate_takes (s : State) : (scanUpdate s).inputs = s.inputs ∧ (scanUpdate s).clocks = s.clocks ∧
    (scanUpdate s).reset_ = s.reset_ ∧ (scanUpdate s).scan.policy = scanInForce s ∧ (scanUpdate s).scan.next = none := by
  unfold scanUpdate
  dsimp only
  split <;> simp

@[simp] theorem confirmStation_passFrame (pi : Id16) (s : State) : PassFrame s (confirmStation pi s) := by
  unfold confirmStation ensureStation changeStation updStation bumpStations evStation evService
  dsimp only
  (repeat' split) <;> simp

@[simp] theorem remakeStations_passFrame (s : State) : PassFrame s (remakeStations s) := by
  unfold remakeStations
  split
  · simp
  · refine PassFrame.trans (t := { s with rds := { s.rds with remake := false } }) (by simp) (forEach_passFrame _ _ _ fun id u => ?_)
    (repeat' split) <;> simp

@[simp] theorem placeMember_passFrame (n slot : Nat) (src : Source) (origin : Nat) (s : State) :
    PassFrame s (placeMember n slot src origin s) := by
  unfold placeMember evLink
  dsimp only
  (repeat' split) <;> simp

theorem addCandidate_passFrame (n : Nat) (s : State) (x : Source) : PassFrame s (addCandidate n s x) := by
  unfold addCandidate
  (repeat' split) <;> simp

@[simp] theorem replaceMember_passFrame (n : Nat) (s : State) : PassFrame s (replaceMember n s) := by
  unfold replaceMember
  dsimp only
  (repeat' split) <;> simp

@[simp] theorem membershipOf_passFrame (n : Nat) (s : State) : PassFrame s (membershipOf n s) := by
  unfold membershipOf
  split
  · simp
  · split
    · exact (foldl_passFrame id _ _ s (addCandidate_passFrame n)).trans (replaceMember_passFrame n _)
    · simp

@[simp] theorem membershipPass_passFrame (s : State) : PassFrame s (membershipPass s) :=
  forEach_passFrame _ _ s membershipOf_passFrame

@[simp] theorem closeReturn_passFrame (s : State) : PassFrame s (closeReturn s) := by
  unfold closeReturn
  dsimp only
  (repeat' split) <;> simp

/-! ### FINE_MAP_UPDATE (R110) -/

theorem storeMaps_singleton {i : Nat} {s : State} (l : List Int) (receives : (inputAt s i).receiving = true) :
    storeMaps [(i, l)] s = updInput i (fun x => { x with fineMap := l.map (compensated x), fineDfc := s.time.dfc }) s := by
  simp [storeMaps, forEach, receives]

theorem execFineMapUpdate_stopped {s : State} (high low : List (Nat × List Int)) (stopped : s.mgr.rxRunning = false) :
    execFineMapUpdate high low s = .next s := by
  simp [execFineMapUpdate, stopped]

/-- The maps are stored, the scan policy that waited is in force, and the passes leave the front end as it is. -/
theorem execFineMapUpdate_running {s : State} (high low : List (Nat × List Int)) (rx : s.mgr.rxRunning = true) :
    ∃ t, execFineMapUpdate high low s = .next t ∧ t.inputs = (storeMaps (high ++ low) s).inputs ∧
      t.clocks = (storeMaps (high ++ low) s).clocks ∧ t.reset_ = (storeMaps (high ++ low) s).reset_ ∧
      t.scan.policy = scanInForce (storeMaps (high ++ low) s) ∧ t.scan.next = none := by
  obtain ⟨inputs, clocks, reset_, policy, next⟩ := scanUpdate_takes (storeMaps (high ++ low) s)
  unfold execFineMapUpdate
  dsimp only
  rw [if_neg (by simp [rx])]
  split
  · exact ⟨_, rfl, by simp [inputs], by simp [clocks], by simp [reset_], by simp [policy], by simp [next]⟩
  · exact ⟨_, rfl, by simp [inputs], by simp [clocks], by simp [reset_], by simp [policy], by simp [next]⟩

/-- Settles O41: each row is the operation that a lemma above names, on its own input, line or sensors. -/
theorem frontEndRowsMoveGainFeedsAndMaps : Obligations.FrontEndRowsMoveGainFeedsAndMaps := by
  intro s
  refine ⟨?_, ?_, fun i l bonds receives clocked => execBinMapUpdate_sampling bonds receives clocked l, ?_,
    execFineMapUpdate_stopped, ?_, ?_, ?_, fun n f t has line waits early => execFeedRetry_early line has waits early, ?_, ?_, ?_⟩
  · rintro i c n _ bonds inside receives clocked rfl
    have first := firstStep_ownInput i s
    obtain ⟨others, -, only⟩ := first.trans (gainWindow64_ownInput i c n (firstStep i s))
    obtain ⟨-, length, -⟩ := first
    have gcfg := inputAt_firstStep_gcfg i i s
    refine ⟨_, execGainWindow64us_sampling bonds receives clocked c n, fun due => by simp [firstStep, due], fun keeps => ?_,
      fun clips automatic => ?_, others, (inputAt_gainWindow64_gcfg i c n i _).trans gcfg, only⟩
    · exact inputAt_gainWindow64_keeps n (gcfg ▸ keeps)
    · rw [inputAt_gainWindow64_steps n (length ▸ inside) clips (gcfg ▸ automatic), gcfg]
  · intro i rms bonds inside receives clocked
    have first := firstStep_ownInput i s
    obtain ⟨others, -, only⟩ := (first.withCal _).trans (gainWindow1_ownInput i rms (firstStep i s))
    obtain ⟨-, length, -⟩ := first
    refine ⟨_, execGainWindow1ms_sampling bonds receives clocked rms, inputAt_gainWindow1_rms rms (length ▸ inside), fun fixed => ?_,
      others, only⟩
    exact inputAt_gainWindow1_fixed rms (length ▸ inside) ((inputAt_firstStep_gcfg i i s).symm ▸ fixed)
  · intro i l high low rx inside receives maps
    obtain ⟨t, row, inputs, clocks, reset_, policy, next⟩ := execFineMapUpdate_running high low rx
    rw [maps, storeMaps_singleton l receives] at inputs clocks reset_ policy
    refine ⟨t, row, ?_, ?_, fun j ne => ?_, policy, next, clocks, reset_⟩
    · rw [inputAt_congr inputs, inputAt_updInput_same _ _ _ inside]
    · rw [inputAt_congr inputs, inputAt_updInput_same _ _ _ inside]
    · rw [inputAt_congr inputs, inputAt_updInput_other _ _ _ _ ne]
  · intro n f has line on
    have fails := feedFault_fails line
    have feeds := fails.feeds
    refine ⟨_, _, execFeedFault_enabled line has on, feeds, rfl, rfl, rfl, rfl, rfl, fun fresh => ?_, feeds ▸ fails⟩
    simp [failedFeed, retriesAfter, fresh]
  · intro n f has line off
    rw [← idleFeedFault_notes line]
    exact execFeedFault_disabled line has off
  · intro n f t has line waits due turn
    have runnable := becomesRunnable_handles 0x90 n s
    have line' : (becomesRunnable 0x90 n s).feeds[n]? = some f := runnable.feeds ▸ line
    have retries := (runnable.withFeeds _).trans (feedRetry_retries line')
    have feeds : (feedRetry n (becomesRunnable 0x90 n s)).feeds = s.feeds.set n (retriedFeed s n f) := by
      rw [retries.feeds, runnable.feeds, retriedFeed_handles runnable]
    refine ⟨_, _, execFeedRetry_turn line has waits due turn, feeds, ?_, fun used => ?_, fun left => ?_, ?_⟩
    · unfold retriedFeed
      split <;> rfl
    · simp [retriedFeed, used]
    · simp [retriedFeed, Nat.not_le.mpr left]
    · rw [retries.feeds]
      exact retries
  · intro l b off
    exact ⟨_, execSensorRead_off l b off, rfl, rfl⟩
  · intro l b ready cool free
    obtain ⟨c, row⟩ := execSensorRead_cool b ready cool free
    exact ⟨_, row, rfl, rfl, rfl, rfl⟩
  · intro since backup off tripped held cooled released cool supplied
    obtain ⟨domain, cause, offCause, watch⟩ := startMain_starts .thermal false (evThermal 3 s.thermal.backup s)
    exact ⟨_, execThermalRestart_starts backup off tripped held cooled released cool supplied, domain, cause, offCause, watch,
      by simp [evThermal]⟩

end Sys2Proof.Machine

/-! Reception: band plans, gain settings and feed lines as the host sets them, and the start and the end of reception. -/

namespace Sys2Proof.Machine

/-! ### Inputs follow plan and reception (R95, R108, R109) -/

/-- Inputs and calibration move, each input with its plan; the rest stays but for reports and recoveries. -/
def FrontEnd (s t : State) : Prop :=
  (∀ j, (inputAt t j).plan = (inputAt s j).plan) ∧ t.inputs.length = s.inputs.length ∧
  Handles { s with inputs := t.inputs, cal := t.cal } t

section
variable {s t u : State}

theorem FrontEnd.refl (s : State) : FrontEnd s s := ⟨fun _ => rfl, rfl, Handles.refl s⟩

theorem FrontEnd.trans (h : FrontEnd s t) (k : FrontEnd t u) : FrontEnd s u := by
  obtain ⟨plans, length, only, ports⟩ := h
  obtain ⟨plans', length', only', ports'⟩ := k
  exact ⟨fun j => (plans' j).trans (plans j), length'.trans length, only'.trans (by rw [only]), ports'.trans ports⟩

theorem frontEnd_of_handles (h : Handles s t) : FrontEnd s t := by
  have inputs := h.unitsStay.inputs
  have cal : t.cal = s.cal := by rw [h.1]
  refine ⟨fun j => by rw [inputAt_congr inputs], by rw [inputs], ?_⟩
  rw [inputs, cal]
  exact h

theorem updCal_frontEnd (i : Nat) (f : CalInput → CalInput) (s : State) : FrontEnd s (updCal i f s) :=
  ⟨fun _ => rfl, rfl, Handles.refl _⟩

theorem updInput_frontEnd (i : Nat) {f : Input → Input} (s : State) (plan : ∀ x, (f x).plan = x.plan) : FrontEnd s (updInput i f s) :=
  ⟨fun j => inputAt_updInput_part (·.plan) i j s plan, by simp [updInput], Handles.refl _⟩

/-- An input is to receive. -/
def wanted (s : State) (i : Nat) : Bool := s.mgr.rxRunning && inputEnabled s i

variable (h : FrontEnd s t)
include h

theorem FrontEnd.mgr : t.mgr = s.mgr := by
  obtain ⟨-, -, only, -⟩ := h
  rw [only]

theorem FrontEnd.enabled (i : Nat) : inputEnabled t i = inputEnabled s i := by
  obtain ⟨plans, -, only, -⟩ := h
  have chip : t.chip = s.chip := by rw [only]
  unfold inputEnabled
  rw [bonded_congr chip, plans]

theorem FrontEnd.wanted (i : Nat) : Machine.wanted t i = Machine.wanted s i := by
  unfold Machine.wanted
  rw [h.mgr, h.enabled]

end

theorem forEach_frontEnd {α : Type} (l : List α) (f : α → State → State) (s : State) (h : ∀ x u, FrontEnd u (f x u)) :
    FrontEnd s (forEach l f s) :=
  foldl_inv (FrontEnd s) l _ s (FrontEnd.refl s) fun _ x hu => hu.trans (h x _)

section
variable (i : Nat) (s : State)

theorem calTrigger_frontEnd (byCommand : Bool) : FrontEnd s (calTrigger i byCommand s) := by
  unfold calTrigger
  split
  · exact FrontEnd.refl s
  · exact updCal_frontEnd i _ s

theorem calStart_frontEnd : FrontEnd s (calStart i s) := by
  have triggered (u : State) (h : FrontEnd s u) (b : Bool) : FrontEnd s (if b then calTrigger i false u else u) := by
    split
    · exact h.trans (calTrigger_frontEnd i u false)
    · exact h
  unfold calStart
  dsimp only
  split
  · exact updCal_frontEnd i _ s
  · refine triggered _ ?_ _
    split
    · exact (((updCal_frontEnd i _ s).trans (updCal_frontEnd i _ _)).trans (frontEnd_of_handles (faultEnds_handles _ _ _ _))).trans
        (calTrigger_frontEnd i _ false)
    · exact updCal_frontEnd i _ s

theorem deferRun_frontEnd (mask : Nat) : FrontEnd s (deferRun i mask s) :=
  ((updCal_frontEnd i _ s).trans (frontEnd_of_handles (handles_of_reports (raise_reports _ _ _)))).trans
    (frontEnd_of_handles (faultBegins_handles _ _ _ _ _ _))

theorem changeReasons_frontEnd (mask : Nat) : FrontEnd s (changeReasons i mask s) := by
  unfold changeReasons
  split
  · exact FrontEnd.refl s
  · exact (updCal_frontEnd i _ s).trans
      (frontEnd_of_handles (handles_of_reports ((raise_reports _ _ _).trans (updRec_reports _ _ _ _))))

theorem calStop_frontEnd : FrontEnd s (calStop i s) := by
  have halted (f : CalInput → CalInput) := updCal_frontEnd i f s
  unfold calStop
  dsimp only
  split
  · exact (halted _).trans (deferRun_frontEnd i _ _)
  · exact (halted _).trans (changeReasons_frontEnd i _ _)
  · exact halted _

theorem calStop_inputs : (calStop i s).inputs = s.inputs := by
  unfold calStop deferRun changeReasons evCalDeferred updRec
  dsimp only
  (repeat' split) <;> simp

/-- An input whose ADC stops. -/
def stoppedInput (x : Input) : Input :=
  { x with receiving := false, waiting := false, quietMs := 0, clipSeen := false, clipHist := [], clipMs := (0, 0), clipLast := (0, 0),
           windows := 0, gainDue := false, overloaded := false, stepPending := none, binMap := [], fineMap := [] }

theorem inputStops_frontEnd : FrontEnd s (inputStops i s) := by
  have stops := updInput_frontEnd i (f := stoppedInput) s fun _ => rfl
  unfold inputStops
  dsimp only
  refine FrontEnd.trans ?_ (calStop_frontEnd i _)
  split
  · exact stops.trans (frontEnd_of_handles (handles_of_reports (raise_reports _ _ _)))
  · exact stops

theorem inputAt_inputStops (j : Nat) : inputAt (inputStops i s) j = inputAt (updInput i stoppedInput s) j := by
  unfold inputStops evInput evLane
  dsimp only
  refine (inputAt_congr (calStop_inputs i _) j).trans ?_
  split
  · exact inputAt_congr (raise_unitsStay _ _ _).inputs j
  · rfl

theorem inputStarts_frontEnd : FrontEnd s (inputStarts i s) := by
  refine FrontEnd.trans (updInput_frontEnd i s ?_) (calStart_frontEnd i _)
  exact fun _ => rfl

theorem startInput_frontEnd : FrontEnd s (startInput i s) := by
  unfold startInput
  split
  · exact inputStarts_frontEnd i s
  · exact FrontEnd.refl s

/-- One input follows its plan and reception. -/
def matchInput (i : Nat) (s : State) : State :=
  if wanted s i && !(inputAt s i).receiving then updInput i (fun x => { x with waiting := true }) s
  else if !wanted s i && ((inputAt s i).receiving || (inputAt s i).waiting) then inputStops i s else s

theorem matchInputs_eq : matchInputs s = startInputs (forEach (List.range 6) matchInput s) := rfl

theorem matchInput_frontEnd : FrontEnd s (matchInput i s) := by
  unfold matchInput
  split
  · exact updInput_frontEnd i s fun _ => rfl
  · split
    · exact inputStops_frontEnd i s
    · exact FrontEnd.refl s

theorem startInputs_frontEnd : FrontEnd s (startInputs s) := by
  unfold startInputs
  split
  · exact forEach_frontEnd _ _ s startInput_frontEnd
  · exact FrontEnd.refl s

theorem matchInputs_frontEnd : FrontEnd s (matchInputs s) :=
  (forEach_frontEnd _ _ s matchInput_frontEnd).trans (startInputs_frontEnd _)

theorem inputAt_matchInput_other {j : Nat} (ne : j ≠ i) : inputAt (matchInput i s) j = inputAt s j := by
  unfold matchInput
  split
  · exact inputAt_updInput_other i j _ s ne
  · split
    · rw [inputAt_inputStops, inputAt_updInput_other i j _ s ne]
    · rfl

end

/-- What following its plan makes of an input: whether it is to receive, whether it receives, whether it waits. -/
def matched (x : Bool × Bool × Bool) : Bool × Bool × Bool := (x.1, if x.1 then (x.2.1, x.2.2 || !x.2.1) else (false, false))

theorem reception_stoppedInput (i : Nat) (s : State) : reception (updInput i stoppedInput s) i = (false, false) := by
  unfold reception
  by_cases inside : i < s.inputs.length
  · rw [inputAt_updInput_same _ _ _ inside]
    rfl
  · simp [inputAt, List.getD, getElem?_upd, List.getElem?_eq_none (Nat.le_of_not_lt inside), Input.default]

theorem matchInput_matches {i : Nat} {s : State} (known : i < s.inputs.length ∨ wanted s i = false) :
    (wanted (matchInput i s) i, reception (matchInput i s) i) = matched (wanted s i, reception s i) := by
  rw [(matchInput_frontEnd i s).wanted]
  unfold matched matchInput
  cases want : wanted s i with
  | true =>
    have inside : i < s.inputs.length := by simpa [want] using known
    cases receives : (inputAt s i).receiving with
    | true => simp [reception, receives]
    | false => simp [reception, receives, inputAt_updInput_same _ _ _ inside]
  | false =>
    have stopped : reception (inputStops i s) i = (false, false) := by
      unfold reception
      rw [inputAt_inputStops]
      exact reception_stoppedInput i s
    cases busy : ((inputAt s i).receiving || (inputAt s i).waiting) with
    | true => simp [stopped]
    | false => simpa [reception] using busy

/-- After the inputs have followed, each of the six has been matched once. -/
theorem reception_forEach_matchInput {s : State} (known : s.inputs.length = 6 ∨ s.mgr.rxRunning = false) {i : Nat} (h : i < 6) :
    reception (forEach (List.range 6) matchInput s) i = (matched (wanted s i, reception s i)).2 := by
  have once := get_forEach (get := fun u j => (wanted u j, reception u j)) (step := matchInput) (g := matched)
    (P := fun u => u.inputs.length = 6 ∨ u.mgr.rxRunning = false)
    (fun i u hu => by
      have moves := matchInput_frontEnd i u
      obtain ⟨-, length, -⟩ := id moves
      rwa [length, moves.mgr])
    (fun i j u ne => by simp [reception, inputAt_matchInput_other i u ne, (matchInput_frontEnd i u).wanted])
    (fun i hi u hu => matchInput_matches (hu.imp (fun six => by rw [six]; exact List.mem_range.mp hi) fun off => by simp [wanted, off]))
    List.nodup_range known i
  rw [if_pos (List.mem_range.mpr h)] at once
  exact congrArg Prod.snd once

theorem startInputs_unmet {s : State} (unmet : capacityMet s = false) : startInputs s = s := by
  simp [startInputs, unmet]

/-- With no input waiting none starts. -/
theorem startInputs_idle {s : State} (idle : ∀ i < 6, (inputAt s i).waiting = false) : startInputs s = s := by
  have none_starts : forEach (List.range 6) startInput s = s :=
    List.foldlRecOn (List.range 6) (fun u i => startInput i u) (motive := fun u => u = s) rfl fun u same i hi => by
      subst same
      simp [startInput, idle i (List.mem_range.mp hi)]
  cases met : capacityMet s with
  | true => rw [startInputs_eq met, none_starts]
  | false => exact startInputs_unmet met

/-- During reception every enabled input receives, or waits for the capacity. -/
theorem matchInputs_enabled {s : State} (rx : s.mgr.rxRunning = true) (six : s.inputs.length = 6) {i : Nat} (h : i < 6)
    (enabled : inputEnabled s i = true) :
    (inputAt (matchInputs s) i).receiving = true ∨ (inputAt (matchInputs s) i).waiting = true := by
  have loop := reception_forEach_matchInput (.inl six) h
  obtain ⟨-, length, -⟩ := forEach_frontEnd (List.range 6) matchInput s matchInput_frontEnd
  have either : ((inputAt (forEach (List.range 6) matchInput s) i).receiving || (inputAt (forEach (List.range 6) matchInput s) i).waiting) = true := by
    simp only [reception, matched, wanted, rx, enabled, Bool.and_self, if_true, Prod.mk.injEq] at loop
    obtain ⟨receives, waits⟩ := loop
    rw [receives, waits]
    cases (inputAt s i).receiving <;> simp
  rw [matchInputs_eq]
  cases met : capacityMet (forEach (List.range 6) matchInput s) with
  | true => exact .inl ((startInputs_receiving met (length.trans six) h).trans either)
  | false =>
    rw [startInputs_unmet met]
    simpa using either

/-- Outside reception no input receives. -/
theorem matchInputs_stopped {s : State} (stopped : s.mgr.rxRunning = false) {i : Nat} (h : i < 6) :
    (inputAt (matchInputs s) i).receiving = false := by
  have off {j : Nat} (hj : j < 6) : reception (forEach (List.range 6) matchInput s) j = (false, false) := by
    rw [reception_forEach_matchInput (.inr stopped) hj]
    simp [matched, wanted, stopped]
  rw [matchInputs_eq, startInputs_idle fun j hj => congrArg Prod.snd (off hj)]
  exact congrArg Prod.fst (off h)

/-! ### What the host sets (R43, R46, R58, R107) -/

theorem inputAt_setBandPlan_plan {i : Nat} {b : BandPlan} {s : State} (inside : i < s.inputs.length) :
    (inputAt (setBandPlan i b s) i).plan = b := by
  obtain ⟨plans, -, -⟩ := matchInputs_frontEnd (updInput i (fun x => if x.plan = b then x else { x with plan := b, binMap := [], fineMap := [] }) s)
  unfold setBandPlan
  rw [inputAt_congr (refreshFeeds_inputs _), plans, inputAt_updInput_same _ _ _ inside]
  split
  · assumption
  · rfl

theorem inputAt_setGainCfg_gcfg {i : Nat} {g : GainCfg} {s : State} (inside : i < s.inputs.length) :
    (inputAt (setGainCfg i g s) i).gcfg = g := by
  have set : (inputAt (updInput i (fun x => { x with gcfg := g }) s) i).gcfg = g := by rw [inputAt_updInput_same _ _ _ inside]
  unfold setGainCfg
  dsimp only
  split
  · exact (inputAt_applyGainCfg_gcfg i i _).trans set
  · split
    · rw [inputAt_updInput_part (·.gcfg)]
      · exact set
      · exact fun _ => rfl
    · exact set

theorem getElem?_mapIdx {α β : Type} (f : Nat → α → β) (l : List α) (n : Nat) : (mapIdx f l)[n]? = l[n]?.map (f n) := by
  simp [mapIdx, List.getElem?_zipIdx]
  rfl

/-- A line set anew has its fields as asked, no retries and no latch; its level is what its mode asks for. -/
theorem setFeed_sets {n : Nat} (x : FeedFields) {s : State} (inside : n < s.feeds.length) :
    ∃ f, (setFeed n x s).feeds[n]? = some f ∧ f.input = x.input ∧ f.mode = x.mode ∧ f.retryMs = x.retryMs ∧ f.retryMax = x.retryMax ∧
      f.latched = false ∧ f.retries = 0 := by
  have closed := (faultEnds_handles 0x90 n 6 s).trans (faultEnds_handles 0x91 n 6 _)
  have line : (faultEnds 0x91 n 6 (faultEnds 0x90 n 6 s)).feeds[n]? = some s.feeds[n] := by
    rw [closed.feeds, List.getElem?_eq_getElem inside]
  simp [setFeed, refreshFeeds, getElem?_mapIdx, updFeed, getElem?_upd, line]

/-! ### Start and end of reception (R108, R399, R400) -/

@[simp] theorem planRecords_shedFrame (source : Nat) (l : List Nat) (s : State) : ShedFrame s (planRecords source l s) :=
  forEach_shedFrame _ _ s fun i u => by simp [evLane]

theorem planLane_shedFrame (old new id : Nat) (s : State) : ShedFrame s (planLane old new id s) := by
  unfold planLane
  dsimp only
  (repeat' split) <;> simp

theorem planEngine_shedFrame (old new e : Nat) (s : State) : ShedFrame s (planEngine old new e s) := by
  unfold planEngine
  dsimp only
  (repeat' split) <;> simp

@[simp] theorem planSets_shedFrame (old new : Nat) (s : State) : ShedFrame s (planSets old new s) :=
  (forEach_shedFrame _ _ s (planLane_shedFrame old new)).trans (forEach_shedFrame _ _ _ (planEngine_shedFrame old new))

theorem takePlan_inputs (s : State) : (takePlan s).inputs = s.inputs := by
  unfold takePlan
  split
  · rfl
  · simp [retune, rememberBand]

theorem inputEnabled_refreshFeeds (s : State) (i : Nat) : inputEnabled (refreshFeeds s) i = inputEnabled s i := rfl

/-- Reception is on, and the inputs have not followed yet. -/
def receptionOn (s : State) : State :=
  { takePlan s with mgr := { (takePlan s).mgr with rxRunning := true, rxStartedSinceReset := true } }

theorem receptionOn_running (s : State) : (receptionOn s).mgr.rxRunning = true := by simp [receptionOn]

theorem receptionOn_inputs (s : State) : (receptionOn s).inputs = s.inputs := by simp [receptionOn, takePlan_inputs]

theorem startReception_eq (s : State) : startReception s = refreshFeeds (matchInputs (receptionOn s)) := rfl

theorem startReception_running (s : State) : (startReception s).mgr.rxRunning = true := by
  rw [startReception_eq, refreshFeeds_mgr, (matchInputs_frontEnd _).mgr, receptionOn_running]

theorem startReception_enabled {s : State} (six : s.inputs.length = 6) {i : Nat} (h : i < 6)
    (enabled : inputEnabled (startReception s) i = true) :
    (inputAt (startReception s) i).receiving = true ∨ (inputAt (startReception s) i).waiting = true := by
  rw [startReception_eq] at enabled ⊢
  rw [inputEnabled_refreshFeeds, (matchInputs_frontEnd _).enabled] at enabled
  rw [inputAt_congr (refreshFeeds_inputs _)]
  exact matchInputs_enabled (receptionOn_running s) ((congrArg List.length (receptionOn_inputs s)).trans six) h enabled

/-- Every instance is released, reception is off, and the inputs have not followed yet. -/
def receptionOff (s : State) : State :=
  let s1 := forEach (laneIds s) releaseLane s
  let s2 := forEach (List.range s1.dab.engines.length) releaseEngine s1
  { s2 with mgr := { s2.mgr with rxRunning := false }, scan := { s2.scan with points := [], rivals := [] } }

theorem stopReception_eq (s : State) : stopReception s = refreshFeeds (matchInputs (receptionOff s)) := rfl

theorem receptionOff_stopped (s : State) : (receptionOff s).mgr.rxRunning = false := by simp [receptionOff]

theorem stopReception_stopped (s : State) : (stopReception s).mgr.rxRunning = false := by
  rw [stopReception_eq, refreshFeeds_mgr, (matchInputs_frontEnd _).mgr, receptionOff_stopped]

theorem stopReception_receiving (s : State) {i : Nat} (h : i < 6) : (inputAt (stopReception s) i).receiving = false := by
  rw [stopReception_eq, inputAt_congr (refreshFeeds_inputs _)]
  exact matchInputs_stopped (receptionOff_stopped s) h

/-! ### The commands -/

section
variable {tag : Byte} {p : List Byte} {s : State} (turn : MainTurn s p)
include turn

section
variable (bonds : bonded s (p1 p 0) = true)
include bonds

theorem serve_bandPlan_query (len : p.length = 1) :
    serve cmdBandPlan (hostCall tag p) s = okay (bandReply s (p1 p 0)) s := by
  rw [serve_main turn (by simp [cmdBandPlan, lenIn, hostCall, len]) bonds]
  simp [cmdBandPlan, bodyBandPlan, hostCall, len]

theorem serve_bandPlan_stopped (len : p.length = 7) (stopped : s.mgr.rxRunning = false) :
    serve cmdBandPlan (hostCall tag p) s =
      okay (bandReply (setBandPlan (p1 p 0) (parseBandPlan p) s) (p1 p 0)) (setBandPlan (p1 p 0) (parseBandPlan p) s) := by
  rw [serve_main turn (by simp [cmdBandPlan, lenIn, hostCall, len]) bonds]
  simp [cmdBandPlan, bodyBandPlan, hostCall, len, stopped]

theorem serve_frontendGain_query (len : p.length = 1) :
    serve cmdFrontendGain (hostCall tag p) s = okay (gainReply s (p1 p 0)) s := by
  rw [serve_main turn (by simp [cmdFrontendGain, lenIn, hostCall, len]) bonds]
  simp [cmdFrontendGain, bodyFrontendGain, hostCall, len]

theorem serve_frontendGain_set (len : p.length = 6) :
    serve cmdFrontendGain (hostCall tag p) s =
      okay (gainReply (setGainCfg (p1 p 0) (parseGain (p1 p 0) p) s) (p1 p 0)) (setGainCfg (p1 p 0) (parseGain (p1 p 0) p) s) := by
  rw [serve_main turn (by simp [cmdFrontendGain, lenIn, hostCall, len]) bonds]
  simp [cmdFrontendGain, bodyFrontendGain, hostCall, len]

end

section
variable (line : feedIds s p = true)
include line

theorem serve_antennaFeed_query (len : p.length = 1) :
    serve cmdAntennaFeed (hostCall tag p) s = okay (feedReply s (p1 p 0)) s := by
  rw [serve_main turn (by simp [cmdAntennaFeed, lenIn, hostCall, len]) line]
  simp [cmdAntennaFeed, bodyAntennaFeed, hostCall, len]

theorem serve_antennaFeed_set (len : p.length = 6) :
    serve cmdAntennaFeed (hostCall tag p) s =
      okay (feedReply (setFeed (p1 p 0) (parseFeed p) s) (p1 p 0)) (setFeed (p1 p 0) (parseFeed p) s) := by
  rw [serve_main turn (by simp [cmdAntennaFeed, lenIn, hostCall, len]) line]
  simp [cmdAntennaFeed, bodyAntennaFeed, hostCall, len]

end

theorem serve_rxStart_running (len : p = []) (rx : s.mgr.rxRunning = true) :
    serve cmdRxStart (hostCall tag p) s = okay (startReply s) s := by
  rw [serve_main turn (by simp [cmdRxStart, lenIn, hostCall, len]) rfl]
  simp [cmdRxStart, bodyRxStart, rx]

/-- Reception starts; the command waits while the capacity is not met (R282). -/
theorem serve_rxStart_starts (len : p = []) (stopped : s.mgr.rxRunning = false) (locked : synthsReady s = true)
    (enabled : (List.range 6).any (inputEnabled s) = true) (room : admits s (demand (startReception s) - demand s) = true) :
    serve cmdRxStart (hostCall tag p) s = { status := stOk, payload := startReply (startReception s), state := startReception s,
                                            wait := if capacityMet (startReception s) then none else some .reception } := by
  rw [serve_main turn (by simp [cmdRxStart, lenIn, hostCall, len]) rfl]
  simp only [cmdRxStart, bodyRxStart, stopped, locked, enabled, room]
  rfl

theorem serve_rxStop_stops (len : p = []) (rx : s.mgr.rxRunning = true) (idle : s.progs.any (·.running) = false) :
    serve cmdRxStop (hostCall tag p) s = okay [] (finishWait .reception (stopReception s)) := by
  rw [serve_main turn (by simp [cmdRxStop, lenIn, hostCall, len]) rfl]
  simp only [cmdRxStop, bodyRxStop, rx, idle]
  rfl

end

/-- Settles O22: the lemmas above say how each command ends and what its operation makes of the front end. -/
theorem receptionCommandsTakeEffect : Obligations.ReceptionCommandsTakeEffect := by
  intro tag p s turn
  refine ⟨fun len bonds stopped => ⟨row_okay turn.1 (serve_bandPlan_stopped turn bonds len stopped),
      fun six below => inputAt_setBandPlan_plan (six ▸ below)⟩,
    fun len bonds => row_reads turn.1 (serve_bandPlan_query turn bonds len),
    fun len bonds => ⟨row_okay turn.1 (serve_frontendGain_set turn bonds len), fun six below => inputAt_setGainCfg_gcfg (six ▸ below)⟩,
    fun len bonds => row_reads turn.1 (serve_frontendGain_query turn bonds len),
    fun len line => ⟨row_okay turn.1 (serve_antennaFeed_set turn line len), fun four below => setFeed_sets _ (four ▸ below)⟩,
    fun len line => row_reads turn.1 (serve_antennaFeed_query turn line len),
    fun len stopped locked enabled room => ?_,
    fun len rx => row_reads turn.1 (serve_rxStart_running turn len rx),
    fun len rx idle => ⟨stopReception_stopped s, fun i h => stopReception_receiving s h,
      row_okay turn.1 (serve_rxStop_stops turn len rx idle)⟩⟩
  have starts := serve_rxStart_starts (tag := tag) turn len stopped locked enabled room
  refine ⟨startReception_running s, fun six i h on => startReception_enabled six h on, fun met => ?_, fun unmet => ?_⟩
  · exact row_okay turn.1 (starts.trans (by rw [if_pos met]; rfl))
  · exact row_waits turn.1 (by simpa [unmet] using starts) rfl rfl rfl rfl

end Sys2Proof.Machine

/-! Calibration: what a run and a trigger leave of the rotation, and the commands `CAL_RUN` and `CAL_POLICY`. -/

namespace Sys2Proof.Machine

/-! ### One input's calibration changes -/

theorem Handles.cal {s t : State} (h : Handles s t) : t.cal = s.cal := by
  rw [h.1]

/-- A change reaches the input it names, where there is one, and no other. -/
theorem calAt_updCal_cases (i j : Nat) (f : CalInput → CalInput) (s : State) :
    calAt (updCal i f s) j = calAt s j ∨ j = i ∧ calAt (updCal i f s) j = f (calAt s j) := by
  by_cases h : j = i
  · subst h
    by_cases inside : j < s.cal.inputs.length
    · exact .inr ⟨rfl, calAt_updCal_same j f s inside⟩
    · left
      simp [calAt, List.getD, getElem?_upd, List.getElem?_eq_none (Nat.le_of_not_lt inside)]
  · exact .inl (calAt_updCal_other i j f s h)

/-- What the rows of the rotation (R72 to R76) decide of an input. -/
structure Rotation where
  rotating : Bool
  inOverlap : Bool
  subWin : Nat
  swapFails : Nat
  suspect : Option Nat
  occ : List Nat
  understudy : Nat
  pos : Nat
  subs : List SubLane

def rotation (c : CalInput) : Rotation :=
  { rotating := c.rotating, inOverlap := c.inOverlap, subWin := c.subWin, swapFails := c.swapFails, suspect := c.suspect, occ := c.occ,
    understudy := c.understudy, pos := c.pos, subs := c.work.subs }

/-- What moves a run on leaves: the rotation of its input, every other input, and all but calibration and reports. -/
def RunStep (i : Nat) (s t : State) : Prop :=
  (∀ j, j ≠ i → calAt t j = calAt s j) ∧ rotation (calAt t i) = rotation (calAt s i) ∧ Reports { s with cal := t.cal } t

section
variable {i : Nat} {s t u : State}

theorem runStep_of_reports (h : Reports s t) : RunStep i s t := by
  have cal := (handles_of_reports h).cal
  refine ⟨fun j _ => calAt_congr cal j, by rw [calAt_congr cal], ?_⟩
  rw [cal]
  exact h

theorem RunStep.refl (i : Nat) (s : State) : RunStep i s s := runStep_of_reports (Reports.refl s)

theorem RunStep.trans (h : RunStep i s t) (k : RunStep i t u) : RunStep i s u := by
  obtain ⟨others, rot, only⟩ := h
  obtain ⟨others', rot', only'⟩ := k
  refine ⟨fun j ne => (others' j ne).trans (others j ne), rot'.trans rot, ?_⟩
  unfold Reports at only only' ⊢
  exact only'.trans (by rw [only])

theorem RunStep.rotating (h : RunStep i s t) : (calAt t i).rotating = (calAt s i).rotating := congrArg Rotation.rotating h.2.1

theorem updCal_runStep {f : CalInput → CalInput} (same : rotation (f (calAt s i)) = rotation (calAt s i)) :
    RunStep i s (updCal i f s) := by
  refine ⟨fun j ne => calAt_updCal_other i j f s ne, ?_, rfl⟩
  rcases calAt_updCal_cases i i f s with unchanged | ⟨-, changed⟩
  · rw [unchanged]
  · rw [changed, same]

/-- A change of one input and what follows it in a run. -/
theorem RunStep.after_updCal {f : CalInput → CalInput} (h : RunStep i (updCal i f s) t) (inside : i < s.cal.inputs.length) :
    rotation (calAt t i) = rotation (f (calAt s i)) ∧ (∀ j, j ≠ i → calAt t j = calAt s j) ∧ Reports { s with cal := t.cal } t := by
  obtain ⟨others, rot, only⟩ := h
  exact ⟨rot.trans (by rw [calAt_updCal_same i f s inside]), fun j ne => (others j ne).trans (calAt_updCal_other i j f s ne), only⟩

end

/-! ### Triggers (R74, R90, R93) -/

theorem startRotation_run (i : Nat) (c : CalInput) : (startRotation i c).run = c.run := by
  unfold startRotation
  split <;> rfl

/-- A trigger of an input that is frozen or does not receive changes nothing; of another it leaves a run pending, and a
rotation that turns as it is. -/
theorem calTrigger_cases (i : Nat) (byCommand : Bool) (s : State) :
    (calReceiving s i = false ∨ calFrozen s i = true) ∧ calTrigger i byCommand s = s ∨
    calReceiving s i = true ∧ calFrozen s i = false ∧ ∃ f, calTrigger i byCommand s = updCal i f s ∧
      (∀ c, (f c).run ≠ .idle) ∧ (∀ c, c.rotating = true → rotation (f c) = rotation c) := by
  unfold calTrigger
  split
  · next stopped => exact .inl ⟨by simpa using stopped, rfl⟩
  · next acts =>
    obtain ⟨receiving, thawed⟩ : calReceiving s i = true ∧ calFrozen s i = false := by simpa using acts
    refine .inr ⟨receiving, thawed, _, rfl, fun c => ?_, fun c turns => ?_⟩
    · cases run : c.run <;> simp [apply_ite CalInput.run, startRotation_run, run]
    · cases run : c.run <;> simp [turns, rotation]

section
variable (i : Nat) (byCommand : Bool) (s : State)

theorem calTrigger_runStep (turns : (calAt s i).rotating = true) : RunStep i s (calTrigger i byCommand s) := by
  rcases calTrigger_cases i byCommand s with ⟨-, e⟩ | ⟨-, -, f, e, -, keeps⟩
  · rw [e]
    exact RunStep.refl i s
  · rw [e]
    exact updCal_runStep (keeps _ turns)

/-- What decides whether a trigger acts on an input is no calibration state. -/
theorem calTrigger_frame (j : Nat) :
    calReceiving (calTrigger i byCommand s) j = calReceiving s j ∧ calFrozen (calTrigger i byCommand s) j = calFrozen s j ∧
    (calTrigger i byCommand s).cal.inputs.length = s.cal.inputs.length ∧ (calTrigger i byCommand s).cal.policy = s.cal.policy := by
  rcases calTrigger_cases i byCommand s with ⟨-, e⟩ | ⟨-, -, f, e, -⟩
  · rw [e]
    exact ⟨rfl, rfl, rfl, rfl⟩
  · rw [e]
    exact ⟨rfl, rfl, by simp, rfl⟩

/-- Triggers do not undo a pending run (R90). -/
theorem calTrigger_keeps_pending {j : Nat} (pending : (calAt s j).run ≠ .idle) : (calAt (calTrigger i byCommand s) j).run ≠ .idle := by
  rcases calTrigger_cases i byCommand s with ⟨-, e⟩ | ⟨-, -, f, e, acts, -⟩
  · rwa [e]
  · rw [e]
    rcases calAt_updCal_cases i j f s with unchanged | ⟨-, changed⟩
    · rwa [unchanged]
    · rw [changed]
      exact acts _

variable {i s}

theorem calTrigger_pending (receiving : calReceiving s i = true) (thawed : calFrozen s i = false) (inside : i < s.cal.inputs.length) :
    (calAt (calTrigger i byCommand s) i).run ≠ .idle := by
  rcases calTrigger_cases i byCommand s with ⟨stopped, -⟩ | ⟨-, -, f, e, acts, -⟩
  · simp [receiving, thawed] at stopped
  · rw [e, calAt_updCal_same i f s inside]
    exact acts _

/-- Each input that receives and is not frozen has a run pending once it has been named. -/
theorem forEach_calTrigger_pending {l : List Nat} (named : i ∈ l) (receiving : calReceiving s i = true) (thawed : calFrozen s i = false)
    (inside : i < s.cal.inputs.length) : (calAt (forEach l (fun i u => calTrigger i byCommand u) s) i).run ≠ .idle := by
  obtain ⟨before, after, rfl⟩ := List.append_of_mem named
  unfold forEach
  rw [List.foldl_append, List.foldl_cons]
  have reached := foldl_inv (fun u => calReceiving u i = true ∧ calFrozen u i = false ∧ i < u.cal.inputs.length) before
    (fun u j => calTrigger j byCommand u) s ⟨receiving, thawed, inside⟩ fun u j h => by
      obtain ⟨receives, frozen, length, -⟩ := calTrigger_frame j byCommand u i
      rwa [receives, frozen, length]
  obtain ⟨receives, free, there⟩ := reached
  exact foldl_inv (fun u => (calAt u i).run ≠ .idle) after _ _ (calTrigger_pending byCommand receives free there)
    fun u j h => calTrigger_keeps_pending j byCommand u h

end

/-! ### The policy (R91, R92) -/

theorem endDeferral_policy (i phase : Nat) (run : RunState) (s : State) : (endDeferral i phase run s).cal.policy = s.cal.policy := by
  unfold endDeferral
  rw [(faultEnds_handles _ _ _ _).cal]
  rfl

theorem calFreeze_policy (i : Nat) (s : State) : (calFreeze i s).cal.policy = s.cal.policy := by
  unfold calFreeze
  rw [updCal_cal]
  dsimp only
  split
  · exact endDeferral_policy _ _ _ s
  · rfl

theorem calThaw_policy (i : Nat) (s : State) : (calThaw i s).cal.policy = s.cal.policy := by
  unfold calThaw
  split
  · rfl
  · dsimp only
    split
    · exact (calTrigger_frame i false _ i).2.2.2
    · rfl

/-- Freezing and thawing the inputs leaves the policy that was set. -/
theorem setCalPolicy_policy (p : CalPolicy) (s : State) : (setCalPolicy p s).cal.policy = p := by
  unfold setCalPolicy forEach
  refine foldl_inv (fun u : State => u.cal.policy = p) _ _ _ rfl fun u i set => ?_
  dsimp only
  split
  · exact (calFreeze_policy i u).trans set
  · split
    · exact (calThaw_policy i u).trans set
    · exact set

/-! ### The commands (R91, R93) -/

section
variable {tag : Byte} {p : List Byte} {s : State} (turn : MainTurn s p)
include turn

theorem serve_calRun_named (len : p.length = 1) (named : (namedInputs s p).isEmpty = false)
    (ready : ∀ i ∈ namedInputs s p, calFrozen s i = false ∧ calReceiving s i = true) :
    serve cmdCalRun (hostCall tag p) s =
      okay [byte (maskOf (namedInputs s p))] (forEach (namedInputs s p) (fun i u => calTrigger i true u) s) := by
  have clear : (namedInputs s p).any (fun i => calFrozen s i || !calReceiving s i) = false := by
    rw [List.any_eq_false]
    intro i mem
    simp [ready i mem]
  rw [serve_main turn (by simp [cmdCalRun, lenIn, hostCall, len]) rfl]
  simp [cmdCalRun, bodyCalRun, hostCall, named, clear]

theorem serve_calRun_refused (len : p.length = 1) (barred : ∃ i ∈ namedInputs s p, calFrozen s i = true ∨ calReceiving s i = false) :
    serve cmdCalRun (hostCall tag p) s = fail stWrongState s := by
  have refused : (namedInputs s p).any (fun i => calFrozen s i || !calReceiving s i) = true := by simpa using barred
  rw [serve_main turn (by simp [cmdCalRun, lenIn, hostCall, len]) rfl]
  simp [cmdCalRun, bodyCalRun, hostCall, refused]

theorem serve_calPolicy_set (len : p.length = 6) :
    serve cmdCalPolicy (hostCall tag p) s =
      okay (calPolicyReply (setCalPolicy (parseCal s.chip.variant p) s)) (setCalPolicy (parseCal s.chip.variant p) s) := by
  rw [serve_main turn (by simp [cmdCalPolicy, lenIn, hostCall, len]) rfl]
  simp [cmdCalPolicy, bodyCalPolicy, hostCall, len]

theorem serve_calPolicy_query (len : p.length = 0) :
    serve cmdCalPolicy (hostCall tag p) s = okay (calPolicyReply s) s := by
  rw [serve_main turn (by simp [cmdCalPolicy, lenIn, hostCall, len]) rfl]
  simp [cmdCalPolicy, bodyCalPolicy, hostCall, len]

end

/-- Settles O33: the lemmas above say how each form of the commands ends, what a trigger of each named input leaves, and that
freezing and thawing keep the policy that was set. -/
theorem calibrationCommandsTriggerRuns : Obligations.CalibrationCommandsTriggerRuns := by
  intro tag p s turn
  refine ⟨fun len nonempty ready => ⟨row_okay turn.1 (serve_calRun_named turn len nonempty ready), fun i named inside => ?_⟩,
    fun len barred => row_fails turn.1 (serve_calRun_refused turn len barred),
    fun len => ⟨row_okay turn.1 (serve_calPolicy_set turn len), setCalPolicy_policy _ _⟩,
    fun len => row_reads turn.1 (serve_calPolicy_query turn len)⟩
  obtain ⟨thawed, receiving⟩ := ready i named
  exact forEach_calTrigger_pending true named receiving thawed inside

end Sys2Proof.Machine

/-! The rotation of a high-band input: sub-windows, intervals and swaps (R72 to R79). -/

namespace Sys2Proof.Machine

/-! ### What goes on in a run -/

/-- Positions and the sub-lanes in service are as they were: at most the rehearsed sub-lane has moved. -/
def OnlyRehearsed (c d : CalInput) : Prop :=
  d.occ = c.occ ∧ d.pos = c.pos ∧ d.understudy = c.understudy ∧ ∀ n, n ≠ c.understudy → subAt d.work n = subAt c.work n

theorem OnlyRehearsed.refl (c : CalInput) : OnlyRehearsed c c := ⟨rfl, rfl, rfl, fun _ _ => rfl⟩

/-- It is a matter of the rotation alone. -/
theorem OnlyRehearsed.congr {c d e : CalInput} (h : OnlyRehearsed c d) (same : rotation e = rotation d) : OnlyRehearsed c e := by
  obtain ⟨occ, pos, understudy, subs⟩ := h
  refine ⟨(congrArg Rotation.occ same).trans occ, (congrArg Rotation.pos same).trans pos,
    (congrArg Rotation.understudy same).trans understudy, fun n ne => ?_⟩
  have list : e.work.subs = d.work.subs := congrArg Rotation.subs same
  exact (by simp only [subAt, list] : subAt e.work n = subAt d.work n).trans (subs n ne)

theorem putSub_onlyRehearsed (x : SubLane) (c : CalInput) : OnlyRehearsed c (putSub c.understudy x c) := by
  refine ⟨rfl, rfl, rfl, fun n ne => ?_⟩
  simp [subAt, putSub, List.getD, List.getElem?_set_ne (Ne.symm ne)]

section
variable (i : Nat) (s : State)

/-- A deferral: its event and its fault of rank 8 are reports, which touch no port (R85). -/
theorem deferRun_runStep (mask : Nat) : RunStep i s (deferRun i mask s) := by
  have deferred : RunStep i s (updCal i (fun c => { c with
      run := .deferred, reasons := mask, deferredSince := some s.now, retryAt := s.now + 48000 }) s) := updCal_runStep rfl
  exact deferred.trans (runStep_of_reports ((raise_reports _ _ _).trans (faultBegins_reports _ _ _ _ (by decide))))

theorem changeReasons_runStep (mask : Nat) : RunStep i s (changeReasons i mask s) := by
  unfold changeReasons
  split
  · exact RunStep.refl i s
  · have noted : RunStep i s (updCal i (fun c => { c with reasons := mask }) s) := updCal_runStep rfl
    exact noted.trans (runStep_of_reports ((raise_reports _ _ _).trans (updRec_reports _ _ _ _)))

/-- Writing a result changes the retained bank and counts what it finds (R101). -/
theorem writeEntry_reports (plan : Nat) (e : CalEntry) : ∃ r, Reports { s with retained := r } (writeEntry i plan e s) := by
  unfold writeEntry
  dsimp only
  split
  · have counted := count_reports 22 1 (retainedItem i plan) s
    unfold Reports at counted ⊢
    exact ⟨_, by rw [counted]⟩
  · exact ⟨_, Reports.refl _⟩

variable {i s}

theorem RunStep.withRetained {t : State} (h : RunStep i s t) (r : Retained) :
    RunStep i { s with retained := r } { t with retained := r } := by
  obtain ⟨others, rot, only⟩ := h
  refine ⟨others, rot, ?_⟩
  unfold Reports at only ⊢
  rw [only]

/-- The result of a run is written or not. -/
theorem stored_runStep {u : State} (now : Bool) (plan : Nat) (e : CalEntry) (kept : RunStep i s u) :
    ∃ r, RunStep i { s with retained := r } (if now then writeEntry i plan e u else u) := by
  split
  · obtain ⟨r, written⟩ := writeEntry_reports i u plan e
    exact ⟨r, (kept.withRetained r).trans (runStep_of_reports written)⟩
  · exact ⟨u.retained, kept.withRetained u.retained⟩

/-- `EV_CAL_DONE`, and the trigger that follows when the die has moved away during the run (R94). -/
theorem reported_runStep {u : State} (plan : Nat) (temp : Int) (length flags : Nat) (far : Prop) [Decidable far]
    (turns : (calAt s i).rotating = true) (stored : ∃ r, RunStep i { s with retained := r } u) :
    ∃ r, RunStep i { s with retained := r }
      (if far then calTrigger i false (evCalDone i plan temp length flags u) else evCalDone i plan temp length flags u) := by
  obtain ⟨r, stored⟩ := stored
  have reported := stored.trans (runStep_of_reports (raise_reports _ _ u) : RunStep i u (evCalDone i plan temp length flags u))
  refine ⟨r, ?_⟩
  split
  · exact reported.trans (calTrigger_runStep i false _ (reported.rotating.trans turns))
  · exact reported

/-- A run completes: but for the retained bank it is a step of a run like the others. -/
theorem completeRun_runStep (length : Nat) (settled : Bool) (turns : (calAt s i).rotating = true) :
    ∃ r, RunStep i { s with retained := r } (completeRun i length settled s) := by
  unfold completeRun
  exact reported_runStep _ _ _ _ _ turns (stored_runStep _ _ _ (updCal_runStep rfl))

theorem runBoundary_runStep (turns : (calAt s i).rotating = true) : ∃ r, RunStep i { s with retained := r } (runBoundary i s) := by
  unfold runBoundary
  dsimp only
  split
  · exact ⟨s.retained, deferRun_runStep i s _⟩
  · split
    · exact completeRun_runStep _ _ turns
    · split
      · exact completeRun_runStep _ _ turns
      · exact ⟨s.retained, RunStep.refl i s⟩

end

/-! ### Sub-windows (R76, R77, R79) -/

theorem noteReasons_rotation (m : Nat) (c : CalInput) : rotation (noteReasons m c) = rotation c := by
  unfold noteReasons
  split <;> rfl

theorem subWindowStep_onlyRehearsed (s : State) (i mask : Nat) (o : SubWindowObs) (c : CalInput) :
    OnlyRehearsed c (subWindowStep s i mask o c) := by
  unfold subWindowStep
  split
  · exact OnlyRehearsed.refl c
  · split
    · split
      · exact putSub_onlyRehearsed _ _
      · exact OnlyRehearsed.refl c
    · exact putSub_onlyRehearsed _ c

section
variable {s : State} {i : Nat}

/-- The input as a sub-window leaves it, before its run is deferred or goes on. -/
def windowCounted (s : State) (i : Nat) (o : SubWindowObs) (c : CalInput) : CalInput :=
  let m := validMask s i o.valid
  noteReasons m { subWindowStep s i m o c with
    subWin := c.subWin + 1, subFails := c.subFails + flag (decide (m ≠ 0)), failMask := if m = 0 then c.failMask else m,
    skipWin := false, runFirst := false }

theorem subWindowEnd_runStep (o : SubWindowObs) : RunStep i (updCal i (windowCounted s i o) s) (subWindowEnd i o s) := by
  unfold subWindowEnd
  dsimp only
  split
  · exact deferRun_runStep i _ _
  · exact RunStep.refl i _

theorem windowCounted_subWin (s : State) (i : Nat) (o : SubWindowObs) (c : CalInput) :
    (rotation (windowCounted s i o c)).subWin = c.subWin + 1 :=
  congrArg Rotation.subWin (noteReasons_rotation _ _)

theorem windowCounted_onlyRehearsed (s : State) (i : Nat) (o : SubWindowObs) (c : CalInput) :
    OnlyRehearsed c (windowCounted s i o c) := by
  refine OnlyRehearsed.congr ?_ (noteReasons_rotation _ _)
  exact subWindowStep_onlyRehearsed s i (validMask s i o.valid) o c

theorem subWindowEnd_counts (o : SubWindowObs) (inside : i < s.cal.inputs.length) :
    (calAt (subWindowEnd i o s) i).subWin = (calAt s i).subWin + 1 ∧ OnlyRehearsed (calAt s i) (calAt (subWindowEnd i o s) i) ∧
    (∀ j, j ≠ i → calAt (subWindowEnd i o s) j = calAt s j) ∧ Reports { s with cal := (subWindowEnd i o s).cal } (subWindowEnd i o s) := by
  obtain ⟨rot, others, only⟩ := (subWindowEnd_runStep o).after_updCal inside
  exact ⟨(congrArg Rotation.subWin rot).trans (windowCounted_subWin s i o _), (windowCounted_onlyRehearsed s i o _).congr rot, others, only⟩

/-! ### The interval (R73, R76, R94) -/

/-- The loaded input, with the overlap begun. -/
def loaded (s : State) (i : Nat) (o : RehearsalObs) (c : CalInput) : CalInput := { loadRehearsal s i o c with inOverlap := true }

theorem loaded_onlyRehearsed (s : State) (i : Nat) (o : RehearsalObs) (c : CalInput) : OnlyRehearsed c (loaded s i o c) :=
  putSub_onlyRehearsed _ c

/-- After the load, the run's boundary or the tracking of the step deviations is a step of a run. -/
theorem intervalEnd_runStep (o : RehearsalObs) (inside : i < s.cal.inputs.length) (turns : (calAt s i).rotating = true) :
    ∃ r, RunStep i (updCal i (loaded s i o) { s with retained := r }) (intervalEnd i o s) := by
  unfold intervalEnd
  dsimp only
  split
  · have counted : RunStep i (updCal i (loaded s i o) s) (updCal i (countInterval s) (updCal i (loaded s i o) s)) := updCal_runStep rfl
    have still : (calAt (updCal i (loaded s i o) s) i).rotating = true := by
      rw [calAt_updCal_same i _ s inside]
      exact turns
    obtain ⟨r, boundary⟩ := runBoundary_runStep (counted.rotating.trans still)
    exact ⟨r, RunStep.trans (updCal_runStep rfl) boundary⟩
  · have tracked : RunStep i (updCal i (loaded s i o) s) (updCal i (trackSteps s i) (updCal i (loaded s i o) s)) := updCal_runStep rfl
    refine ⟨s.retained, tracked.trans (updCal_runStep ?_)⟩
    split <;> rfl

/-! ### The swap check (R73, R74) -/

/-- The input as the third failure in a row leaves it, before its run is deferred. -/
def stopRotation (c : CalInput) : CalInput :=
  { c with rotating := false, inOverlap := false, swapFails := 3, suspect := some c.understudy, reasons := 8 }

theorem swapFailed_third (third : ¬ (calAt s i).swapFails < 2) : RunStep i (updCal i stopRotation s) (swapFailed i s) := by
  unfold swapFailed
  dsimp only
  rw [if_neg third]
  split
  · exact RunStep.refl i _
  · exact RunStep.trans (updCal_runStep rfl) (changeReasons_runStep i _ _)
  · exact deferRun_runStep i _ _

theorem swapFailed_again (more : (calAt s i).swapFails < 2) :
    swapFailed i s = updCal i (fun c => { beginRehearsal c with swapFails := c.swapFails + 1 }) s := by
  unfold swapFailed
  exact if_pos more

/-- A failing check keeps every position; it counts, or ends the rotation with the understudy suspect. -/
theorem swapFailed_keeps_positions (inside : i < s.cal.inputs.length) (turns : (calAt s i).rotating = true) :
    let t := swapFailed i s
    (calAt t i).occ = (calAt s i).occ ∧ (calAt t i).pos = (calAt s i).pos ∧ (calAt t i).inOverlap = false ∧
    ((calAt s i).swapFails < 2 → (calAt t i).swapFails = (calAt s i).swapFails + 1 ∧ (calAt t i).rotating = true) ∧
    (2 ≤ (calAt s i).swapFails → (calAt t i).rotating = false ∧ (calAt t i).suspect = some (calAt s i).understudy) ∧
    (∀ j, j ≠ i → calAt t j = calAt s j) ∧ Reports { s with cal := t.cal } t := by
  dsimp only
  by_cases more : (calAt s i).swapFails < 2
  · rw [swapFailed_again more, calAt_updCal_same i _ s inside]
    exact ⟨rfl, rfl, rfl, fun _ => ⟨rfl, turns⟩, fun third => absurd more (by omega), fun j ne => calAt_updCal_other i j _ s ne, rfl⟩
  · obtain ⟨rot, others, only⟩ := (swapFailed_third more).after_updCal inside
    exact ⟨congrArg Rotation.occ rot, congrArg Rotation.pos rot, congrArg Rotation.inOverlap rot, fun again => absurd again more,
      fun _ => ⟨congrArg Rotation.rotating rot, congrArg Rotation.suspect rot⟩, others, only⟩

/-! ### The rows -/

theorem highBand_reached (bonds : bonded s i = true) (high : i < 4) : (!bonded s i || isLow i) = false := by
  simp [bonds, isLow, high]

end

/-- Settles O44: the lemmas above say what a sub-window, an interval and a swap check make of the input, and that all else
that a run does at them leaves its rotation. -/
theorem rotationRowsRehearseAndSwap : Obligations.RotationRowsRehearseAndSwap := by
  intro s i bonds high inside receiving turns
  have here := highBand_reached bonds high
  refine ⟨fun o single more => ?_, fun o single full => ?_, fun r m overlap rms mean => ?_, fun r m overlap apart => ?_⟩
  · obtain ⟨counted, ⟨occ, pos, understudy, subs⟩, others, only⟩ := subWindowEnd_counts o inside
    refine ⟨subWindowEnd i o s, ?_, counted, occ, pos, understudy, subs, others, only⟩
    change execSubWindowEnd i o s = _
    simp [execSubWindowEnd, here, receiving, turns, single, more]
  · obtain ⟨r, step⟩ := intervalEnd_runStep o inside turns
    obtain ⟨rot, others, only⟩ := step.after_updCal inside
    obtain ⟨occ, pos, understudy, subs⟩ := (loaded_onlyRehearsed s i o (calAt s i)).congr rot
    refine ⟨intervalEnd i o s, ?_, congrArg Rotation.inOverlap rot, occ, pos, understudy, subs, others, ?_⟩
    · change execRotationIntervalEnd i o s = _
      simp [execRotationIntervalEnd, here, receiving, turns, single, full]
    · unfold Reports at only
      rw [only]
      exact ⟨rfl, rfl, rfl⟩
  · refine ⟨updCal i swap s, ?_, ?_⟩
    · change execOverlapEnd i r m s = _
      simp [execOverlapEnd, here, receiving, turns, overlap, swapPasses, rms, mean]
    · rw [calAt_updCal_same i swap s inside]
      exact ⟨rfl, rfl, rfl, rfl, rfl, rfl, rfl, fun j ne => calAt_updCal_other i j swap s ne, rfl⟩
  · have fails : swapPasses r m = false := by
      simp only [swapPasses, Bool.and_eq_false_iff, decide_eq_false_iff_not]
      omega
    refine ⟨swapFailed i s, ?_, ?_⟩
    · change execOverlapEnd i r m s = _
      simp [execOverlapEnd, here, receiving, turns, overlap, fails]
    · exact swapFailed_keeps_positions inside turns

end Sys2Proof.Machine

/-! The commands that set receiver parameters: lanes, engines, RDS and the scan. -/

namespace Sys2Proof.Machine

theorem updLane_of_some {id : Nat} {l : Lane} {s : State} (f : Lane → Lane) (lane : laneAt s id = some l) :
    updLane id f s = setLane id (f l) s := by
  simp [updLane, lane]

section
variable {tag : Byte} {p : List Byte} {s : State} (turn : MainTurn s p)
include turn

/-! ### Parameters of lanes and their defaults (R132) -/

section
variable {l : Lane} (lane : laneAt s (p1 p 0) = some l) (live : liveState l.st = true)
include lane live

theorem serve_fmParams_lane (len : p.length = 5) (fm : p1 p 0 < 0x80) :
    serve cmdFmParams (hostCall tag p) s =
      okay (fmBytes (p1 p 0) (parseFm p)) (setLane (p1 p 0) { l with fmNext := some (parseFm p) } s) := by
  have named : p1 p 0 ≠ 0xFF := by omega
  have ids : cmdFmParams.ids s p = true := by simp [cmdFmParams, isAm, fm, laneExists, lane]
  rw [serve_main turn (by simp [cmdFmParams, lenIn, hostCall, len]) ids]
  simp [cmdFmParams, bodyFmParams, hostCall, named, lane, live, len, updLane_of_some _ lane]

theorem serve_amParams_lane (len : p.length = 7) (am : 0x80 ≤ p1 p 0) (named : p1 p 0 ≠ 0xFF) :
    serve cmdAmParams (hostCall tag p) s =
      okay (amBytes (p1 p 0) (parseAm p)) (setLane (p1 p 0) { l with amNext := some (parseAm p) } s) := by
  have ids : cmdAmParams.ids s p = true := by simp [cmdAmParams, isAm, am, laneExists, lane]
  rw [serve_main turn (by simp [cmdAmParams, lenIn, hostCall, len]) ids]
  simp [cmdAmParams, bodyAmParams, hostCall, named, lane, live, len, updLane_of_some _ lane]

end

theorem serve_fmParams_default (len : p.length = 5) (unnamed : p1 p 0 = 0xFF) :
    serve cmdFmParams (hostCall tag p) s =
      okay (fmBytes 0xFF (parseFm p)) { s with lanes := { s.lanes with fmDefault := parseFm p } } := by
  rw [serve_main turn (by simp [cmdFmParams, lenIn, hostCall, len]) (by simp [cmdFmParams, hostCall, unnamed])]
  simp [cmdFmParams, bodyFmParams, hostCall, unnamed, len]

theorem serve_amParams_default (len : p.length = 7) (unnamed : p1 p 0 = 0xFF) :
    serve cmdAmParams (hostCall tag p) s =
      okay (amBytes 0xFF (parseAm p)) { s with lanes := { s.lanes with amDefault := parseAm p } } := by
  rw [serve_main turn (by simp [cmdAmParams, lenIn, hostCall, len]) (by simp [cmdAmParams, hostCall, unnamed])]
  simp [cmdAmParams, bodyAmParams, hostCall, unnamed, len]

/-! ### RDS configuration and scan policy (R125, R155) -/

theorem serve_rdsConfig_set (len : p.length = 10) :
    serve cmdRdsConfig (hostCall tag p) s = okay (rdsBytes (parseRds s.chip.variant p))
      { s with rds := { s.rds with cfg := parseRds s.chip.variant p },
               lanes := { s.lanes with fm := s.lanes.fm.map (keepCfg s.rds.cfg) } } := by
  rw [serve_main turn (by simp [cmdRdsConfig, lenIn, hostCall, len]) rfl]
  simp [cmdRdsConfig, bodyRdsConfig, hostCall, len]

theorem serve_scanPolicy_set (len : p.length = 10) :
    serve cmdScanPolicy (hostCall tag p) s = okay (scanBytes (parseScan s.chip.variant p))
      { s with scan := { s.scan with next := some (parseScan s.chip.variant p) } } := by
  rw [serve_main turn (by simp [cmdScanPolicy, lenIn, hostCall, len]) rfl]
  simp [cmdScanPolicy, bodyScanPolicy, hostCall, len]

/-! ### Soft-bit mode (R191) -/

theorem serve_softbitMode_engine {x : Engine} (len : p.length = 2) (engine : engineAt s (p1 p 0) = some x) (live : liveState x.st = true)
    (room : sharesOf (boolOf false (p1 p 1)) - x.shares ≤ sharesFree s) (named : p1 p 0 ≠ 0xFF) :
    ∃ pl, serve cmdSoftbitMode (hostCall tag p) s = okay pl (updEngine (p1 p 0) (setSoftbit (boolOf false (p1 p 1))) s) := by
  have ids : cmdSoftbitMode.ids s p = true := by simp [cmdSoftbitMode, engineExists, engine]
  rw [serve_main turn (by simp [cmdSoftbitMode, lenIn, hostCall, len]) ids]
  simp only [cmdSoftbitMode, bodySoftbitMode, hostCall, named, engine, live, len, Nat.not_lt.mpr room]
  exact ⟨_, rfl⟩

theorem serve_softbitMode_default (len : p.length = 2) (unnamed : p1 p 0 = 0xFF) :
    ∃ pl, serve cmdSoftbitMode (hostCall tag p) s = okay pl { s with dab := { s.dab with defaultExact := boolOf false (p1 p 1) } } := by
  rw [serve_main turn (by simp [cmdSoftbitMode, lenIn, hostCall, len]) (by simp [cmdSoftbitMode, hostCall, unnamed])]
  simp [cmdSoftbitMode, bodySoftbitMode, hostCall, unnamed, len, okay]

/-! ### Antenna sets (R116, R401) -/

theorem serve_diversitySet_lane {l : Lane} {m : Nat} (len : p.length = 3) (target : diversityTarget p ≠ 1) (fm : p1 p 1 < 0x80)
    (lane : laneAt s (p1 p 1) = some l) (live : liveState l.st = true) (mask : m = highMask s s.clocks.plan 1 l.freq (p1 p 2))
    (served : m ≠ 0) (new : m ≠ l.mask) (room : admits s (laneRaise s (p1 p 1) m) = true) :
    serve cmdDiversitySet (hostCall tag p) s =
      okay (diversityReply 0 (p1 p 1) m (laneCost false (antennas m))) (setLaneMask (p1 p 1) m (forgetShed false (p1 p 1) s)) := by
  have ids : cmdDiversitySet.ids s p = true := by simp [cmdDiversitySet, target, laneExists, lane]
  rw [serve_main turn (by simp [cmdDiversitySet, lenIn, hostCall, len]) ids]
  subst mask
  simp [cmdDiversitySet, bodyDiversitySet, diversityLane, hostCall, target, lane, live, isAm, fm, len, served, new, room]

end

/-- Settles O25: the lemmas above say how the body of each command ends. -/
theorem receiverParametersAreSet : Obligations.ReceiverParametersAreSet := by
  intro tag p s turn
  refine ⟨fun l len fm lane live => row_okay turn.1 (serve_fmParams_lane turn lane live len fm),
    fun len unnamed => row_okay turn.1 (serve_fmParams_default turn len unnamed),
    fun l len am named lane live => row_okay turn.1 (serve_amParams_lane turn lane live len am named),
    fun len unnamed => row_okay turn.1 (serve_amParams_default turn len unnamed),
    fun len => row_okay turn.1 (serve_rdsConfig_set turn len),
    fun x len engine live room named => ?_, fun len unnamed => ?_,
    fun l m len target fm lane live mask served new room =>
      row_okay turn.1 (serve_diversitySet_lane turn len target fm lane live mask served new room),
    fun len => row_okay turn.1 (serve_scanPolicy_set turn len)⟩
  · obtain ⟨pl, ends⟩ := serve_softbitMode_engine (tag := tag) turn len engine live room named
    exact ⟨pl, row_okay turn.1 ends⟩
  · obtain ⟨pl, ends⟩ := serve_softbitMode_default (tag := tag) turn len unnamed
    exact ⟨pl, row_okay turn.1 ends⟩

end Sys2Proof.Machine

/-! What selections and announcement edges leave alone: time, lanes, engines and the RDS part. -/

namespace Sys2Proof.Machine

/-! ### Selections move programs, decoders and alerts (R212, R224 to R232) -/

/-- All but programs, decoders and alerts stays. -/
def SelectionOnly (s t : State) : Prop := t = { s with progs := t.progs, decoders := t.decoders, alerts := t.alerts }

theorem SelectionOnly.refl (s : State) : SelectionOnly s s := rfl

theorem SelectionOnly.trans {s t u : State} (h : SelectionOnly s t) (k : SelectionOnly t u) : SelectionOnly s u := by
  unfold SelectionOnly at h k ⊢
  exact k.trans (by rw [h])

theorem forEach_selectionOnly {α : Type} (l : List α) (f : α → State → State) (s : State) (h : ∀ x u, SelectionOnly u (f x u)) :
    SelectionOnly s (forEach l f s) :=
  foldl_inv (SelectionOnly s) l _ s (SelectionOnly.refl s) fun _ x hu => hu.trans (h x _)

theorem updProgram_selectionOnly (n : Nat) (f : Program → Program) (s : State) : SelectionOnly s (updProgram n f s) := rfl

theorem releaseLoans_selectionOnly (n : Nat) (t : Source → Bool) (s : State) : SelectionOnly s (releaseLoans n t s) := rfl

theorem takeOwn_selectionOnly (n : Nat) (s : State) : SelectionOnly s (takeOwn n s) := by
  unfold takeOwn loseLoan
  (repeat' split) <;> rfl

theorem releaseOwn_selectionOnly (n : Nat) (s : State) : SelectionOnly s (releaseOwn n s) := by
  unfold releaseOwn
  split <;> rfl

theorem assignOwn_selectionOnly (n : Nat) (s : State) : SelectionOnly s (assignOwn n s) := by
  unfold assignOwn
  split <;> rfl

theorem fitOwn_selectionOnly (n : Nat) (s : State) : SelectionOnly s (fitOwn n s) := by
  unfold fitOwn
  split
  · split
    · exact (takeOwn_selectionOnly n s).trans (assignOwn_selectionOnly n _)
    · exact releaseOwn_selectionOnly n s
  · rfl

theorem lend_selectionOnly {n : Nat} {key : Source} {s t : State} (h : lend n key s = some t) : SelectionOnly s t := by
  unfold lend at h
  (repeat' split at h) <;> cases h
  rfl

theorem selectAnn_selectionOnly (n : Nat) (p : Program) (a : Announce) (s : State) : SelectionOnly s (selectAnn n p a s) := by
  unfold selectAnn
  dsimp only
  split
  · rfl
  · split
    · rfl
    · split
      · next lent => exact (lend_selectionOnly lent).trans (updProgram_selectionOnly _ _ _)
      · split
        · exact (updProgram_selectionOnly _ _ _).trans (fitOwn_selectionOnly _ _)
        · rfl

theorem dropSelection_selectionOnly (n : Nat) (p : Program) (s : State) : SelectionOnly s (dropSelection n p s) :=
  ((updProgram_selectionOnly _ _ s).trans (forEach_selectionOnly _ _ _ fun _ _ => releaseLoans_selectionOnly _ _ _)).trans
    (fitOwn_selectionOnly _ _)

theorem feedSelection_selectionOnly (n : Nat) (s : State) : SelectionOnly s (feedSelection n s) := by
  unfold feedSelection
  dsimp only
  split
  · rfl
  · split
    · rfl
    · split
      · next lent => exact lend_selectionOnly lent
      · split
        · rfl
        · exact (updProgram_selectionOnly _ _ _).trans (fitOwn_selectionOnly _ _)

theorem ite_dropSelection_selectionOnly (c : Bool) (n : Nat) (p : Program) (s : State) :
    SelectionOnly s (if c then dropSelection n p s else s) ∧ SelectionOnly s (if c then s else dropSelection n p s) := by
  cases c
  · exact ⟨rfl, dropSelection_selectionOnly n p s⟩
  · exact ⟨dropSelection_selectionOnly n p s, rfl⟩

theorem reselect_selectionOnly (n : Nat) (s : State) : SelectionOnly s (reselect n s) := by
  unfold reselect
  dsimp only
  split
  · rfl
  · split
    · rfl
    · have aged (f : Program → Program) := updProgram_selectionOnly n f s
      have dropped (c : Bool) := ite_dropSelection_selectionOnly c n
      split
      · exact aged _
      · split
        · split
          · exact (aged _).trans (selectAnn_selectionOnly _ _ _ _)
          · exact aged _
        · split
          · split
            · exact (aged _).trans (dropped _ _ _).1
            · exact (((aged _).trans (dropped _ _ _).1).trans (dropped _ _ _).2).trans (selectAnn_selectionOnly _ _ _ _)
          · exact (aged _).trans (dropped _ _ _).1

theorem reselectAll_selectionOnly (s : State) : SelectionOnly s (reselectAll s) :=
  SelectionOnly.trans (t := { s with alerts := { s.alerts with chosen := selectedAlarm s } }) rfl
    (forEach_selectionOnly _ _ _ fun n u => (reselect_selectionOnly n u).trans (feedSelection_selectionOnly n _))

@[simp] theorem reselectAll_lanes (s : State) : (reselectAll s).lanes = s.lanes := by rw [reselectAll_selectionOnly s]
@[simp] theorem reselectAll_dab (s : State) : (reselectAll s).dab = s.dab := by rw [reselectAll_selectionOnly s]
@[simp] theorem reselectAll_rds (s : State) : (reselectAll s).rds = s.rds := by rw [reselectAll_selectionOnly s]

/-! ### Edges of announcements and alarms (R166, R167, R327) -/

@[simp] theorem produce_rds (kind source qual : Nat) (failed : Bool) (key : Option (Nat × Nat × Nat)) (payload : List Byte) (s : State) :
    (produce kind source qual failed key payload s).rds = s.rds := by
  refine foldl_inv (fun u => u.rds = s.rds) _ _ s rfl fun u i h => ?_
  (repeat' split) <;> simp [h]

theorem raiseEdge_frame (a : Announce) (start : Bool) (s : State) :
    UnitsStay s (raiseEdge a start s) ∧ (raiseEdge a start s).rds = s.rds := by
  have raised (bit : Nat) (body : List Byte) : (raise bit body s).rds = s.rds := by rw [raise_reports bit body s]
  unfold raiseEdge flowEdge evAnnounce updLog
  dsimp only
  split <;> simp [raised]

theorem endAnn_frame (a : Announce) (s : State) : UnitsStay s (endAnn a s) ∧ (endAnn a s).rds = s.rds := by
  unfold endAnn
  split
  · simp
  · exact raiseEdge_frame _ false _

@[simp] theorem endAnn_unitsStay (a : Announce) (s : State) : UnitsStay s (endAnn a s) := (endAnn_frame a s).1

@[simp] theorem startAnn_unitsStay (a : Announce) (s : State) : UnitsStay s (startAnn a s) := by
  unfold startAnn
  dsimp only
  split
  · simp
  · split
    · simp
    · exact (raiseEdge_frame a true _).1

@[simp] theorem endAnnWhere_unitsStay (t : Announce → Bool) (s : State) : UnitsStay s (endAnnWhere t s) :=
  forEach_unitsStay _ endAnn s endAnn_unitsStay

theorem forEach_endAnn_rds {α : Type} (l : List α) (f : α → Announce) (s : State) :
    (forEach l (fun x => endAnn (f x)) s).rds = s.rds :=
  foldl_inv (fun u => u.rds = s.rds) l _ s rfl fun _ _ h => (endAnn_frame _ _).2.trans h

/-! ### Station records (R160 to R164) -/

@[simp] theorem changeStation_unitsStay (i : Nat) (f : Station → Station) (s : State) : UnitsStay s (changeStation i f s) := by
  simp [changeStation, updStation]

@[simp] theorem ensureStation_unitsStay (pi : Id16) (eon : Bool) (s : State) : UnitsStay s (ensureStation pi eon s) := by
  unfold ensureStation updStation bumpStations evStation evService
  dsimp only
  (repeat' split) <;> simp

@[simp] theorem mergeEntries_unitsStay (pi : Id16) (es : List AfEntry) (s : State) : UnitsStay s (mergeEntries pi es s) := by
  unfold mergeEntries
  split <;> simp

@[simp] theorem finishList_unitsStay (pi : Option Id16) (f : RdsFields) (s : State) : UnitsStay s (finishList pi f s) := by
  unfold finishList
  split <;> simp

@[simp] theorem eonScalar_unitsStay (other : Id16) (f : Station → Station) (s : State) : UnitsStay s (eonScalar other f s) := by
  unfold eonScalar
  (repeat' split) <;> simp

@[simp] theorem eonTraffic_unitsStay (lane : Nat) (pi other : Id16) (ta : Bool) (s : State) :
    UnitsStay s (eonTraffic lane pi other ta s) := by
  unfold eonTraffic
  dsimp only
  split <;> simp

end Sys2Proof.Machine


/-! RDS on one FM lane: blocks, groups, identity, announcements and the writing of station records. -/

namespace Sys2Proof.Machine

/-! ### One FM lane changes -/

/-- FM lane `n` has become `m`; every other lane, the defaults and the engines are as they were. -/
def FmBecomes (n : Nat) (m : Lane) (s t : State) : Prop :=
  t.lanes = { s.lanes with fm := s.lanes.fm.set n m } ∧ t.dab = s.dab

section
variable {n : Nat} {l m k : Lane} {s t u : State}

theorem fmBecomes_refl (lane : s.lanes.fm[n]? = some l) : FmBecomes n l s s := by
  obtain ⟨inside, rfl⟩ := List.getElem?_eq_some_iff.mp lane
  exact ⟨by rw [List.set_getElem_self], rfl⟩

theorem FmBecomes.here (h : FmBecomes n m s t) (lane : s.lanes.fm[n]? = some l) : t.lanes.fm[n]? = some m := by
  obtain ⟨inside, -⟩ := List.getElem?_eq_some_iff.mp lane
  simp [h.1, inside]

theorem FmBecomes.others (h : FmBecomes n m s t) (i : Nat) (ne : i ≠ n) : t.lanes.fm[i]? = s.lanes.fm[i]? := by
  rw [h.1]
  exact List.getElem?_set_ne ne.symm

theorem FmBecomes.am (h : FmBecomes n m s t) : t.lanes.am = s.lanes.am := by rw [h.1]

theorem FmBecomes.trans (h : FmBecomes n m s t) (h' : FmBecomes n k t u) : FmBecomes n k s u :=
  ⟨by simp [h'.1, h.1], h'.2.trans h.2⟩

theorem FmBecomes.of_stay (h : FmBecomes n m s t) (stay : u.lanes = t.lanes ∧ u.dab = t.dab) : FmBecomes n m s u :=
  ⟨stay.1.trans h.1, stay.2.trans h.2⟩

theorem laneAt_fm (s : State) (fm : n < 0x80) : laneAt s n = s.lanes.fm[n]? := if_pos fm

theorem updLane_fm (f : Lane → Lane) (fm : n < 0x80) (lane : s.lanes.fm[n]? = some l) :
    updLane n f s = { s with lanes := { s.lanes with fm := s.lanes.fm.set n (f l) } } := by
  simp [updLane, laneAt_fm s fm, lane, setLane, fm]

theorem fmBecomes_updLane (f : Lane → Lane) (fm : n < 0x80) (lane : s.lanes.fm[n]? = some l) : FmBecomes n (f l) s (updLane n f s) := by
  rw [updLane_fm f fm lane]
  exact ⟨rfl, rfl⟩

theorem fmBecomes_updLane_of_eq {f : Lane → Lane} (fm : n < 0x80) (lane : s.lanes.fm[n]? = some l) (gives : f l = m) :
    FmBecomes n m s (updLane n f s) := gives ▸ fmBecomes_updLane f fm lane

end

/-! ### Blocks (R153, R154, R156) -/

/-- Synchronisation takes two clean blocks in sequence, without a gap (R153). -/
theorem seekBlock_synced_iff {d : RdsDecoder} (w : Id16) (o : RdsOffset) (e : RdsError) (gap : Bool) (lost : d.synced = false) :
    (seekBlock w o e gap d).synced = true ↔ e = .clean ∧ gap = false ∧
      ∃ q j k, d.prev = some q ∧ offsetPos q = some j ∧ offsetPos o = some k ∧ k = (j + 1) % 4 := by
  unfold seekBlock
  split
  · next unclean =>
      have : ¬(e = .clean ∧ gap = false) := by simpa [imp_iff_not_or] using unclean
      simp only [lost]
      tauto
  · next clean =>
      obtain ⟨rfl, rfl⟩ : e = .clean ∧ gap = false := by simpa using clean
      split
      · next unplaced => simp [lost, unplaced]
      · next k pos =>
          split
          · next follows =>
              obtain ⟨j, before, next⟩ := Option.map_eq_some_iff.mp follows
              obtain ⟨q, prev, placed⟩ := Option.bind_eq_some_iff.mp before
              simp [prev, placed, next, pos]
          · next apart =>
              simp only [lost, Bool.false_eq_true, false_iff]
              rintro ⟨-, -, q, j, i, prev, placed, same, next⟩
              obtain rfl := Option.some.inj (pos.symm.trans same)
              exact apart (by simp [prev, placed, next])

section
variable {n : Nat} {l : Lane} {s : State} (lane : s.lanes.fm[n]? = some l)
include lane

theorem execRdsBlock_offsetE (w : Id16) (e : RdsError) (gap : Bool) (held : l.rds.synced = true) :
    execRdsBlock n w .e e gap s = .next s := by
  simp [execRdsBlock, lane, held]

section
variable (running : l.st = .running) (rx : s.mgr.rxRunning = true)
include running rx

theorem execRdsBlock_held {o : RdsOffset} (w : Id16) (e : RdsError) (gap : Bool) (held : l.rds.synced = true) (kept : o ≠ .e) :
    execRdsBlock n w o e gap s = .next (heldBlock n w o e (gap || blockGap s l) l s) := by
  simp [execRdsBlock, lane, rdsRuns, running, rx, held, kept]

theorem execRdsBlock_seeks (fm : n < 0x80) (w : Id16) (o : RdsOffset) (e : RdsError) (gap : Bool) (lost : l.rds.synced = false) :
    execRdsBlock n w o e gap s = .next { s with
      lanes := { s.lanes with fm := s.lanes.fm.set n { l with rds := seekBlock w o e (gap || blockGap s l) l.rds } } } := by
  simp [execRdsBlock, lane, rdsRuns, running, rx, lost, updLane_fm _ fm lane]

end

/-- A block that cannot be corrected has status 3 and moves the decoder alone. -/
theorem heldBlock_uncorrectable {d : RdsDecoder} (w : Id16) (o : RdsOffset) (gap : Bool) (fm : n < 0x80)
    (taken : d = takeBlock w o 3 l.rds) (held : d.synced = true) :
    heldBlock n w o .uncorrectable gap l s = { s with lanes := { s.lanes with fm := s.lanes.fm.set n { l with rds := d } } } := by
  have status (c : Nat) : blockStatus c l.rds.pos o .uncorrectable gap = 3 := by simp [blockStatus]
  simp [heldBlock, status, ← taken, held, updLane_fm _ fm lane]

/-- A clean block 1 with the confirmed PI renews it (R156). -/
theorem heldBlock_confirmed {w : Id16} (fm : n < 0x80) (first : l.rds.pos = 0) (held : (takeBlock w .a 0 l.rds).synced = true)
    (known : l.ident.pi = some w) :
    FmBecomes n { l with rds := takeBlock w .a 0 l.rds, ident := { l.ident with cand := none, count := 0, carriedAt := s.now } } s
      (heldBlock n w .a .clean false l s) := by
  have status (c : Nat) : blockStatus c 0 .a .clean false = 0 := by simp [blockStatus, offsetPos]
  have taken := fmBecomes_updLane (fun l' => { l' with rds := takeBlock w .a 0 l.rds }) fm lane
  have renewed := fmBecomes_updLane (fun l' => { l' with ident := { l'.ident with cand := none, count := 0, carriedAt := s.now } })
    fm (taken.here lane)
  have same : heldBlock n w .a .clean false l s = reselectAll
      (updLane n (fun l' => { l' with ident := { l'.ident with cand := none, count := 0, carriedAt := s.now } })
        (updLane n (fun l' => { l' with rds := takeBlock w .a 0 l.rds }) s)) := by
    simp [heldBlock, status, held, first, readPi, laneAt_fm _ fm, taken.here lane, known]
  rw [same]
  exact (taken.trans renewed).of_stay (by simp)

end

/-! ### Identity (R144, R156 to R158) -/

/-- A lane without accepted fields and conditions. -/
def forgetFields (l : Lane) : Lane :=
  { l with fields := RdsFields.none, traffic := false, alarm := false, test := false, alarmOffAt := none, testOffAt := none }

section
variable {n : Nat} {l : Lane} {s : State} (fm : n < 0x80) (lane : s.lanes.fm[n]? = some l)
include fm lane

/-- A record moves only what has been reported (R144). -/
theorem emitIdentity_becomes (changes : Nat) : ∃ i, FmBecomes n { l with ident := i } s (emitIdentity n changes l s) ∧
    i.pi = l.ident.pi ∧ i.cand = l.ident.cand := by
  have reported {f : Lane → Lane} {m : Lane} (bit : Nat) (body : List Byte) (gives : f l = m) :
      FmBecomes n m s (raise bit body (updLane n f s)) := (fmBecomes_updLane_of_eq fm lane gives).of_stay (by simp)
  unfold emitIdentity evLane
  dsimp only
  (repeat' split)
  · exact ⟨_, fmBecomes_updLane_of_eq fm lane rfl, rfl, rfl⟩
  · exact ⟨_, reported _ _ rfl, rfl, rfl⟩
  · exact ⟨_, fmBecomes_updLane_of_eq fm lane rfl, rfl, rfl⟩
  · exact ⟨_, reported _ _ rfl, rfl, rfl⟩
  · exact ⟨_, reported _ _ rfl, rfl, rfl⟩
  · exact ⟨_, reported _ _ rfl, rfl, rfl⟩

theorem noteIdentity_becomes : ∃ i, FmBecomes n { l with ident := i } s (noteIdentity n s) ∧
    i.pi = l.ident.pi ∧ i.cand = l.ident.cand := by
  simp only [noteIdentity, laneAt_fm s fm, lane]
  cases l.ident.recordAt with
  | none => exact emitIdentity_becomes fm lane 1
  | some t =>
    dsimp only
    split
    · exact emitIdentity_becomes fm lane 1
    · exact ⟨_, fmBecomes_updLane_of_eq fm lane rfl, rfl, rfl⟩

/-- The end of an identity takes the accepted fields and the conditions with it (R158, R166, R167). -/
theorem dropIdentity_becomes : FmBecomes n (forgetFields l) s (dropIdentity n s) := by
  unfold dropIdentity
  exact ((fmBecomes_refl lane).of_stay (by simp)).trans (fmBecomes_updLane_of_eq (l := l) fm (by simp [lane]) rfl)

theorem execIdentityLost_becomes {p : Id16} (known : l.ident.pi = some p) (silent : l.ident.carriedAt + 96000 ≤ s.now) :
    ∃ t i, execIdentityLost n s = .next t ∧ i.pi = none ∧ i.cand = none ∧ FmBecomes n { forgetFields l with ident := i } s t := by
  have dropped := dropIdentity_becomes fm lane
  have cleared := dropped.trans (fmBecomes_updLane
    (fun l => { l with ident := { l.ident with pi := none, cand := none, count := 0 } }) fm (dropped.here lane))
  obtain ⟨i, noted, pi, cand⟩ := noteIdentity_becomes fm (cleared.here lane)
  have row : execIdentityLost n s = .next (reselectAll (noteIdentity n
      (updLane n (fun l => { l with ident := { l.ident with pi := none, cand := none, count := 0 } }) (dropIdentity n s)))) := by
    simp [execIdentityLost, lane, known, elapsed, silent]
  exact ⟨_, i, row, pi, cand, (cleared.trans noted).of_stay (by simp)⟩

theorem execIdentityRecord_due {p q : Id16} {since : Nat} (waits : 0 < l.ident.waiting) (last : l.ident.recordAt = some since)
    (due : since + 24000 ≤ s.now) (known : l.ident.pi = some p) (shown : l.ident.shown = some q) :
    execIdentityRecord n s = .next (evLane n 4 l.smoothed.lq q.toNat p.toNat l.ident.waiting
      (updLane n (fun l => { l with ident := { l.ident with
        shown := some p, last := some p, recordAt := some s.now, waiting := 0 } }) s)) := by
  simp [execIdentityRecord, lane, waits, last, elapsed, due, emitIdentity, known, shown, laneSource, updLane_fm _ fm lane]

end

section
variable {n : Nat} {l : Lane} {s : State} (lane : s.lanes.fm[n]? = some l)
include lane

theorem execIdentityLost_carried (heard : s.now < l.ident.carriedAt + 96000) : execIdentityLost n s = .next s := by
  simp [execIdentityLost, lane, elapsed, Nat.not_le.mpr heard]

theorem execIdentityRecord_idle (idle : l.ident.waiting = 0) : execIdentityRecord n s = .next s := by
  simp [execIdentityRecord, lane, idle]

end

/-! ### Groups (R155, R158 to R162, R166, R167) -/

/-- The decoder, the identity and the tuning of a lane are the same. -/
@[simp, reducible] def SameTuning (l m : Lane) : Prop := m.rds = l.rds ∧ m.ident = l.ident ∧ m.freq = l.freq ∧ m.st = l.st

/-- At most lane `n` changes, and keeps its decoder, identity and tuning: accepted fields and conditions may move. -/
def FieldsMove (n : Nat) (s t : State) : Prop :=
  ∀ l, s.lanes.fm[n]? = some l → ∃ m, FmBecomes n m s t ∧ SameTuning l m

section
variable {n : Nat} {s t u : State}

theorem UnitsStay.fieldsMove (h : UnitsStay s t) : FieldsMove n s t :=
  fun l lane => ⟨l, (fmBecomes_refl lane).of_stay (by simp_all), by simp⟩

theorem FieldsMove.refl (s : State) : FieldsMove n s s := UnitsStay.fieldsMove (by simp)

theorem FieldsMove.trans (h : FieldsMove n s t) (k : FieldsMove n t u) : FieldsMove n s u := by
  intro l lane
  obtain ⟨m, first, same⟩ := h l lane
  obtain ⟨m', second, same'⟩ := k m (first.here lane)
  exact ⟨m', first.trans second, by simp_all⟩

theorem FieldsMove.stay (h : FieldsMove n s t) (k : UnitsStay t u) : FieldsMove n s u := h.trans k.fieldsMove

end

section
variable {n : Nat} (fm : n < 0x80)
include fm

theorem updLane_fieldsMove (f : Lane → Lane) (s : State) (same : ∀ l, SameTuning l (f l)) : FieldsMove n s (updLane n f s) :=
  fun l lane => ⟨f l, fmBecomes_updLane f fm lane, same l⟩

theorem takeAf_fieldsMove (pi : Id16) (s : State) (x : Nat) : FieldsMove n s (takeAf n pi s x) := by
  unfold takeAf
  split
  · exact .refl s
  · split
    · exact (UnitsStay.fieldsMove (finishList_unitsStay _ _ s)).trans (updLane_fieldsMove fm _ _ (by simp))
    · exact updLane_fieldsMove fm _ s (by simp)

theorem eonVariant_fieldsMove (other : Id16) (v c : Nat) (s : State) : FieldsMove n s (eonVariant n other v c s) := by
  unfold eonVariant
  dsimp only
  split
  · split
    · exact .refl s
    · have segment (f : Lane → Lane) (same : ∀ l, SameTuning l (f l)) := updLane_fieldsMove fm f s same
      split
      · exact (segment _ (by simp)).stay (eonScalar_unitsStay _ _ _)
      · exact segment _ (by simp)
  · refine UnitsStay.fieldsMove ?_
    (repeat' split) <;> simp

theorem takeEon_fieldsMove (pi : Id16) (d : RdsDecoder) (s : State) : FieldsMove n s (takeEon n pi d s) := by
  unfold takeEon
  dsimp only
  split
  · split
    · exact .refl s
    · split
      · exact UnitsStay.fieldsMove (by split <;> simp)
      · split
        · exact (UnitsStay.fieldsMove (by split <;> simp)).trans (eonVariant_fieldsMove fm _ _ _ _)
        · exact UnitsStay.fieldsMove (by split <;> simp)
  · exact .refl s

theorem trafficEdge_fieldsMove (pi : Id16) (s : State) : FieldsMove n s (trafficEdge n pi s) := by
  unfold trafficEdge
  dsimp only
  split
  · exact .refl s
  · next l _ =>
      have flagged := updLane_fieldsMove fm
        (fun k => { k with traffic := l.fields.tp.acc == some 1 && l.fields.ta.acc == some 1 }) s (by simp)
      split
      · exact .refl s
      · split
        · exact flagged.stay (startAnn_unitsStay _ _)
        · exact flagged.stay (by simp)

theorem ptyEdge_fieldsMove (pi : Id16) (test : Bool) (s : State) : FieldsMove n s (ptyEdge n pi test s) := by
  have marked (f : Lane → Lane) (same : ∀ l, SameTuning l (f l)) := updLane_fieldsMove fm f s same
  unfold ptyEdge
  cases test
  all_goals
    simp only [Bool.false_eq_true, if_false, if_true]
    split
    · exact .refl s
    · split
      · exact .refl s
      · split
        · split
          · exact marked _ (by simp)
          · exact (marked _ (by simp)).stay (startAnn_unitsStay _ _)
        · split
          · exact marked _ (by simp)
          · exact .refl s

theorem takeGroup_fieldsMove (pi : Id16) (l : Lane) (s : State) : FieldsMove n s (takeGroup n pi l s) := by
  unfold takeGroup
  dsimp only
  refine FieldsMove.trans ?_ (((trafficEdge_fieldsMove fm pi _).trans (ptyEdge_fieldsMove fm pi false _)).trans
    (ptyEdge_fieldsMove fm pi true _))
  have accepted := updLane_fieldsMove fm (fun k => { k with fields := acceptFields l.rds k.fields }) s (by simp)
  have listed := foldl_inv (FieldsMove n s) (afCodes l.rds) (takeAf n pi) _ accepted fun u x h => h.trans (takeAf_fieldsMove fm pi u x)
  have heard := listed.trans (takeEon_fieldsMove fm pi l.rds _)
  split
  · split
    · exact (heard.stay (changeStation_unitsStay _ _ _)).stay (changeStation_unitsStay _ _ _)
    · exact heard.stay (changeStation_unitsStay _ _ _)
  · exact heard

end

theorem endGroup_becomes {n : Nat} {l : Lane} {s : State} (fm : n < 0x80) (lane : s.lanes.fm[n]? = some l) :
    FmBecomes n { l with rds := { l.rds with blocks := [], ready := false, firstGroup := false, cfg := none } } s (endGroup n s) :=
  fmBecomes_updLane _ fm lane

/-- A whole group ends: its decoder waits for the next, whatever the fields of the group have moved. -/
theorem execRdsGroup_whole {n : Nat} {l : Lane} {s : State} (fm : n < 0x80) (lane : s.lanes.fm[n]? = some l) (running : l.st = .running)
    (rx : s.mgr.rxRunning = true) (ready : l.rds.ready = true) :
    ∃ t m, execRdsGroup n s = .next t ∧ SameTuning l m ∧
      FmBecomes n { m with rds := { l.rds with blocks := [], ready := false, firstGroup := false, cfg := none } } s t := by
  have delivered : FieldsMove n s (if groupDelivered (laneCfg s l) l.rds then
      produce 0x01 (laneSource n) 0xFFFF false none (groupPayload l) s else s) := by
    split
    · exact (produce_unitsStay _ _ _ _ _ _ s).fieldsMove
    · exact .refl s
  have ends (u : State) (moved : FieldsMove n s u) : ∃ t m, (.next (reselectAll (endGroup n u)) : Host.Outcome State Fault Refusal) = .next t ∧
      SameTuning l m ∧
      FmBecomes n { m with rds := { l.rds with blocks := [], ready := false, firstGroup := false, cfg := none } } s t := by
    obtain ⟨m, becomes, same⟩ := moved l lane
    have ended := becomes.trans (endGroup_becomes fm (becomes.here lane))
    rw [same.1] at ended
    exact ⟨_, m, rfl, same, ended.of_stay ⟨reselectAll_lanes _, reselectAll_dab _⟩⟩
  unfold execRdsGroup
  simp only [lane, rdsRuns, running, rx, ready]
  refine ends _ ?_
  split
  · split
    · exact delivered.trans (takeGroup_fieldsMove fm _ l _)
    · exact delivered
  · exact delivered

theorem execRdsGroup_incomplete {n : Nat} {l : Lane} {s : State} (lane : s.lanes.fm[n]? = some l) (part : l.rds.ready = false) :
    execRdsGroup n s = .next s := by
  simp [execRdsGroup, lane, part]

/-! ### Announcements and records (R165 to R167) -/

theorem execEonTaTimeout_drops {n : Nat} {l : Lane} {s : State} (lane : s.lanes.fm[n]? = some l) :
    ∃ t, execEonTaTimeout n s = .next t ∧ t.lanes = s.lanes ∧
      t.rds = { s.rds with eon := s.rds.eon.filter fun x => !(x.lane == n && decide (x.lastAt + 5760000 ≤ s.now)) } := by
  have lanes {α : Type} (due : List α) (f : α → Announce) (u : State) := (forEach_unitsStay due _ u fun x v => endAnn_unitsStay (f x) v).lanes
  simp only [execEonTaTimeout, lane, elapsed]
  exact ⟨_, rfl, (reselectAll_lanes _).trans (lanes _ _ _), (reselectAll_rds _).trans (forEach_endAnn_rds _ _ _)⟩

theorem execAlertEndTimer_ends {n : Nat} {l : Lane} {s : State} {p : Id16} {since : Nat} (fm : n < 0x80) (lane : s.lanes.fm[n]? = some l)
    (known : l.ident.pi = some p) (off : l.alarmOffAt = some since) (due : since + 96000 ≤ s.now) (quiet : l.testOffAt = none) :
    ∃ t, execAlertEndTimer n s = .next t ∧ FmBecomes n { l with alarm := false, alarmOffAt := none } s t := by
  have ended : FmBecomes n { l with alarm := false, alarmOffAt := none } s (ptyEnd n p false s) := by
    have passed : elapsed s since 96000 = true := by simp [elapsed, due]
    simp only [ptyEnd, laneAt_fm s fm, lane, off, passed, Bool.not_true, Bool.false_eq_true, if_false]
    exact (fmBecomes_updLane (fun l => { l with alarm := false, alarmOffAt := none }) fm lane).of_stay (by simp)
  have still : ptyEnd n p true (ptyEnd n p false s) = ptyEnd n p false s := by
    generalize ptyEnd n p false s = u at ended
    simp [ptyEnd, laneAt_fm _ fm, ended.here lane, quiet]
  have row : execAlertEndTimer n s = .next (reselectAll (ptyEnd n p false s)) := by simp [execAlertEndTimer, lane, known, still]
  exact ⟨_, row, ended.of_stay (by simp)⟩

theorem execStationRecordWrite_writes {i c : Nat} {r q : Station} {s : State} (record : s.rds.stations[i]? = some r)
    (ready : s.reset_.domain = .ready) (store : s.rds.cfg.dbStore = true) (changed : r.changedAt = some c) (steady : s.supply.sag = false)
    (unwritten : r.writtenAt = none) (written : q = { r with changedAt := none, writtenAt := some s.now }) :
    execStationRecordWrite i s = .next { s with
      rds := { s.rds with stations := s.rds.stations.set i q },
      retained := { s.retained with stations := s.retained.stations.set i (some q),
                                    badStations := s.retained.badStations.filter (· ≠ i) } } := by
  subst written
  simp [execStationRecordWrite, record, mainReady, ready, store, changed, steady, unwritten]

/-- Settles O47: one lemma above for each way in which the seven rows end. -/
theorem rdsRowsFollowBlocksIdentityAndRecords : Obligations.RdsRowsFollowBlocksIdentityAndRecords := by
  intro s n l shaped lane
  obtain ⟨-, -, -, lanes, -⟩ := shaped
  have fm : n < 0x80 := by
    have := (List.getElem?_eq_some_iff.mp lane).1
    have := fmLanes_le s.chip.variant
    omega
  refine ⟨fun w o e g running rx lost => ⟨execRdsBlock_seeks lane running rx fm w o e g lost, ?_⟩,
    fun w e g held => execRdsBlock_offsetE lane w e g held,
    fun w o g d running rx held kept taken whole => ?_, fun w running rx held first whole clear known => ?_,
    fun running rx ready => ?_, fun part => execRdsGroup_incomplete lane part, fun p known silent => ?_,
    fun heard => execIdentityLost_carried lane heard,
    fun p q since waits last due known shown => execIdentityRecord_due fm lane waits last due known shown,
    fun idle => execIdentityRecord_idle lane idle, ?_, fun p since known off due quiet => ?_,
    fun i r c q => execStationRecordWrite_writes⟩
  · rw [seekBlock_synced_iff w o e _ lost, Bool.or_eq_false_iff, and_assoc]
  · exact (execRdsBlock_held lane running rx w .uncorrectable g held kept).trans
      (congrArg _ (heldBlock_uncorrectable lane w o _ fm taken whole))
  · have renewed := heldBlock_confirmed lane fm first whole known
    have row := execRdsBlock_held lane running rx w .clean false held (o := .a) (by decide)
    rw [clear] at row
    exact ⟨_, _, row, renewed.here lane, rfl, rfl, rfl, renewed.others, renewed.am⟩
  · obtain ⟨t, m, row, ⟨-, ident, freq, st⟩, ended⟩ := execRdsGroup_whole fm lane running rx ready
    exact ⟨t, _, row, ended.here lane, rfl, ident, freq, st.trans running, ended.others, ended.2⟩
  · obtain ⟨t, i, row, pi, cand, lost⟩ := execIdentityLost_becomes fm lane known silent
    exact ⟨t, _, row, lost.here lane, pi, cand, rfl, rfl, rfl, rfl, rfl, lost.others, lost.2⟩
  · obtain ⟨t, row, lanes, rds⟩ := execEonTaTimeout_drops lane
    exact ⟨t, row, by rw [rds], lanes, by rw [rds], by rw [rds]⟩
  · obtain ⟨t, row, ended⟩ := execAlertEndTimer_ends fm lane known off due quiet
    exact ⟨t, _, row, ended.here lane, rfl, ended.others⟩

end Sys2Proof.Machine

/-! Releases of lanes and engines: the unit that is released, the others, and the flows that were open on it (R26, R120, R173, R174). -/

namespace Sys2Proof.Machine

/-! ### Members leave their groups: lanes, engines and flows stay (R240) -/

/-- Lanes, engines and flows stay. -/
@[simp, reducible] def ReceiversStay (s t : State) : Prop := t.lanes = s.lanes ∧ t.dab = s.dab ∧ t.flows = s.flows

theorem ReceiversStay.trans {s t u : State} (h : ReceiversStay s t) (k : ReceiversStay t u) : ReceiversStay s u := by
  simp_all

theorem forEach_receiversStay {α : Type} (l : List α) (f : α → State → State) (s : State) (h : ∀ x u, ReceiversStay u (f x u)) :
    ReceiversStay s (forEach l f s) :=
  foldl_inv (ReceiversStay s) l _ s (by simp) fun _ x hu => hu.trans (h x _)

theorem SelectionOnly.receiversStay {s t : State} (h : SelectionOnly s t) : ReceiversStay s t := by
  rw [h]
  simp

@[simp] theorem raise_receiversStay (bit : Nat) (body : List Byte) (s : State) : ReceiversStay s (raise bit body s) := by
  rw [raise_reports bit body s]
  simp

@[simp] theorem setAnchor_receiversStay (n : Nat) (dab : Bool) (slot : Option Nat) (s : State) :
    ReceiversStay s (setAnchor n dab slot s) := by
  unfold setAnchor
  cases dab <;> exact ⟨rfl, rfl, rfl⟩

@[simp] theorem fitOwn_receiversStay (n : Nat) (s : State) : ReceiversStay s (fitOwn n s) :=
  (fitOwn_selectionOnly n s).receiversStay

@[simp] theorem releaseLoans_receiversStay (n : Nat) (t : Source → Bool) (s : State) : ReceiversStay s (releaseLoans n t s) :=
  (releaseLoans_selectionOnly n t s).receiversStay

@[simp] theorem ite_receivers (c : Prop) [Decidable c] (a b : State) :
    (if c then a else b).lanes = (if c then a.lanes else b.lanes) ∧ (if c then a else b).dab = (if c then a.dab else b.dab) ∧
    (if c then a else b).flows = (if c then a.flows else b.flows) := by
  split <;> simp

theorem removeMember_receiversStay (n slot : Nat) (s : State) : ReceiversStay s (removeMember n slot s) := by
  unfold removeMember evLink
  split <;> simp

theorem laneLeaves_receiversStay (id : Nat) (s : State) : ReceiversStay s (laneLeaves id s) := by
  refine forEach_receiversStay _ _ s fun n u => ?_
  split
  · exact removeMember_receiversStay n _ u
  · simp

theorem dropUnserved_receiversStay (n slot : Nat) (s : State) : ReceiversStay s (dropUnserved n slot s) := by
  unfold dropUnserved
  split
  · split
    · exact removeMember_receiversStay n slot s
    · simp
  · simp

theorem engineLeaves_receiversStay (e : Nat) (before s : State) : ReceiversStay s (engineLeaves e before s) := by
  refine forEach_receiversStay _ _ s fun n u => ?_
  split
  · exact forEach_receiversStay _ _ u fun i v => dropUnserved_receiversStay n i v
  · simp

@[simp] theorem finishWait_receiversStay (w : Wait) (s : State) : ReceiversStay s (finishWait w s) := by
  unfold finishWait completeWait reportCue evCue
  dsimp only
  (repeat' split) <;> simp

/-! ### Flows that close with their source (R348, Table 12-10) -/

/-- The device closes the flow of a number when it satisfies a test. -/
def closeAt (t : Flow → Bool) (reason i : Nat) (s : State) : State :=
  match s.flows.flows[i]? with
  | some f => if t f then deviceClose i reason s else s
  | none => s

theorem closeWhere_eq (t : Flow → Bool) (reason : Nat) (s : State) :
    closeWhere t reason s = forEach (List.range s.flows.flows.length) (closeAt t reason) s := rfl

/-- A flow after that. -/
def closedFlow (t : Flow → Bool) (reason : Nat) (dfc : Dfc) (now : Nat) (f : Flow) : Flow :=
  if t f = true ∧ f.st = .opened then { closeFlow dfc reason false f with dropsNew := 0, dropRecAt := some now } else f

theorem closedFlow_not_opened {t : Flow → Bool} {reason : Nat} {dfc : Dfc} {now : Nat} {f : Flow}
    (h : t (closedFlow t reason dfc now f) = true) : (closedFlow t reason dfc now f).st ≠ .opened := by
  unfold closedFlow at *
  split at h
  · next closes => simp [if_pos closes, closeFlow, queuePacket]
  · next stays =>
    rw [if_neg stays]
    exact fun opened => stays ⟨h, opened⟩

theorem flowAt_closeAt (t : Flow → Bool) (reason i j : Nat) (s : State) : flowAt (closeAt t reason i s) j =
    if j = i then (flowAt s j).map (closedFlow t reason s.time.dfc s.now) else flowAt s j := by
  by_cases closes : ∃ f, flowAt s i = some f ∧ t f = true ∧ f.st = .opened
  · obtain ⟨f, flow, test, opened⟩ := closes
    have here : s.flows.flows[i]? = some f := flow
    have closed : (closeAt t reason i s).flows = (updFlow i (closedFlow t reason s.time.dfc s.now) s).flows := by
      simp [closeAt, deviceClose, evFlowDrop, here, test, opened, upd_of_some _ here, closedFlow]
    rw [flowAt_congr closed, flowAt_updFlow]
  · have stays : closeAt t reason i s = s := by
      unfold closeAt deviceClose
      (repeat' split) <;> simp_all [flowAt]
    rw [stays]
    split
    · next own =>
      subst own
      cases flow : flowAt s j with
      | none => rfl
      | some f => simp_all [closedFlow]
    · rfl

theorem closeAt_time (t : Flow → Bool) (reason i : Nat) (s : State) :
    (closeAt t reason i s).time = s.time ∧ (closeAt t reason i s).now = s.now := by
  unfold closeAt deviceClose evFlowDrop
  (repeat' split) <;> exact ⟨rfl, rfl⟩

theorem closeAt_unitsStay (t : Flow → Bool) (reason i : Nat) (s : State) : UnitsStay s (closeAt t reason i s) := by
  unfold closeAt deviceClose evFlowDrop
  (repeat' split) <;> simp

@[simp] theorem closeWhere_unitsStay (t : Flow → Bool) (reason : Nat) (s : State) : UnitsStay s (closeWhere t reason s) :=
  forEach_unitsStay _ _ s (closeAt_unitsStay t reason)

theorem flowAt_closeWhere (t : Flow → Bool) (reason j : Nat) (s : State) :
    flowAt (closeWhere t reason s) j = (flowAt s j).map (closedFlow t reason s.time.dfc s.now) := by
  have closed := get_forEach (get := flowAt) (step := closeAt t reason) (g := Option.map (closedFlow t reason s.time.dfc s.now))
    (P := fun u => u.time = s.time ∧ u.now = s.now)
    (fun i u ⟨time, now⟩ => ⟨(closeAt_time t reason i u).1.trans time, (closeAt_time t reason i u).2.trans now⟩)
    (fun i j u ne => by simp [flowAt_closeAt, ne])
    (fun i _ u ⟨time, now⟩ => by simp [flowAt_closeAt, time, now])
    (List.nodup_range (n := s.flows.flows.length)) (s := s) ⟨rfl, rfl⟩ j
  rw [closeWhere_eq, closed]
  split
  · rfl
  · next outside =>
    have gone : flowAt s j = none := List.getElem?_eq_none (by simpa using outside)
    simp [gone]

/-- No flow that satisfies the test stays open. -/
theorem closeWhere_closes (t : Flow → Bool) (reason : Nat) (s : State) :
    ∀ f ∈ (closeWhere t reason s).flows.flows, t f = true → f.st ≠ .opened := by
  intro f mem test
  obtain ⟨j, here⟩ := List.mem_iff_getElem?.mp mem
  have closed := flowAt_closeWhere t reason j s
  rw [flowAt, here] at closed
  obtain ⟨f, -, rfl⟩ := Option.map_eq_some_iff.mp closed.symm
  exact closedFlow_not_opened test

/-! ### A lane is released (R120) -/

/-- The flows of a lane close and the conditions that it carries end: how `quietLane` begins. -/
def silenceLane (id : Nat) (s : State) : State :=
  closeLaneFlows id 1 (endAnnWhere (fun a => onLane id a || (a.origin == 2 && (ownTraffic s id).contains a.other)) s)

/-- A lane as it leaves the wings or the running state: without identity, fields or conditions (R157, R166, R167). -/
def quietedLane (l : Lane) : Lane :=
  { l with starting := false, valid := false, concealing := false, ident := Identity.none, rds := RdsDecoder.none,
           fields := RdsFields.none, traffic := false, alarm := false, test := false, alarmOffAt := none, testOffAt := none }

/-- A draining lane loses what waits for it (R120). -/
def unassignedLane (l : Lane) : Lane := { l with pend := none }

/-- A lane after its release (Table 1-3). -/
def releasedLane (l : Lane) : Lane :=
  match l.st with
  | .free => l
  | .wings => Lane.free
  | .running => { quietedLane l with st := .draining, pend := none, doneTag := none }
  | .draining => unassignedLane l

theorem quietLane_lanes (id : Nat) (s : State) : (quietLane id s).lanes = (updLane id quietedLane (silenceLane id s)).lanes :=
  (finishWait_unitsStay (.lane id) _).lanes

theorem quietLane_flows (id : Nat) (s : State) : (quietLane id s).flows = (silenceLane id s).flows := by
  simp [quietLane, dropWait, silenceLane]

theorem releasedLane_code (l : Lane) : instCode (releasedLane l).st = if l.st = .free ∨ l.st = .wings then 0 else 3 := by
  cases st : l.st <;> simp [releasedLane, unassignedLane, st, instCode, Lane.free]

section
variable {id : Nat} {l : Lane} {s : State} (lane : laneAt s id = some l)
include lane

theorem quietLane_becomes : LaneBecomes id (quietedLane l) s (quietLane id s) := by
  have stays : LaneBecomes id l s (silenceLane id s) := (laneBecomes_refl lane).of_lanes (by simp [silenceLane, closeLaneFlows])
  exact (stays.trans (laneBecomes_updLane quietedLane stays.1)).of_lanes (quietLane_lanes id s)

theorem drainLane_becomes : LaneBecomes id { quietedLane l with st := .draining, pend := none, doneTag := none } s (drainLane id s) :=
  have quieted : LaneBecomes id (quietedLane l) s (forgetShed false id (quietLane id s)) := (quietLane_becomes lane).of_lanes rfl
  quieted.trans (laneBecomes_updLane (fun l => { l with st := .draining, pend := none, doneTag := none }) quieted.1)

theorem releaseLane_becomes : LaneBecomes id (releasedLane l) s (releaseLane id s) := by
  have left (u : State) := (laneLeaves_receiversStay id u).1
  have stays : LaneBecomes id l s (laneLeaves id s) := (laneBecomes_refl lane).of_lanes (left s)
  cases st : l.st <;> simp only [releaseLane, releasedLane, lane, st]
  case free => exact laneBecomes_refl lane
  case wings =>
    have quieted := (quietLane_becomes lane).of_lanes (left (quietLane id s))
    exact quieted.trans (freeLane_frees quieted.1)
  case running => exact stays.trans (drainLane_becomes stays.1)
  case draining => exact stays.trans (laneBecomes_updLane unassignedLane stays.1)

end

/-- No flow of a lane is open once it has left the wings or the running state. -/
theorem quietLane_closes (id : Nat) (s : State) :
    ∀ f ∈ (quietLane id s).flows.flows, f.source = laneSource id → f.st ≠ .opened := by
  rw [quietLane_flows]
  exact fun f mem source => closeWhere_closes _ 1 _ f mem (by simp [source])

theorem releaseLane_closes {id : Nat} {l : Lane} {s : State} (lane : laneAt s id = some l) (live : liveState l.st = true) :
    ∀ f ∈ (releaseLane id s).flows.flows, f.source = laneSource id → f.st ≠ .opened := by
  cases st : l.st <;> simp only [releaseLane, lane, st]
  case free => simp [liveState, st] at live
  case wings =>
    have flows : (freeLane id (laneLeaves id (quietLane id s))).flows = (quietLane id s).flows := by
      simpa [freeLane, forgetShed] using (laneLeaves_receiversStay id (quietLane id s)).2.2
    exact flows ▸ quietLane_closes id s
  case running =>
    have flows : (drainLane id (laneLeaves id s)).flows = (quietLane id (laneLeaves id s)).flows := by simp [drainLane, forgetShed]
    exact flows ▸ quietLane_closes id _
  case draining => simp [liveState, st] at live

/-! ### An engine is released (R173, R174) -/

/-- Engine `e` has become `x`, and every other engine is as it was. -/
def EngineBecomes (e : Nat) (x : Engine) (s t : State) : Prop := engineAt t e = some x ∧ ∀ k, k ≠ e → engineAt t k = engineAt s k

section
variable {e : Nat} {x y z : Engine} {s t u : State}

theorem engineBecomes_refl (h : engineAt s e = some x) : EngineBecomes e x s s := ⟨h, fun _ _ => rfl⟩

theorem engineBecomes_updEngine (f : Engine → Engine) (h : engineAt s e = some x) : EngineBecomes e (f x) s (updEngine e f s) :=
  ⟨by simp [engineAt_updEngine, h], fun k ne => by simp [engineAt_updEngine, ne]⟩

theorem EngineBecomes.trans (h : EngineBecomes e y s t) (k : EngineBecomes e z t u) : EngineBecomes e z s u :=
  ⟨k.1, fun i ne => (k.2 i ne).trans (h.2 i ne)⟩

theorem EngineBecomes.of_dab (h : EngineBecomes e y s t) (stay : u.dab = t.dab) : EngineBecomes e y s u :=
  ⟨(engineAt_congr stay e).trans h.1, fun k ne => (engineAt_congr stay k).trans (h.2 k ne)⟩

end

/-- The flows of an engine close, the conditions that it carries end and its decoders stop: how `quietEngine` begins. -/
def silenceEngine (e : Nat) (s : State) : State := stopDecoders e (closeEngineFlows e 2 (endAnnWhere (onEngine e) s))

/-- An engine as it leaves the wings or the running state: the figures of a running one are kept, acquisition is idle (R174). -/
def quietedEngine (s : State) (x : Engine) : Engine :=
  { x with lastFigs := if x.st = .running then some (figuresNow s x) else none, starting := false, acq := .idle, erasing := false,
           converting := false, modeNext := none, peaks := [], otherEid := none, otherCount := 0, failed := 0,
           model := { x.model with current := false } }

/-- A draining engine loses what waits for it, with the shares that were held for that (R173). -/
def unassignedEngine (x : Engine) : Engine := { x with pend := none, shares := sharesOf x.exact }

/-- An engine after its release (Table 1-3). -/
def releasedEngine (s : State) (x : Engine) : Engine :=
  match x.st with
  | .free => x
  | .wings => Engine.free
  | .running => { quietedEngine s x with st := .draining, pend := none, doneTag := none }
  | .draining => unassignedEngine x

theorem quietEngine_receivers (e : Nat) (s : State) : ReceiversStay (updEngine e (quietedEngine s) (silenceEngine e s)) (quietEngine e s) :=
  finishWait_receiversStay (.engine e) _

theorem releasedEngine_code (s : State) (x : Engine) :
    instCode (releasedEngine s x).st = if x.st = .free ∨ x.st = .wings then 0 else 3 := by
  cases st : x.st <;> simp [releasedEngine, unassignedEngine, st, instCode, Engine.free]

section
variable {e : Nat} {x : Engine} {s : State} (engine : engineAt s e = some x)
include engine

theorem quietEngine_becomes : EngineBecomes e (quietedEngine s x) s (quietEngine e s) := by
  have stays : EngineBecomes e x s (silenceEngine e s) :=
    (engineBecomes_refl engine).of_dab (by simp [silenceEngine, stopDecoders, closeEngineFlows])
  exact (stays.trans (engineBecomes_updEngine (quietedEngine s) stays.1)).of_dab (quietEngine_receivers e s).2.1

theorem drainEngine_becomes :
    EngineBecomes e { quietedEngine s x with st := .draining, pend := none, doneTag := none } s (drainEngine e s) :=
  have quieted : EngineBecomes e (quietedEngine s x) s (forgetShed true e (quietEngine e s)) := (quietEngine_becomes engine).of_dab rfl
  quieted.trans (engineBecomes_updEngine (fun x => { x with st := .draining, pend := none, doneTag := none }) quieted.1)

theorem freeEngine_becomes : EngineBecomes e Engine.free s (freeEngine e s) :=
  ⟨by simp [engineAt_freeEngine e engine], fun k ne => by simp [engineAt_freeEngine k engine, ne]⟩

theorem releaseEngine_becomes : EngineBecomes e (releasedEngine s x) s (releaseEngine e s) := by
  cases st : x.st <;> simp only [releaseEngine, releasedEngine, engine, st]
  case free => exact engineBecomes_refl engine
  case wings =>
    have quieted := quietEngine_becomes engine
    exact quieted.trans (freeEngine_becomes quieted.1)
  case running => exact (drainEngine_becomes engine).of_dab (engineLeaves_receiversStay e s _).2.1
  case draining => exact engineBecomes_updEngine unassignedEngine engine

end

/-- No flow of an engine is open once it has left the wings or the running state. -/
theorem quietEngine_closes (e : Nat) (s : State) :
    ∀ f ∈ (quietEngine e s).flows.flows, f.source / 256 = 0x10 + e → f.st ≠ .opened := by
  rw [(quietEngine_receivers e s).2.2]
  exact fun f mem source => closeWhere_closes _ 2 _ f mem (by simp [source])

theorem freeEngine_flows (e : Nat) (s : State) : (freeEngine e s).flows = s.flows := by
  unfold freeEngine
  dsimp only
  (repeat' split) <;> rfl

theorem releaseEngine_closes {e : Nat} {x : Engine} {s : State} (engine : engineAt s e = some x) (live : liveState x.st = true) :
    ∀ f ∈ (releaseEngine e s).flows.flows, f.source / 256 = 0x10 + e → f.st ≠ .opened := by
  cases st : x.st <;> simp only [releaseEngine, engine, st]
  case free => simp [liveState, st] at live
  case wings => exact freeEngine_flows e (quietEngine e s) ▸ quietEngine_closes e s
  case running =>
    have flows : (engineLeaves e s (drainEngine e s)).flows = (quietEngine e s).flows := by
      simpa [drainEngine, forgetShed] using (engineLeaves_receiversStay e s (drainEngine e s)).2.2
    exact flows ▸ quietEngine_closes e s
  case draining => simp [liveState, st] at live

/-! ### The commands (R26, R173) -/

theorem reselectAll_receiversStay (s : State) : ReceiversStay s (reselectAll s) := (reselectAll_selectionOnly s).receiversStay

section
variable {tag : Byte} {p : List Byte} {s : State} (turn : MainTurn s p) (len : p.length = 1)
include turn len

section
variable {l : Lane} (lane : laneAt s (p1 p 0) = some l)
include lane

theorem serve_laneRelease : serve cmdLaneRelease (hostCall tag p) s =
    if liveState l.st && soleSource s (p1 p 0) then fail stWrongState s
    else okay [byte (p1 p 0), byte (laneStateOf (reselectAll (releaseLane (p1 p 0) s)) (p1 p 0))]
      (reselectAll (releaseLane (p1 p 0) s)) := by
  have ids : cmdLaneRelease.ids s p = true := by simp [cmdLaneRelease, laneExists, lane]
  rw [serve_main turn (by simp [cmdLaneRelease, lenIn, hostCall, len]) ids]
  simp [cmdLaneRelease, bodyLaneRelease, hostCall, lane]

/-- The row of a lane that may be released; the reply gives the lane's state. -/
theorem execLaneRelease_releases (shared : (liveState l.st && soleSource s (p1 p 0)) = false) :
    ∃ t, execLaneRelease tag p s = .next t ∧
      Answered t stOk tag [byte (p1 p 0), byte (if l.st = .free ∨ l.st = .wings then 0 else 3)]
        (reselectAll (releaseLane (p1 p 0) s)) := by
  have released := (releaseLane_becomes lane).of_lanes (reselectAll_receiversStay (releaseLane (p1 p 0) s)).1
  have state : laneStateOf (reselectAll (releaseLane (p1 p 0) s)) (p1 p 0) = if l.st = .free ∨ l.st = .wings then 0 else 3 := by
    simp only [laneStateOf, released.1, releasedLane_code]
  rw [← state]
  exact row_okay turn.1 (by rw [serve_laneRelease turn len lane, shared]; rfl)

end

section
variable {x : Engine} (engine : engineAt s (p1 p 0) = some x)
include engine

theorem serve_dabEngineRelease : serve cmdDabEngineRelease (hostCall tag p) s =
    if liveState x.st && soleEngine s (p1 p 0) then fail stWrongState s
    else okay [byte (p1 p 0), byte (engineStateOf (reselectAll (releaseEngine (p1 p 0) s)) (p1 p 0))]
      (reselectAll (releaseEngine (p1 p 0) s)) := by
  have ids : cmdDabEngineRelease.ids s p = true := by simp [cmdDabEngineRelease, engineExists, engine]
  rw [serve_main turn (by simp [cmdDabEngineRelease, lenIn, hostCall, len]) ids]
  simp [cmdDabEngineRelease, bodyDabEngineRelease, hostCall, engine]

/-- The row of an engine that may be released; the reply gives the engine's state. -/
theorem execDabEngineRelease_releases (shared : (liveState x.st && soleEngine s (p1 p 0)) = false) :
    ∃ t, execDabEngineRelease tag p s = .next t ∧
      Answered t stOk tag [byte (p1 p 0), byte (if x.st = .free ∨ x.st = .wings then 0 else 3)]
        (reselectAll (releaseEngine (p1 p 0) s)) := by
  have released := (releaseEngine_becomes engine).of_dab (reselectAll_receiversStay (releaseEngine (p1 p 0) s)).2.1
  have state : engineStateOf (reselectAll (releaseEngine (p1 p 0) s)) (p1 p 0) = if x.st = .free ∨ x.st = .wings then 0 else 3 := by
    simp only [engineStateOf, released.1, releasedEngine_code]
  rw [← state]
  exact row_okay turn.1 (by rw [serve_dabEngineRelease turn len engine, shared]; rfl)

end
end

/-- Settles O24: `releaseLane_becomes` and `releaseEngine_becomes` say what a release makes of its unit, `releaseLane_closes` and
`releaseEngine_closes` what it leaves of the flows, and selections change neither. -/
theorem releaseFreesOrDrains : Obligations.ReleaseFreesOrDrains := by
  intro tag p s turn len
  refine ⟨fun l lane shared => ?_, fun l lane sole => ?_, fun x engine shared => ?_, fun x engine sole => ?_⟩
  · obtain ⟨lanes, -, flows⟩ := reselectAll_receiversStay (releaseLane (p1 p 0) s)
    obtain ⟨here, others⟩ := (releaseLane_becomes lane).of_lanes lanes
    obtain ⟨t, row, answered⟩ := execLaneRelease_releases (tag := tag) turn len lane shared
    refine ⟨t, _, row, answered, others, fun st => ?_, fun st => ?_, fun st => ?_, fun st => ?_, fun live => ?_⟩
    · simp [here, releasedLane, st]
    · simp [here, releasedLane, st]
    · exact ⟨_, here, by simp [releasedLane, st, quietedLane]⟩
    · simp [here, releasedLane, unassignedLane, st]
    · exact flows ▸ releaseLane_closes lane live
  · exact row_fails turn.1 (by rw [serve_laneRelease turn len lane, sole]; rfl)
  · obtain ⟨-, dab, flows⟩ := reselectAll_receiversStay (releaseEngine (p1 p 0) s)
    obtain ⟨here, others⟩ := (releaseEngine_becomes engine).of_dab dab
    obtain ⟨t, row, answered⟩ := execDabEngineRelease_releases (tag := tag) turn len engine shared
    refine ⟨t, _, row, answered, others, fun st => ?_, fun st => ?_, fun st => ?_, fun st => ?_, fun live => ?_⟩
    · simp [here, releasedEngine, st]
    · simp [here, releasedEngine, st]
    · exact ⟨_, here, by simp [releasedEngine, st, quietedEngine]⟩
    · simp [here, releasedEngine, unassignedEngine, st]
    · exact flows ▸ releaseEngine_closes engine live
  · exact row_fails turn.1 (by rw [serve_dabEngineRelease turn len engine, sole]; rfl)

end Sys2Proof.Machine

/-! A DAB frame with a gap that names another ensemble: the count of failed frames is not held across it (R181, R183, R200). -/

namespace Sys2Proof.Machine

/-- `DAB_FRAME` of a running engine: the end of the frame moves no engine. -/
theorem execDabFrame_steps {s : State} {e : Nat} {x : Engine} (o : FrameObs) (engine : engineAt s e = some x)
    (running : x.st = .running) (rx : s.mgr.rxRunning = true) :
    ∃ t, execDabFrame e o s = .next t ∧ ∀ k, engineAt t k = engineAt (frameStep e (frameIn s x o) x s) k := by
  refine ⟨reselectAll (count 15 o.lost.length 0 (frameStep e (frameIn s x o) x s)), by simp [execDabFrame, engine, running, rx],
    fun k => engineAt_congr ?_ k⟩
  simp

/-- An engine that has lost ensemble 0x1001, keeps its model, and has locked again on a FIB without FIG 0/0: it tracks no EId yet.
The frame before failed, and a CIF of the present one has lost samples. -/
def relocked : Engine :=
  { Engine.free with st := .running, owner := .host, freq := 227360000, mask := 1, acq := .locked, shares := 1, failed := 1,
                     gapSeen := true, model := { Model.empty with eid := some 0x1001 } }

/-- The reset state become ready, with reception running and engine 0 relocked. -/
def relockedState : State :=
  { State.reset with reset_ := { State.reset.reset_ with domain := .ready },
                     mgr := { State.reset.mgr with rxRunning := true },
                     dab := { State.reset.dab with engines := State.reset.dab.engines.set 0 relocked } }

/-- A frame with one good FIB, whose FIG 0/0 names ensemble 0x1002. -/
def namingFrame : FrameObs :=
  { windows := [], ref := [], nulls := [], prs := [], fic := [], peaks := [], fine := 0, clockPpm := 0, lost := [],
    fibs := [{ ok := true, raw := [], figs := [.ensemble 0x1002 0 0 0] }] }

theorem namingFrame_gap : (frameIn relockedState relocked namingFrame).anyGap = true := by
  simp [frameIn, relocked]

/-- The ensemble is replaced (R181), and the failed frames are counted afresh. -/
theorem frameStep_namingFrame_failed :
    (engineAt (frameStep 0 (frameIn relockedState relocked namingFrame) relocked relockedState) 0).map (·.failed) = some 0 := by
  decide +kernel

/-- Refutes O48: a frame with a gap may change the count of failed frames while locked. The clause asks `y.failed = x.failed` of
every such frame, as R183 does. But where no EId is tracked yet, a good FIB of the frame that names another ensemble than the model
replaces the ensemble, and the replacement clears the count: here from 1 to 0. -/
theorem not_dabRowsAcquireStoreAndTimeOut : ¬ Obligations.DabRowsAcquireStoreAndTimeOut := by
  intro h
  obtain ⟨frames, -⟩ := h relockedState 0 relocked rfl
  obtain ⟨t, y, row, here, -, -, -, -, -, -, -, -, -, gap, -⟩ := frames namingFrame rfl rfl
  obtain ⟨-, kept, -⟩ := gap rfl namingFrame_gap
  obtain ⟨u, steps, same⟩ := execDabFrame_steps (s := relockedState) (e := 0) (x := relocked) namingFrame rfl rfl rfl
  cases steps.symm.trans row
  have cleared := frameStep_namingFrame_failed
  rw [← same, here] at cleared
  cases kept.symm.trans (Option.some.inj cleared)

end Sys2Proof.Machine

/-! What selections leave of the programs and of the alert policy: only the holdings of a program move. -/

namespace Sys2Proof.Machine

/-! ### A selection moves the holdings of programs alone (R212, R224 to R232) -/

/-- A program but for the selection on air and the one that follows it. -/
def unselected (p : Program) : Program := { p with holding := none, nextHold := none }

/-- Of the programs only the selections move, and the alert policy stays. -/
def HoldingsOnly (s t : State) : Prop := t.progs.map unselected = s.progs.map unselected ∧ t.alerts.policy = s.alerts.policy

theorem HoldingsOnly.refl (s : State) : HoldingsOnly s s := ⟨rfl, rfl⟩

theorem HoldingsOnly.trans {s t u : State} (h : HoldingsOnly s t) (k : HoldingsOnly t u) : HoldingsOnly s u :=
  ⟨k.1.trans h.1, k.2.trans h.2⟩

theorem HoldingsOnly.ite {c : Prop} [Decidable c] {s t u : State} (h : HoldingsOnly s t) (k : HoldingsOnly s u) :
    HoldingsOnly s (if c then t else u) := by
  split
  · exact h
  · exact k

theorem HoldingsOnly.progAt {s t : State} {n : Nat} {p : Program} (h : HoldingsOnly s t) (here : progAt s n = some p) :
    ∃ q, progAt t n = some q ∧ unselected q = unselected p := by
  have same : (Machine.progAt t n).map unselected = (Machine.progAt s n).map unselected := by
    simpa only [Machine.progAt, List.getElem?_map] using congrArg (fun l => l[n]?) h.1
  rw [here] at same
  exact Option.map_eq_some_iff.mp same

theorem map_upd_of_stays {α β : Type} {g : α → β} {f : α → α} (l : List α) (i : Nat) (h : ∀ x, g (f x) = g x) :
    (upd l i f).map g = l.map g := by
  refine List.ext_getElem? fun j => ?_
  rw [List.getElem?_map, List.getElem?_map, getElem?_upd]
  split <;> simp [Function.comp_def, h]

theorem updProgram_holdingsOnly (n : Nat) {f : Program → Program} (s : State) (h : ∀ p, unselected (f p) = unselected p) :
    HoldingsOnly s (updProgram n f s) :=
  ⟨map_upd_of_stays s.progs n h, rfl⟩

theorem updDecoder_holdingsOnly (i : Nat) (f : Decoder → Decoder) (s : State) : HoldingsOnly s (updDecoder i f s) := ⟨rfl, rfl⟩

theorem releaseLoans_holdingsOnly (n : Nat) (t : Source → Bool) (s : State) : HoldingsOnly s (releaseLoans n t s) := ⟨rfl, rfl⟩

theorem loseLoan_holdingsOnly (d : Decoder) (s : State) : HoldingsOnly s (loseLoan d s) := by
  unfold loseLoan
  dsimp only
  split
  · exact updProgram_holdingsOnly _ s fun _ => rfl
  · exact HoldingsOnly.refl s

theorem takeOwn_holdingsOnly (n : Nat) (s : State) : HoldingsOnly s (takeOwn n s) := by
  unfold takeOwn
  split
  · exact HoldingsOnly.refl s
  · split
    · split
      · exact (updDecoder_holdingsOnly _ _ s).trans (loseLoan_holdingsOnly _ _)
      · exact updDecoder_holdingsOnly _ _ s
    · exact HoldingsOnly.refl s

theorem releaseOwn_holdingsOnly (n : Nat) (s : State) : HoldingsOnly s (releaseOwn n s) := by
  unfold releaseOwn
  split
  · exact updDecoder_holdingsOnly _ _ s
  · exact HoldingsOnly.refl s

theorem assignOwn_holdingsOnly (n : Nat) (s : State) : HoldingsOnly s (assignOwn n s) := by
  unfold assignOwn
  split
  · exact updDecoder_holdingsOnly _ _ s
  · exact HoldingsOnly.refl s

theorem fitOwn_holdingsOnly (n : Nat) (s : State) : HoldingsOnly s (fitOwn n s) := by
  unfold fitOwn
  split
  · split
    · exact (takeOwn_holdingsOnly n s).trans (assignOwn_holdingsOnly n _)
    · exact releaseOwn_holdingsOnly n s
  · exact HoldingsOnly.refl s

theorem lend_holdingsOnly {n : Nat} {key : Source} {s t : State} (h : lend n key s = some t) : HoldingsOnly s t := by
  unfold lend at h
  (repeat' split at h) <;> cases h
  exact updDecoder_holdingsOnly _ _ s

theorem selectAnn_holdingsOnly (n : Nat) (p : Program) (a : Announce) (s : State) : HoldingsOnly s (selectAnn n p a s) := by
  have put (h : Holding) (u : State) : HoldingsOnly u (updProgram n
      (fun p => if p.holding.any (·.onAir) then { p with nextHold := some h } else { p with holding := some h }) u) :=
    updProgram_holdingsOnly n u fun p => by split <;> rfl
  unfold selectAnn
  dsimp only
  split
  · exact HoldingsOnly.refl s
  · split
    · exact put _ s
    · split
      · next lent => exact (lend_holdingsOnly lent).trans (put _ _)
      · split
        · exact (put _ s).trans (fitOwn_holdingsOnly n _)
        · exact HoldingsOnly.refl s

theorem dropSelection_holdingsOnly (n : Nat) (p : Program) (s : State) : HoldingsOnly s (dropSelection n p s) :=
  have dropped := updProgram_holdingsOnly n (f := fun p => { p with nextHold := none, holding := p.holding.filter (·.onAir) }) s
    fun _ => rfl
  (foldl_inv (HoldingsOnly s) _ _ _ dropped fun _ _ h => h.trans (releaseLoans_holdingsOnly _ _ _)).trans (fitOwn_holdingsOnly n _)

theorem feedSelection_holdingsOnly (n : Nat) (s : State) : HoldingsOnly s (feedSelection n s) := by
  unfold feedSelection
  dsimp only
  split
  · exact HoldingsOnly.refl s
  · split
    · exact HoldingsOnly.refl s
    · split
      · next lent => exact lend_holdingsOnly lent
      · split
        · exact HoldingsOnly.refl s
        · refine (updProgram_holdingsOnly n s ?_).trans (fitOwn_holdingsOnly n _)
          exact fun _ => rfl

theorem reselect_holdingsOnly (n : Nat) (s : State) : HoldingsOnly s (reselect n s) := by
  unfold reselect
  dsimp only
  split
  · exact HoldingsOnly.refl s
  · split
    · exact HoldingsOnly.refl s
    · generalize aging : updProgram n _ s = u
      have aged : HoldingsOnly s u := aging ▸ updProgram_holdingsOnly n s fun _ => rfl
      split
      · exact aged
      · split
        · split
          · exact aged.trans (selectAnn_holdingsOnly _ _ _ _)
          · exact aged
        · have cleared (c : Bool) (p : Program) : HoldingsOnly s (if c then dropSelection n p u else u) :=
            aged.trans (.ite (dropSelection_holdingsOnly n p _) (.refl _))
          split
          · split
            · exact cleared _ _
            · refine HoldingsOnly.trans ?_ (selectAnn_holdingsOnly _ _ _ _)
              exact .ite (cleared _ _) ((cleared _ _).trans (dropSelection_holdingsOnly n _ _))
          · exact cleared _ _

theorem reselectAll_holdingsOnly (s : State) : HoldingsOnly s (reselectAll s) :=
  foldl_inv (HoldingsOnly s) _ _ _ ⟨rfl, rfl⟩ fun _ n h =>
    (h.trans (reselect_holdingsOnly n _)).trans (feedSelection_holdingsOnly n _)

theorem progAt_of_exists {s : State} {n : Nat} (h : programExists s n = true) : ∃ p, progAt s n = some p := by
  simp only [programExists, decide_eq_true_eq] at h
  exact ⟨_, List.getElem?_eq_getElem h⟩

theorem programExists_of_some {s : State} {n : Nat} {p : Program} (here : progAt s n = some p) : programExists s n = true :=
  decide_eq_true (List.getElem?_eq_some_iff.mp here).1

end Sys2Proof.Machine

/-! The policies of announcements, alerts, linking and the delay store (R223, R230, R237, R255). -/

namespace Sys2Proof.Machine

section
variable {tag : Byte} {p : List Byte} {s : State} (turn : MainTurn s p)
include turn

theorem serve_announcementPolicy_set (len : p.length = 9) (named : programExists s (p1 p 0) = true) :
    ∃ pl, serve cmdAnnouncementPolicy (hostCall tag p) s =
      okay pl (reselect (p1 p 0) (updProgram (p1 p 0) (fun x => { x with ann := parseAnn p }) s)) := by
  rw [serve_main turn (by simp [cmdAnnouncementPolicy, lenIn, hostCall, len]) named]
  exact ⟨_, by simp only [cmdAnnouncementPolicy, bodyAnnouncementPolicy, hostCall, len]; rfl⟩

theorem serve_alertPolicy_set (len : p.length = 8) :
    ∃ pl, serve cmdAlertPolicy (hostCall tag p) s =
      okay pl (reselectAll { s with alerts := { s.alerts with policy := parseAlert s.chip.variant p } }) := by
  have whole : p.isEmpty = false := by
    cases p with
    | nil => cases len
    | cons _ _ => rfl
  rw [serve_main turn (by simp [cmdAlertPolicy, lenIn, hostCall, len]) rfl]
  exact ⟨_, by simp only [cmdAlertPolicy, bodyAlertPolicy, hostCall, whole]; rfl⟩

theorem serve_alertPolicy_query (empty : p = []) :
    serve cmdAlertPolicy (hostCall tag p) s = okay (alertReply s) s := by
  rw [serve_main turn (by simp [cmdAlertPolicy, lenIn, hostCall, empty]) rfl]
  simp [cmdAlertPolicy, bodyAlertPolicy, hostCall, empty]

section
variable {x : Program} (program : progAt s (p1 p 0) = some x)
include program

theorem serve_linkPolicy_set (len : p.length = 12) :
    serve cmdLinkPolicy (hostCall tag p) s = okay (linkBytes (p1 p 0) (parseLink p))
      (updProgram (p1 p 0) (fun y => { y with policyNext := some (parseLink p) }) s) := by
  rw [serve_main turn (by simp [cmdLinkPolicy, lenIn, hostCall, len]) (programExists_of_some program)]
  simp [cmdLinkPolicy, bodyLinkPolicy, hostCall, program, len]

theorem serve_delayStoreConfig_set (len : p.length = 2) :
    serve cmdDelayStoreConfig (hostCall tag p) s = okay (storeReply (p1 p 0) (enumOf [0, 1] 0 (p1 p 1)) x (pagesFree s))
      (updProgram (p1 p 0) (fun y => { y with clsCfg := enumOf [0, 1] 0 (p1 p 1) }) s) := by
  rw [serve_main turn (by simp [cmdDelayStoreConfig, lenIn, hostCall, len]) (programExists_of_some program)]
  simp [cmdDelayStoreConfig, bodyDelayStoreConfig, hostCall, program, len]

variable (len : p.length = 1)
include len

theorem serve_announcementPolicy_query :
    serve cmdAnnouncementPolicy (hostCall tag p) s = okay (annReply (p1 p 0) s) s := by
  rw [serve_main turn (by simp [cmdAnnouncementPolicy, lenIn, hostCall, len]) (programExists_of_some program)]
  simp [cmdAnnouncementPolicy, bodyAnnouncementPolicy, hostCall, len]

theorem serve_linkPolicy_query :
    serve cmdLinkPolicy (hostCall tag p) s = okay (linkBytes (p1 p 0) (x.policyNext.getD x.policy)) s := by
  rw [serve_main turn (by simp [cmdLinkPolicy, lenIn, hostCall, len]) (programExists_of_some program)]
  simp [cmdLinkPolicy, bodyLinkPolicy, hostCall, program, len]

theorem serve_delayStoreConfig_query :
    serve cmdDelayStoreConfig (hostCall tag p) s = okay (storeReply (p1 p 0) x.clsCfg x (pagesFree s)) s := by
  rw [serve_main turn (by simp [cmdDelayStoreConfig, lenIn, hostCall, len]) (programExists_of_some program)]
  simp [cmdDelayStoreConfig, bodyDelayStoreConfig, hostCall, program, len]

end

end

/-- Making the selection anew keeps the announcement policy just set. -/
theorem reselect_keeps_new_ann {s : State} {n : Nat} (a : AnnPolicy) (named : programExists s n = true) :
    ∃ y, progAt (reselect n (updProgram n (fun x => { x with ann := a }) s)) n = some y ∧ y.ann = a := by
  obtain ⟨x, here⟩ := progAt_of_exists named
  have set : progAt (updProgram n (fun x => { x with ann := a }) s) n = some { x with ann := a } := by
    simp [progAt_updProgram, here]
  obtain ⟨y, there, same⟩ := (reselect_holdingsOnly n _).progAt set
  exact ⟨y, there, congrArg Program.ann same⟩

/-- Settles O26: the lemmas above say how each form ends, and a selection made anew moves no policy (`HoldingsOnly`). -/
theorem policyCommandsOfProgramsAndAlerts : Obligations.PolicyCommandsOfProgramsAndAlerts := by
  intro tag p s turn
  refine ⟨fun len named => ⟨?_, reselect_keeps_new_ann _ named⟩, fun len => ⟨?_, (reselectAll_holdingsOnly _).2⟩,
    fun x len program => row_okay turn.1 (serve_linkPolicy_set turn program len),
    fun x len program => row_okay turn.1 (serve_delayStoreConfig_set turn program len),
    fun x len program => ⟨row_reads turn.1 (serve_announcementPolicy_query turn program len),
      row_reads turn.1 (serve_linkPolicy_query turn program len),
      row_reads turn.1 (serve_delayStoreConfig_query turn program len)⟩,
    fun empty => row_reads turn.1 (serve_alertPolicy_query turn empty)⟩
  · obtain ⟨pl, ends⟩ := serve_announcementPolicy_set (tag := tag) turn len named
    exact ⟨pl, row_okay turn.1 ends⟩
  · obtain ⟨pl, ends⟩ := serve_alertPolicy_set (tag := tag) turn len
    exact ⟨pl, row_okay turn.1 ends⟩

end Sys2Proof.Machine

/-! The end of an alarm that broke off an announcement: the announcement comes back, and not the normal audio (R231). -/

namespace Sys2Proof.Machine

/-- `END_DELAY_EXPIRY` of an alarm with no other alarm to follow: the announcement that it broke off, still standing, is selected
again, and the curtain is not ordered to close. -/
theorem execEndDelayExpiry_resumes {s : State} {n since : Nat} {p : Program} {h r : Holding} (here : progAt s n = some p)
    (held : p.holding = some h) (air : h.onAir = true) (ended : h.endedAt = some since) (passed : since + 48 * h.delayMs ≤ s.now)
    (last : p.nextHold = none) (idle : p.curtain.after = []) (alert : isAlert h.ann = true) (quiet : bestAlarm s n = none)
    (broken : p.resume = some r) (alive : holdAlive s r = true)
    (selected : ((progAt (selectAnn n p r.ann s) n).bind (·.nextHold)).isSome = true) :
    execEndDelayExpiry n s = .next (selectAnn n p r.ann s) := by
  obtain ⟨next, waits⟩ := Option.isSome_iff_exists.mp selected
  have done : elapsed s since (ticksOfMs h.delayMs) = true := decide_eq_true passed
  simp [execEndDelayExpiry, here, held, air, ended, done, last, idle, alert, quiet, broken, Option.filter, alive, waits]

/-- A traffic announcement on FM lane 0. -/
def brokenOffAnn : Announce :=
  { alarm := false, test := false, origin := 1, id := 0, eidPi := 0xD210, other := 0, ty := 1, asw := 2, cluster := 0, subch := 0xFF,
    new := false, region := 0 }

/-- An alarm on FM lane 1. -/
def endedAlarmAnn : Announce := { brokenOffAnn with alarm := true, id := 1, ty := 0, asw := 0 }

/-- The hold of an announcement of an FM lane that has taken the output. -/
def laneHolding (a : Announce) (ended : Option Nat) : Holding :=
  { ann := a, src := laneSrc a.id, onAir := true, endedAt := ended, delayMs := 0, gainDb := 0, overrode := false, ownRebound := false }

/-- A program that the alarm holds, after its end edge, and whose announcement it broke off. Since then the host has refused
announcements, as the default policy does. -/
def alarmedProgram : Program :=
  { Program.stopped with running := true, curtain := { Curtain.default with pos := 1 },
                         holding := some (laneHolding endedAlarmAnn (some 0)), resume := some (laneHolding brokenOffAnn none) }

/-- The reset state become ready, with FM lane 0 running and its announcement active, and program 0 held by the ended alarm. -/
def alarmedState : State :=
  { State.reset with reset_ := { State.reset.reset_ with domain := .ready },
                     lanes := { State.reset.lanes with fm := State.reset.lanes.fm.set 0 { Lane.free with st := .running } },
                     alerts := { State.reset.alerts with active := [brokenOffAnn] },
                     progs := State.reset.progs.set 0 alarmedProgram }

/-- No alarm and no eligible announcement stands, but the one broken off does, and is selected again. -/
theorem alarmedState_resumes :
    bestAlarm alarmedState 0 = none ∧ bestAnn alarmedState alarmedProgram = none ∧
    holdAlive alarmedState (laneHolding brokenOffAnn none) = true ∧
    ((progAt (selectAnn 0 alarmedProgram brokenOffAnn alarmedState) 0).bind (·.nextHold)).isSome = true := by
  decide +kernel

/-- Refutes O49: at the end of an alarm the program returns to the announcement that it broke off, where that is still active (R231),
even though the announcement is no longer eligible as a new one. The last clause lets `p.resume` be anything and asks for the return
to normal audio, with the curtain ordered to close. -/
theorem not_curtainRowsMakeTheWaitingChange : ¬ Obligations.CurtainRowsMakeTheWaitingChange := by
  intro h
  obtain ⟨-, -, -, -, -, -, -, -, -, returns⟩ := h alarmedState 0 alarmedProgram rfl
  obtain ⟨noAlarm, noAnn, alive, selected⟩ := alarmedState_resumes
  have row := returns _ 0 rfl rfl rfl (Nat.zero_le _) rfl rfl (by decide) noAlarm noAnn
  have resumed := execEndDelayExpiry_resumes (s := alarmedState) (n := 0) rfl rfl rfl rfl (Nat.zero_le _) rfl rfl rfl noAlarm rfl
    alive selected
  have same := Host.Outcome.next.inj (resumed.symm.trans row)
  have kept := selectAnn_holdingsOnly 0 alarmedProgram brokenOffAnn alarmedState
  rw [show selectAnn 0 alarmedProgram brokenOffAnn alarmedState = _ from same] at kept
  have curtains := congrArg (fun l => l[0]?.map (·.curtain.after)) (kept.1.symm.trans (reselectAll_holdingsOnly _).1)
  cases (curtains : some [] = some [AfterClose.returnNormal])

end Sys2Proof.Machine

/-! What a change of one program leaves of the programs, read through a view of them. -/

namespace Sys2Proof.Machine

/-! ### Views of the programs -/

/-- What the view `g` shows of each program is the same in both states. -/
def Kept {α : Type} (g : Nat → Program → α) (s t : State) : Prop := ∀ k, (progAt t k).map (g k) = (progAt s k).map (g k)

section
variable {α : Type} {g : Nat → Program → α} {s t u : State} {n : Nat}

theorem Kept.refl (s : State) : Kept g s s := fun _ => rfl

theorem Kept.trans (h : Kept g s t) (k : Kept g t u) : Kept g s u := fun i => (k i).trans (h i)

theorem Kept.comp {β : Type} (f : Nat → α → β) (h : Kept g s t) : Kept (fun k p => f k (g k p)) s t := fun k => by
  simpa [Option.map_map, Function.comp_def] using congrArg (Option.map (f k)) (h k)

theorem Kept.progAt {k : Nat} {p : Program} (h : Kept g s t) (here : progAt s k = some p) :
    ∃ q, progAt t k = some q ∧ g k q = g k p := by
  have same := h k
  rw [here] at same
  exact Option.map_eq_some_iff.mp same

theorem Kept.progs (h : Kept g s t) (same : u.progs = t.progs) : Kept g s u := fun k => by rw [progAt_congr same, h k]

/-- A view that does not show the selections. -/
theorem Kept.holdingsOnly (h : Kept g s t) (only : HoldingsOnly t u) (blind : ∀ k p, g k (unselected p) = g k p) :
    Kept g s u := fun k => by
  have same : (Machine.progAt u k).map unselected = (Machine.progAt t k).map unselected := by
    simpa only [Machine.progAt, List.getElem?_map] using congrArg (fun l => l[k]?) only.1
  have shown := congrArg (Option.map (g k)) same
  simp only [Option.map_map, Function.comp_def, blind] at shown
  exact shown.trans (h k)

theorem Kept.updProgram {f : Program → Program} (h : Kept g s t) (stays : ∀ p, g n (f p) = g n p) : Kept g s (updProgram n f t) :=
  h.trans fun k => by
    rw [progAt_updProgram]
    split
    · next e => simp [e, Function.comp_def, stays]
    · rfl

/-- Two changes of a program between which the view shows no difference. -/
theorem updProgram_kept_updProgram {x : Program} {f f' : Program → Program} (here : progAt s n = some x)
    (h : g n (f' x) = g n (f x)) : Kept g (updProgram n f s) (updProgram n f' s) := fun k => by
  rw [progAt_updProgram, progAt_updProgram]
  split
  · next e => simp [e, here, h]
  · rfl

theorem Kept.evLink {reason a b : Nat} {key : List Byte} {c : Int} (h : Kept g s t) : Kept g s (evLink n reason a b key c t) :=
  h.progs (by simp [Machine.evLink])

theorem leaveAll_progs (n : Nat) (p : Program) (s : State) : (leaveAll n p s).progs = s.progs :=
  foldl_inv (fun u : State => u.progs = s.progs) _ _ _ rfl fun u i same => by
    dsimp only
    split
    · simp [evLink, same]
    · exact same

theorem Kept.leaveAll {p : Program} (h : Kept g s t) : Kept g s (leaveAll n p t) := h.progs (leaveAll_progs n p t)

theorem Kept.releaseLoans {f : Source → Bool} (h : Kept g s t) : Kept g s (releaseLoans n f t) := h.progs rfl

theorem Kept.sceneChange (h : Kept g s t) : Kept g s (sceneChange t) := h.progs rfl

theorem Kept.ite {c : Prop} [Decidable c] (h : Kept g s t) (k : Kept g s u) : Kept g s (if c then t else u) := by
  split
  · exact h
  · exact k

section
variable (h : Kept g s t) (blind : ∀ k p, g k (unselected p) = g k p := by exact fun _ _ => rfl)
include h blind

theorem Kept.fitOwn : Kept g s (fitOwn n t) := h.holdingsOnly (fitOwn_holdingsOnly n t) blind

theorem Kept.releaseOwn : Kept g s (releaseOwn n t) := h.holdingsOnly (releaseOwn_holdingsOnly n t) blind

end

end

/-- The group of a program: whether it runs, its members, the sources excluded, and its policy. -/
abbrev GroupView := Bool × List (Option Member) × List Source × LinkPolicy

def groups (_ : Nat) (p : Program) : GroupView := (p.running, p.members, p.excluded, p.policy)

/-- The groups, and what waits for the closed instants of the curtains. -/
def groupsAndAfter (k : Nat) (p : Program) : GroupView × List AfterClose := (groups k p, p.curtain.after)

/-- The groups of all programs but one. -/
def otherGroups (n k : Nat) (p : Program) : Option GroupView := if k = n then none else some (groups k p)

/-- The sources of the members, and the sources excluded. -/
def rosters (_ : Nat) (p : Program) : List (Option Source) × List Source := (p.members.map (·.map (·.src)), p.excluded)

section
variable {s t : State} {n : Nat}

theorem Kept.groups (h : Kept groupsAndAfter s t) : Kept groups s t := h.comp fun _ => Prod.fst

theorem Kept.otherGroups (h : Kept Machine.groups s t) (n : Nat) : Kept (otherGroups n) s t :=
  h.comp fun k x => if k = n then none else some x

theorem Kept.updProgram_other {f : Program → Program} (h : Kept (Machine.otherGroups n) s t) :
    Kept (Machine.otherGroups n) s (Machine.updProgram n f t) := h.updProgram fun p => by simp [Machine.otherGroups]

end

end Sys2Proof.Machine

/-! What the closed instant of a curtain leaves of the groups: the program's own, and those of the other programs (R226, R234, R260). -/

namespace Sys2Proof.Machine

section
variable {s t : State} {n : Nat}

theorem Kept.reopen (h : Kept Machine.groups s t) : Kept Machine.groups s (reopen n t) := h.updProgram fun _ => rfl

theorem selectPrimary_groups (n : Nat) (s : State) : Kept groups s (selectPrimary n s) :=
  .fitOwn (.updProgram (.refl s) fun _ => rfl)

theorem takeHolding_groups (n : Nat) (p : Program) (o : Bool) (s : State) : Kept groups s (takeHolding n p o s) := by
  unfold takeHolding
  dsimp only
  split
  · exact .reopen (.refl s)
  · refine .ite (.updProgram ?_ fun _ => rfl) (.reopen ?_)
    all_goals exact .releaseLoans (.updProgram (.refl s) fun _ => rfl)

theorem returnNormal_groups (n : Nat) (p : Program) (s : State) : Kept groups s (returnNormal n p s) := by
  refine .ite (.updProgram ?_ fun _ => rfl) (.reopen ?_)
  all_goals exact .fitOwn (.releaseLoans (.updProgram (.refl s) fun _ => rfl))

/-- A change at the closed instant that leaves the group as it is. -/
def leavesGroup (a : AfterClose) : Prop := a = .newPrimary ∨ a = .takeAnnouncement ∨ a = .returnNormal

theorem atClosed_groups {a : AfterClose} (h : leavesGroup a) : Kept groups s (atClosed n a s) := by
  unfold atClosed
  split
  · exact .refl s
  · obtain rfl | rfl | rfl := h
    · exact .reopen (selectPrimary_groups n s)
    · exact takeHolding_groups n _ _ s
    · exact returnNormal_groups n _ s

theorem Kept.reopen_other (h : Kept (Machine.otherGroups n) s t) : Kept (Machine.otherGroups n) s (Machine.reopen n t) :=
  .updProgram_other h

theorem endProgram_other (n : Nat) (s : State) : Kept (otherGroups n) s (endProgram n s) := by
  unfold endProgram
  split
  · exact .refl s
  · exact .updProgram_other (.sceneChange (.releaseOwn (.releaseLoans (.leaveAll (.refl s)))))

theorem setAnchor_other (n : Nat) (dab : Bool) (slot : Option Nat) (s : State) :
    Kept (otherGroups n) s (setAnchor n dab slot s) :=
  .ite (.updProgram_other (.updProgram_other (.refl s))) (.updProgram_other (.refl s))

theorem selectMember_other (n : Nat) (dab : Bool) (slot : Nat) (s : State) :
    Kept (otherGroups n) s (selectMember n dab slot s) := by
  unfold selectMember
  dsimp only
  split
  · exact .ite (.trans (.updProgram_other (.refl s)) (setAnchor_other n dab _ _)) (.updProgram_other (.refl s))
  · exact .updProgram_other (.refl s)

theorem swapDecoders_progs (n : Nat) (key : Source) (s : State) : (swapDecoders n key s).progs = s.progs := by
  unfold swapDecoders
  split
  · split
    · split <;> rfl
    · rfl
  · rfl

theorem ownMember_other (n slot : Nat) (s : State) : Kept (otherGroups n) s (ownMember n slot s) := by
  unfold ownMember
  split
  · exact .ite (.fitOwn (.progs (.refl s) (swapDecoders_progs n _ s))) (.refl s)
  · exact .refl s

theorem alignIfReady_other (n : Nat) (s : State) : Kept (otherGroups n) s (alignIfReady n s) := by
  unfold alignIfReady
  split
  · exact .ite (.evLink (.updProgram_other (.refl s))) (.refl s)
  · exact .refl s

/-- Whatever is made at the closed instant of a program, the other groups stay. -/
theorem atClosed_other (n : Nat) (a : AfterClose) (s : State) : Kept (otherGroups n) s (atClosed n a s) := by
  unfold atClosed
  split
  · exact .refl s
  · cases a with
    | stop => exact endProgram_other n s
    | newPrimary => exact .reopen_other ((selectPrimary_groups n s).otherGroups n)
    | switchMember dab slot => exact .reopen_other ((selectMember_other n dab slot s).trans (ownMember_other n slot _))
    | switchPath dab => exact .reopen_other (.trans (.updProgram_other (.refl s)) (alignIfReady_other n _))
    | enterAligned => exact .reopen_other (.ite (.evLink (.updProgram_other (.refl s))) (.refl s))
    | leaveAligned => exact .reopen_other (.updProgram_other (.evLink (.updProgram_other (.refl s))))
    | takeAnnouncement => exact (takeHolding_groups n _ _ s).otherGroups n
    | returnNormal => exact (returnNormal_groups n _ s).otherGroups n

theorem Kept.foldl_atClosed {β : Type} {g : Nat → Program → β} {l : List AfterClose} (h : Kept g s t)
    (step : ∀ a ∈ l, ∀ u, Kept g u (atClosed n a u)) : Kept g s (l.foldl (fun u a => atClosed n a u) t) :=
  List.foldlRecOn l _ h fun u kept a mem => kept.trans (step a mem u)

theorem progAt_setCurtain {x : Program} (f : Curtain → Curtain) (here : progAt s n = some x) :
    progAt (setCurtain n f s) n = some { x with curtain := f x.curtain } := by
  simp [setCurtain, progAt_updProgram, here]

variable {x : Program} (here : progAt s n = some x)
include here

/-- A curtain that is closed makes at once what waits for its closed instant, and the change last. -/
theorem closeThen_closed (a : AfterClose) (closed : x.curtain.pos = 0) :
    ∃ t, Kept groups s t ∧ closeThen n a s = (x.curtain.after ++ [a]).foldl (fun u a => atClosed n a u) t := by
  unfold closeThen
  simp only [progAt_setCurtain _ here, closed, if_true, closedInstant]
  refine ⟨_, ?_, rfl⟩
  exact .updProgram (.updProgram (.refl s) fun _ => rfl) fun _ => rfl

/-- A curtain that is not closed is ordered to close. -/
theorem closeThen_open (a : AfterClose) (opened : x.curtain.pos ≠ 0) :
    closeThen n a s = setCurtain n (fun c => { c with after := c.after ++ [a], moving := if c.pos = 0 then none else some false,
                                                      waitValid := false, switching := c.switching || isSwitch a }) s := by
  unfold closeThen
  simp only [progAt_setCurtain _ here, opened, if_false]

theorem atClosed_stop : atClosed n .stop s = endProgram n s := by
  unfold atClosed
  rw [here]

theorem endProgram_stops :
    ∃ y, progAt (endProgram n s) n = some y ∧ y.running = false ∧ y.members = List.replicate 12 none := by
  have left : Kept groups s (sceneChange (releaseOwn n (releaseLoans n (fun _ => true) (leaveAll n x s)))) :=
    .sceneChange (.releaseOwn (.releaseLoans (.leaveAll (.refl s))))
  obtain ⟨z, there, -⟩ := left.progAt here
  unfold endProgram
  simp only [here, progAt_updProgram, there, if_true]
  exact ⟨_, rfl, rfl, rfl⟩

/-- A stop ends the group at the closed instant, whatever else is made there before it. -/
theorem closeThen_stop_ends (closed : x.curtain.pos = 0) :
    ∃ y, progAt (closeThen n .stop s) n = some y ∧ y.running = false ∧ y.members = List.replicate 12 none := by
  obtain ⟨t, kept, made⟩ := closeThen_closed here .stop closed
  have before : Kept (otherGroups n) s (x.curtain.after.foldl (fun u a => atClosed n a u) t) :=
    (kept.otherGroups n).foldl_atClosed fun a _ u => atClosed_other n a u
  obtain ⟨z, there, -⟩ := before.progAt here
  rw [made, List.foldl_append, List.foldl_cons, List.foldl_nil, atClosed_stop there]
  exact endProgram_stops there

/-- A new primary member is selected at the closed instant, and the group is the one that has been formed. -/
theorem closeThen_newPrimary_groups (waits : ∀ a ∈ x.curtain.after, leavesGroup a) :
    Kept groups s (closeThen n .newPrimary s) := by
  by_cases closed : x.curtain.pos = 0
  · obtain ⟨t, kept, made⟩ := closeThen_closed here .newPrimary closed
    rw [made]
    refine kept.foldl_atClosed fun a mem u => atClosed_groups ?_
    obtain waiting | new := List.mem_append.mp mem
    · exact waits a waiting
    · exact .inl (List.mem_singleton.mp new)
  · rw [closeThen_open here .newPrimary closed]
    exact .updProgram (.refl s) fun _ => rfl

end

end Sys2Proof.Machine

/-! The group that a start forms, and the group after a member has joined or left (R234, R235, R240). -/

namespace Sys2Proof.Machine

/-- A program with a slot filled, or emptied. -/
def setMember (slot : Nat) (m : Option Member) (x : Program) : Program := { x with members := x.members.set slot m }

/-- The group that starts with one member in a program. -/
def newGroup (x : Program) (m : Member) : Program :=
  { Program.stopped with running := true, members := (List.replicate 12 none).set 0 (some m), policy := x.policy,
                         curtain := { x.curtain with after := keptAfter x.curtain.after } }

theorem lt_length_of_memberAt {slot : Nat} {m : Member} {x : Program} (filled : memberAt x slot = some m) : slot < x.members.length := by
  have found := Option.join_eq_some_iff.mp filled
  exact (List.getElem?_eq_some_iff.mp found).1

theorem memberAt_setMember_same {slot : Nat} {m : Option Member} {x : Program} (inRange : slot < x.members.length) :
    memberAt (setMember slot m x) slot = m := by
  simp [memberAt, setMember, inRange]

theorem memberAt_setMember_other {slot j : Nat} {m : Option Member} {x : Program} (other : j ≠ slot) :
    memberAt (setMember slot m x) j = memberAt x j := by
  simp [memberAt, setMember, List.getElem?_set_ne other.symm]

theorem memberAt_congr {x y : Program} (same : y.members = x.members) (j : Nat) : memberAt y j = memberAt x j := by
  simp [memberAt, same]

theorem memberAt_newGroup (x : Program) (m : Member) (j : Nat) : memberAt (newGroup x m) j = if j = 0 then some m else none := by
  have members : memberAt (newGroup x m) j = memberAt (setMember 0 (some m) Program.stopped) j := rfl
  rw [members]
  split
  · next first =>
    subst first
    exact memberAt_setMember_same (by decide)
  · next other =>
    rw [memberAt_setMember_other other]
    simp only [memberAt, Program.stopped, List.getElem?_replicate]
    split <;> rfl

theorem memberAt_src (x : Program) (n j : Nat) : (memberAt x j).map (·.src) = ((rosters n x).1[j]?).join := by
  simp only [memberAt, rosters, List.getElem?_map]
  cases x.members[j]? <;> rfl

section
variable {s : State} {n slot : Nat} {x : Program} (here : progAt s n = some x)
include here

theorem placeMember_fills (src : Source) (origin : Nat) : ∃ m : Member, m.src = src ∧ m.origin = origin ∧
    Kept groupsAndAfter (updProgram n (setMember slot (some m)) s) (placeMember n slot src origin s) := by
  refine ⟨newMember src origin s.now ((pathSlots x (src.kind == 2)).isEmpty && (if src.kind == 2 then x.anchorD else x.anchorA).isNone),
    rfl, rfl, ?_⟩
  unfold placeMember
  simp -zeta only [here]
  extract_lets dab anchor first q q1 s1 s2
  have filled : groupsAndAfter n q1 = groupsAndAfter n q := by
    simp only [q1]
    split
    · rfl
    · split <;> rfl
  suffices placed : Kept groupsAndAfter _ s1 by
    have decoded : Kept groupsAndAfter _ s2 := .ite (.fitOwn placed) placed
    exact .evLink (.ite (.sceneChange decoded) decoded)
  exact updProgram_kept_updProgram here filled

theorem formGroup_forms (src : Source) : ∃ m : Member, m.src = src ∧ m.origin = 0 ∧
    Kept groupsAndAfter (updProgram n (fun y => newGroup y m) s) (formGroup n src s) := by
  unfold formGroup
  simp -zeta only [here]
  extract_lets old s1 s2 stopped curtain s3
  have left : s2.progs = s.progs := by
    simp only [s2, s1, releaseLoans]
    split
    · exact leaveAll_progs n x s
    · rfl
  obtain ⟨y, there, shown⟩ : ∃ y, progAt s3 n = some y ∧
      ∀ m, groupsAndAfter n (setMember 0 (some m) y) = groupsAndAfter n (newGroup x m) :=
    ⟨_, by simp only [s3, progAt_updProgram, progAt_congr left, here, if_true]; rfl, fun _ => rfl⟩
  obtain ⟨m, source, origin, placed⟩ := placeMember_fills there src 0 (slot := 0)
  have started : Kept groupsAndAfter (updProgram n (fun y => newGroup y m) s) (updProgram n (setMember 0 (some m)) s3) := fun k => by
    by_cases own : k = n
    · simp [progAt_updProgram, own, there, here, shown]
    · simp [progAt_updProgram, own, s3, progAt_congr left]
  exact ⟨m, source, origin, .fitOwn (.updProgram (started.trans placed) fun _ => rfl)⟩

end

theorem rebase_src (p : Program) (a : Nat) (m : Member) : (rebase p a m).src = m.src := by
  unfold rebase
  split <;> rfl

theorem map_mapIdx_of_stays {α β : Type} {g : α → β} {f : Nat → α → α} (l : List α) (h : ∀ i x, g (f i x) = g x) :
    (mapIdx f l).map g = l.map g := by
  refine List.ext_getElem? fun i => ?_
  rw [List.getElem?_map, List.getElem?_map, getElem?_mapIdx]
  simp [Function.comp_def, h]

theorem setAnchor_rosters (n : Nat) (dab : Bool) (slot : Option Nat) (s : State) : Kept rosters s (setAnchor n dab slot s) := by
  unfold setAnchor
  extract_lets s1
  have anchored : Kept rosters s s1 := .updProgram (.refl s) fun p => by
    extract_lets ms
    have stay : ms.map (·.map (·.src)) = p.members.map (·.map (·.src)) := by
      simp only [ms]
      split
      · rfl
      · refine map_mapIdx_of_stays _ fun i m => ?_
        split
        · split
          · split
            · rfl
            · exact congrArg some (rebase_src ..)
          · rfl
        · rfl
    split <;> exact congrArg (·, p.excluded) stay
  refine .ite (.updProgram anchored fun p => ?_) anchored
  split <;> rfl

section
variable {s : State} {n slot : Nat} {x : Program} (here : progAt s n = some x)
include here

theorem removeMember_takes {m : Member} (filled : memberAt x slot = some m) :
    Kept rosters (updProgram n (setMember slot none) s) (removeMember n slot s) := by
  unfold removeMember
  simp -zeta only [here, Option.bind_some, filled, Option.map_some]
  extract_lets dab sel mine ms c q more q1 s1 anchor s2 s3
  have taken : Kept rosters (updProgram n (setMember slot none) s) s1 := updProgram_kept_updProgram here rfl
  have anchored : Kept rosters _ s2 := .ite (taken.trans (setAnchor_rosters n dab _ s1)) taken
  have decoded : Kept rosters _ s3 := .ite (.fitOwn (.releaseLoans anchored)) anchored
  exact .evLink (.ite (.sceneChange decoded) decoded)

/-- A member that the host takes out leaves alone; an automatic one is excluded (R234). -/
theorem dropSource_takes {src : Source} {m : Member} (named : slotOfSource x src = some slot) (filled : memberAt x slot = some m) :
    ∃ y, progAt (dropSource n src s) n = some y ∧
      (∀ j, (memberAt y j).map (·.src) = if j = slot then none else (memberAt x j).map (·.src)) ∧
      y.excluded = if m.origin = 2 then x.excluded ++ [src] else x.excluded := by
  obtain ⟨y, there, shown⟩ := (removeMember_takes here filled).progAt (k := n) (p := setMember slot none x)
    (by simp [progAt_updProgram, here])
  have inRange : slot < x.members.length := lt_length_of_memberAt filled
  have left (j : Nat) : (memberAt y j).map (·.src) = if j = slot then none else (memberAt x j).map (·.src) := by
    rw [memberAt_src y n, shown, ← memberAt_src]
    split
    · next same => rw [same, memberAt_setMember_same inRange]; rfl
    · next other => rw [memberAt_setMember_other other]
  have excluded : y.excluded = x.excluded := congrArg Prod.snd shown
  unfold dropSource
  simp only [here, Option.bind_some, named, Option.map_some, filled, beq_iff_eq]
  by_cases auto : m.origin = 2
  · simp only [auto, if_true, progAt_updProgram, there, Option.map_some]
    exact ⟨_, rfl, left, by rw [excluded]⟩
  · simp only [auto, if_false]
    exact ⟨y, there, left, excluded⟩

end

end Sys2Proof.Machine

/-! The commands of `PROGRAM_SET`: start, stop, add and remove (R233, R234, R413). -/

namespace Sys2Proof.Machine

/-! ### The packet of PROGRAM_SET, with the action that the row stands for -/

theorem rd_setByte_after (p : List Byte) (v : Nat) {i off : Nat} (k : Nat) (h : i < off) : rd (setByte p i v) off k = rd p off k := by
  unfold setByte
  split
  · simp [rd, List.drop_set, h]
  · rfl

theorem p1_eq_getElem? (p : List Byte) (i : Nat) : p1 p i = (p[i]?.map BitVec.toNat).getD 0 := by
  unfold p1 rd
  rw [List.take_one, List.head?_drop]
  cases p[i]? <;> rfl

theorem p1_setByte_other (p : List Byte) (v : Nat) {i j : Nat} (h : j ≠ i) : p1 (setByte p i v) j = p1 p j := by
  unfold setByte
  split
  · rw [p1_eq_getElem?, List.getElem?_set_ne h.symm, ← p1_eq_getElem?]
  · rfl

theorem p1_setByte_same {p : List Byte} {i v : Nat} (h : i < p.length) (small : v < 256) : p1 (setByte p i v) i = v := by
  simp [p1_eq_getElem?, setByte, h, byte, Nat.mod_eq_of_lt small]

theorem length_setByte (p : List Byte) (i v : Nat) : (setByte p i v).length = p.length := by
  unfold setByte
  split <;> simp

theorem parseSource_setByte (p : List Byte) (v : Nat) : parseSource (setByte p 1 v) = parseSource p := by
  have field (off k : Nat) (h : 1 < off) := rd_setByte_after p v k h
  unfold parseSource p1
  rw [field 2 1 (by decide), field 3 1 (by decide), field 4 2 (by decide), field 6 4 (by decide), field 10 1 (by decide)]

theorem hostTurn_setByte {s : State} {p : List Byte} (turn : HostTurn s p) (i v : Nat) : HostTurn s (setByte p i v) := by
  obtain ⟨queue, free, accepts, len⟩ := turn
  exact ⟨queue, free, accepts, length_setByte p i v ▸ len⟩

section
variable {c : Call} {s : State}

theorem bodyProgramSet_stop (h : p1 c.p 1 = 0) : bodyProgramSet c s = bodyProgramStop (p1 c.p 0) s := by simp [bodyProgramSet, h]

theorem bodyProgramSet_start (h : p1 c.p 1 = 1) : bodyProgramSet c s = bodyProgramStart (p1 c.p 0) (parseSource c.p) s := by
  simp [bodyProgramSet, h]

theorem bodyProgramSet_add (h : p1 c.p 1 = 2) : bodyProgramSet c s = bodyProgramAdd (p1 c.p 0) (parseSource c.p) s := by
  simp [bodyProgramSet, h]

theorem bodyProgramSet_remove (h : p1 c.p 1 = 3) : bodyProgramSet c s = bodyProgramRemove (p1 c.p 0) (parseSource c.p) s := by
  simp [bodyProgramSet, h]

end

/-! ### What each action answers -/

/-- A DAB component needs no lane to be started. -/
theorem startNamed_dab {src : Source} (s : State) (dab : src.kind = 2) : startNamed src s = (s, none) := by simp [startNamed, dab]

section
variable {s : State} {n : Nat} {x : Program} (here : progAt s n = some x)
include here

theorem bodyProgramStop_running (running : x.running = true) : bodyProgramStop n s =
    { status := stOk, payload := setReply n 0 noSource 0xFF (if x.curtain.pos = 0 then 0 else programState x), state := s,
      effects := [.stop n] } := by
  simp [bodyProgramStop, here, running]

theorem bodyProgramStop_stopped (stopped : x.running = false) :
    bodyProgramStop n s = okay (setReply n 0 noSource 0xFF 0) s := by
  simp [bodyProgramStop, here, stopped]

/-- A running program whose curtain is not closed is ordered to close it, and to stop then. -/
theorem closeThen_stop_open (opened : x.curtain.pos ≠ 0) : closeThen n .stop s = updProgram n (fun y =>
    { y with curtain := { x.curtain with after := x.curtain.after ++ [.stop], moving := some false, waitValid := false } }) s := by
  rw [closeThen_open here .stop opened]
  refine congrArg (fun l => { s with progs := l }) (upd_congr fun y read => ?_)
  obtain rfl : x = y := Option.some.inj (here.symm.trans read)
  simp [opened, isSwitch]

/-- The primary member of a new group is heard at once under an announcement on air, and at the closed instant otherwise. -/
theorem start_forms (src : Source) : ∃ m : Member, m.src = src ∧ m.origin = 0 ∧
    Kept groups (updProgram n (fun y => newGroup y m) s) (applyEffect (.primary n) (formGroup n src s)) := by
  obtain ⟨m, source, origin, formed⟩ := formGroup_forms here src
  obtain ⟨y, there, shown⟩ := formed.progAt (k := n) (p := newGroup x m) (by simp [progAt_updProgram, here])
  have after : y.curtain.after = keptAfter x.curtain.after := congrArg Prod.snd shown
  refine ⟨m, source, origin, formed.groups.trans ?_⟩
  simp only [applyEffect, there]
  refine .ite (selectPrimary_groups n _) (closeThen_newPrimary_groups there fun a waiting => .inr ?_)
  simp only [after, keptAfter, List.mem_filter, Bool.or_eq_true, beq_iff_eq] at waiting
  exact waiting.2

variable {src : Source}

theorem bodyProgramAdd_member {i : Nat} (running : x.running = true) (named : slotOfSource x src = some i) :
    bodyProgramAdd n src s = okay (setReply n 2 src i (programState x)) s := by
  simp [bodyProgramAdd, here, running, named]

theorem bodyProgramAdd_free {i : Nat} (running : x.running = true) (dab : src.kind = 2) (new : slotOfSource x src = none)
    (admitted : blendAdmitted s x = true) (room : (slotsOf x).length < x.policy.maxMembers) (free : freeSlot x = some i) :
    bodyProgramAdd n src s =
      { status := stOk, payload := setReply n 2 src i (stateOfProgram (placeMember n i src 1 s) n), state := placeMember n i src 1 s } := by
  simp [bodyProgramAdd, here, running, new, admitted, Nat.not_le.mpr room, free, addHost, startNamed_dab _ dab]

theorem bodyProgramRemove_member {i : Nat} (named : slotOfSource x src = some (i + 1)) : bodyProgramRemove n src s =
    { status := stOk, payload := setReply n 3 src (i + 1) (stateOfProgram (dropSource n src s) n), state := s,
      effects := [.remove n src] } := by
  simp [bodyProgramRemove, here, named]

end

theorem bodyProgramStart_dab {src : Source} (n : Nat) (s : State) (dab : src.kind = 2) : bodyProgramStart n src s =
    { status := stOk, payload := setReply n 1 src 0 (max 1 (stateOfProgram (formGroup n src s) n)), state := formGroup n src s,
      effects := [.primary n] } := by
  simp [bodyProgramStart, dab, startNamed_dab _ dab]

section
variable {tag : Byte} {p : List Byte} {s : State} {x : Program} (turn : MainTurn s p) (len : p.length = 11)
  (here : progAt s (p1 p 0) = some x)
include turn len here

/-- The checks of `PROGRAM_SET` pass for a stop, and for a DAB component (Table 14-1, R413): the action decides. -/
theorem serve_programSet {action : Nat} {f : Nat → Source → State → Res} (small : action < 256)
    (named : action = 0 ∨ (parseSource p).kind = 2)
    (acts : ∀ c : Call, p1 c.p 1 = action → bodyProgramSet c s = f (p1 c.p 0) (parseSource c.p) s) :
    serve cmdProgramSet (hostCall tag (setByte p 1 action)) s = f (p1 p 0) (parseSource p) s := by
  have own : p1 (setByte p 1 action) 1 = action := p1_setByte_same (by omega) small
  have program : p1 (setByte p 1 action) 0 = p1 p 0 := p1_setByte_other p action Nat.zero_ne_one
  have ids : programSetIds s (setByte p 1 action) = true := by
    obtain stop | dab := named
    · simp [programSetIds, program, own.trans stop, programExists_of_some here]
    · simp [programSetIds, program, parseSource_setByte, programExists_of_some here, dab]
  rw [serve_main turn (by simp [cmdProgramSet, programSetLen, hostCall, length_setByte, len]) ids]
  exact (acts _ own).trans (by rw [← program, ← parseSource_setByte p action]; rfl)

theorem serve_programStop : serve cmdProgramSet (hostCall tag (setByte p 1 0)) s = bodyProgramStop (p1 p 0) s :=
  serve_programSet turn len here (f := fun n _ => bodyProgramStop n) (by decide) (.inl rfl) fun _ => bodyProgramSet_stop

theorem programStop_running (running : x.running = true) : ∃ v, exec (.programStop tag p) s = .next v ∧
    Answered v stOk tag (setReply (p1 p 0) 0 noSource 0xFF (if x.curtain.pos = 0 then 0 else programState x))
      (closeThen (p1 p 0) .stop s) :=
  row_answers (hostTurn_setByte turn.1 1 0)
    ((serve_programStop turn len here).trans (bodyProgramStop_running here running)) rfl rfl rfl rfl rfl rfl

theorem programStop_stopped (stopped : x.running = false) :
    exec (.programStop tag p) s = .next (replied s stOk tag (setReply (p1 p 0) 0 noSource 0xFF 0)) :=
  row_reads (hostTurn_setByte turn.1 1 0)
    ((serve_programStop turn len here).trans (bodyProgramStop_stopped here stopped))

section
variable (dab : (parseSource p).kind = 2)
include dab

theorem programStart_dab : ∃ pl v, exec (.programStart tag p) s = .next v ∧
    Answered v stOk tag pl (applyEffect (.primary (p1 p 0)) (formGroup (p1 p 0) (parseSource p) s)) :=
  ⟨_, row_answers (hostTurn_setByte turn.1 1 1)
    ((serve_programSet turn len here (by decide) (.inr dab) fun _ => bodyProgramSet_start).trans (bodyProgramStart_dab _ s dab))
    rfl rfl rfl rfl rfl rfl⟩

theorem serve_programAdd : serve cmdProgramSet (hostCall tag (setByte p 1 2)) s = bodyProgramAdd (p1 p 0) (parseSource p) s :=
  serve_programSet turn len here (by decide) (.inr dab) fun _ => bodyProgramSet_add

theorem programAddMember_member {i : Nat} (running : x.running = true) (named : slotOfSource x (parseSource p) = some i) :
    exec (.programAddMember tag p) s = .next (replied s stOk tag (setReply (p1 p 0) 2 (parseSource p) i (programState x))) :=
  row_reads (hostTurn_setByte turn.1 1 2)
    ((serve_programAdd turn len here dab).trans (bodyProgramAdd_member here running named))

theorem programAddMember_free {i : Nat} (running : x.running = true) (new : slotOfSource x (parseSource p) = none)
    (admitted : blendAdmitted s x = true) (room : (slotsOf x).length < x.policy.maxMembers) (free : freeSlot x = some i) :
    ∃ pl v, exec (.programAddMember tag p) s = .next v ∧ Answered v stOk tag pl (placeMember (p1 p 0) i (parseSource p) 1 s) :=
  ⟨_, row_answers (hostTurn_setByte turn.1 1 2)
    ((serve_programAdd turn len here dab).trans (bodyProgramAdd_free here running dab new admitted room free))
    rfl rfl rfl rfl rfl rfl⟩

theorem programRemoveMember_member {i : Nat} (named : slotOfSource x (parseSource p) = some (i + 1)) :
    ∃ pl v, exec (.programRemoveMember tag p) s = .next v ∧ Answered v stOk tag pl (dropSource (p1 p 0) (parseSource p) s) :=
  ⟨_, row_answers (hostTurn_setByte turn.1 1 3)
    ((serve_programSet turn len here (by decide) (.inr dab) fun _ => bodyProgramSet_remove).trans (bodyProgramRemove_member here named))
    rfl rfl rfl rfl rfl rfl⟩

end

end

/-- The group that a start leaves, in its program and in the others. -/
theorem start_leaves {s : State} {n : Nat} {x : Program} (here : progAt s n = some x) (src : Source) :
    ∃ y m, progAt (applyEffect (.primary n) (formGroup n src s)) n = some y ∧ y.running = true ∧ y.excluded = [] ∧
      y.policy = x.policy ∧ memberAt y 0 = some m ∧ m.src = src ∧ m.origin = 0 ∧ (∀ j, j ≠ 0 → memberAt y j = none) ∧
      ∀ k, k ≠ n → ∀ q, progAt s k = some q → ∃ r, progAt (applyEffect (.primary n) (formGroup n src s)) k = some r ∧
        r.running = q.running ∧ r.members = q.members := by
  obtain ⟨m, source, origin, formed⟩ := start_forms here src
  obtain ⟨y, there, shown⟩ := formed.progAt (k := n) (p := newGroup x m) (by simp [progAt_updProgram, here])
  simp only [groups, Prod.mk.injEq] at shown
  obtain ⟨running, members, excluded, policy⟩ := shown
  have member (j : Nat) : memberAt y j = if j = 0 then some m else none :=
    (memberAt_congr members j).trans (memberAt_newGroup x m j)
  refine ⟨y, m, there, running, excluded, policy, member 0, source, origin, fun j other => (member j).trans (if_neg other),
    fun k other q before => ?_⟩
  have others : Kept (otherGroups n) s (applyEffect (.primary n) (formGroup n src s)) :=
    Kept.trans (.updProgram_other (.refl s)) (formed.otherGroups n)
  obtain ⟨r, after, same⟩ := others.progAt before
  simp only [otherGroups, other, if_false, Option.some.injEq, groups, Prod.mk.injEq] at same
  exact ⟨r, after, same.1, same.2.1⟩

/-- The group that a member added by the host leaves. -/
theorem placeMember_leaves {s : State} {n slot : Nat} {x : Program} (here : progAt s n = some x) (src : Source) (origin : Nat)
    (inRange : slot < x.members.length) :
    ∃ y m, progAt (placeMember n slot src origin s) n = some y ∧ y.running = x.running ∧
      memberAt y slot = some m ∧ m.src = src ∧ m.origin = origin ∧ ∀ j, j ≠ slot → memberAt y j = memberAt x j := by
  obtain ⟨m, source, from_, placed⟩ := placeMember_fills here src origin (slot := slot)
  obtain ⟨y, there, shown⟩ := placed.groups.progAt (k := n) (p := setMember slot (some m) x) (by simp [progAt_updProgram, here])
  simp only [groups, Prod.mk.injEq] at shown
  obtain ⟨running, members, -⟩ := shown
  refine ⟨y, m, there, running, ?_, source, from_, fun j other => ?_⟩
  · exact (memberAt_congr members slot).trans (memberAt_setMember_same inRange)
  · exact (memberAt_congr members j).trans (memberAt_setMember_other other)

/-- Settles O27: each row answers with its own action of `PROGRAM_SET`, and `closeThen_stop_ends`, `start_leaves`, `placeMember_leaves`
and `dropSource_takes` say what group that leaves. -/
theorem programActionsFormAndChangeTheGroup : Obligations.ProgramActionsFormAndChangeTheGroup := by
  intro tag p s x turn len here
  refine ⟨fun running closed => ?_, fun running opened => ?_, programStop_stopped turn len here, fun dab => ?_,
    fun i running dab named => programAddMember_member turn len here dab running named,
    fun i running dab new admitted room free inRange => ?_, fun i m dab named filled => ?_⟩
  · obtain ⟨y, there, stopped, empty⟩ := closeThen_stop_ends here closed
    have answer := programStop_running (tag := tag) turn len here running
    rw [if_pos closed] at answer
    exact ⟨_, y, answer, there, stopped, empty⟩
  · have answer := programStop_running (tag := tag) turn len here running
    rw [if_neg opened, closeThen_stop_open here opened] at answer
    exact answer
  · obtain ⟨pl, answer⟩ := programStart_dab (tag := tag) turn len here dab
    obtain ⟨y, m, left⟩ := start_leaves here (parseSource p)
    exact ⟨pl, _, y, m, answer, left⟩
  · obtain ⟨pl, answer⟩ := programAddMember_free (tag := tag) turn len here dab running new admitted room free
    obtain ⟨y, m, there, same, left⟩ := placeMember_leaves here (parseSource p) 1 inRange
    exact ⟨pl, _, y, m, answer, there, same.trans running, left⟩
  · obtain ⟨pl, answer⟩ := programRemoveMember_member (tag := tag) turn len here dab named
    obtain ⟨y, left⟩ := dropSource_takes here named filled
    exact ⟨pl, _, y, answer, left⟩

end Sys2Proof.Machine

/-! Drops of the input FIFOs, the derate they bring and the shortfall it may leave (R291, R292, R283). -/

namespace Sys2Proof.Machine

/-! ### An input FIFO drop (R291, R292) -/

theorem getD_upd_same {α : Type} {l : List α} {i : Nat} (d : α) (f : α → α) (inside : i < l.length) :
    (upd l i f).getD i d = f (l.getD i d) := by
  simp [upd, inside]

theorem raiseCounter_counters (i : Nat) (s : State) : (raiseCounter i s).integ.counters = s.integ.counters := by
  simp [raiseCounter]

/-- Counting moves the one counter, whatever becomes of its record (R508). -/
theorem count_counters {n : Nat} (i inst : Nat) (s : State) (counts : n ≠ 0) :
    (count i n inst s).integ.counters = upd s.integ.counters i (satAdd 0xFFFFFFFF · n) := by
  unfold count
  rw [if_neg counts]
  dsimp only
  (repeat' split) <;> simp [raiseCounter_counters]

/-- The derate after a drop now, and the drops counted. -/
def dropped (now : Nat) (c : Capacity) : Capacity :=
  { c with derate := min 20 (c.derate + 2), derateAt := now, fifoDrops := satAdd 0xFFFFFFFF c.fifoDrops 1 }

/-- A drop of a block on an input has been noted, in the derate, the counter of the input and its stream. -/
def dropNoted (i : Nat) (s : State) : State := gapOn i (count (6 + i) 1 i (setCap (dropped s.now) s))

section
variable {i : Nat} {s : State} (bonds : bonded s i = true)
include bonds

theorem execInputFifoDrop_sampling (receives : (inputAt s i).receiving = true) (clocked : pllSUp s.clocks = true) :
    execInputFifoDrop i s = .next (dropNoted i s) := by
  have samples : sampling s i = true := by simp [sampling, receives, clocked]
  rw [execInputFifoDrop, bonds, samples]
  rfl

theorem execInputFifoDrop_idle (idle : (inputAt s i).receiving = false ∨ pllSUp s.clocks = false) :
    execInputFifoDrop i s = .next s := by
  obtain h | h := idle <;> simp [execInputFifoDrop, sampling, bonds, h]

end

theorem dropNoted_counters (i : Nat) (s : State) :
    (dropNoted i s).integ.counters = upd s.integ.counters (6 + i) (satAdd 0xFFFFFFFF · 1) :=
  count_counters (6 + i) i (setCap (dropped s.now) s) one_ne_zero

/-- Derate and stream of the input move; programs, lanes and the control link stay. -/
theorem dropNoted_frame (i : Nat) (s : State) :
    (dropNoted i s).cap = dropped s.now s.cap ∧ (dropNoted i s).inputs = upd s.inputs i (gapNow (blockTicks i) s.now) ∧
    (dropNoted i s).progs = s.progs ∧ (dropNoted i s).lanes = s.lanes ∧ (dropNoted i s).link = s.link := by
  unfold dropNoted gapOn
  rw [count_reports (6 + i) 1 i (setCap (dropped s.now) s)]
  exact ⟨rfl, rfl, rfl, rfl, rfl⟩

/-! ### The derate decays (R292) -/

theorem execDerateDecay_waits {s : State} (h : s.cap.derate = 0 ∨ s.now < s.cap.derateAt + 480000) :
    execDerateDecay s = .next s := by
  obtain h | h := h <;> simp [execDerateDecay, elapsed, h]

/-! ### The shortfall of a measurement (R283) -/

/-- The judgement as it is noted, before its faults begin or end. -/
def shortfallNoted (s : State) : State :=
  setCap (fun c => { c with shortfall := shortByLimit s || decide (2 ≤ s.cap.shortReads), overcommitted := c.overcommitted && shortByLimit s }) s

theorem ite_handles {s a b : State} {c : Prop} [Decidable c] (ha : Handles s a) (hb : Handles s b) :
    Handles s (if c then a else b) := by
  split <;> assumption

theorem judgeShortfall_handles (s : State) : Handles (shortfallNoted s) (judgeShortfall s) := by
  have ends (code : Nat) (t : State) := faultEnds_handles code 0 2 t
  have begins (a : Int) (t : State) := faultBegins_handles 0x70 0 0 a false t
  have first (c : Prop) [Decidable c] : Handles (shortfallNoted s) (if c then faultEnds 0x71 0 2 (shortfallNoted s) else shortfallNoted s) :=
    ite_handles (ends _ _) (Handles.refl _)
  exact ite_handles ((first _).trans (begins _ _)) (ite_handles ((first _).trans (ends _ _)) (first _))

theorem capLim_handles {s t : State} (h : Handles s t) : capLim t = capLim s := by
  rw [h.1]
  rfl

theorem demand_handles {s t : State} (h : Handles s t) : demand t = demand s := by
  rw [h.1]
  rfl

/-- After a judgement the work is short, or the demand with its margin lies within `C_lim`. -/
theorem judgeShortfall_judges (s : State) :
    (judgeShortfall s).cap.shortfall = true ∨ plusTenth (demand (judgeShortfall s)) ≤ capLim (judgeShortfall s) := by
  have handled := judgeShortfall_handles s
  rw [handled.unitsStay.cap, demand_handles handled, capLim_handles handled]
  by_cases short : capLim s < plusTenth (demand s)
  · exact .inl (by simp [shortfallNoted, setCap, shortByLimit, short])
  · exact .inr (not_lt.mp short)

/-- Settles O43: the lemmas above for a drop and for the decay; a measurement that is taken judges the shortfall, and noting the
headroom for a restoration moves neither demand nor `C_lim`. -/
theorem fifoDropsDerateByTwoPercent : Obligations.FifoDropsDerateByTwoPercent := by
  intro s
  refine ⟨rfl, fun i bonds receives clocked => ?_, fun i bonds => execInputFifoDrop_idle bonds, execDerateDecay_decays,
    execDerateDecay_waits, fun rings ready still => ?_⟩
  · obtain ⟨cap, others⟩ := dropNoted_frame i s
    refine ⟨_, execInputFifoDrop_sampling bonds receives clocked, cap, fun inside all => ?_, others⟩
    rw [dropNoted_counters]
    exact getD_upd_same 0 (satAdd 0xFFFFFFFF · 1) (by omega)
  · exact ⟨_, execCapacityMeasurement_taken rings ready still, judgeShortfall_judges _⟩

end Sys2Proof.Machine

/-! What releases and reports leave of the ghost light watch. -/

namespace Sys2Proof.Machine

theorem forEach_ghost {α : Type} (l : List α) (f : α → State → State) (s : State) (h : ∀ x u, (f x u).ghost = u.ghost) :
    (forEach l f s).ghost = s.ghost :=
  foldl_inv (fun u => u.ghost = s.ghost) l _ s rfl fun _ x hu => (h x _).trans hu

theorem SelectionOnly.ghost {s t : State} (h : SelectionOnly s t) : t.ghost = s.ghost := by rw [h]

@[simp] theorem raise_ghost (bit : Nat) (body : List Byte) (s : State) : (raise bit body s).ghost = s.ghost := rfl

@[simp] theorem finishWait_ghost (w : Wait) (s : State) : (finishWait w s).ghost = s.ghost := by
  have completes (e : Executing) (u : State) : (completeWait e u).ghost = u.ghost := by
    unfold completeWait reportCue evCue
    split <;> simp
  unfold finishWait
  dsimp only
  (repeat' split) <;> simp [completes]

/-! ### Members leave their groups (R240) -/

@[simp] theorem setAnchor_ghost (n : Nat) (dab : Bool) (slot : Option Nat) (s : State) : (setAnchor n dab slot s).ghost = s.ghost := by
  unfold setAnchor
  cases dab <;> rfl

@[simp] theorem ite_ghost (c : Prop) [Decidable c] (a b : State) :
    (if c then a else b).ghost = if c then a.ghost else b.ghost := by
  split <;> rfl

@[simp] theorem removeMember_ghost (n slot : Nat) (s : State) : (removeMember n slot s).ghost = s.ghost := by
  have fits (u : State) : (fitOwn n u).ghost = u.ghost := (fitOwn_selectionOnly n u).ghost
  have releases (t : Source → Bool) (u : State) : (releaseLoans n t u).ghost = u.ghost := (releaseLoans_selectionOnly n t u).ghost
  unfold removeMember evLink
  split <;> simp [fits, releases]

@[simp] theorem laneLeaves_ghost (id : Nat) (s : State) : (laneLeaves id s).ghost = s.ghost := by
  refine forEach_ghost _ _ s fun n u => ?_
  split <;> simp

@[simp] theorem engineLeaves_ghost (e : Nat) (before s : State) : (engineLeaves e before s).ghost = s.ghost := by
  have drops (n slot : Nat) (u : State) : (dropUnserved n slot u).ghost = u.ghost := by
    unfold dropUnserved
    (repeat' split) <;> simp
  refine forEach_ghost _ _ s fun n u => ?_
  split
  · exact forEach_ghost _ _ u fun i v => drops n i v
  · rfl

/-! ### Flows and conditions end with their unit (R166, R208, R348) -/

@[simp] theorem closeWhere_ghost (t : Flow → Bool) (reason : Nat) (s : State) : (closeWhere t reason s).ghost = s.ghost := by
  refine forEach_ghost _ _ s fun i u => ?_
  unfold deviceClose evFlowDrop
  (repeat' split) <;> simp

@[simp] theorem produce_ghost (kind source qual : Nat) (failed : Bool) (key : Option (Nat × Nat × Nat)) (payload : List Byte)
    (s : State) : (produce kind source qual failed key payload s).ghost = s.ghost := by
  refine forEach_ghost _ _ s fun i u => ?_
  (repeat' split) <;> simp

@[simp] theorem raiseEdge_ghost (a : Announce) (start : Bool) (s : State) : (raiseEdge a start s).ghost = s.ghost := by
  simp [raiseEdge, flowEdge, evAnnounce]

@[simp] theorem endAnnWhere_ghost (t : Announce → Bool) (s : State) : (endAnnWhere t s).ghost = s.ghost := by
  refine forEach_ghost _ endAnn s fun a u => ?_
  unfold endAnn
  split <;> simp

/-! ### Releases (R120, R174, R490) -/

@[simp] theorem forgetShed_ghost (engine : Bool) (id : Nat) (s : State) : (forgetShed engine id s).ghost = s.ghost := rfl

@[simp] theorem quietLane_ghost (id : Nat) (s : State) : (quietLane id s).ghost = s.ghost := by
  simp [quietLane, dropWait, closeLaneFlows]

@[simp] theorem releaseLane_ghost (id : Nat) (s : State) : (releaseLane id s).ghost = s.ghost := by
  unfold releaseLane freeLane drainLane
  (repeat' split) <;> simp

@[simp] theorem quietEngine_ghost (e : Nat) (s : State) : (quietEngine e s).ghost = s.ghost := by
  simp [quietEngine, dropWait, closeEngineFlows, stopDecoders]

@[simp] theorem freeEngine_ghost (e : Nat) (s : State) : (freeEngine e s).ghost = s.ghost := by
  simp [freeEngine, bumpServices]

@[simp] theorem releaseEngine_ghost (e : Nat) (s : State) : (releaseEngine e s).ghost = s.ghost := by
  unfold releaseEngine drainEngine
  (repeat' split) <;> simp

theorem watchReleases_ghost (s : State) : (watchReleases s).ghost = s.ghost := by
  refine forEach_ghost _ _ s fun k u => forEach_ghost _ _ u fun id v => ?_
  unfold watchRelease releaseUnit
  (repeat' split) <;> simp

end Sys2Proof.Machine

/-! The power policy, the actions of ghost light, the life cycle and the retained bank (R276, R432, R434, R435). -/

namespace Sys2Proof.Machine

/-! ### How a command row ends that places no reply, or that gates the main domain -/

/-- A body that places no reply and leaves a main domain that is not ready (R432, R434). -/
theorem row_silent {k : Cmd} {tag : Byte} {p : List Byte} {s : State} {st : Nat} {pl : List Byte} {u : State} (h : HostTurn s p)
    (served : serve k (hostCall tag p) s = { status := st, payload := pl, state := u, silent := true })
    (stopped : u.reset_.domain ≠ .ready) : hostRow k tag p s = .next u := by
  unfold hostCall at served
  rw [hostRow_turn h]
  simp [runHost, finishHost, served, applyEffects, mainReady, stopped, gateMain]

/-- A body whose reply is followed by the gating of the main domain (R432, R486). -/
theorem row_gates {k : Cmd} {tag : Byte} {p : List Byte} {s : State} {st : Nat} {pl : List Byte} {u : State} (h : HostTurn s p)
    (served : serve k (hostCall tag p) s = { status := st, payload := pl, state := u, gate := true }) :
    ∃ v, Answered v st tag pl u ∧ hostRow k tag p s = .next (startWatch (stopMain .command v)) := by
  refine ⟨putReply { status := byte st, tag := tag, payload := pl } (if mainReady u then markScene s u else u), ⟨_, ?_, rfl⟩, ?_⟩
  · split
    · exact markScene_cases s u
    · exact .inl rfl
  · unfold hostCall at served
    rw [hostRow_turn h]
    simp [runHost, finishHost, served, applyEffects, gateMain]

theorem Answered.ghost {v u : State} {st : Nat} {tag : Byte} {pl : List Byte} (h : Answered v st tag pl u) : v.ghost = u.ghost := by
  obtain ⟨w, rfl | rfl, rfl⟩ := h <;> simp

/-! ### GHOST_LIGHT_CONFIG (R431, R432, R486, R487) -/

theorem rd_setByte_before (p : List Byte) (v : Nat) {i off k : Nat} (h : off + k ≤ i) : rd (setByte p i v) off k = rd p off k := by
  unfold setByte
  split
  · simp [rd, List.drop_set, List.take_set_of_le, show ¬ i < off by omega, show k ≤ i - off by omega]
  · rfl

/-- The configuration stands before the action in the packet. -/
theorem parseGhost_setByte (p : List Byte) (v : Nat) : parseGhost (setByte p 9 v) = parseGhost p := by
  have field (off k : Nat) (h : off + k ≤ 9) := rd_setByte_before p v h
  unfold parseGhost p1
  rw [field 0 1 (by decide), field 1 4 (by decide), field 5 2 (by decide), field 7 1 (by decide), field 8 1 (by decide)]

theorem restartWatch_cfg (s : State) : (restartWatch s).ghost.cfg = s.ghost.cfg := by
  unfold restartWatch
  split <;> rfl

/-- With the watch off its sources are released, else it restarts: the configuration stays. -/
theorem followCfg_cfg (s : State) : (if s.ghost.watch = .off then watchReleases s else restartWatch s).ghost.cfg = s.ghost.cfg := by
  split
  · rw [watchReleases_ghost]
  · exact restartWatch_cfg s

theorem setGhost_cfg (cfg : GhostCfg) (s : State) : (setGhost cfg s).ghost.cfg = cfg := by
  unfold setGhost
  by_cases same : cfg = s.ghost.cfg
  · rw [if_pos same, same]
  · rw [if_neg same]
    exact followCfg_cfg _

section
variable {tag : Byte} {p : List Byte} {s : State} (len : p.length = 10)
include len

/-- No domain and no life cycle bars the command; its body has the action of the row. -/
theorem serve_ghost {action : Nat} (small : action < 256) : serve cmdGhost (hostCall tag (setByte p 9 action)) s =
    bodyGhost (hostCall tag (setByte p 9 action)) s ∧ (setByte p 9 action).length = 10 ∧ p1 (setByte p 9 action) 9 = action := by
  have same : (setByte p 9 action).length = 10 := (length_setByte p 9 action).trans len
  exact ⟨serve_backup (by decide) (by simp [cmdGhost, lenIn, hostCall, same]) rfl, same, p1_setByte_same (by omega) small⟩

theorem serve_ghost_configure : serve cmdGhost (hostCall tag (setByte p 9 0)) s =
    okay (ghostReply (setGhost (parseGhost (setByte p 9 0)) s) 0) (setGhost (parseGhost (setByte p 9 0)) s) := by
  obtain ⟨served, long, action⟩ := serve_ghost (tag := tag) (s := s) len (show 0 < 256 by decide)
  rw [served]
  simp [bodyGhost, hostCall, long, action, enumOf, okay]

theorem serve_ghost_enter (watches : watchSet (parseGhost p) = true) (ready : (setGhost (parseGhost p) s).reset_.domain = .ready) :
    serve cmdGhost (hostCall tag (setByte p 9 1)) s =
      { status := stOk, payload := ghostReply (setGhost (parseGhost p) s) 1, state := setGhost (parseGhost p) s, gate := true } := by
  obtain ⟨served, long, action⟩ := serve_ghost (tag := tag) (s := s) len (show 1 < 256 by decide)
  rw [served]
  simp [bodyGhost, hostCall, long, action, enumOf, parseGhost_setByte, watches, ready, mainReady]

theorem serve_ghost_leave (watching : s.ghost.watch ≠ .off) (able : cannotLeave s = false) :
    serve cmdGhost (hostCall tag (setByte p 9 2)) s =
      { status := stOk, payload := [], state := startMain .mainReturn false (setGhost (parseGhost (setByte p 9 2)) s), silent := true } := by
  obtain ⟨served, long, action⟩ := serve_ghost (tag := tag) (s := s) len (show 2 < 256 by decide)
  rw [served]
  simp [bodyGhost, hostCall, long, action, enumOf, watching, able]

end

/-- The main domain is gated and the watch begins with the configuration in force. -/
theorem startWatch_stopMain (cause : OffCause) (s : State) :
    (startWatch (stopMain cause s)).reset_.domain = .off ∧ (startWatch (stopMain cause s)).reset_.offCause = cause ∧
    (startWatch (stopMain cause s)).ghost.watch = .acquiring ∧ (startWatch (stopMain cause s)).ghost.cfg = s.ghost.cfg ∧
    (startWatch (stopMain cause s)).clocks.pllN = .locking := by
  have faults : (endMainFaults s).ghost = s.ghost := by rw [endMainFaults_reports s]
  simp [startWatch, stopMain, setDomain, wipeMain, faults]

/-- A start of the main domain discards what the link holds (R375). -/
theorem startMain_link (cause : ResetCause) (skip : Bool) (s : State) :
    (startMain cause skip s).link.queue = [] ∧ (startMain cause skip s).link.fifo = [] := ⟨rfl, rfl⟩

/-! ### POWER_POLICY, LIFECYCLE_ADVANCE and RETAINED_WIPE (R276, R434, R435, R477) -/

/-- A cold start wipes both domains and keeps the part; the main domain starts or stays off. -/
theorem coldStart_wipes (addr : Nat) (s : State) :
    (coldStart addr s).chip = { s.chip with oemWritten := false } ∧ (coldStart addr s).retained = Retained.wiped ∧
    (coldStart addr s).link.queue = [] ∧ (coldStart addr s).link.fifo = [] ∧ (coldStart addr s).link.address = addr ∧
    (coldStart addr s).lanes = Lanes.reset s.chip.variant ∧ (coldStart addr s).reset_.domain ≠ .ready := by
  unfold coldStart
  dsimp only
  split <;> exact ⟨rfl, rfl, rfl, rfl, rfl, rfl, nofun⟩

/-- The part has the next life cycle and begins cold (R477). -/
def advanced (next : LifeCycle) (s : State) : State := coldStart s.link.address { s with chip := { s.chip with life := next } }

theorem advanced_begins_cold (next : LifeCycle) (s : State) :
    (advanced next s).chip = { s.chip with life := next, oemWritten := false } ∧ (advanced next s).retained = Retained.wiped ∧
    (advanced next s).link.queue = [] ∧ (advanced next s).link.fifo = [] ∧ (advanced next s).link.address = s.link.address ∧
    (advanced next s).lanes = Lanes.reset s.chip.variant ∧ (advanced next s).reset_.domain ≠ .ready :=
  coldStart_wipes _ _

/-- A power policy is held for the next measurement (R276). -/
def askPolicy (x : PowerSet) (s : State) : State := setCap (fun k => { k with next := some x }) s

section
variable {tag : Byte} {p : List Byte} {s : State} (turn : MainTurn s p)
include turn

theorem serve_powerPolicy_set (len : p.length = 6) : serve cmdPowerPolicy (hostCall tag p) s =
    okay (powerReply (askPolicy (parsePower p) s)) (askPolicy (parsePower p) s) := by
  rw [serve_main turn (by simp [cmdPowerPolicy, lenIn, hostCall, len]) rfl]
  simp [cmdPowerPolicy, bodyPowerPolicy, hostCall, len, askPolicy]

theorem serve_lifecycleAdvance {next : LifeCycle} (len : p.length = 3) (follows : nextLife s.chip.life = some next)
    (named : p1 p 0 = lifeCode next) (confirmed : rd p 1 2 = 0x5A3C) (lit : s.ghost.watch = .off) (supplied : s.supply.sag = false) :
    serve cmdLifecycleAdvance (hostCall tag p) s = { status := stOk, payload := [], state := advanced next s, silent := true } := by
  rw [serve_main turn (by simp [cmdLifecycleAdvance, lenIn, hostCall, len]) rfl]
  simp [cmdLifecycleAdvance, bodyLifecycleAdvance, hostCall, follows, named, confirmed, confirmWord, lit, supplied, advanced]

theorem serve_retainedWipe (len : p.length = 2) (confirmed : rd p 0 2 = 0x5A3C) (supplied : s.supply.sag = false) :
    serve cmdRetainedWipe (hostCall tag p) s = okay (le 2 252) (wipeRetained s) := by
  rw [serve_main turn (by simp [cmdRetainedWipe, lenIn, hostCall, len]) rfl]
  simp [cmdRetainedWipe, bodyRetainedWipe, hostCall, confirmed, confirmWord, supplied]

end

/-- Settles O36: the lemmas above say how each command ends and what `setGhost`, a gating, a start of the main domain and a cold
start leave. -/
theorem powerLifeAndRetentionCommands : Obligations.PowerLifeAndRetentionCommands := by
  intro tag p s
  refine ⟨fun turn len => ?_, fun turn len => ⟨?_, setGhost_cfg _ s⟩, fun turn len watches ready => ?_, fun turn len watching able => ?_,
    fun next turn len follows named confirmed lit supplied => ?_, fun turn len confirmed supplied => ⟨rfl, ?_⟩⟩
  · exact ⟨_, row_okay turn.1 (serve_powerPolicy_set turn len)⟩
  · exact row_okay (hostTurn_setByte turn 9 0) (serve_ghost_configure len)
  · obtain ⟨v, answered, row⟩ := row_gates (hostTurn_setByte turn.1 9 1) (serve_ghost_enter (tag := tag) len watches ready)
    obtain ⟨domain, cause, watch, cfg, pllN⟩ := startWatch_stopMain .command v
    exact ⟨_, row, domain, cause, watch, by rw [cfg, answered.ghost, setGhost_cfg], pllN⟩
  · obtain ⟨domain, cause, -⟩ := startMain_starts .mainReturn false (setGhost (parseGhost (setByte p 9 2)) s)
    have row := row_silent (hostTurn_setByte turn 9 2) (serve_ghost_leave (tag := tag) len watching able) (by simp [domain])
    exact ⟨_, row, rfl, domain, cause, startMain_link _ _ _⟩
  · obtain ⟨chip, retained, queue, fifo, address, lanes, stopped⟩ := advanced_begins_cold next s
    have row := row_silent turn.1 (serve_lifecycleAdvance (tag := tag) turn len follows named confirmed lit supplied) stopped
    exact ⟨_, row, by rw [chip], by rw [chip], by rw [chip], retained, queue, fifo, address, lanes⟩
  · exact row_okay turn.1 (serve_retainedWipe turn len confirmed supplied)

end Sys2Proof.Machine

/-! The curtain of a program, as the host orders it (R313, R314). -/

namespace Sys2Proof.Machine

theorem updProgram_congr {s : State} {n : Nat} {x : Program} {f g : Program → Program} (here : progAt s n = some x) (same : f x = g x) :
    updProgram n f s = updProgram n g s := by
  refine congrArg (fun l => { s with progs := l }) (upd_congr fun y read => ?_)
  obtain rfl : x = y := Option.some.inj (here.symm.trans read)
  exact same

/-- A curtain that is not held opens, unless something waits for its closed instant or for a valid sample (R226, R314). -/
theorem openCurtain_released (k : Curtain) : openCurtain { k with held := false } =
    { k with held := false, moving := if k.waitValid = true ∨ k.after ≠ [] then k.moving else if k.pos = 1 then none else some true } := by
  unfold openCurtain
  by_cases waits : k.waitValid = true ∨ k.after ≠ []
  · rw [if_pos waits, if_pos (by simpa using waits)]
  · rw [if_neg waits, if_neg (by simpa using waits)]

/-- A curtain with the times of a `CURTAIN` packet (Table 11-9). -/
def timedCurtain (p : List Byte) (k : Curtain) : Curtain := { k with downMs := curtainMs (rd p 2 2), upMs := curtainMs (rd p 4 2) }

section
variable {s : State} {n : Nat} {x : Program} (here : progAt s n = some x) (p : List Byte)
include here

theorem orderCurtain_times : orderCurtain n none (timedCurtain p x.curtain).downMs (timedCurtain p x.curtain).upMs s =
    updProgram n (fun y => { y with curtain := timedCurtain p x.curtain }) s :=
  updProgram_congr here rfl

theorem orderCurtain_close : orderCurtain n (some true) (timedCurtain p x.curtain).downMs (timedCurtain p x.curtain).upMs s =
    updProgram n (fun y => { y with curtain := { timedCurtain p x.curtain with held := true, moving :=
      if x.running = false then (timedCurtain p x.curtain).moving else if (timedCurtain p x.curtain).pos = 0 then none else some false } }) s := by
  refine updProgram_congr here (congrArg (fun k => { x with curtain := k }) ?_)
  cases x.running <;> rfl

theorem orderCurtain_open : orderCurtain n (some false) (timedCurtain p x.curtain).downMs (timedCurtain p x.curtain).upMs s =
    updProgram n (fun y => { y with curtain := { timedCurtain p x.curtain with held := false, moving :=
      if x.running = false ∨ (timedCurtain p x.curtain).waitValid = true ∨ (timedCurtain p x.curtain).after ≠ []
      then (timedCurtain p x.curtain).moving else if (timedCurtain p x.curtain).pos = 1 then none else some true } }) s := by
  refine updProgram_congr here (congrArg (fun k => { x with curtain := k }) ?_)
  cases x.running
  · rfl
  · simp only [Bool.true_eq_false, false_or]
    exact openCurtain_released (timedCurtain p x.curtain)

end

/-- The checks of `CURTAIN` pass for a program of the variant, and the action of the row decides the effect. -/
theorem serve_curtain {tag : Byte} {p : List Byte} {s : State} {x : Program} {action : Nat} (turn : MainTurn s p) (len : p.length = 6)
    (here : progAt s (p1 p 0) = some x) (known : action ∈ [0, 1, 2]) : serve cmdCurtain (hostCall tag (setByte p 1 action)) s =
      { status := stOk, state := s,
        payload := curtainReply (p1 p 0) action (timedCurtain p x.curtain) (if action = 2 then x.curtain.held else action == 0),
        effects := [.curtain (p1 p 0) (if action = 2 then none else some (action == 0)) (timedCurtain p x.curtain).downMs
          (timedCurtain p x.curtain).upMs] } := by
  have long : (setByte p 1 action).length = 6 := (length_setByte p 1 action).trans len
  have small : action < 256 := by
    simp only [List.mem_cons, List.not_mem_nil, or_false] at known
    omega
  have program : p1 (setByte p 1 action) 0 = p1 p 0 := p1_setByte_other p action Nat.zero_ne_one
  have own : p1 (setByte p 1 action) 1 = action := p1_setByte_same (by omega) small
  have chosen : enumOf [0, 1, 2] 2 action = action := by simp [enumOf, known]
  rw [serve_main turn (by simp [cmdCurtain, lenIn, hostCall, long]) (by simp [cmdCurtain, hostCall, program, programExists_of_some here])]
  simp [cmdCurtain, bodyCurtain, hostCall, program, here, long, own, chosen, rd_setByte_after, timedCurtain]

/-- Settles O28: each row answers with its own action, and the lemmas on `orderCurtain` say what the action makes of the curtain. -/
theorem curtainCommandsMoveTheCurtain : Obligations.CurtainCommandsMoveTheCurtain := by
  intro tag p s x k turn len here times
  obtain rfl : k = timedCurtain p x.curtain := times
  have host (action : Nat) := hostTurn_setByte turn.1 1 action
  refine ⟨?_, ?_, ?_⟩
  · exact row_answers (host 2) (serve_curtain turn len here (by decide)) rfl rfl (orderCurtain_times here p) rfl rfl rfl
  · exact row_answers (host 0) (serve_curtain turn len here (by decide)) rfl rfl (orderCurtain_close here p) rfl rfl rfl
  · exact row_answers (host 1) (serve_curtain turn len here (by decide)) rfl rfl (orderCurtain_open here p) rfl rfl rfl

end Sys2Proof.Machine

/-! The commands of the ports (R296 to R303, R307, R311, R316). -/

namespace Sys2Proof.Machine

section
variable {n : Nat} {c : PortCfg} {tag : Byte} {x : Port} {s : State}

theorem portStarts_target (target : c.target = true) : portStarts n c tag s =
    { status := stPending, payload := portReply n c, state := updPort n (fun q => { q with pendTag := some tag }) s } := by
  simp [portStarts, target]

theorem portStarts_controller (controller : c.target = false) : portStarts n c tag s =
    { status := stOk, payload := portReply n c, state := updPort n (fun q => { q with pendTag := none }) s, wait := some (.port n) } := by
  simp [portStarts, controller]

theorem portSet_starts (disabled : x.st = .disabled) (enable : c.enable = true) :
    portSet n c tag x s = portStarts n c tag (updPort n (startPort (!pllAUp s.clocks) c) s) := by
  simp [portSet, disabled, enable]

theorem portSet_records (disabled : x.st = .disabled) (off : c.enable = false) :
    portSet n c tag x s = okay (portReply n c) (updPort n (fun q => { q with cfg := c }) s) := by
  simp [portSet, disabled, off]

end

section
variable {tag : Byte} {p : List Byte} {s : State} (turn : MainTurn s p)
include turn

section
variable {x : Port} (port : p1 p 0 ≤ 2) (here : s.ports.tdm[p1 p 0]? = some x)
include port here

theorem serve_portConfig_query (len : p.length = 1) :
    serve cmdPortConfig (hostCall tag p) s = okay (portReply (p1 p 0) (x.next.getD x.cfg)) s := by
  rw [serve_main turn (by simp [cmdPortConfig, lenIn, hostCall, len]) (by simpa [cmdPortConfig, portId, hostCall] using port)]
  simp [cmdPortConfig, bodyPortConfig, hostCall, here, len]

/-- With no data slot of another width, and with synthesizers for a port that starts, the fields apply (R301, R316). -/
theorem serve_portConfig_set (len : p.length = 10) (slots : ¬(p1 p 0 = 1 ∧ (parsePort p).width ≠ 32 ∧ hasData x = true))
    (ready : (parsePort p).enable = true → synthsReady s = true) :
    serve cmdPortConfig (hostCall tag p) s = portSet (p1 p 0) (parsePort p) tag x s := by
  rw [serve_main turn (by simp [cmdPortConfig, lenIn, hostCall, len]) (by simpa [cmdPortConfig, portId, hostCall] using port)]
  have admitted : ¬((p1 p 0 = 1 ∧ (parsePort p).width ≠ 32 ∧ hasData x = true) ∨
      ((parsePort p).enable = true ∧ (!synthsReady s) = true)) := by
    rintro (data | ⟨enable, unready⟩)
    · exact slots data
    · simp [ready enable] at unready
  simp only [cmdPortConfig, bodyPortConfig, hostCall, here, len, if_neg admitted]
  rfl

end

theorem serve_slotMap {x : Port} (len : slotLen p = true) (ids : cmdSlotMap.ids s p = true) (here : s.ports.tdm[p1 p 0]? = some x)
    (admits : (((slotEntries p).any fun y => y.content == 0x30) && (p1 p 0 = 0 || (x.next.getD x.cfg).width != 32)) = false) :
    serve cmdSlotMap (hostCall tag p) s =
      { status := stOk, payload := slotBytes (p1 p 0) (slotFirst p) (slotEntries p), state := s,
        effects := [.slots (p1 p 0) (slotFirst p) (slotEntries p)] } := by
  rw [serve_main turn len ids]
  simp only [cmdSlotMap, bodySlotMap, hostCall, here, admits, Bool.false_eq_true, if_false]

theorem serve_statusSlotConfig_set (len : p.length = 11) (index : p1 p 0 ≤ 3) (programs : statusProgramsOk s p = true) :
    serve cmdStatusSlotConfig (hostCall tag p) s = okay (statusSlotBytes (p1 p 0) (parseStatusSlot p))
      { s with ports := { s.ports with status := s.ports.status.set (p1 p 0) (parseStatusSlot p) } } := by
  rw [serve_main turn (by simp [cmdStatusSlotConfig, lenIn, hostCall, len]) (by simp [cmdStatusSlotConfig, hostCall, index, programs])]
  simp [cmdStatusSlotConfig, bodyStatusSlotConfig, hostCall, len]

theorem serve_statusSlotConfig_query (len : p.length = 1) (index : p1 p 0 ≤ 3) : serve cmdStatusSlotConfig (hostCall tag p) s =
    okay (statusSlotBytes (p1 p 0) (s.ports.status.getD (p1 p 0) StatusSlot.default)) s := by
  rw [serve_main turn (by simp [cmdStatusSlotConfig, lenIn, hostCall, len]) (by simp [cmdStatusSlotConfig, hostCall, index, len])]
  simp [cmdStatusSlotConfig, bodyStatusSlotConfig, hostCall, len]

theorem serve_spdifConfig_set (len : p.length = 6) (program : p1 p 1 < s.progs.length) : serve cmdSpdifConfig (hostCall tag p) s =
    { status := stOk, state := s, effects := [.spdif (parseSpdif p)],
      payload := spdifBytes (parseSpdif p) ++ [byte (spdifState (spdifSet (!pllAUp s.clocks) (parseSpdif p) s.ports.spdif))] } := by
  rw [serve_main turn (by simp [cmdSpdifConfig, lenIn, hostCall, len]) (by simp [cmdSpdifConfig, hostCall, program])]
  simp [cmdSpdifConfig, bodySpdifConfig, hostCall, len]

end

/-- Settles O29: the lemmas above say how each body ends, and `SLOT_MAP` and `SPDIF_CONFIG` end with their audio effect. -/
theorem portCommandsConfigureOutputs : Obligations.PortCommandsConfigureOutputs := by
  intro tag p s turn
  refine ⟨fun x len port here disabled slots enable ready => ?_, fun x len port here disabled off slots => ?_,
    fun x len port here => row_reads turn.1 (serve_portConfig_query turn port here len),
    fun x len ids here admits => row_answers turn.1 (serve_slotMap turn len ids here admits) rfl rfl rfl rfl rfl rfl,
    fun len index programs => row_okay turn.1 (serve_statusSlotConfig_set turn len index programs),
    fun len index => row_reads turn.1 (serve_statusSlotConfig_query turn len index),
    fun len program => row_answers turn.1 (serve_spdifConfig_set turn len program) rfl rfl rfl rfl rfl rfl⟩
  · have starts := (serve_portConfig_set (tag := tag) turn port here len (of_eq_false slots) fun _ => ready).trans (portSet_starts disabled enable)
    refine ⟨fun controller => ?_, fun target => ?_⟩
    · exact row_waits turn.1 (starts.trans (portStarts_controller controller)) rfl rfl rfl rfl
    · exact row_answers turn.1 (starts.trans (portStarts_target target)) rfl rfl rfl rfl rfl rfl
  · have unready (enable : (parsePort p).enable = true) : synthsReady s = true := absurd (off.symm.trans enable) Bool.false_ne_true
    exact row_okay turn.1 ((serve_portConfig_set turn port here len (of_eq_false slots) unready).trans (portSet_records disabled off))

end Sys2Proof.Machine

/-! The rows of the ports: lock and stop, frames, and the host clocks of a target-mode port (R303, R309, R312, R316 to R318). -/

namespace Sys2Proof.Machine

/-! ### Faults that are not open -/

section
variable {s : State} {code inst : Nat} (closed : faultOpen s code inst = false)
include closed

theorem recAt_of_closed : recAt s code inst = none := by simpa [faultOpen] using closed

theorem becomesRunnable_closed : becomesRunnable code inst s = s := by simp [becomesRunnable, recAt_of_closed closed]

theorem faultEnds_closed (phase : Nat) : faultEnds code inst phase s = s := by simp [faultEnds, recAt_of_closed closed]

end

theorem portRecovery_closed {s : State} {n : Nat} (lost : faultOpen s 0x60 n = false) (stepped : faultOpen s 0x61 n = false) :
    portRecovery n s = s := by
  rw [portRecovery, becomesRunnable_closed lost, becomesRunnable_closed stepped]

/-! ### A wait completes -/

/-- `t` is `s` but for the stage manager, the reply FIFO and the event records. -/
def Completes (s t : State) : Prop := t = { s with mgr := t.mgr, link := t.link, events := t.events }

theorem Completes.refl (s : State) : Completes s s := rfl

theorem Completes.trans {s t u : State} (h : Completes s t) (k : Completes t u) : Completes s u := by
  unfold Completes at h k ⊢
  exact k.trans (by rw [h])

section
variable {s t : State} (h : Completes s t)
include h

theorem Completes.ports : t.ports = s.ports := by rw [h]
theorem Completes.progs : t.progs = s.progs := by rw [h]
theorem Completes.flows : t.flows = s.flows := by rw [h]
theorem Completes.clocks : t.clocks = s.clocks := by rw [h]

end

theorem ite_completes {s a b : State} {c : Prop} [Decidable c] (ha : Completes s a) (hb : Completes s b) :
    Completes s (if c then a else b) := by
  split <;> assumption

theorem raise_completes (bit : Nat) (body : List Byte) (s : State) : Completes s (raise bit body s) := rfl

theorem putReply_completes (r : Reply) (s : State) : Completes s (putReply r s) := by
  unfold putReply
  split <;> rfl

theorem completeWait_completes (e : Executing) (s : State) : Completes s (completeWait e s) := by
  unfold completeWait
  split
  · exact putReply_completes _ s
  · exact raise_completes _ _ s

theorem completeWait_mgr (e : Executing) (s : State) : (completeWait e s).mgr = s.mgr := by
  unfold completeWait
  split
  · exact putReply_mgr _ s
  · rfl

/-- The command of the host that waits for this completes. -/
def finishHostWait (w : Wait) (s : State) : State :=
  match s.mgr.executing with
  | some e => if e.wait = w then completeWait e { s with mgr := { s.mgr with executing := none } } else s
  | none => s

/-- The cue that waits for this completes. -/
def finishCueWait (w : Wait) (s : State) : State :=
  match s.mgr.cueExec with
  | some e => if e.wait = w then completeWait e { s with mgr := { s.mgr with cueExec := none } } else s
  | none => s

theorem finishWait_eq (w : Wait) (s : State) : finishWait w s = finishCueWait w (finishHostWait w s) := rfl

theorem completeWait_mgr_completes (e : Executing) (m : Manager) (s : State) : Completes s (completeWait e { s with mgr := m }) :=
  Completes.trans (t := { s with mgr := m }) rfl (completeWait_completes e _)

theorem finishHostWait_completes (w : Wait) (s : State) : Completes s (finishHostWait w s) := by
  unfold finishHostWait
  split
  · split
    · exact completeWait_mgr_completes _ _ s
    · exact Completes.refl s
  · exact Completes.refl s

theorem finishCueWait_completes (w : Wait) (s : State) : Completes s (finishCueWait w s) := by
  unfold finishCueWait
  split
  · split
    · exact completeWait_mgr_completes _ _ s
    · exact Completes.refl s
  · exact Completes.refl s

theorem finishWait_completes (w : Wait) (s : State) : Completes s (finishWait w s) :=
  (finishHostWait_completes w s).trans (finishCueWait_completes w _)

theorem finishCueWait_executing (w : Wait) (s : State) : (finishCueWait w s).mgr.executing = s.mgr.executing := by
  unfold finishCueWait
  split
  · split
    · rw [completeWait_mgr]
    · rfl
  · rfl

/-- The host command that waits for this executes no longer. -/
theorem finishWait_executing {w : Wait} {s : State} {e : Executing} (waits : s.mgr.executing = some e) (same : e.wait = w) :
    (finishWait w s).mgr.executing = none := by
  rw [finishWait_eq, finishCueWait_executing]
  simp [finishHostWait, waits, same, completeWait_mgr]

/-! ### One port changes -/

theorem onPort_of_some {s : State} {n : Nat} {p : Port} (here : s.ports.tdm[n]? = some p) (f : Port → State) :
    onPort n s f = .next (f p) := by simp [onPort, here]

/-- The state with one port in place of another. -/
def setPort (n : Nat) (q : Port) (s : State) : State := { s with ports := { s.ports with tdm := s.ports.tdm.set n q } }

theorem updPort_of_some {s : State} {n : Nat} {p : Port} (here : s.ports.tdm[n]? = some p) (f : Port → Port) :
    updPort n f s = setPort n (f p) s := by
  simp [updPort, setPort, upd_of_some f here]

theorem updPort_withFlows {s : State} {n : Nat} {p : Port} (here : s.ports.tdm[n]? = some p) (f : Port → Port) (fl : Flows) :
    updPort n f { s with flows := fl } = { setPort n (f p) s with flows := fl } :=
  updPort_of_some (s := { s with flows := fl }) here f

/-! ### Lock and stop (R316, R317) -/

/-- A port as its lock leaves it: in controller mode it has no measured rate. -/
def lockedPort (ppm : Int) (p : Port) : Port :=
  let v := if p.cfg.target then ppm else 0
  { p with st := .locked, curtainUp := true, glitchRun := 0, okFrames := 0, ppm := v, lockPpm := v, tracked := v, pendTag := none }

/-- The record of a lock, and the report of a start in target mode (R316 step 3). -/
def reportLock (n : Nat) (tag : Option Byte) (s : State) : State :=
  match tag with
  | some t => evCmdDone 0x50 t stOk (evPort n 0 0 s)
  | none => evPort n 0 0 s

theorem reportLock_completes (n : Nat) (tag : Option Byte) (s : State) : Completes s (reportLock n tag s) := by
  cases tag <;> rfl

theorem reportLock_mgr (n : Nat) (tag : Option Byte) (s : State) : (reportLock n tag s).mgr = s.mgr := by
  cases tag <;> rfl

section
variable {s : State} {n : Nat} {p : Port} (here : s.ports.tdm[n]? = some p)
include here

theorem lockPort_eq (ppm : Int) :
    lockPort n ppm s = finishWait (.port n) (reportLock n p.pendTag (setPort n (lockedPort ppm p) s)) := by
  rw [← updPort_of_some here fun _ => lockedPort ppm p]
  unfold lockPort
  rw [here]
  simp only [updPort_of_some here]
  rfl

theorem execPortLock_locks {ppm : Int} (starting : p.st = .starting) (free : p.gated = false)
    (counted : p.cfg.target = true → 4 ≤ p.okFrames) (lost : faultOpen s 0x60 n = false) (stepped : faultOpen s 0x61 n = false) :
    execPortLock n ppm s = .next (lockPort n ppm s) := by
  have waits : waitsLock n s p = true := by
    cases target : p.cfg.target
    · simp [waitsLock, free, starting, target]
    · simp [waitsLock, free, starting, counted target]
  have may : portMayLock n s = true := by simp [portMayLock, lost, stepped]
  rw [execPortLock, onPort_of_some here]
  simp [waits, portRecovery_closed lost stepped, may]

theorem execPortLock_waits (ppm : Int) (waits : p.gated = true ∨ (p.st = .starting ∧ p.cfg.target = true ∧ p.okFrames < 4)) :
    execPortLock n ppm s = .next s := by
  have unready : waitsLock n s p = false := by
    rcases waits with gated | ⟨starting, target, few⟩
    · simp [waitsLock, gated]
    · simp [waitsLock, starting, target, few]
  rw [execPortLock, onPort_of_some here]
  simp [unready]

theorem endStop_disables (kept : p.next = none) (off : p.cfg.enable = false) (lost : faultOpen s 0x60 n = false)
    (stepped : faultOpen s 0x61 n = false) : endStop n s = finishWait (.port n) (setPort n (stopPort p.cfg p) s) := by
  have stays (code : Nat) (closed : faultOpen s code n = false) : faultOpen (setPort n (stopPort p.cfg p) s) code n = false := closed
  simp [endStop, here, kept, off, updPort_of_some here, faultEnds_closed (stays 0x60 lost), faultEnds_closed (stays 0x61 stepped)]

theorem execPortStop_stops (stopping : p.st = .stopping) (closed : p.curtain = 0) : execPortStop n s = .next (endStop n s) := by
  rw [execPortStop, onPort_of_some here]
  simp [stopping, closed]

theorem execPortStop_other (other : p.st ≠ .stopping) : execPortStop n s = .next s := by
  rw [execPortStop, onPort_of_some here]
  simp [other]

end

/-! ### Frames (R297, R303, R309, R316) -/

theorem frameWords_length (s : State) (p : Port) (place : Rat) (l : List Slot) (data : List Nat) :
    (frameWords s p place l data).length = l.length := by
  induction l generalizing data with
  | nil => rfl
  | cons x xs ih => simp [frameWords, ih]

/-- A frame without rate conversion begins at the tick itself. -/
theorem placeOf48_tick {x : Nat × Nat} (h : x.1 = 0) : placeOf48 x = 0 := by simp [placeOf48, h]

section
variable {s : State} {n : Nat} {p : Port} (here : s.ports.tdm[n]? = some p)
include here

/-- A frame takes the slots that wait, fills the usable ones and counts the block; a port with no data slots confirms nothing. -/
theorem tdmFrame_carries (place : Rat) (b : Bool) : ∃ q fl, tdmFrame n place b s = { setPort n q s with flows := fl } ∧
    q.slots = p.slotsNext.getD p.slots ∧ q.slotsNext = none ∧ q.block = (p.block + 1) % 192 ∧ q.st = p.st ∧ q.cfg = p.cfg ∧
    q.frameAt = some s.now ∧ q.words.length = min (usableSlots p.cfg) q.slots.length ∧
    (n ≠ 1 → fl = if b then admitAll s.flows else s.flows) := by
  unfold tdmFrame
  rw [here]
  dsimp only
  generalize fills : (if n = 1 && _ && _ then _ else _) = filled
  obtain ⟨frags, fl⟩ := filled
  rw [updPort_withFlows here]
  refine ⟨_, _, rfl, rfl, rfl, rfl, rfl, rfl, rfl, ?_, fun other => ?_⟩
  · simp [frameWords_length]
  · simp only [other, decide_false, Bool.false_and, Bool.false_eq_true, if_false, Prod.mk.injEq] at fills
    obtain ⟨rfl, rfl⟩ := fills
    cases b <;> simp [confirmAll]

theorem execTdmFrame_counts (x : Nat × Nat) (b : Bool) (starting : p.st = .starting) (target : p.cfg.target = true)
    (free : p.gated = false) : execTdmFrame n x b s = .next (setPort n (waitFrame b p) s) := by
  rw [execTdmFrame, onPort_of_some here]
  simp [starting, target, free, updPort_of_some here]

theorem execTdmFrame_carries (x : Nat × Nat) (b : Bool) (locked : p.st = .locked) (free : p.gated = false)
    (timely : portConverts p.cfg = true ∨ (x.1 = 0 ∧ p.frameAt ≠ some s.now)) :
    execTdmFrame n x b s = .next (tdmFrame n (placeOf48 x) b s) := by
  have drives : drivesData p = true := by simp [drivesData, free, locked]
  have due : (portConverts p.cfg || onTick s.now p.frameAt (placeOf48 x)) = true := by
    rcases timely with converts | ⟨tick, fresh⟩
    · simp [converts]
    · simp [onTick, placeOf48_tick tick, fresh]
  rw [execTdmFrame, onPort_of_some here]
  simp [free, locked, drives, due]

theorem execTdmFrame_skips (x : Nat × Nat) (b : Bool)
    (idle : p.st = .disabled ∨ (portConverts p.cfg = false ∧ p.frameAt = some s.now ∧ p.cfg.target = false)) :
    execTdmFrame n x b s = .next s := by
  rw [execTdmFrame, onPort_of_some here]
  rcases idle with disabled | ⟨direct, carried, controller⟩
  · simp [disabled, drivesData]
  · simp [direct, carried, controller, onTick]

end

/-! ### The clocks of a host (R318) -/

/-- A port as a glitch leaves it: the first in any second begins a new count. -/
def glitchedPort (fresh : Bool) (now : Nat) (p : Port) : Port :=
  { p with glitches := satAdd 0xFFFFFFFF p.glitches 1, glitchRun := p.glitchRun + 1, glitchAt := if fresh then some now else p.glitchAt,
           glitchSecond := if fresh then 1 else p.glitchSecond + 1, words := [] }

/-- No record of a glitch in the last second. -/
def freshGlitch (s : State) (p : Port) : Bool :=
  match p.glitchAt with
  | some t => elapsed s t 48000
  | none => true

/-- A port as the loss of its host clocks leaves it (Table 11-10). -/
def lostPort (p : Port) : Port :=
  { p with st := if p.st = .stopping then .stopping else .lost, before := .lost, curtain := 0, curtainUp := false, block := 0,
           losses := satAdd 0xFFFFFFFF p.losses 1, glitchRun := 0, okFrames := 0, words := [] }

section
variable {s : State} {n : Nat} {p : Port} (here : s.ports.tdm[n]? = some p)
include here

theorem glitch_completes : Completes (setPort n (glitchedPort (freshGlitch s p) s.now p) s) (glitch n p s) := by
  unfold glitch
  simp only [updPort_of_some here]
  exact ite_completes (raise_completes _ _ _) (Completes.refl _)

theorem execFsyncGlitch_counts (target : p.cfg.target = true) (locked : p.st = .locked) (free : p.gated = false) (few : p.glitchRun < 2) :
    execFsyncGlitch n s = .next (glitch n p s) := by
  rw [execFsyncGlitch, onPort_of_some here]
  simp [followsHost, target, locked, free, Nat.not_le.mpr few]

/-- A fault of a port that does not run at once touches no other port: no port's recovery is of a lower rank (R513, R320). -/
theorem losePort_reports (stepped : faultOpen s 0x61 n = false) : Reports (setPort n (lostPort p) s) (losePort n s) := by
  have lost : losePort n s = faultBegins 0x60 n n p.ppm false (faultEnds 0x61 n 6 (evPort n 1 0 (updPort n lostPort s))) := by
    unfold losePort
    rw [here]
    rfl
  have stays : faultOpen (evPort n 1 0 (setPort n (lostPort p) s)) 0x61 n = false := stepped
  rw [lost, updPort_of_some here, faultEnds_closed stays]
  exact (raise_reports _ _ _).trans (faultBegins_reports _ _ _ _ (by decide))

theorem execPortClockLoss_loses (target : p.cfg.target = true) (locked : p.st = .locked) (free : p.gated = false) :
    execPortClockLoss n s = .next (losePort n s) := by
  rw [execPortClockLoss, onPort_of_some here]
  simp [followsHost, target, locked, free]

theorem stepRate_reports (ppm : Int) : Reports (setPort n { p with curtainUp := false, ppm := ppm } s) (stepRate n ppm s) := by
  unfold stepRate
  rw [updPort_of_some here]
  exact (raise_reports _ _ _).trans (faultBegins_reports _ _ _ _ (by decide))

section
variable {ppm : Int} (target : p.cfg.target = true) (locked : p.st = .locked) (free : p.gated = false)
  (allowed : rateAllowed p.cfg.rate ppm = true)
include target locked free allowed

theorem execRateStep_steps (far : 100000 < (ppm - p.lockPpm).natAbs) : execRateStep n ppm s = .next (stepRate n ppm s) := by
  rw [execRateStep, onPort_of_some here]
  simp [target, locked, free, allowed, far]

theorem execRateStep_tracks (near : (ppm - p.lockPpm).natAbs ≤ 100000) (stepped : faultOpen s 0x61 n = false) :
    execRateStep n ppm s = .next (setPort n (trackRate ppm p) s) := by
  rw [execRateStep, onPort_of_some here]
  simp [target, locked, free, allowed, Nat.not_lt.mpr near, stepped, updPort_of_some here]

end

/-- A port in controller mode has no host clocks. -/
theorem hostClockRows_controller (controller : p.cfg.target = false) :
    execFsyncGlitch n s = .next s ∧ execPortClockLoss n s = .next s ∧ ∀ ppm, execRateStep n ppm s = .next s := by
  refine ⟨?_, ?_, fun ppm => ?_⟩
  · rw [execFsyncGlitch, onPort_of_some here]
    simp [followsHost, controller]
  · rw [execPortClockLoss, onPort_of_some here]
    simp [followsHost, controller]
  · rw [execRateStep, onPort_of_some here]
    simp [controller]

end

/-! ### SPDIF_OUT (R312) -/

/-- A frame of an enabled output with no change to come carries two subframes and counts the block. -/
theorem spdifFrame_carries {s : State} (place : Rat) (enabled : s.ports.spdif.cfg.enable = true) (kept : s.ports.spdif.next = none) :
    ∃ x, spdifFrame place s = { s with ports := { s.ports with spdif := x } } ∧ x.block = (s.ports.spdif.block + 1) % 192 ∧
      x.running = s.ports.spdif.running ∧ x.cfg = s.ports.spdif.cfg ∧ x.curtain = s.ports.spdif.curtain ∧ x.frameAt = some s.now ∧
      ∃ u w, x.frame = some (u, w) ∧ u.preamble = (if s.ports.spdif.block = 0 then .z else .x) ∧ w.preamble = .y := by
  have same : spdifApply s.ports.spdif = s.ports.spdif := by simp [spdifApply, kept]
  unfold spdifFrame
  simp only [same, enabled, Bool.not_true, Bool.false_eq_true, if_false]
  exact ⟨_, rfl, rfl, rfl, rfl, rfl, rfl, _, _, rfl, rfl, rfl⟩

theorem execSpdifFrame_carries {s : State} {num den : Nat} (running : s.ports.spdif.running = true) (free : s.ports.spdif.gated = false)
    (timely : s.ports.spdif.cfg.rate ≠ 2 ∨ (num = 0 ∧ s.ports.spdif.frameAt ≠ some s.now)) :
    execSpdifFrame num den s = .next (spdifFrame (placeOf48 (num, den)) s) := by
  have due : (s.ports.spdif.cfg.rate != 2 || onTick s.now s.ports.spdif.frameAt (placeOf48 (num, den))) = true := by
    rcases timely with converts | ⟨tick, fresh⟩
    · simp [converts]
    · simp [onTick, placeOf48_tick (x := (num, den)) tick, fresh]
  simp [execSpdifFrame, running, free, due]

theorem execSpdifFrame_stopped {s : State} (num den : Nat) (stopped : s.ports.spdif.running = false) :
    execSpdifFrame num den s = .next s := by
  simp [execSpdifFrame, stopped]

/-- Settles O51: each row runs its operation, and the lemmas above say what port and what else that leaves. -/
theorem portRowsLockStopAndRunFrames : Obligations.PortRowsLockStopAndRunFrames := by
  intro s n p here
  refine ⟨fun ppm v starting free counted lost stepped rate => ?_, fun ppm waits => execPortLock_waits here ppm waits,
    fun x b starting target free => execTdmFrame_counts here x b starting target free,
    fun stopping closed kept off lost stepped => ?_, fun other => execPortStop_other here other,
    fun x b locked free timely => ?_, fun x b idle => execTdmFrame_skips here x b idle, fun target locked free few => ?_,
    fun target locked free stepped => ?_, fun ppm target locked free allowed far => ?_,
    fun ppm target locked free allowed near stepped => execRateStep_tracks here target locked free allowed near stepped,
    fun controller => hostClockRows_controller here controller, fun num den running free enabled kept timely => ?_,
    fun stopped num den => execSpdifFrame_stopped num den stopped⟩
  · subst rate
    have done : Completes (setPort n (lockedPort ppm p) s) (lockPort n ppm s) := by
      rw [lockPort_eq here]
      exact (reportLock_completes _ _ _).trans (finishWait_completes _ _)
    refine ⟨_, _, execPortLock_locks here starting free counted lost stepped, congrArg (·.tdm) done.ports, rfl,
      congrArg (·.spdif) done.ports, done.progs, done.flows, done.clocks, fun e executing waits => ?_⟩
    rw [lockPort_eq here]
    exact finishWait_executing (by rw [reportLock_mgr]; exact executing) waits
  · have done : Completes (setPort n (stopPort p.cfg p) s) (endStop n s) := by
      rw [endStop_disables here kept off lost stepped]
      exact finishWait_completes _ _
    exact ⟨_, execPortStop_stops here stopping closed, congrArg (·.tdm) done.ports, rfl, congrArg (·.spdif) done.ports, done.progs, done.flows⟩
  · obtain ⟨q, fl, left, slots, taken, block, st, cfg, at_, words, flows⟩ := tdmFrame_carries here (placeOf48 x) b
    exact ⟨{ setPort n q s with flows := fl }, q, (execTdmFrame_carries here x b locked free timely).trans (congrArg Host.Outcome.next left),
      rfl, slots, taken, block, st.trans locked, cfg, at_, words, flows, rfl⟩
  · have done := glitch_completes here
    exact ⟨_, glitchedPort (freshGlitch s p) s.now p, execFsyncGlitch_counts here target locked free few, congrArg (·.tdm) done.ports, rfl,
      rfl, locked, rfl, rfl, done.progs, done.clocks⟩
  · have lost := losePort_reports here stepped
    exact ⟨_, lostPort p, execPortClockLoss_loses here target locked free, congrArg (·.tdm) lost.ports, by simp [lostPort, locked], rfl, rfl,
      rfl, rfl, rfl, by rw [lost]; rfl, by rw [lost]; rfl⟩
  · have step := stepRate_reports here ppm
    exact ⟨_, execRateStep_steps here target locked free allowed far, congrArg (·.tdm) step.ports, by rw [step.ports]; exact step⟩
  · obtain ⟨x, left, block, still, cfg, curtain, at_, frame⟩ := spdifFrame_carries (placeOf48 (num, den)) enabled kept
    exact ⟨x, (execSpdifFrame_carries running free timely).trans (congrArg Host.Outcome.next left), block, still.trans running, cfg,
      curtain, at_, frame⟩

end Sys2Proof.Machine

/-! The flow commands: opening, closing and shaping a flow, the shape of a class, the path and the mailbox (R326, R336, R337, R341 to
R348, R418). -/

namespace Sys2Proof.Machine

/-! ### Opening and closing (R326, R346 to R348) -/

theorem flowExists_of_flowAt {s : State} {i : Nat} {f : Flow} (flow : flowAt s i = some f) : flowExists s i = true :=
  decide_eq_true (List.getElem?_eq_some_iff.mp flow).1

theorem class_admitted {cls kind : Nat} (may : cls ≠ 0 ∨ urgentKind kind = true) : ¬(cls = 0 ∧ (!urgentKind kind) = true) := by
  rintro ⟨urgent, barred⟩
  rcases may with other | allowed
  · exact other urgent
  · simp [allowed] at barred

/-- The kinds that may be urgent have the device itself as their source, which is always there (Table 12-1). -/
theorem sourceLive_of_urgentKind {kind source : Nat} (s : State) (urgent : kind = 0x20 ∨ kind = 0x21)
    (own : kindMatches kind source = true) : sourceLive s source = true := by
  rcases urgent with rfl | rfl
  · have device : source = 0x2001 := by simpa [kindMatches, kindSubch] using own
    rw [device]; rfl
  · have device : source = 0x2002 := by simpa [kindMatches, kindSubch] using own
    rw [device]; rfl

section
variable {tag : Byte} {p : List Byte} {s : State} {f : Flow} (turn : MainTurn s p) (flow : flowAt s (rd p 0 2) = some f)
include turn flow

theorem serve_flowOpen (len : p.length = 8 ∨ p.length = 16) (source : sourceExists s (rd p 3 2) = true) :
    serve cmdFlowOpen (hostCall tag p) s = bodyFlowOpen (hostCall tag p) s :=
  serve_main turn (by simpa [cmdFlowOpen, lenIn, hostCall] using len)
    (by simp [cmdFlowOpen, hostCall, flowExists_of_flowAt flow, source])

theorem serve_flowOpen_urgent (len : p.length = 8 ∨ p.length = 16) (source : sourceExists s (rd p 3 2) = true)
    (urgent : (openedFlow p).cls = 0) (barred : urgentKind (openedFlow p).kind = false) :
    serve cmdFlowOpen (hostCall tag p) s = fail stWrongState s := by
  rw [serve_flowOpen turn flow len source]
  simp [bodyFlowOpen, hostCall, flow, urgent, barred]

theorem serve_flowOpen_opens (len : p.length = 8 ∨ p.length = 16) (source : sourceExists s (rd p 3 2) = true) (free : f.st = .free)
    (kind : flowKinds.contains (openedFlow p).kind = true) (own : kindMatches (openedFlow p).kind (openedFlow p).source = true)
    (live : sourceLive s (openedFlow p).source = true) (may : (openedFlow p).cls ≠ 0 ∨ urgentKind (openedFlow p).kind = true) :
    serve cmdFlowOpen (hostCall tag p) s =
      okay (flowOpenBytes (rd p 0 2) (openedFlow p)) (updFlow (rd p 0 2) (fun _ => openedFlow p) s) := by
  rw [serve_flowOpen turn flow len source]
  simp only [bodyFlowOpen, hostCall, flow, free, kind, own, live, class_admitted may]
  rfl

theorem serve_flowClose (len : p.length = 2 ∨ p.length = 3) :
    serve cmdFlowClose (hostCall tag p) s = bodyFlowClose (hostCall tag p) s :=
  serve_main turn (by simpa [cmdFlowClose, lenIn, hostCall] using len) (flowExists_of_flowAt flow)

theorem serve_flowClose_closes (len : p.length = 2 ∨ p.length = 3) (opened : f.st = .opened) : ∃ pl,
    serve cmdFlowClose (hostCall tag p) s =
      okay pl (updFlow (rd p 0 2) (fun _ => closeFlow s.time.dfc 0 (boolOf false (p1 p 2)) f) s) := by
  rw [serve_flowClose turn flow len]
  exact ⟨_, by simp only [bodyFlowClose, hostCall, flow, opened]; rfl⟩

theorem serve_flowClose_free (len : p.length = 2 ∨ p.length = 3) (free : f.st = .free) :
    serve cmdFlowClose (hostCall tag p) s = fail stWrongState s := by
  rw [serve_flowClose turn flow len]
  simp [bodyFlowClose, hostCall, flow, free]

end

/-! ### What an open flow was given (R336, R337) -/

/-- Kind, class to come, rate, tokens, limit and shape to come: what only a new shape moves, and no packet. -/
def flowTerms (f : Flow) : Nat × Option Nat × Nat × Int × Nat × Option (Nat × Nat) :=
  (f.kind, f.clsNext, f.rate, f.tokens, f.limit, f.shapeNext)

@[simp] theorem flowTerms_queuePacket (p : FlowPacket) (f : Flow) : flowTerms (queuePacket p f) = flowTerms f := rfl
@[simp] theorem flowTerms_countDrop (pool : Bool) (f : Flow) : flowTerms (countDrop pool f) = flowTerms f := rfl

@[simp] theorem flowTerms_markGap (i : Nat) (f : Flow) : flowTerms (markGap i f) = flowTerms f := by
  unfold markGap
  split <;> rfl

@[simp] theorem flowTerms_dropOldest (pool : Bool) (f : Flow) : flowTerms (dropOldest pool f) = flowTerms f := by
  simp only [dropOldest, flowTerms_countDrop, flowTerms_markGap]
  rfl

@[simp] theorem flowTerms_fitLimit (n : Nat) (f : Flow) : flowTerms (fitLimit n f) = flowTerms f := by
  induction n generalizing f with
  | zero => rfl
  | succ n ih =>
    unfold fitLimit
    split
    · rfl
    · split
      · simp only [ih, flowTerms_countDrop, flowTerms_markGap]
        rfl
      · rw [ih, flowTerms_dropOldest]

@[simp] theorem flowTerms_admitHeld (n room : Nat) (f : Flow) : flowTerms (admitHeld n room f) = flowTerms f := by
  induction n generalizing room f with
  | zero => rfl
  | succ n ih =>
    unfold admitHeld
    split
    · rfl
    · split
      · rw [ih]
        rfl
      · rfl

theorem flowTerms_shapeFlow (cls rate burst limit : Nat) (f : Flow) : flowTerms (shapeFlow cls rate burst limit f) =
    (f.kind, if cls = 0xFF then f.clsNext else some cls, f.rate, f.tokens, limit, some (rate, burst)) :=
  flowTerms_fitLimit _ _

/-! ### Held packets enter their queues (R339, R340) -/

/-- Flows by their numbers: each has its terms, and one that holds nothing back is as it was. -/
def Readmitted (l m : List Flow) : Prop :=
  ∀ (i : Nat) (f : Flow), l[i]? = some f → ∃ g, m[i]? = some g ∧ flowTerms g = flowTerms f ∧ (f.held = [] → g = f)

theorem readmitted_set {l m : List Flow} {n : Nat} {x y : Flow} (before : Readmitted l m) (here : m[n]? = some x)
    (terms : flowTerms y = flowTerms x) (holds : x.held ≠ []) : Readmitted l (m.set n y) := by
  intro i f flow
  obtain ⟨g, now, same, kept⟩ := before i f flow
  obtain ⟨inside, -⟩ := List.getElem?_eq_some_iff.mp here
  by_cases own : n = i
  · subst own
    obtain rfl : x = g := Option.some.inj (here.symm.trans now)
    exact ⟨y, by simp [inside], terms.trans same, fun empty => absurd (kept empty ▸ empty) holds⟩
  · exact ⟨g, by simp [own, now], same, kept⟩

theorem admitAll_readmits (f : Flows) : Readmitted f.flows (admitAll f).flows := by
  refine foldl_inv (fun g : Flows => Readmitted f.flows g.flows) _ _ f (fun i x flow => ⟨x, flow, rfl, fun _ => rfl⟩) fun g i before => ?_
  split
  · next x here =>
    split
    · exact before
    · next holds => exact readmitted_set before here (flowTerms_admitHeld _ _ _) (by simpa using holds)
  · exact before

/-! ### Shapes (R326, R336, R337) -/

section
variable {tag : Byte} {p : List Byte} {s : State}

/-- The shape that `FLOW_SHAPE` of LEN 11 asks for, on a flow. -/
def askedShape (p : List Byte) (f : Flow) : Flow :=
  shapeFlow (classField (p1 p 2)) (rateQps (rd p 3 4)) (burstField (rd p 7 2)) (limitField (rd p 9 2)) f

/-- The state once the flow has its shape and the held packets of every flow have been tried again. -/
def shapedState (p : List Byte) (f : Flow) (s : State) : State :=
  { s with flows := admitAll { s.flows with flows := s.flows.flows.set (rd p 0 2) (askedShape p f) } }

theorem flowAt_shapedState_other {f q : Flow} {k : Nat} (other : k ≠ rd p 0 2) (here : flowAt s k = some q) (empty : q.held = []) :
    flowAt (shapedState p f s) k = some q := by
  obtain ⟨h, now, -, kept⟩ := admitAll_readmits { s.flows with flows := s.flows.flows.set (rd p 0 2) (askedShape p f) } k q
    ((List.getElem?_set_ne (Ne.symm other)).trans here)
  rw [← kept empty]
  exact now

section
variable {f : Flow} (flow : flowAt s (rd p 0 2) = some f)
include flow

theorem flowAt_shapedState : ∃ h, flowAt (shapedState p f s) (rd p 0 2) = some h ∧ h.kind = f.kind ∧
    h.clsNext = (if classField (p1 p 2) = 0xFF then f.clsNext else some (classField (p1 p 2))) ∧ h.rate = f.rate ∧
    h.tokens = f.tokens ∧ h.limit = limitField (rd p 9 2) ∧ h.shapeNext = some (rateQps (rd p 3 4), burstField (rd p 7 2)) := by
  obtain ⟨inside, -⟩ := List.getElem?_eq_some_iff.mp flow
  obtain ⟨h, here, terms, -⟩ := admitAll_readmits { s.flows with flows := s.flows.flows.set (rd p 0 2) (askedShape p f) }
    (rd p 0 2) (askedShape p f) (by simp [inside])
  have given := terms.trans (flowTerms_shapeFlow _ _ _ _ f)
  simp only [flowTerms, Prod.mk.injEq] at given
  exact ⟨h, here, given⟩

variable (turn : MainTurn s p) (len : p.length = 11) (used : f.st ≠ .free)
include turn len used

theorem serve_flowShape_urgent (urgent : classField (p1 p 2) = 0) (barred : urgentKind f.kind = false) :
    serve cmdFlowShape (hostCall tag p) s = fail stWrongState s := by
  rw [serve_main turn (by simp [cmdFlowShape, lenIn, hostCall, len]) (flowExists_of_flowAt flow)]
  simp [cmdFlowShape, bodyFlowShape, hostCall, flow, used, len, urgent, barred]

theorem serve_flowShape_shapes (may : classField (p1 p 2) ≠ 0 ∨ urgentKind f.kind = true) :
    serve cmdFlowShape (hostCall tag p) s = okay (flowShapeReply (rd p 0 2) (askedShape p f)) (shapedState p f s) := by
  rw [serve_main turn (by simp [cmdFlowShape, lenIn, hostCall, len]) (flowExists_of_flowAt flow)]
  simp only [cmdFlowShape, bodyFlowShape, hostCall, flow, used, len, class_admitted may]
  rfl

end

/-- A class with the shape that `CLASS_SHAPE` of LEN 7 asks for. -/
def askedClassShape (p : List Byte) (b : ClassBucket) : ClassBucket :=
  { b with shapeNext := some (rateQps (rd p 1 4), burstField (rd p 5 2)) }

theorem serve_classShape_shapes {b : ClassBucket} (turn : MainTurn s p) (len : p.length = 7) (here : s.flows.classes[p1 p 0]? = some b) :
    serve cmdClassShape (hostCall tag p) s = okay (classReply (p1 p 0) (askedClassShape p b))
      { s with flows := { s.flows with classes := s.flows.classes.set (p1 p 0) (askedClassShape p b) } } := by
  obtain ⟨inside, -⟩ := List.getElem?_eq_some_iff.mp here
  rw [serve_main turn (by simp [cmdClassShape, lenIn, hostCall, len]) (by simpa [cmdClassShape, hostCall] using inside)]
  simp [cmdClassShape, bodyClassShape, hostCall, here, len, askedClassShape]

end

/-! ### The path and the mailbox (R341, R343, R345) -/

theorem takeBack_mailbox (x : Fragment) (p : FlowPacket) (f : Flows) : (takeBack x p f).mailbox = f.mailbox := rfl

theorem discardPending_mailbox (f : Flows) : (discardPending f).mailbox = f.mailbox := by
  refine foldl_inv (fun g : Flows => g.mailbox = f.mailbox) _ _ _ rfl fun g x kept => ?_
  split
  · exact (takeBack_mailbox _ _ g).trans kept
  · exact kept

theorem changePath_mailbox (mailbox : Bool) (f : Flows) : (changePath mailbox f).mailbox = mailbox := by
  unfold changePath
  split
  · next same => exact same
  · exact discardPending_mailbox _

section
variable {tag : Byte} {p : List Byte} {s : State} (turn : MainTurn s p)
include turn

theorem serve_egressConfig_set (len : p.length = 1) : ∃ pl, serve cmdEgressConfig (hostCall tag p) s =
    okay pl { s with flows := changePath (boolOf false (p1 p 0)) s.flows } := by
  have given : p.isEmpty = false := by simp [← List.length_eq_zero_iff, len]
  rw [serve_main turn (by simp [cmdEgressConfig, lenIn, hostCall, len]) rfl]
  exact ⟨_, by simp only [cmdEgressConfig, bodyEgressConfig, hostCall, given]; rfl⟩

theorem serve_mailboxRead (len : p.length ≤ 1) :
    serve cmdMailboxRead (hostCall tag p) s = bodyMailboxRead (hostCall tag p) s :=
  serve_main turn (by simpa [cmdMailboxRead, lenIn, hostCall] using Nat.le_one_iff_eq_zero_or_eq_one.mp len) rfl

theorem serve_mailboxRead_port (len : p.length ≤ 1) (port : s.flows.mailbox = false) :
    serve cmdMailboxRead (hostCall tag p) s = okay [] s := by
  rw [serve_mailboxRead turn len]
  simp [bodyMailboxRead, port]

theorem serve_mailboxRead_words (len : p.length ≤ 1) (mailbox : s.flows.mailbox = true) :
    serve cmdMailboxRead (hostCall tag p) s =
      okay (((fillWords (mailboxWords p) s.flows).1.flatMap (·.words)).flatMap (le 4))
        { s with flows := if s.link.fifo.length < 4
            then confirmAll (fillWords (mailboxWords p) s.flows).1 (fillWords (mailboxWords p) s.flows).2
            else { (fillWords (mailboxWords p) s.flows).2 with
              inFlight := (fillWords (mailboxWords p) s.flows).2.inFlight ++ (fillWords (mailboxWords p) s.flows).1 } } := by
  rw [serve_mailboxRead turn len]
  simp [bodyMailboxRead, hostCall, mailbox]

end

/-- Settles O30: an urgent class is refused to every kind but the two, whose source is the device and therefore live. -/
theorem urgentClassIsForUrgentKindsOnly : Obligations.UrgentClassIsForUrgentKindsOnly := by
  intro tag p s f turn flow
  have barred {kind : Nat} (notAnnounce : kind ≠ 0x20) (notAlarm : kind ≠ 0x21) : urgentKind kind = false := by
    simp [urgentKind, notAnnounce, notAlarm]
  have allowed {kind : Nat} (urgent : kind = 0x20 ∨ kind = 0x21) : urgentKind kind = true := by simpa [urgentKind] using urgent
  refine ⟨fun len source => ⟨fun urgent notAnnounce notAlarm => ?_, fun free urgent own => ?_⟩,
    fun len used urgent notAnnounce notAlarm => ?_, fun len used urgent => ?_⟩
  · exact row_fails turn.1 (serve_flowOpen_urgent turn flow len source urgent (barred notAnnounce notAlarm))
  · have kind : flowKinds.contains (openedFlow p).kind = true := by rcases urgent with e | e <;> rw [e] <;> rfl
    exact row_okay turn.1 (serve_flowOpen_opens turn flow len source free kind own (sourceLive_of_urgentKind s urgent own)
      (Or.inr (allowed urgent)))
  · exact row_fails turn.1 (serve_flowShape_urgent flow turn len used urgent (barred notAnnounce notAlarm))
  · obtain ⟨h, here, kind, cls, -, -, limit, shape⟩ := flowAt_shapedState flow
    exact ⟨_, _, h, row_okay turn.1 (serve_flowShape_shapes flow turn len used (Or.inr (allowed urgent))), here, shape, limit, kind, cls⟩

/-- Settles O31: the lemmas above say how the body of each command ends, and what a shape and a change of path leave. -/
theorem flowCommandsOpenCloseAndShape : Obligations.FlowCommandsOpenCloseAndShape := by
  intro tag p s turn
  refine ⟨fun f len flow source free kind own live may => ⟨rfl, ?_⟩, fun f len flow opened => ?_, fun f len flow free => ?_,
    fun f len flow used cls => ?_, fun b c len here shaped => ?_, fun len => ⟨?_, changePath_mailbox _ _⟩,
    fun len port => row_reads turn.1 (serve_mailboxRead_port turn len port),
    fun len mailbox => row_okay turn.1 (serve_mailboxRead_words turn len mailbox)⟩
  · exact row_okay turn.1 (serve_flowOpen_opens turn flow len source free kind own live may)
  · obtain ⟨pl, closes⟩ := serve_flowClose_closes (tag := tag) turn flow len opened
    exact ⟨pl, row_okay turn.1 closes⟩
  · exact row_fails turn.1 (serve_flowClose_free turn flow len free)
  · obtain ⟨h, flowNow, -, clsNext, rate, tokens, limit, shape⟩ := flowAt_shapedState flow
    exact ⟨_, _, h, row_okay turn.1 (serve_flowShape_shapes flow turn len used (Or.inl cls)), rfl, flowNow, shape, limit, rate, tokens,
      clsNext, fun k q other flowOther empty => flowAt_shapedState_other other flowOther empty⟩
  · subst shaped
    exact row_okay turn.1 (serve_classShape_shapes turn len here)
  · obtain ⟨pl, chosen⟩ := serve_egressConfig_set (tag := tag) turn len
    exact ⟨pl, row_okay turn.1 chosen⟩

end Sys2Proof.Machine

/-! Packets that arrive on the flows that take them, and the records of drops (R221, R327 to R329, R339 to R341). -/

namespace Sys2Proof.Machine

/-! ### Bytes of the pool that one flow holds (R339) -/

theorem sumNat_eq_sum (l : List Nat) : sumNat l = l.sum := List.sum_eq_foldl_nat.symm

theorem sum_map_upd_le {α : Type} {w : α → Nat} {f : α → α} {n : Nat} (grows : ∀ x, w (f x) ≤ w x + n) (l : List α) (i : Nat) :
    ((upd l i f).map w).sum ≤ (l.map w).sum + n := by
  induction l generalizing i with
  | nil => simp [upd]
  | cons x l ih =>
    cases i with
    | zero =>
      have here := grows x
      simp only [upd, List.getElem?_cons_zero, List.set_cons_zero, List.map_cons, List.sum_cons]
      omega
    | succ i =>
      have tail : upd (x :: l) (i + 1) f = x :: upd l i f := by
        simp only [upd, List.getElem?_cons_succ]
        split <;> rfl
      have rest := ih i
      simp only [tail, List.map_cons, List.sum_cons]
      omega

/-- Bytes of the packets in the queue of a flow. -/
def queueBytes (f : Flow) : Nat := (f.queue.map packetSize).sum

theorem poolUsed_eq (f : Flows) : poolUsed f =
    (f.flows.map queueBytes).sum + sumNat ((f.resend ++ f.inFlight).map fun x => (x.ends.map packetSize).getD 0) := by
  simp only [poolUsed, sumNat_eq_sum]
  rfl

theorem poolUsed_upd_le {f : Flows} {g : Flow → Flow} {n : Nat} (grows : ∀ x, queueBytes (g x) ≤ queueBytes x + n) (i : Nat) :
    poolUsed { f with flows := upd f.flows i g } ≤ poolUsed f + n := by
  have flows := sum_map_upd_le grows f.flows i
  simp only [poolUsed_eq]
  omega

theorem queueBytes_queuePacket (p : FlowPacket) (f : Flow) : queueBytes (queuePacket p f) = queueBytes f + packetSize p := by
  simp [queueBytes, queuePacket, packetSize]

theorem queueBytes_countDrop (pool : Bool) (f : Flow) : queueBytes (countDrop pool f) = queueBytes f := rfl

theorem queueBytes_markGap (i : Nat) (f : Flow) : queueBytes (markGap i f) = queueBytes f := by
  unfold markGap
  split
  · exact congrArg List.sum (map_upd_of_stays f.queue i fun _ => rfl)
  · rfl

theorem queueBytes_dropOldest (pool : Bool) (f : Flow) : queueBytes (dropOldest pool f) ≤ queueBytes f := by
  rw [dropOldest, queueBytes_countDrop, queueBytes_markGap]
  exact ((List.eraseIdx_sublist f.queue _).map packetSize).sum_le_sum fun _ _ => Nat.zero_le _

theorem queueBytes_holdUrgent (p : FlowPacket) (f : Flow) : queueBytes (holdUrgent p f) = queueBytes f := by
  unfold holdUrgent
  split <;> rfl

theorem queueBytes_arrive (full : Bool) (p : FlowPacket) (f : Flow) : queueBytes (arrive full p f) ≤ queueBytes f + packetSize p := by
  unfold arrive
  split
  · split
    · exact (queueBytes_queuePacket p f).le
    · exact (queueBytes_holdUrgent p f).le.trans (Nat.le_add_right ..)
  · split
    · exact (queueBytes_queuePacket p f).le
    · dsimp only
      split
      · exact Nat.le_add_right ..
      · rw [queueBytes_queuePacket]
        exact Nat.add_le_add_right (queueBytes_dropOldest _ f) _

/-! ### One item is offered to one flow after the other (R327, R339) -/

/-- A flow that an item is offered to, the pool as it stands. -/
def offered (pool : Flows) (qual : Nat) (pkt : FlowPacket) (f : Flow) : Flow :=
  if takes pkt.kind pkt.source qual f && !repeats pkt.kind pkt.payload f then
    noteLabel pkt.kind pkt.payload (arrive (poolFull pool f.cls (packetSize pkt)) pkt f)
  else f

/-- The item is offered to the flow of a number. -/
def offerTo (qual : Nat) (pkt : FlowPacket) (i : Nat) (s : State) : State := updFlow i (offered s.flows qual pkt) s

/-- The packet that `produceAt` makes of an item. -/
def newPacket (dfc : Dfc) (kind source : Nat) (failed : Bool) (key : Option (Nat × Nat × Nat)) (payload : List Byte) : FlowPacket :=
  { kind := kind, flags := flag failed, source := source, dfc := dfc, seq := 0, payload := payload, key := key }

theorem produceAt_eq (dfc : Dfc) (kind source qual : Nat) (failed : Bool) (key : Option (Nat × Nat × Nat)) (payload : List Byte) (s : State) :
    produceAt dfc kind source qual failed key payload s =
      forEach (List.range s.flows.flows.length) (offerTo qual (newPacket dfc kind source failed key payload)) s := by
  unfold produceAt forEach
  dsimp only
  congr 1
  funext u i
  cases here : u.flows.flows[i]? with
  | none => simp [offerTo, updFlow, upd_of_none _ here]
  | some f =>
    obtain ⟨inside, same⟩ := List.getElem?_eq_some_iff.mp here
    simp only [offerTo, updFlow, upd_of_some _ here, offered, newPacket]
    split
    · rfl
    · rw [← same, List.set_getElem_self]

/-- A label that is noted moves nothing else. -/
theorem noteLabel_keeps (kind : Nat) (payload : List Byte) (f : Flow) : (noteLabel kind payload f).queue = f.queue ∧
    (noteLabel kind payload f).dropMark = f.dropMark ∧ (noteLabel kind payload f).pktSeq = f.pktSeq ∧
    (noteLabel kind payload f).st = f.st := by
  unfold noteLabel
  split <;> exact ⟨rfl, rfl, rfl, rfl⟩

theorem queueBytes_noteLabel (kind : Nat) (payload : List Byte) (f : Flow) : queueBytes (noteLabel kind payload f) = queueBytes f := by
  rw [queueBytes, (noteLabel_keeps kind payload f).1, queueBytes]

theorem queueBytes_offered (pool : Flows) (qual : Nat) (pkt : FlowPacket) (f : Flow) :
    queueBytes (offered pool qual pkt f) ≤ queueBytes f + packetSize pkt := by
  unfold offered
  split
  · rw [queueBytes_noteLabel]
    exact queueBytes_arrive _ pkt f
  · exact Nat.le_add_right ..

theorem opened_of_takes {kind source qual : Nat} {f : Flow} (takesIt : takes kind source qual f = true) : f.st = .opened := by
  simp only [takes, Bool.and_eq_true, beq_iff_eq] at takesIt
  exact takesIt.1.1.1

theorem offered_passes {qual : Nat} {pkt : FlowPacket} {f : Flow} (pool : Flows) (passes : takes pkt.kind pkt.source qual f = false) :
    offered pool qual pkt f = f := by
  simp [offered, passes]

/-- An urgent flow below its limit that holds nothing back queues the item when the pool has room (R339, R340). -/
theorem offered_urgent {pool : Flows} {qual : Nat} {pkt : FlowPacket} {f : Flow} (takesIt : takes pkt.kind pkt.source qual f = true)
    (fresh : repeats pkt.kind pkt.payload f = false) (below : f.queue.length < f.limit) (urgent : f.cls = 0) (empty : f.held = [])
    (room : poolUsed pool + packetSize pkt ≤ 2097152) :
    offered pool qual pkt f = noteLabel pkt.kind pkt.payload (queuePacket pkt f) := by
  have free : poolFull pool 0 (packetSize pkt) = false := by simpa [poolFull] using room
  simp [offered, takesIt, fresh, arrive, urgent, below, empty, free]

section
variable (qual : Nat) (pkt : FlowPacket) (s : State)

/-- The item has been offered to the first flows, up to a number. -/
def offerFirst (n : Nat) : State := forEach (List.range n) (offerTo qual pkt) s

theorem offerFirst_succ (n : Nat) : offerFirst qual pkt s (n + 1) = offerTo qual pkt n (offerFirst qual pkt s n) := by
  simp [offerFirst, forEach, List.range_succ]

/-- Each flow adds one packet to the pool at most. -/
theorem poolUsed_offerFirst (n : Nat) : poolUsed (offerFirst qual pkt s n).flows ≤ poolUsed s.flows + n * packetSize pkt := by
  induction n with
  | zero => exact Nat.le_add_right ..
  | succ n ih =>
    have grown : poolUsed (offerTo qual pkt n (offerFirst qual pkt s n)).flows ≤ poolUsed (offerFirst qual pkt s n).flows + packetSize pkt :=
      poolUsed_upd_le (queueBytes_offered _ qual pkt) n
    rw [offerFirst_succ, Nat.succ_mul]
    omega

/-- Every flow is offered the item once, with the pool as the flows before it have left it. -/
theorem flowAt_offerFirst (n i : Nat) : flowAt (offerFirst qual pkt s n) i =
    if i < n then (flowAt s i).map (offered (offerFirst qual pkt s i).flows qual pkt) else flowAt s i := by
  induction n with
  | zero => simp [offerFirst, forEach]
  | succ n ih =>
    rw [offerFirst_succ, offerTo, flowAt_updFlow, ih]
    rcases Nat.lt_trichotomy i n with before | rfl | after
    · simp [before, before.ne, Nat.lt_succ_of_lt before]
    · simp
    · simp [after.ne', after.not_gt, show ¬ i < n + 1 by omega]

theorem offerFirst_flowsOnly (n : Nat) : offerFirst qual pkt s n =
    { s with flows := { s.flows with flows := (offerFirst qual pkt s n).flows.flows } } := by
  refine foldl_inv (fun u : State => u = { s with flows := { s.flows with flows := u.flows.flows } }) _ _ s rfl fun u i only => ?_
  rw [only]
  rfl

theorem offerFirst_length (n : Nat) : (offerFirst qual pkt s n).flows.flows.length = s.flows.flows.length :=
  foldl_inv (fun u : State => u.flows.flows.length = s.flows.flows.length) _ _ s rfl fun u _ same => by
    simpa [offerTo, updFlow] using same

end

/-! ### PACKET_ARRIVAL (R221, R327, R339) -/

/-- What tells one urgent edge from the next while they are held (R340). -/
def itemKey (kind : Nat) (payload : List Byte) : Option (Nat × Nat × Nat) :=
  if urgentKind kind then some (rd payload 0 1, rd payload 2 1, rd payload 10 1) else none

section
variable {s : State} {kind src q : Nat} {check : PacketCheck} {l : List Byte}

section
variable (ready : s.reset_.domain = .ready) (present : sourceExists s src = true)
include ready present

/-- Nothing arrives of a kind that no flow has, nor of an engine whose subchannels give no output yet (R188). -/
theorem execPacketArrival_nothing (nothing : flowKinds.contains kind = false ∨ givesOutput s kind src = false) :
    execPacketArrival kind src q check l s = .next s := by
  rcases nothing with unknown | silent
  · simp only [execPacketArrival, present, unknown]
    rfl
  · simp only [execPacketArrival, present, silent, mainReady, ready]
    simp

theorem execPacketArrival_failedGroup (gives : givesOutput s 0x15 src = true) (failed : check.failed = true) :
    execPacketArrival 0x15 src q check l s = .next (sourceError 0x15 src q s) := by
  simp [execPacketArrival, present, mainReady, ready, gives, groupWhole, failed, flowKinds]

theorem execPacketArrival_produces (known : flowKinds.contains kind = true) (gives : givesOutput s kind src = true) (item : kind ≠ 0x15)
    (passed : kind = 0x14 → check.failed = false) (fits : l.length ≤ 1024) : execPacketArrival kind src q check l s =
      .next (produce kind src q (check.failed || check.parity) (itemKey kind l) l (count 15 (flag check.parity) 0 s)) := by
  have label : ¬(kind == 0x14 && check.failed) = true := by simpa using passed
  simp only [execPacketArrival, present, known, mainReady, ready, gives, item, label]
  simp [fits, itemKey]

end

end

section
variable {s : State} {kind src q : Nat} {l : List Byte} (failed : Bool) (key : Option (Nat × Nat × Nat))

theorem produce_eq : produce kind src q failed key l s =
    offerFirst q (newPacket s.time.dfc kind src failed key l) s s.flows.flows.length := produceAt_eq ..

theorem produce_flowsOnly : produce kind src q failed key l s =
    { s with flows := { s.flows with flows := (produce kind src q failed key l s).flows.flows } } := by
  rw [produce_eq]
  exact offerFirst_flowsOnly ..

theorem produce_length : (produce kind src q failed key l s).flows.flows.length = s.flows.flows.length := by
  rw [produce_eq]
  exact offerFirst_length ..

section
variable {i : Nat} {f : Flow} (flow : flowAt s i = some f)
include flow

theorem flowAt_produce : flowAt (produce kind src q failed key l s) i =
    some (offered (offerFirst q (newPacket s.time.dfc kind src failed key l) s i).flows q (newPacket s.time.dfc kind src failed key l) f) := by
  rw [produce_eq, flowAt_offerFirst, if_pos (List.getElem?_eq_some_iff.mp flow).1, flow]
  rfl

theorem flowAt_produce_passes (passes : takes kind src q f = false) : flowAt (produce kind src q failed key l s) i = some f := by
  rw [flowAt_produce failed key flow, offered_passes _ passes]

/-- With room for the item on every flow, an urgent flow below its limit queues it, however many flows before it have. -/
theorem flowAt_produce_urgent (takesIt : takes kind src q f = true) (fresh : repeats kind l f = false)
    (below : f.queue.length < f.limit) (urgent : f.cls = 0) (empty : f.held = [])
    (room : poolUsed s.flows + s.flows.flows.length * (12 + l.length) ≤ 2097152) : flowAt (produce kind src q failed key l s) i =
      some (noteLabel kind l (queuePacket (newPacket s.time.dfc kind src failed key l) f)) := by
  have used := poolUsed_offerFirst q (newPacket s.time.dfc kind src failed key l) s i
  have size : packetSize (newPacket s.time.dfc kind src failed key l) = 12 + l.length := rfl
  have inside : (i + 1) * (12 + l.length) ≤ s.flows.flows.length * (12 + l.length) :=
    Nat.mul_le_mul_right _ (List.getElem?_eq_some_iff.mp flow).1
  rw [Nat.succ_mul] at inside
  rw [size] at used
  rw [flowAt_produce failed key flow, offered_urgent takesIt fresh below urgent empty (by omega)]
  rfl

end

end

theorem reports_of_flowsOnly {s u t : State} (counted : Reports s u) (only : t = { u with flows := { u.flows with flows := t.flows.flows } }) :
    Reports { s with flows := { s.flows with flows := t.flows.flows } } t := by
  unfold Reports at *
  rw [only, counted]

/-! ### FLOW_DROP_RECORD (R341) -/

section
variable {s : State} {i : Nat} {f : Flow} (flow : flowAt s i = some f)
include flow

theorem execFlowDropRecord_records (drops : 0 < f.dropsNew) (first : f.dropRecAt = none) : execFlowDropRecord i s =
    .next (evFlowDrop i 0xFF f.dropsNew
      { s with flows := { s.flows with flows := s.flows.flows.set i { f with dropsNew := 0, dropRecAt := some s.now } } }) := by
  have here : s.flows.flows[i]? = some f := flow
  simp [execFlowDropRecord, flow, drops, first, updFlow, upd_of_some _ here]

theorem execFlowDropRecord_early {t : Nat} (last : f.dropRecAt = some t) (early : s.now < t + 48000) : execFlowDropRecord i s = .next s := by
  have waits : elapsed s t 48000 = false := by simpa [elapsed] using early
  simp [execFlowDropRecord, flow, last, waits]

theorem execFlowDropRecord_noDrops (noDrops : f.dropsNew = 0) : execFlowDropRecord i s = .next s := by
  simp [execFlowDropRecord, flow, noDrops]

end

/-- Settles O52: an item is offered to one flow after the other, none of which adds more than the item to the pool. -/
theorem flowRowsQueuePacketsAndReportDrops : Obligations.FlowRowsQueuePacketsAndReportDrops := by
  intro s ready
  refine ⟨fun kind src q failed bad l present known gives item passed fits room => ?_,
    fun src q bad l present gives => execPacketArrival_failedGroup ready present gives rfl,
    fun kind src q failed bad l present nothing => execPacketArrival_nothing ready present nothing,
    fun i f flow drops first => execFlowDropRecord_records flow drops first,
    fun i f t flow last early => execFlowDropRecord_early flow last early,
    fun i f flow noDrops => execFlowDropRecord_noDrops flow noDrops⟩
  have row := execPacketArrival_produces (q := q) (check := ⟨failed, bad⟩) ready present known gives item passed fits
  have counted := count_reports 15 (flag bad) 0 s
  have uncounted (good : bad = false) : count 15 (flag bad) 0 s = s := by subst good; rfl
  generalize count 15 (flag bad) 0 s = u at row counted uncounted
  have flows : u.flows = s.flows := by rw [counted]
  have time : u.time = s.time := by rw [counted]
  have only := produce_flowsOnly (s := u) (kind := kind) (src := src) (q := q) (l := l) (failed || bad) (itemKey kind l)
  refine ⟨_, row, reports_of_flowsOnly counted only, fun good => ?_, (produce_length ..).trans (by rw [flows]), fun i f flow passes => ?_,
    fun i f flow takesIt fresh below urgent empty => ?_⟩
  · rw [only, uncounted good]
    exact ⟨rfl, rfl⟩
  · exact flowAt_produce_passes _ _ ((flowAt_congr flows i).trans flow) passes
  · have queued := flowAt_produce_urgent (failed || bad) (itemKey kind l) ((flowAt_congr flows i).trans flow) takesIt fresh below urgent
      empty (by rw [flows]; exact room)
    obtain ⟨queue, mark, number, st⟩ := noteLabel_keeps kind l
      (queuePacket (newPacket u.time.dfc kind src (failed || bad) (itemKey kind l) l) f)
    exact ⟨_, _, queued, queue, rfl, rfl, congrArg (·.dfc) time, rfl, rfl, rfl, mark, number, st.trans (opened_of_takes takesIt)⟩

end Sys2Proof.Machine

/-! Steps and the shared path of host commands: the front command, the waiting queue, the execution checks, failed commands,
a busy stage manager and opcodes outside the map. -/

namespace Sys2Proof.Machine

/-! ### Steps -/

/-- Settles O1: `step` matches on the queue of waiting commands. -/
theorem stepRunsFrontCommand : Obligations.StepRunsFrontCommand := by
  intro s c rest waiting
  simp [step, waiting]

/-- Settles O2: with no command waiting `step` answers its argument. -/
theorem emptyQueueIdles : Obligations.EmptyQueueIdles := by
  intro s idle
  simp [step, idle]

/-- Settles O3: the waiting commands are the first part of `Runs`, which every row meets. -/
theorem commandsLeaveTheWaitingQueue : Obligations.CommandsLeaveTheWaitingQueue := fun _ _ _ e => (exec_runs e).1

/-! ### The execution checks (Table 14-1) -/

section
variable {k : Cmd} {c : Call} {s : State}

theorem serve_locked (life : lockedLife s k.opc = true) : serve k c s = fail stLocked s := by
  simp [serve, life]

theorem serve_badLength (life : lockedLife s k.opc = false) (len : k.len c.p = false) : serve k c s = fail stBadLength s := by
  simp [serve, life, len]

theorem serve_notInVariant (life : lockedLife s k.opc = false) (len : k.len c.p = true) (ids : k.ids s c.p = false) :
    serve k c s = fail stNotInVariant s := by
  simp [serve, life, len, ids]

theorem serve_domainRefuses (life : lockedLife s k.opc = false) (len : k.len c.p = true) (ids : k.ids s c.p = true)
    (domain : domainRefuses s k.opc = true) : serve k c s = fail stWrongState s := by
  simp [serve, life, len, ids, domain]

end

/-- Settles O9: one lemma above for each check, and `row_fails` for what a failed check leaves. -/
theorem executionChecksInTableOrder : Obligations.ExecutionChecksInTableOrder := by
  intro i k tag p s row turn
  rw [exec_eq_hostRow s row]
  exact ⟨fun life => row_fails turn (serve_locked life), fun life len => row_fails turn (serve_badLength life len),
    fun life len ids => row_fails turn (serve_notInVariant life len ids),
    fun life len ids domain => row_fails turn (serve_domainRefuses life len ids domain)⟩

/-! ### A failed command has no effect (R381) -/

/-- The result is `OK`, `PENDING`, or the bare failure of a command that has done nothing. -/
def FailsBare (s : State) (r : Res) : Prop := r.status = stOk ∨ r.status = stPending ∨ r = fail r.status s

section
variable (s u : State) (payload : List Byte)

@[simp] theorem failsBare_fail (status : Nat) : FailsBare s (fail status s) := Or.inr (Or.inr rfl)

@[simp] theorem failsBare_okay : FailsBare s (okay payload u) := Or.inl rfl

@[simp] theorem failsBare_ok (effects : List AudioEffect) (wait : Option Wait) (silent gate : Bool) :
    FailsBare s ⟨stOk, payload, u, effects, wait, silent, gate⟩ := Or.inl rfl

@[simp] theorem failsBare_pending (effects : List AudioEffect) (wait : Option Wait) (silent gate : Bool) :
    FailsBare s ⟨stPending, payload, u, effects, wait, silent, gate⟩ := Or.inr (Or.inl rfl)

@[simp] theorem failsBare_ite (c : Prop) [Decidable c] (a b : Res) :
    FailsBare s (if c then a else b) ↔ (c → FailsBare s a) ∧ (¬c → FailsBare s b) := by
  split <;> simp [*]

end

theorem row_failsBare {k : Cmd} {tag : Byte} {p : List Byte} {s : State} (turn : HostTurn s p)
    (bare : FailsBare s (serve k (hostCall tag p) s)) (notOk : (serve k (hostCall tag p) s).status ≠ stOk)
    (notPending : (serve k (hostCall tag p) s).status ≠ stPending) :
    hostRow k tag p s = .next (replied s (serve k (hostCall tag p) s).status tag []) :=
  row_fails turn ((bare.resolve_left notOk).resolve_left notPending)

/-- The shared checks fail bare, so only the command's own body matters. -/
theorem serve_failsBare {k : Cmd} {c : Call} {s : State} (body : FailsBare s (k.body c s)) : FailsBare s (serve k c s) := by
  simp [serve, body]

section
variable (c : Call) (s : State)

/-! Reception, lanes, engines and services. -/

@[simp] theorem liveBandPlan_failsBare (i : Nat) (b : BandPlan) : FailsBare s (liveBandPlan i b s) := by simp [liveBandPlan]
@[simp] theorem cmdBandPlan_failsBare : FailsBare s (cmdBandPlan.body c s) := by simp [cmdBandPlan, bodyBandPlan]
@[simp] theorem cmdRxStart_failsBare : FailsBare s (cmdRxStart.body c s) := by simp [cmdRxStart, bodyRxStart]
@[simp] theorem cmdRxStop_failsBare : FailsBare s (cmdRxStop.body c s) := by simp [cmdRxStop, bodyRxStop]
@[simp] theorem cmdFrontendGain_failsBare : FailsBare s (cmdFrontendGain.body c s) := by simp [cmdFrontendGain, bodyFrontendGain]
@[simp] theorem cmdAntennaFeed_failsBare : FailsBare s (cmdAntennaFeed.body c s) := by simp [cmdAntennaFeed, bodyAntennaFeed]
@[simp] theorem cmdScanPolicy_failsBare : FailsBare s (cmdScanPolicy.body c s) := by simp [cmdScanPolicy, bodyScanPolicy]
@[simp] theorem reassignLane_failsBare (id : Nat) (a : Ask) (tag : Byte) : FailsBare s (reassignLane id a tag s) := by
  simp [reassignLane]
@[simp] theorem assignLane_failsBare (id : Nat) (a : Ask) (tag : Byte) : FailsBare s (assignLane id a tag s) := by
  unfold assignLane
  (repeat' split) <;> simp [assignFreeLane, adjustLane]
@[simp] theorem cmdLaneAssign_failsBare : FailsBare s (cmdLaneAssign.body c s) := by
  dsimp only [cmdLaneAssign, bodyLaneAssign]
  (repeat' split) <;> simp
@[simp] theorem cmdLaneRelease_failsBare : FailsBare s (cmdLaneRelease.body c s) := by
  dsimp only [cmdLaneRelease, bodyLaneRelease]
  (repeat' split) <;> simp
@[simp] theorem cmdLaneList_failsBare : FailsBare s (cmdLaneList.body c s) := failsBare_okay ..
@[simp] theorem cmdLaneStatus_failsBare : FailsBare s (cmdLaneStatus.body c s) := by
  dsimp only [cmdLaneStatus, bodyLaneStatus]
  (repeat' split) <;> simp
@[simp] theorem cmdFmParams_failsBare : FailsBare s (cmdFmParams.body c s) := by
  dsimp only [cmdFmParams, bodyFmParams]
  (repeat' split) <;> simp
@[simp] theorem cmdAmParams_failsBare : FailsBare s (cmdAmParams.body c s) := by
  dsimp only [cmdAmParams, bodyAmParams]
  (repeat' split) <;> simp
@[simp] theorem cmdRdsConfig_failsBare : FailsBare s (cmdRdsConfig.body c s) := by simp [cmdRdsConfig, bodyRdsConfig]
@[simp] theorem diversityLane_failsBare (id : Nat) : FailsBare s (diversityLane id c s) := by
  unfold diversityLane
  split <;> simp
@[simp] theorem diversityEngine_failsBare (e : Nat) : FailsBare s (diversityEngine e c s) := by
  unfold diversityEngine
  split <;> simp
@[simp] theorem cmdDiversitySet_failsBare : FailsBare s (cmdDiversitySet.body c s) := by simp [cmdDiversitySet, bodyDiversitySet]
@[simp] theorem reassignEngine_failsBare (e : Nat) (a : Ask) (x : Engine) (tag : Byte) : FailsBare s (reassignEngine e a x tag s) := by
  simp [reassignEngine]
@[simp] theorem assignEngine_failsBare (e : Nat) (a : Ask) (tag : Byte) : FailsBare s (assignEngine e a tag s) := by
  unfold assignEngine
  (repeat' split) <;> simp [assignFreeEngine, adjustEngine]
@[simp] theorem cmdDabEngineAssign_failsBare : FailsBare s (cmdDabEngineAssign.body c s) := by
  dsimp only [cmdDabEngineAssign, bodyDabEngineAssign]
  (repeat' split) <;> simp
@[simp] theorem cmdDabEngineRelease_failsBare : FailsBare s (cmdDabEngineRelease.body c s) := by
  dsimp only [cmdDabEngineRelease, bodyDabEngineRelease]
  (repeat' split) <;> simp
@[simp] theorem cmdSoftbitMode_failsBare : FailsBare s (cmdSoftbitMode.body c s) := by
  dsimp only [cmdSoftbitMode, bodySoftbitMode]
  (repeat' split) <;> simp
@[simp] theorem cmdDabEngineStatus_failsBare : FailsBare s (cmdDabEngineStatus.body c s) := by
  dsimp only [cmdDabEngineStatus, bodyDabEngineStatus]
  (repeat' split) <;> simp
@[simp] theorem cmdServiceList_failsBare : FailsBare s (cmdServiceList.body c s) := by simp [cmdServiceList, bodyServiceList]
@[simp] theorem cmdServiceInfo_failsBare : FailsBare s (cmdServiceInfo.body c s) := by
  dsimp only [cmdServiceInfo, bodyServiceInfo]
  (repeat' split) <;> simp


/-! Programs, ports and flows. -/
@[simp] theorem cmdAnnouncementPolicy_failsBare : FailsBare s (cmdAnnouncementPolicy.body c s) := by simp [cmdAnnouncementPolicy, bodyAnnouncementPolicy]
@[simp] theorem cmdAlertPolicy_failsBare : FailsBare s (cmdAlertPolicy.body c s) := by simp [cmdAlertPolicy, bodyAlertPolicy]
@[simp] theorem bodyProgramStop_failsBare (n : Nat) : FailsBare s (bodyProgramStop n s) := by
  unfold bodyProgramStop
  split <;> simp
@[simp] theorem bodyProgramStart_failsBare (n : Nat) (src : Source) : FailsBare s (bodyProgramStart n src s) := by
  simp [bodyProgramStart]
@[simp] theorem addHost_failsBare (u : State) (n slot : Nat) (src : Source) : FailsBare s (addHost n slot src u) := failsBare_ok ..
@[simp] theorem bodyProgramAdd_failsBare (n : Nat) (src : Source) : FailsBare s (bodyProgramAdd n src s) := by
  unfold bodyProgramAdd
  (repeat' split) <;> simp
@[simp] theorem bodyProgramRemove_failsBare (n : Nat) (src : Source) : FailsBare s (bodyProgramRemove n src s) := by
  unfold bodyProgramRemove
  (repeat' split) <;> simp
@[simp] theorem cmdProgramSet_failsBare : FailsBare s (cmdProgramSet.body c s) := by
  dsimp only [cmdProgramSet, bodyProgramSet]
  (repeat' split) <;> simp
@[simp] theorem cmdProgramStatus_failsBare : FailsBare s (cmdProgramStatus.body c s) := by
  dsimp only [cmdProgramStatus, bodyProgramStatus]
  (repeat' split) <;> simp
@[simp] theorem cmdLinkPolicy_failsBare : FailsBare s (cmdLinkPolicy.body c s) := by
  dsimp only [cmdLinkPolicy, bodyLinkPolicy]
  (repeat' split) <;> simp
@[simp] theorem cmdDelayStoreConfig_failsBare : FailsBare s (cmdDelayStoreConfig.body c s) := by
  dsimp only [cmdDelayStoreConfig, bodyDelayStoreConfig]
  (repeat' split) <;> simp
@[simp] theorem cmdCurtain_failsBare : FailsBare s (cmdCurtain.body c s) := by
  dsimp only [cmdCurtain, bodyCurtain]
  (repeat' split) <;> simp
@[simp] theorem portStarts_failsBare (u : State) (n : Nat) (x : PortCfg) (tag : Byte) : FailsBare s (portStarts n x tag u) := by
  simp [portStarts]
@[simp] theorem portSet_failsBare (n : Nat) (x : PortCfg) (tag : Byte) (p : Port) : FailsBare s (portSet n x tag p s) := by
  simp [portSet]
@[simp] theorem cmdPortConfig_failsBare : FailsBare s (cmdPortConfig.body c s) := by
  dsimp only [cmdPortConfig, bodyPortConfig]
  (repeat' split) <;> simp
@[simp] theorem cmdSlotMap_failsBare : FailsBare s (cmdSlotMap.body c s) := by
  dsimp only [cmdSlotMap, bodySlotMap]
  (repeat' split) <;> simp
@[simp] theorem cmdStatusSlotConfig_failsBare : FailsBare s (cmdStatusSlotConfig.body c s) := by simp [cmdStatusSlotConfig, bodyStatusSlotConfig]
@[simp] theorem cmdSpdifConfig_failsBare : FailsBare s (cmdSpdifConfig.body c s) := by simp [cmdSpdifConfig, bodySpdifConfig]
@[simp] theorem cmdPortStatus_failsBare : FailsBare s (cmdPortStatus.body c s) := by
  dsimp only [cmdPortStatus, bodyPortStatus]
  (repeat' split) <;> simp
@[simp] theorem cmdFlowOpen_failsBare : FailsBare s (cmdFlowOpen.body c s) := by
  dsimp only [cmdFlowOpen, bodyFlowOpen]
  (repeat' split) <;> simp
@[simp] theorem cmdFlowClose_failsBare : FailsBare s (cmdFlowClose.body c s) := by
  dsimp only [cmdFlowClose, bodyFlowClose]
  (repeat' split) <;> simp
@[simp] theorem cmdFlowShape_failsBare : FailsBare s (cmdFlowShape.body c s) := by
  dsimp only [cmdFlowShape, bodyFlowShape]
  (repeat' split) <;> simp
@[simp] theorem cmdClassShape_failsBare : FailsBare s (cmdClassShape.body c s) := by
  dsimp only [cmdClassShape, bodyClassShape]
  (repeat' split) <;> simp
@[simp] theorem cmdEgressConfig_failsBare : FailsBare s (cmdEgressConfig.body c s) := by simp [cmdEgressConfig, bodyEgressConfig]
@[simp] theorem cmdFlowStats_failsBare : FailsBare s (cmdFlowStats.body c s) := by
  dsimp only [cmdFlowStats, bodyFlowStats]
  (repeat' split) <;> simp
@[simp] theorem cmdMailboxRead_failsBare : FailsBare s (cmdMailboxRead.body c s) := by simp [cmdMailboxRead, bodyMailboxRead]


/-! System, calibration, clocks, power and diagnostics. -/
@[simp] theorem cmdEventRead_failsBare : FailsBare s (cmdEventRead.body c s) := failsBare_okay ..
@[simp] theorem cmdEventMask_failsBare : FailsBare s (cmdEventMask.body c s) := by simp [cmdEventMask, bodyEventMask]
@[simp] theorem cmdStageReset_failsBare : FailsBare s (cmdStageReset.body c s) := failsBare_ok ..
@[simp] theorem cmdPatchLoad_failsBare : FailsBare s (cmdPatchLoad.body c s) := by simp [cmdPatchLoad, bodyPatchLoad]
@[simp] theorem cmdCueSet_failsBare : FailsBare s (cmdCueSet.body c s) := by simp [cmdCueSet, bodyCueSet]
@[simp] theorem cmdCueCancel_failsBare : FailsBare s (cmdCueCancel.body c s) := failsBare_okay ..
@[simp] theorem cmdCueList_failsBare : FailsBare s (cmdCueList.body c s) := failsBare_okay ..
@[simp] theorem cmdCalPolicy_failsBare : FailsBare s (cmdCalPolicy.body c s) := by simp [cmdCalPolicy, bodyCalPolicy]
@[simp] theorem cmdCalRun_failsBare : FailsBare s (cmdCalRun.body c s) := by simp [cmdCalRun, bodyCalRun]
@[simp] theorem cmdCalTableRead_failsBare : FailsBare s (cmdCalTableRead.body c s) := failsBare_okay ..
@[simp] theorem cmdRefConfig_failsBare : FailsBare s (cmdRefConfig.body c s) := by simp [cmdRefConfig, bodyRefConfig]
@[simp] theorem cmdSamplePlan_failsBare : FailsBare s (cmdSamplePlan.body c s) := by simp [cmdSamplePlan, bodySamplePlan]
@[simp] theorem cmdClockOut_failsBare : FailsBare s (cmdClockOut.body c s) := by simp [cmdClockOut, bodyClockOut]
@[simp] theorem cmdSyncArm_failsBare : FailsBare s (cmdSyncArm.body c s) := by simp [cmdSyncArm, bodySyncArm]
@[simp] theorem cmdFreqTrim_failsBare : FailsBare s (cmdFreqTrim.body c s) := by simp [cmdFreqTrim, bodyFreqTrim]
@[simp] theorem cmdPowerPolicy_failsBare : FailsBare s (cmdPowerPolicy.body c s) := by simp [cmdPowerPolicy, bodyPowerPolicy]
@[simp] theorem cmdGhost_failsBare : FailsBare s (cmdGhost.body c s) := by simp [cmdGhost, bodyGhost]
@[simp] theorem cmdLifecycleAdvance_failsBare : FailsBare s (cmdLifecycleAdvance.body c s) := by
  dsimp only [cmdLifecycleAdvance, bodyLifecycleAdvance]
  (repeat' split) <;> simp
@[simp] theorem cmdRetainedWipe_failsBare : FailsBare s (cmdRetainedWipe.body c s) := by simp [cmdRetainedWipe, bodyRetainedWipe]
@[simp] theorem cmdFaultLogRead_failsBare : FailsBare s (cmdFaultLogRead.body c s) := failsBare_okay ..
@[simp] theorem cmdCounters_failsBare : FailsBare s (cmdCounters.body c s) := failsBare_okay ..
@[simp] theorem cmdSnapshot_failsBare : FailsBare s (cmdSnapshot.body c s) := by simp [cmdSnapshot, bodySnapshot]
@[simp] theorem cmdSelftest_failsBare : FailsBare s (cmdSelftest.body c s) := failsBare_okay ..


/-! The commands that only report. -/

@[simp] theorem cmdNop_failsBare : FailsBare s (cmdNop.body c s) := failsBare_okay ..
@[simp] theorem cmdIdentify_failsBare : FailsBare s (cmdIdentify.body c s) := failsBare_okay ..
@[simp] theorem cmdTimeRead_failsBare : FailsBare s (cmdTimeRead.body c s) := failsBare_okay ..
@[simp] theorem cmdCalStatus_failsBare : FailsBare s (cmdCalStatus.body c s) := failsBare_okay ..
@[simp] theorem cmdClockStatus_failsBare : FailsBare s (cmdClockStatus.body c s) := failsBare_okay ..
@[simp] theorem cmdCapacityStatus_failsBare : FailsBare s (cmdCapacityStatus.body c s) := failsBare_okay ..
@[simp] theorem cmdSupplyStatus_failsBare : FailsBare s (cmdSupplyStatus.body c s) := failsBare_okay ..
@[simp] theorem cmdLifecycleRead_failsBare : FailsBare s (cmdLifecycleRead.body c s) := failsBare_okay ..
@[simp] theorem cmdTemperature_failsBare : FailsBare s (cmdTemperature.body c s) := failsBare_okay ..

end

/-- Every command of a host row but `PATCH_COMMIT` fails bare. -/
theorem body_failsBare {i : Instr} {k : Cmd} {tag : Byte} {p : List Byte} (row : hostCommand i = some (k, tag, p)) (notCommit : k.opc ≠ 0x06)
    (c : Call) (s : State) : FailsBare s (k.body c s) := by
  cases i <;> cases row
  case patchCommit => exact absurd rfl notCommit
  all_goals simp

/-- Settles O10: `body_failsBare` for the command of the row, whose shared checks fail bare too. -/
theorem failedCommandHasNoEffect : Obligations.FailedCommandHasNoEffect := by
  intro i k tag p s row turn notCommit notOk notPending
  rw [exec_eq_hostRow s row]
  exact row_failsBare turn (serve_failsBare (body_failsBare row notCommit _ s)) notOk notPending

/-! ### Receipt while the manager is busy, and opcodes outside the map (R35, R359, R379) -/

/-- A manager that is not free leaves every packet to receipt. -/
theorem packetRow_busy {run : State → State} {pkt : Packet} {s : State} (busy : managerFree s = false) :
    packetRow run pkt s = receive pkt s := by
  unfold packetRow
  split <;> simp [busy]

theorem receive_queues {pkt : Packet} {s : State} (acked : acceptsOpc s = true) (whole : pkt.param.length ≤ 250)
    (room : s.link.queue.length < 4) : receive pkt s = { s with link := { s.link with queue := s.link.queue ++ [pkt] } } := by
  simp [receive, acked, Nat.not_lt.mpr whole, Nat.not_le.mpr room]

theorem receive_full {pkt : Packet} {s : State} (acked : acceptsOpc s = true) (whole : pkt.param.length ≤ 250)
    (full : 4 ≤ s.link.queue.length) : receive pkt s = replied s stQueueFull pkt.tag [] := by
  simp [receive, acked, Nat.not_lt.mpr whole, full, putReply_replied (fifo_room acked)]

/-- Settles O11: a busy manager leaves the packet to `receive`, which queues it or answers `QUEUE_FULL`. -/
theorem busyManagerQueuesHostCommand : Obligations.BusyManagerQueuesHostCommand := by
  intro i k tag p s row acked whole busy
  rw [exec_eq_hostRow s row, hostRow, packetRow_busy busy]
  exact ⟨fun room => congrArg _ (receive_queues acked whole room), fun full => congrArg _ (receive_full acked whole full)⟩

theorem cmdOf_unmapped {opc : Byte} (unmapped : opc ∉ opcodeMap) : cmdOf opc = none := by
  have opcodes : ∀ k ∈ allCmds, k.opc ∈ opcodeMap := by decide
  refine List.find?_eq_none.mpr fun k mem same => unmapped ?_
  rw [← eq_of_beq same]
  exact opcodes k mem

/-- Settles O12: no command has the opcode; a vendor test is refused by name unless the domain refuses every such opcode first. -/
theorem undefinedOpcodeIsRefusedByName : Obligations.UndefinedOpcodeIsRefusedByName := by
  intro opc tag p s unmapped turn
  have room := fifo_room turn.2.2.1
  have runs (run : State → State) : packetRow run { opc := opc, tag := tag, param := p } s = run s := packetRow_turn turn
  have taken : packetRuns { opc := opc, tag := tag, param := p } s = true := by
    obtain ⟨empty, free, acked, whole⟩ := turn
    simp [packetRuns, empty, free, acked, whole]
  have exec_eq : exec (.undefinedOpcode opc tag p) s = if vendorOpcode s opc then vendorRow { opc := opc, tag := tag, param := p } s
      else .next (packetRow (runUnknown tag) { opc := opc, tag := tag, param := p } s) := by
    simp [exec, execUndefinedOpcode, cmdOf_unmapped unmapped]
  rw [exec_eq]
  refine ⟨fun other => ?_, fun vendor => ?_⟩
  · have notVendor : vendorOpcode s opc = false := by simpa [vendorOpcode] using other
    simp [notVendor, runs, runUnknown, putReply_replied room]
  · have isVendor : vendorOpcode s opc = true := by simpa [vendorOpcode] using vendor
    have low : ∀ x ∈ backupOpcodes, x.toNat < 0xF0 := by decide
    have bare : opc ∉ backupOpcodes := fun mem => absurd (low opc mem) (by omega)
    simp only [isVendor, if_true]
    refine ⟨fun gated => ?_, fun running => ?_⟩
    · have refuses : domainRefuses s opc = true := by simp [domainRefuses, gated, bare]
      simp [vendorRow, taken, refuses, runs, putReply_replied room]
    · have lets : domainRefuses s opc = false := by simp [domainRefuses, running]
      simp [vendorRow, taken, lets]

end Sys2Proof.Machine

/-! The commands that only report: every domain state, the main domain's units, and diagnostics. -/

namespace Sys2Proof.Machine

/-! ### Reads in every domain state (Table 17-6) -/

section
variable {k : Cmd} {tag : Byte} {p pl : List Byte} {s u : State}

/-- The shared checks of a command of Table 17-6 leave the answer to its body. -/
theorem serve_backup_body (listed : backupOpcodes.contains k.opc = true) (len : k.len p = true) (ids : k.ids s p = true)
    (body : k.body (hostCall tag p) s = okay pl u) : serve k (hostCall tag p) s = okay pl u :=
  (serve_backup listed len ids).trans body

/-- The shared checks of a ready main domain leave the answer to the body of the command. -/
theorem serve_main_body (turn : MainTurn s p) (len : k.len p = true) (ids : k.ids s p = true)
    (body : k.body (hostCall tag p) s = okay pl u) : serve k (hostCall tag p) s = okay pl u :=
  (serve_main turn len ids).trans body

theorem row_reads_main (turn : MainTurn s p) (len : k.len p = true) (ids : k.ids s p = true)
    (body : k.body (hostCall tag p) s = okay pl s) : hostRow k tag p s = .next (replied s stOk tag pl) :=
  row_reads turn.1 (serve_main_body turn len ids body)

theorem row_reads_backup (turn : HostTurn s p) (listed : backupOpcodes.contains k.opc = true) (len : k.len p = true)
    (ids : k.ids s p = true) (body : k.body (hostCall tag p) s = okay pl s) : hostRow k tag p s = .next (replied s stOk tag pl) :=
  row_reads turn (serve_backup_body listed len ids body)

end

/-- Settles O14: the six opcodes stand in Table 17-6, and each body is `okay` of its report. -/
theorem backupReadsReportAndChangeNothing : Obligations.BackupReadsReportAndChangeNothing := fun _ _ turn =>
  ⟨row_reads_backup turn (by decide) rfl rfl rfl, row_reads_backup turn (by decide) rfl rfl rfl,
    row_reads_backup turn (by decide) rfl rfl rfl, row_reads_backup turn (by decide) rfl rfl rfl,
    row_reads_backup turn (by decide) rfl rfl rfl, row_reads_backup turn (by decide) rfl rfl rfl⟩

/-! ### Reads of the main domain -/

theorem lenIn_of_eq {l : List Nat} {p : List Byte} {n : Nat} (len : p.length = n) (listed : l.contains n = true) : lenIn l p = true := by
  unfold lenIn
  rw [len]
  exact listed

section
variable {s : State} {n : Nat}

theorem laneExists_of_some {l : Lane} (here : laneAt s n = some l) : laneExists s n = true := by simp [laneExists, here]

theorem engineExists_of_some {x : Engine} (here : engineAt s n = some x) : engineExists s n = true := by simp [engineExists, here]

end

section
variable {tag : Byte} {p : List Byte} {s : State}

theorem bodyLaneStatus_of_lane {l : Lane} (here : laneAt s (p1 p 0) = some l) :
    bodyLaneStatus (hostCall tag p) s = okay (laneStatusBytes s (p1 p 0) l) s := by
  simp [bodyLaneStatus, hostCall, here]

theorem bodyDabEngineStatus_of_engine {x : Engine} (here : engineAt s (p1 p 0) = some x) : bodyDabEngineStatus (hostCall tag p) s =
    if p1 p 1 = 0xFF then okay (engineStatusBytes s x) s else okay (subchBytes s (p1 p 0) x.model (p1 p 1)) s := by
  simp only [bodyDabEngineStatus, hostCall, here]
  rfl

theorem bodyServiceList_reads : bodyServiceList (hostCall tag p) s = okay (bodyServiceList (hostCall tag p) s).payload s := by
  unfold bodyServiceList
  dsimp only
  split <;> rfl

theorem bodyServiceInfo_of_station {r : Station} (fm : domainFm p = true)
    (known : s.rds.stations.find? (fun x => x.valid && x.pi == BitVec.ofNat 16 (rd p 1 2)) = some r) :
    bodyServiceInfo (hostCall tag p) s = okay (stationBytes s r) s := by
  simp only [bodyServiceInfo, hostCall, fm, known, if_true]

theorem bodyServiceInfo_of_component {e : Nat} {x : Engine} {k : Component} (dab : domainFm p = false)
    (found : resolve s (infoKey p) = some e) (here : engineAt s e = some x) (component : compOf s e (infoKey p) = some k) :
    bodyServiceInfo (hostCall tag p) s = okay (dabRecord e x.model k) s := by
  simp [bodyServiceInfo, hostCall, dab, found, here, component]

theorem bodyProgramStatus_of_program {x : Program} (here : progAt s (p1 p 0) = some x) :
    bodyProgramStatus (hostCall tag p) s = okay (programStatusBytes s (p1 p 0) x) s := by
  simp [bodyProgramStatus, hostCall, here]

theorem bodyPortStatus_of_port {x : Port} (here : s.ports.tdm[p1 p 0]? = some x) :
    bodyPortStatus (hostCall tag p) s = okay (portStatusBytes s (p1 p 0) x) s := by
  simp [bodyPortStatus, hostCall, here]

theorem bodyPortStatus_of_spdif (noPort : s.ports.tdm[p1 p 0]? = none) :
    bodyPortStatus (hostCall tag p) s = okay (spdifStatusBytes s.ports.spdif) s := by
  simp [bodyPortStatus, hostCall, noPort]

theorem bodyFlowStats_of_flow {f : Flow} (here : flowAt s (rd p 0 2) = some f) :
    bodyFlowStats (hostCall tag p) s = okay (flowStatsBytes f) s := by
  simp [bodyFlowStats, hostCall, here]

theorem bodySnapshot_reads (receives : (inputAt s (p1 p 0)).receiving = true) :
    bodySnapshot (hostCall tag p) s = okay (bodySnapshot (hostCall tag p) s).payload s := by
  simp only [bodySnapshot, hostCall, receives]
  rfl

end

/-- Settles O15: the lemmas above say what each body reports of the unit that it names. -/
theorem mainDomainReadsReportAndChangeNothing : Obligations.MainDomainReadsReportAndChangeNothing := by
  intro tag p s turn
  refine ⟨fun len => row_reads_main turn (lenIn_of_eq len rfl) rfl rfl, fun len => row_reads_main turn (lenIn_of_eq len rfl) rfl rfl,
    fun l len here => row_reads_main turn (lenIn_of_eq len rfl) (laneExists_of_some here) (bodyLaneStatus_of_lane here),
    fun x len here whole => ?_, fun x len here subchannel => ?_, fun len above below => ?_,
    fun len => row_reads_main turn (lenIn_of_eq len rfl) rfl bodyServiceList_reads,
    fun r len fm known => row_reads_main turn len rfl (bodyServiceInfo_of_station fm known),
    fun e x k len dab found here component => row_reads_main turn len rfl (bodyServiceInfo_of_component dab found here component),
    fun x len here => row_reads_main turn (lenIn_of_eq len rfl) (programExists_of_some here) (bodyProgramStatus_of_program here),
    fun x len port here => row_reads_main turn (lenIn_of_eq len rfl) (decide_eq_true port) (bodyPortStatus_of_port here),
    fun len port noPort => row_reads_main turn (lenIn_of_eq len rfl) (decide_eq_true port) (bodyPortStatus_of_spdif noPort),
    fun f len here => row_reads_main turn (lenIn_of_eq len rfl) (flowExists_of_flowAt here) (bodyFlowStats_of_flow here),
    fun len bonds => row_reads_main turn (lenIn_of_eq len rfl) bonds rfl,
    fun empty => row_reads_main turn (lenIn_of_eq (congrArg _ empty) rfl) rfl rfl,
    fun empty => row_reads_main turn (lenIn_of_eq (congrArg _ empty) rfl) rfl rfl,
    fun len bonds receives => row_reads_main turn (lenIn_of_eq len rfl) bonds (bodySnapshot_reads receives)⟩
  · have ids : cmdDabEngineStatus.ids s p = true := by simp [cmdDabEngineStatus, engineExists_of_some here, whole]
    exact row_reads_main turn (lenIn_of_eq len rfl) ids ((bodyDabEngineStatus_of_engine here).trans (if_pos whole))
  · have ids : cmdDabEngineStatus.ids s p = true := by simp [cmdDabEngineStatus, engineExists_of_some here, subchannel]
    exact row_reads_main turn (lenIn_of_eq len rfl) ids ((bodyDabEngineStatus_of_engine here).trans (if_neg (by omega)))
  · have ids : cmdDabEngineStatus.ids s p = false := by
      simp only [cmdDabEngineStatus, Bool.and_eq_false_iff, Bool.or_eq_false_iff, decide_eq_false_iff_not, beq_eq_false_iff_ne]
      omega
    exact row_fails turn.1 (serve_notInVariant (lockedLife_main turn.2.2) (lenIn_of_eq len rfl) ids)

/-! ### SELFTEST (R440) -/

/-- An answered command leaves its reply at the end of the FIFO. -/
theorem Answered.fifo {v u : State} {st : Nat} {tag : Byte} {pl : List Byte} (h : Answered v st tag pl u)
    (room : u.link.fifo.length < 4) : v.link.fifo = u.link.fifo ++ [{ status := byte st, tag := tag, payload := pl }] := by
  obtain ⟨w, rfl | rfl, rfl⟩ := h
  · rw [putReply_room room]
  · rw [putReply_room (s := sceneChange u) room]
    rfl

/-- The reply of `SELFTEST` has the 6 bytes of its four fields (R440). -/
theorem bodySelftest_payload_length (c : Call) (s : State) : (bodySelftest c s).payload.length = 6 := rfl

/-- The reset state become ready. -/
def readyState : State := { State.reset with reset_ := { State.reset.reset_ with domain := .ready } }

theorem readyState_turn : MainTurn readyState [] := ⟨⟨rfl, rfl, rfl, by decide⟩, rfl, by decide⟩

/-- Refutes O16: the last clause asks for a `SELFTEST` reply of 4 bytes. The reply has `tests`, `failed`, `detail` and `duration_ms`,
6 bytes (R440), and so it has in the model. -/
theorem not_diagnosticReadsAnswer : ¬ Obligations.DiagnosticReadsAnswer := by
  intro h
  obtain ⟨-, -, -, selftest⟩ := h 0 [] readyState
  obtain ⟨pl, four, -, v, row, answered⟩ := selftest readyState_turn (Nat.zero_le 1)
  obtain ⟨w, row6, answered6⟩ := row_okay readyState_turn.1
    (serve_main_body (k := cmdSelftest) (tag := 0) readyState_turn rfl rfl rfl)
  obtain rfl : v = w := Host.Outcome.next.inj (row.symm.trans row6)
  have same := (answered.fifo (by decide)).symm.trans (answered6.fifo (by decide))
  obtain rfl : pl = (bodySelftest (hostCall 0 []) readyState).payload := congrArg Reply.payload (List.cons.inj (List.append_cancel_left same)).1
  cases four.symm.trans (bodySelftest_payload_length _ _)

/-! ### INTEGRITY_COUNTERS (R437) -/

/-- The counters after a clear: those from `first` on are 0, the others stay. -/
theorem clearCounters_getD (first n i : Nat) (s : State) : (clearCounters first n s).integ.counters.getD i 0 =
    if first ≤ i ∧ i < first + n then 0 else s.integ.counters.getD i 0 := by
  simp only [clearCounters, List.getD_eq_getElem?_getD, getElem?_mapIdx, decide_eq_true_eq]
  cases s.integ.counters[i]? <;> simp

theorem bodyCounters_ends (tag : Byte) (p : List Byte) (s : State) : bodyCounters (hostCall tag p) s =
    okay ([byte (min 31 (p1 p 0)), byte (min (32 - min 31 (p1 p 0)) (clampNat 1 60 (p1 p 1))), 0, 0] ++
      ((s.integ.counters.drop (min 31 (p1 p 0))).take (min (32 - min 31 (p1 p 0)) (clampNat 1 60 (p1 p 1)))).flatMap (le 4))
      (if p.length = 3 ∧ p1 p 2 = 1 then clearCounters (min 31 (p1 p 0)) (min (32 - min 31 (p1 p 0)) (clampNat 1 60 (p1 p 1))) s
       else s) := rfl

/-- Settles O17: the body clears exactly the counters that it returns, where `clear` is 1. -/
theorem integrityCountersClearOnlyTheReturned : Obligations.IntegrityCountersClearOnlyTheReturned := by
  rintro tag p s first n turn len - rfl rfl
  refine ⟨_, row_okay turn.1 (serve_main_body (k := cmdCounters) turn (by simpa [cmdCounters, lenIn] using len) rfl
    (bodyCounters_ends tag p s)), fun i _ => ?_, fun keep => if_neg keep⟩
  generalize min 31 (p1 p 0) = first
  generalize min (32 - first) (clampNat 1 60 (p1 p 1)) = n
  by_cases clear : p.length = 3 ∧ p1 p 2 = 1
  · rw [if_pos clear, clearCounters_getD]
    simp only [clear.1, clear.2, true_and]
  · rw [if_neg clear, if_neg fun h => clear ⟨h.1, h.2.1⟩]

end Sys2Proof.Machine

/-! A start of the main domain, and the commands of the system: `STAGE_RESET`, the patch, cues and flows. -/

namespace Sys2Proof.Machine

/-! ### What a start of the main domain leaves (R476, R484, R518) -/

theorem closeBlackoutFaults_handles (s : State) : Handles s (closeBlackoutFaults s) := by
  have logged (u : State) : Reports s u → Reports s ((s.integ.recoveries.filter blackoutFault).foldl (fun v r => logRec r 6 0 v) u) :=
    fun h => foldl_inv (Reports s) _ _ _ h fun _ r hv => hv.trans (logRec_reports r 6 0 _)
  exact (handles_of_reports (logged _ (setRecs_reports _ s))).trans (slotFree_handles _)

/-- The part, the supplies, the link, the retained bank, the instant, the draws, the record of resets and the watch's configuration stay. -/
def ResetFrame (s t : State) : Prop :=
  t.chip = s.chip ∧ t.supply = s.supply ∧ t.link = s.link ∧ t.retained = s.retained ∧ t.now = s.now ∧
  t.draws = s.draws ∧ t.reset_ = s.reset_ ∧ t.ghost.cfg = s.ghost.cfg

theorem ResetFrame.trans {s t u : State} (h : ResetFrame s t) (k : ResetFrame t u) : ResetFrame s u := by
  simp_all [ResetFrame]

theorem Handles.resetFrame {s t : State} (h : Handles s t) : ResetFrame s t := by
  rw [h.1]
  exact ⟨rfl, rfl, rfl, rfl, rfl, rfl, rfl, rfl⟩

theorem endWatch_resetFrame (s : State) : ResetFrame s (endWatch s) := by
  unfold endWatch
  split <;> exact ⟨rfl, rfl, rfl, rfl, rfl, rfl, rfl, rfl⟩

/-- What `startMain` wipes: the recoveries have moved, the watch has ended, the main domain's faults are closed. -/
def unwiped (s : State) : State :=
  endMainFaults (endWatch (becomesRunnable 0x20 0 (becomesRunnable 0x10 0 (if s.reset_.domain = .blackout then closeBlackoutFaults s else s))))

theorem unwiped_resetFrame (s : State) : ResetFrame s (unwiped s) := by
  have closed : Handles s (if s.reset_.domain = .blackout then closeBlackoutFaults s else s) := by
    split
    · exact closeBlackoutFaults_handles s
    · exact Handles.refl s
  exact (((closed.trans (becomesRunnable_handles 0x10 0 _)).trans (becomesRunnable_handles 0x20 0 _)).resetFrame.trans
    (endWatch_resetFrame _)).trans (handles_of_reports (endMainFaults_reports _)).resetFrame

/-- The rest of `startMain`: the main domain is wiped, what the link holds is discarded, and the reset is recorded. -/
def wipedStart (cause : ResetCause) (skip : Bool) (u : State) : State :=
  let s1 := discardLink (wipeMain u)
  let r := s1.reset_
  setDomain .starting { s1 with
    reset_ := { r with offCause := .none, cause := cause, skipScene := skip, doneQueued := false,
                       sceneBarred := (cause == .watchdog || cause == .ramError) && r.reapplying,
                       coreChain := chainAfter r s1.now cause, reapplying := false, coolSince := none, blackoutCode := none },
    retained := { s1.retained with alertLog := { s1.retained.alertLog with
      returnAt := if cause == .mainReturn || cause == .thermal then some s1.now else s1.retained.alertLog.returnAt } },
    integ := { s1.integ with holding := s1.integ.holding || cause == .watchdog || cause == .ramError } }

theorem startMain_eq (cause : ResetCause) (skip : Bool) (s : State) : startMain cause skip s = wipedStart cause skip (unwiped s) := rfl

theorem startMain_leaves (cause : ResetCause) (skip : Bool) (s : State) :
    (startMain cause skip s).chip = s.chip ∧ (startMain cause skip s).supply = s.supply ∧ (startMain cause skip s).draws = s.draws ∧
    (startMain cause skip s).link.address = s.link.address ∧ (startMain cause skip s).ghost.cfg = s.ghost.cfg ∧
    (startMain cause skip s).retained = { s.retained with alertLog := { s.retained.alertLog with
      returnAt := if cause == .mainReturn || cause == .thermal then some s.now else s.retained.alertLog.returnAt } } := by
  obtain ⟨chip, supply, link, retained, now, draws, -, cfg⟩ := unwiped_resetFrame s
  rw [startMain_eq, ← chip, ← supply, ← link, ← retained, ← now, ← draws, ← cfg]
  generalize unwiped s = u
  exact ⟨rfl, rfl, rfl, rfl, rfl, rfl⟩

theorem startMain_wipes (cause : ResetCause) (skip : Bool) (s : State) :
    (startMain cause skip s).cues = [] ∧ (startMain cause skip s).held = [] ∧
    (startMain cause skip s).lanes = Lanes.reset s.chip.variant ∧ (startMain cause skip s).dab = Dab.reset s.chip.variant ∧
    (startMain cause skip s).progs = List.replicate s.chip.variant.programs Program.stopped := by
  obtain ⟨chip, -⟩ := unwiped_resetFrame s
  rw [startMain_eq, ← chip]
  generalize unwiped s = u
  exact ⟨rfl, rfl, rfl, rfl, rfl⟩

/-- The record of the reset: whether the scene is skipped, and the chain of core failures. -/
theorem startMain_reset (cause : ResetCause) (skip : Bool) (s : State) : (startMain cause skip s).reset_.skipScene = skip ∧
    (startMain cause skip s).reset_.coreChain = chainAfter s.reset_ s.now cause := by
  obtain ⟨-, -, -, -, now, -, record, -⟩ := unwiped_resetFrame s
  rw [startMain_eq, ← now, ← record]
  generalize unwiped s = u
  exact ⟨rfl, rfl⟩

/-! ### STAGE_RESET, PATCH_LOAD and PATCH_COMMIT (R393, R394) -/

section
variable {tag : Byte} {p : List Byte} {s : State} (turn : MainTurn s p)
include turn

theorem serve_stageReset (len : p.length ≤ 1) : serve cmdStageReset (hostCall tag p) s =
    { status := stOk, payload := [], state := startMain .command (p1 p 0 == 1 && p.length == 1) s, silent := true } := by
  have short : cmdStageReset.len p = true := by
    rcases Nat.le_one_iff_eq_zero_or_eq_one.mp len with zero | one
    · exact lenIn_of_eq zero rfl
    · exact lenIn_of_eq one rfl
  exact serve_main turn short rfl

theorem serve_patchLoad (long : 5 ≤ p.length) (short : p.length ≤ 248) :
    serve cmdPatchLoad (hostCall tag p) s = bodyPatchLoad (hostCall tag p) s :=
  serve_main turn (by simp [cmdPatchLoad, hostCall, long, short]) rfl

theorem serve_patchLoad_loads (long : 5 ≤ p.length) (short : p.length ≤ 248) (before : s.mgr.rxStartedSinceReset = false)
    (legal : offsetLegal s.mgr (rd p 0 4) = true) (room : rd p 0 4 + (p.length - 4) ≤ 65536) :
    serve cmdPatchLoad (hostCall tag p) s = okay (le 4 (loadImage s.mgr.patch (p.drop 4) (rd p 0 4)).length)
      { s with mgr := { s.mgr with patch := loadImage s.mgr.patch (p.drop 4) (rd p 0 4),
                                   commitFailed := s.mgr.commitFailed && rd p 0 4 != 0 } } := by
  rw [serve_patchLoad turn long short]
  simp [bodyPatchLoad, hostCall, before, legal, Nat.not_lt.mpr room]

theorem serve_patchLoad_late (long : 5 ≤ p.length) (short : p.length ≤ 248) (after : s.mgr.rxStartedSinceReset = true) :
    serve cmdPatchLoad (hostCall tag p) s = fail stWrongState s := by
  rw [serve_patchLoad turn long short]
  simp [bodyPatchLoad, after]

theorem serve_patchCommit (len : p.length = 8) : serve cmdPatchCommit (hostCall tag p) s = bodyPatchCommit (hostCall tag p) s :=
  serve_main turn (lenIn_of_eq len rfl) rfl

theorem serve_patchCommit_late (len : p.length = 8) (after : s.mgr.rxStartedSinceReset = true) :
    serve cmdPatchCommit (hostCall tag p) s = fail stWrongState s := by
  rw [serve_patchCommit turn len]
  simp [bodyPatchCommit, after]

/-- The image is committed, or the failure is remembered. -/
theorem serve_patchCommit_judges (len : p.length = 8) (before : s.mgr.rxStartedSinceReset = false) :
    serve cmdPatchCommit (hostCall tag p) s = if patchPasses s.mgr.patch p
      then okay (le 2 (Config.patchVersion s.mgr.patch).toNat ++ le 2 Config.romVersion.toNat)
        { s with mgr := { s.mgr with committed := true, patchVersion := Config.patchVersion s.mgr.patch, commitFailed := false } }
      else fail stWrongState { s with mgr := { s.mgr with commitFailed := true } } := by
  rw [serve_patchCommit turn len]
  simp [bodyPatchCommit, hostCall, before]

end

/-- Settles O19: a stage reset is `startMain` of cause command; the patch commands end as the lemmas above say. -/
theorem stageResetAndPatchCommands : Obligations.StageResetAndPatchCommands := by
  intro tag p s turn
  refine ⟨fun len => ?_, fun long short before legal room => row_okay turn.1 (serve_patchLoad_loads turn long short before legal room),
    ?_, fun after => ⟨fun long short => row_fails turn.1 (serve_patchLoad_late turn long short after),
      fun len => row_fails turn.1 (serve_patchCommit_late turn len after)⟩⟩
  · obtain ⟨domain, cause, -, -⟩ := startMain_starts .command (p1 p 0 == 1 && p.length == 1) s
    obtain ⟨skip, -⟩ := startMain_reset .command (p1 p 0 == 1 && p.length == 1) s
    obtain ⟨queue, fifo⟩ := startMain_link .command (p1 p 0 == 1 && p.length == 1) s
    obtain ⟨cues, -, lanes, dab, progs⟩ := startMain_wipes .command (p1 p 0 == 1 && p.length == 1) s
    exact ⟨_, row_silent turn.1 (serve_stageReset turn len) (by simp [domain]), domain, cause, skip, queue, fifo, cues, lanes, dab,
      fun x mem => List.eq_of_mem_replicate (progs ▸ mem)⟩
  · rintro m len before rfl
    have served := serve_patchCommit_judges (tag := tag) turn len before
    by_cases passes : patchPasses s.mgr.patch p = true
    · simp only [passes, if_true] at served ⊢
      exact row_okay turn.1 served
    · simp only [passes, if_false, Bool.false_eq_true] at served ⊢
      exact row_answers turn.1 served rfl rfl rfl rfl rfl rfl

/-! ### Cues (R29, R31, R395, R396) -/

/-- The cues that a `CUE_CANCEL` leaves: none for 0xFF, else those of other identifiers. -/
theorem keptCues_eq (x : Nat) (l : List Cue) :
    (if x = 0xFF then [] else l.filter fun q => q.id != x) = l.filter fun q => x != 0xFF && q.id != x := by
  by_cases all : x = 0xFF
  · simp [all]
  · simp [all, bne_iff_ne.mpr all]

/-- The cue that a `CUE_SET` packet asks for. -/
def askedCue (s : State) (p : List Byte) : Cue :=
  let q := carried p
  let packet : Packet := { opc := q.getD 0 0, tag := q.getD 1 0, param := (q.drop 3).take (p1 q 2) }
  { id := if p1 p 0 = 0xFF then (freeCue s).getD 0 else p1 p 0, target := BitVec.ofNat 32 (rd p 1 4), packet := packet,
    late := cueSetLate s (BitVec.ofNat 32 (rd p 1 4)) packet }

section
variable {tag : Byte} {p : List Byte} {s : State} (turn : MainTurn s p)
include turn

theorem serve_cueSet_stores (long : 9 ≤ p.length) (id : cueId (p1 p 0) = true) (checked : carriedCheck s p = stOk) :
    serve cmdCueSet (hostCall tag p) s =
      okay (byte (askedCue s p).id :: le 4 (askedCue s p).target.toNat ++ le 4 s.time.dfc.toNat ++ [bflag (!inFuture s (askedCue s p).target)])
        { s with cues := insertCue (askedCue s p) s.cues } := by
  rw [serve_main turn (by simp [cmdCueSet, hostCall, long, turn.1.2.2.2]) id]
  simp only [cmdCueSet, bodyCueSet, hostCall, checked, ne_eq, not_true, if_false]
  rfl

theorem serve_cueCancel (len : p.length = 1) (id : cueId (p1 p 0) = true) : serve cmdCueCancel (hostCall tag p) s =
    okay [byte (p1 p 0), byte (s.cues.length - (s.cues.filter fun q => p1 p 0 != 0xFF && q.id != p1 p 0).length)]
      { s with cues := s.cues.filter fun q => p1 p 0 != 0xFF && q.id != p1 p 0 } := by
  rw [serve_main turn (lenIn_of_eq len rfl) id, ← keptCues_eq]
  rfl

end

/-- Settles O20: the checked packet is stored as `askedCue`. -/
theorem cueSetStoresTheCarriedCommand : Obligations.CueSetStoresTheCarriedCommand := fun _ p s turn long id checked =>
  ⟨askedCue s p, rfl, rfl, rfl, rfl, rfl, rfl, row_okay turn.1 (serve_cueSet_stores turn long id checked)⟩

/-- Settles O21: the body filters the cues and changes nothing else. -/
theorem cueCancelRemovesPendingCues : Obligations.CueCancelRemovesPendingCues := fun _ _ _ turn len id =>
  row_okay turn.1 (serve_cueCancel turn len id)

/-! ### Flows (R348, R418, Table 12-1) -/

/-- Settles O32: a short open takes the defaults of its kind, and a free flow has nothing to close and reads zeros. -/
theorem freeFlowIsWrongStateToCloseAndReadsZero : Obligations.FreeFlowIsWrongStateToCloseAndReadsZero := by
  intro tag p s f turn flow
  refine ⟨fun len source free kind own live may => ?_, fun len free => row_fails turn.1 (serve_flowClose_free turn flow len free),
    fun len blank => ⟨?_, fun b mem => List.eq_of_mem_replicate mem⟩⟩
  · have short : (p.length == 8) = true := beq_iff_eq.mpr len
    refine ⟨openedFlow p, _, ?_, ?_, ?_, rfl, rfl, row_okay turn.1 (serve_flowOpen_opens turn flow (Or.inl len) source free kind own live may)⟩
    all_goals simp only [openedFlow, short, if_true]
  · subst blank
    exact row_reads_main turn (lenIn_of_eq len rfl) (flowExists_of_flowAt flow) (bodyFlowStats_of_flow flow)

end Sys2Proof.Machine

/-! The control link: whole packets, reads and broken transfers, self-resets, and the prompt (R350 to R378). -/

namespace Sys2Proof.Machine

/-! ### Receipt of a packet (R357 to R359) -/

section
variable {s : State} {bytes : List Byte} (powered : s.supply.backupOn = true)
include powered

section
variable (listens : s.link.ignoring = false)
include listens

theorem execCommandReceipt_listening : execCommandReceipt bytes s = .next (receiptOf bytes s) := by
  simp [execCommandReceipt, powered, listens]

theorem execReplyRead_listening (n : Nat) : execReplyRead n s = .next (readOf n s) := by
  simp [execReplyRead, powered, listens]

theorem execBrokenTransfer_startDuring (d : XferDir) : execBrokenTransfer (.startDuring d) s = .next (cutTransfer d s) := by
  simp [execBrokenTransfer, powered, listens]

theorem execBrokenTransfer_stopDuring (d : XferDir) : execBrokenTransfer (.stopDuring d) s = .next (cutTransfer d s) := by
  simp [execBrokenTransfer, powered, listens]

theorem execBrokenTransfer_readNotAcked (n : Nat) : execBrokenTransfer (.readNotAcked n) s = .next (readOf n s) := by
  simp [execBrokenTransfer, powered, listens]

end

/-- While the interface ignores the bus, only the STOP of a transfer counts (R366). -/
theorem execCommandReceipt_ignoring (ignores : s.link.ignoring = true) : execCommandReceipt bytes s = .next (busStop s) := by
  simp [execCommandReceipt, powered, ignores]

theorem execReplyRead_ignoring (ignores : s.link.ignoring = true) (n : Nat) : execReplyRead n s = .next (busStop s) := by
  simp [execReplyRead, powered, ignores]

theorem execBrokenTransfer_ignoring (ignores : s.link.ignoring = true) (d : XferDir) : execBrokenTransfer (.startDuring d) s = .next s := by
  simp [execBrokenTransfer, powered, ignores]

end

section
variable {s : State} {bytes : List Byte} (acked : acceptsOpc s = true)
include acked

/-- Fewer bytes than the packet has are counted (R358). -/
theorem receiptOf_partial (sent : bytes ≠ []) (short : bytes.length < 3 ∨ bytes.length < p1 bytes 2 + 4) :
    receiptOf bytes s = count 24 1 0 s := by
  have cut : bytes.length < 3 ∨ 250 < p1 bytes 2 ∨ bytes.length < p1 bytes 2 + 4 := by omega
  simp [receiptOf, acked, sent, cut]

section
variable (long : 4 ≤ bytes.length) (legal : p1 bytes 2 ≤ 250) (whole : p1 bytes 2 + 4 ≤ bytes.length)
include long legal whole

theorem receiptOf_whole : receiptOf bytes s = if crc8 (bytes.take (p1 bytes 2 + 4)) ≠ 0
    then count 23 1 0 (putReply { status := byte stBadCrc, tag := bytes.getD 1 0, payload := [] } s)
    else receive { opc := bytes.getD 0 0, tag := bytes.getD 1 0, param := (bytes.drop 3).take (p1 bytes 2) } s := by
  have sent : bytes.isEmpty = false := by
    rw [List.isEmpty_eq_false_iff, ne_eq, ← List.length_eq_zero_iff]
    omega
  have uncut : ¬(bytes.length < 3 ∨ 250 < p1 bytes 2 ∨ bytes.length < p1 bytes 2 + 4) := by omega
  simp [receiptOf, acked, sent, uncut]

theorem receiptOf_good (crc : crc8 (bytes.take (p1 bytes 2 + 4)) = 0) (room : s.link.queue.length < 4) :
    receiptOf bytes s = { s with link := { s.link with
      queue := s.link.queue ++ [{ opc := bytes.getD 0 0, tag := bytes.getD 1 0, param := (bytes.drop 3).take (p1 bytes 2) }] } } := by
  rw [receiptOf_whole acked long legal whole, if_neg (not_not_intro crc)]
  exact receive_queues acked ((List.length_take_le _ _).trans legal) room

theorem receiptOf_badCrc (crc : crc8 (bytes.take (p1 bytes 2 + 4)) ≠ 0) :
    receiptOf bytes s = count 23 1 0 (replied s stBadCrc (bytes.getD 1 0) []) := by
  rw [receiptOf_whole acked long legal whole, if_pos crc, putReply_replied (fifo_room acked)]

end

theorem cutTransfer_write {n : Nat} (sent : 0 < n) : cutTransfer (.write n) s = count 24 1 0 s := by
  simp [cutTransfer, acked, sent]

end

/-! ### Reads (R362, R363) -/

section
variable {s : State} {r : Reply} {rs : List Reply} {n : Nat} (head : s.link.fifo = r :: rs)
include head

theorem readOf_whole (whole : r.payload.length + 4 ≤ n) : readOf n s = { s with link := { s.link with fifo := rs } } := by
  simp [readOf, head, whole]

theorem readOf_cut (cut : n < r.payload.length + 4) : readOf n s = s := by
  simp [readOf, head, Nat.not_le.mpr cut]

end

theorem readOf_empty {s : State} (n : Nat) (empty : s.link.fifo = []) : readOf n s = s := by
  simp [readOf, empty]

/-- Settles O37: one lemma above for each way in which a transfer ends; the last two clauses are the branches of `REPLY_FIFO_ENTRY`. -/
theorem linkTransfersMoveWholePackets : Obligations.LinkTransfersMoveWholePackets := by
  intro s powered
  refine ⟨fun bytes listens acked long legal whole => ⟨fun crc room => ?_, fun crc => ?_⟩, fun bytes listens acked sent short => ?_,
    fun r rs n listens head => ⟨fun whole => ?_, fun cut => ?_⟩, fun n listens empty => ?_,
    fun n listens acked sent => ⟨?_, ?_⟩, fun r rs n listens head whole => ⟨?_, ?_, ?_⟩, ⟨?_, ?_⟩, fun r waits room => ?_, fun nothing => ?_⟩
  · exact (execCommandReceipt_listening powered listens).trans (congrArg _ (receiptOf_good acked long legal whole crc room))
  · refine ⟨_, execCommandReceipt_listening powered listens, ?_⟩
    rw [receiptOf_badCrc acked long legal whole crc]
    exact count_reports _ _ _ _
  · refine ⟨_, execCommandReceipt_listening powered listens, receiptOf_partial acked sent short, ?_⟩
    rw [receiptOf_partial acked sent short, count_reports 24 1 0 s]
  · exact (execReplyRead_listening powered listens n).trans (congrArg _ (readOf_whole head whole))
  · exact (execReplyRead_listening powered listens n).trans (congrArg _ (readOf_cut head cut))
  · exact (execReplyRead_listening powered listens n).trans (congrArg _ (readOf_empty n empty))
  · exact (execBrokenTransfer_startDuring powered listens _).trans (congrArg _ (cutTransfer_write acked sent))
  · exact (execBrokenTransfer_stopDuring powered listens _).trans (congrArg _ (cutTransfer_write acked sent))
  · exact (execBrokenTransfer_stopDuring powered listens _).trans (congrArg _ (readOf_whole head whole))
  · exact (execBrokenTransfer_startDuring powered listens _).trans (congrArg _ (readOf_whole head whole))
  · exact (execBrokenTransfer_readNotAcked powered listens n).trans (congrArg _ (readOf_whole head whole))
  · simp [exec, execBrokenTransfer, powered]
  · simp [exec, execBrokenTransfer, powered]
  · simp [exec, execReplyFifoEntry, waits, room]
  · simp [exec, execReplyFifoEntry, nothing]

/-! ### Self-resets (R369, R370, Table 18-5) -/

theorem startRec_reports {r : Recovery} (s : State) (notPort : r.rank ≠ 6) : Reports s (startRec r s) := by
  have started (phase : Nat) := (updRec_reports r.code r.inst (fun x => { x with phase := .running, ready := true }) s).trans
    (logRec_reports r phase 0 _)
  unfold startRec
  split
  · rw [freePort, if_neg notPort]
    exact started 5
  · exact started 1

/-- A fault of a rank below that of the ports moves records and recoveries alone: it aborts recoveries of lower ranks only. -/
theorem becomesRunnable_reports {s : State} {code inst : Nat} {r : Recovery} (here : recAt s code inst = some r) (low : 6 < r.rank) :
    Reports s (becomesRunnable code inst s) := by
  have ready := updRec_reports code inst (fun x => { x with ready := true }) s
  unfold becomesRunnable
  rw [here]
  dsimp only
  split
  · split
    · exact ready.trans (startRec_reports _ (by omega))
    · exact ready
  · split
    · exact Reports.refl s
    · split
      · next q _ _ aborts =>
        have lower : r.rank < q.rank := of_decide_eq_true (Bool.and_eq_true_iff.mp aborts).1
        exact (ready.trans (abortRec_reports _ _ (by omega))).trans (startRec_reports _ (by omega))
      · split
        · exact ready.trans ((updRec_reports _ _ _ _).trans (logRec_reports _ _ _ _))
        · exact ready

theorem recAt_congr {s t : State} (same : t.integ.recoveries = s.integ.recoveries) (code inst : Nat) : recAt t code inst = recAt s code inst := by
  rw [recAt, recAt, same]

theorem faultBegins_ready_reports (code inst a : Nat) (b : Int) (s : State) (low : 6 < rankOf code) :
    Reports s (faultBegins code inst a b true s) := by
  unfold faultBegins
  split
  · dsimp only
    split <;> exact (updRec_reports _ _ _ s).trans (logRec_reports _ _ _ _)
  · next absent =>
    dsimp only
    rw [if_pos rfl]
    refine ((setRecs_reports _ s).trans (logRec_reports _ 0 0 _)).trans (becomesRunnable_reports
      (r := { rank := rankOf code, code := code, inst := inst, phase := .waiting, detailA := a, detailB := b, ready := true }) ?_ low)
    rw [recAt_congr (recs_logRec _ _ _ _)]
    unfold recAt at absent
    simp [recAt, setRecs, absent, isRec]

/-- The interface ignores the bus, and nothing but records and counters changes. -/
theorem selfReset_reports (inst code : Nat) (s : State) (low : 6 < rankOf code) :
    Reports { s with link := { s.link with ignoring := true } } (selfReset inst code s) :=
  (count_reports _ _ _ _).trans (faultBegins_ready_reports _ _ _ _ _ low)

theorem selfReset_open (inst code : Nat) (s : State) : faultOpen (selfReset inst code s) code 0 = true := by
  simp [selfReset, faultOpen_begins]

theorem partialCounted_reports (write : Bool) (s : State) : Reports s (if write then count 24 1 0 s else s) :=
  ite_reports (count_reports _ _ _ _) (Reports.refl s)

/-- `Reports` looks at no part that a change of the link moves. -/
theorem Reports.withLink {s t : State} (h : Reports s t) (f : Link → Link) :
    Reports { s with link := f s.link } { t with link := f t.link } := by
  unfold Reports at h
  rw [h]
  rfl

theorem selfReset_afterPartial (write : Bool) (inst code : Nat) (s : State) (low : 6 < rankOf code) :
    Reports { s with link := { s.link with ignoring := true } } (selfReset inst code (if write then count 24 1 0 s else s)) :=
  ((partialCounted_reports write s).withLink fun l => { l with ignoring := true }).trans (selfReset_reports _ _ _ low)

/-- A STOP makes the interface listen again and ends the recovery of a self-reset. -/
theorem busStop_handles {s : State} (ignores : s.link.ignoring = true) :
    Handles { s with link := { s.link with ignoring := false } } (busStop s) := by
  rw [busStop, if_pos ignores]
  exact (faultEnds_handles 0xA0 0 2 _).trans (faultEnds_handles 0xA1 0 2 _)

/-! ### The prompt (R371, R372, R377) -/

/-- A due prompt that the domain allows is made, or abandoned when SCL falls; either restarts the schedule. -/
theorem execPrompt_due {s : State} (fell : Bool) (powered : s.supply.backupOn = true) (due : s.events.promptDue = true)
    (enabled : s.events.promptEnable = true) (high : s.supply.resetnLow = false) (allows : s.reset_.domain = .off ∨
      s.reset_.domain = .blackout ∨ (s.reset_.domain = .ready ∧ s.reset_.doneQueued = true)) : execPrompt fell s =
    .next { s with events := { s.events with promptDue := false, promptBase := s.now, promptsMade := s.events.promptsMade + flag (!fell) } } := by
  have allowed : promptAllowed s = true := by
    rcases allows with off | blackout | ⟨ready, done⟩
    · simp [promptAllowed, powered, high, off]
    · simp [promptAllowed, powered, high, blackout]
    · simp [promptAllowed, powered, high, ready, done]
  simp [execPrompt, due, enabled, allowed]

/-- Settles O38: a self-reset moves records alone and opens its fault; a STOP and the prompt act as the lemmas above say. -/
theorem busTimeoutsWaitForAStopAndPromptsAreMade : Obligations.BusTimeoutsWaitForAStopAndPromptsAreMade := by
  intro s powered
  refine ⟨fun w => ⟨_, ?_, selfReset_afterPartial w 0 0xA0 s (by decide), selfReset_open _ _ _⟩,
    fun w => ⟨_, ?_, selfReset_afterPartial w 1 0xA1 s (by decide), selfReset_open _ _ _⟩, fun b => ?_,
    fun ignores => ⟨fun bytes => ⟨_, execCommandReceipt_ignoring powered ignores, busStop_handles ignores⟩,
      fun n => ⟨_, execReplyRead_ignoring powered ignores n, busStop_handles ignores⟩, execBrokenTransfer_ignoring powered ignores⟩,
    fun enabled unread passed => ?_, fun early => ?_, fun fell n due enabled high allows made => ?_⟩
  · simp [exec, execTSlimExpiry, powered]
  · simp [exec, execSdaHoldExpiry, powered]
  · cases b <;> simp [exec, execGeneralCall, powered]
  · simp [exec, execPromptDueTimer, canPrompt, enabled, unread, elapsed, passed]
  · simp [exec, execPromptDueTimer, elapsed, Nat.not_le.mpr early]
  · subst made
    rw [exec, execPrompt_due fell powered due enabled high allows]
    cases fell <;> rfl

end Sys2Proof.Machine

/-! The clock commands (R422 to R427): reference, plan, outputs, arming and trim. -/

namespace Sys2Proof.Machine

/-! ### A new reference (R423) -/

/-- A change of the reference relocks both synthesizers of the main domain. -/
theorem changeRef_relocks (f : RefFields) (s : State) :
    sameRef (changeRef f s).clocks f = true ∧ (changeRef f s).clocks.pllS = .locking ∧ (changeRef f s).clocks.pllA = .locking := by
  refine ⟨?_, rfl, rfl⟩
  simp [sameRef, changeRef, refreshClocks, setClocks, gateOutputs]

/-- The state that a new reference leaves: both synthesizers relock, and the faults of the reference and of both are closed. -/
def rereferenced (f : RefFields) (s : State) : State := faultEnds 0x50 0 6 (faultEnds 0x41 0 6 (faultEnds 0x40 0 6 (changeRef f s)))

theorem rereferenced_clocks (f : RefFields) (s : State) : (rereferenced f s).clocks = (changeRef f s).clocks := by
  simp [rereferenced]

/-- The timeline with an edge armed or not; a new arming forgets the edge that was lost before. -/
def armedTimeline (on : Bool) (t : Timeline) : Timeline :=
  { t with armed := on, lostSinceArm := if on && !t.armed then false else t.lostSinceArm }

section
variable {tag : Byte} {p : List Byte} {s : State} (turn : MainTurn s p)
include turn

section
variable (len : p.length = 8)
include len

theorem serve_refConfig : serve cmdRefConfig (hostCall tag p) s = bodyRefConfig (hostCall tag p) s :=
  serve_main turn (lenIn_of_eq len rfl) rfl

theorem serve_refConfig_same (same : sameRef s.clocks (parseRef p) = true) :
    serve cmdRefConfig (hostCall tag p) s = okay (refReply s.clocks) s := by
  rw [serve_refConfig turn len]
  simp [bodyRefConfig, hostCall, len, same]

/-- With nothing running the command waits for both locks, or ends at once where no reference is there. -/
theorem serve_refConfig_changes (new : sameRef s.clocks (parseRef p) = false) (idle : clocksIdle s = true) :
    serve cmdRefConfig (hostCall tag p) s = if refUp (rereferenced (parseRef p) s).clocks
      then { status := stOk, payload := refReply (rereferenced (parseRef p) s).clocks, state := rereferenced (parseRef p) s, wait := some .relock }
      else okay (refReply (rereferenced (parseRef p) s).clocks) (rereferenced (parseRef p) s) := by
  rw [serve_refConfig turn len]
  simp [bodyRefConfig, hostCall, len, new, idle, mainReady, turn.2.1, rereferenced]

end

/-! ### The sample plan (R424, R448) -/

section
variable (len : p.length = 1) (plan : planIds s p = true)
include len plan

theorem serve_samplePlan : serve cmdSamplePlan (hostCall tag p) s = bodySamplePlan (hostCall tag p) s :=
  serve_main turn (lenIn_of_eq len rfl) plan

theorem serve_samplePlan_records (quiet : p1 p 0 = s.clocks.plan ∨
    s.clocks.pllS ≠ .locking ∧ s.clocks.pllS ≠ .coasting ∧ s.mgr.rxRunning = false) :
    serve cmdSamplePlan (hostCall tag p) s = okay (planReply (recordPlan (p1 p 0) s).clocks) (recordPlan (p1 p 0) s) := by
  rw [serve_samplePlan turn len plan]
  by_cases same : p1 p 0 = s.clocks.plan
  · simp [bodySamplePlan, hostCall, len, same]
  · obtain ⟨settled, steady, stopped⟩ := quiet.resolve_left same
    simp [bodySamplePlan, hostCall, len, same, settled, steady, stopped]

theorem serve_samplePlan_hops (new : p1 p 0 ≠ s.clocks.plan) (settled : s.clocks.pllS ≠ .locking) (steady : s.clocks.pllS ≠ .coasting)
    (receives : s.mgr.rxRunning = true) :
    serve cmdSamplePlan (hostCall tag p) s = okay (planReply (hop (p1 p 0) s).clocks) (hop (p1 p 0) s) := by
  rw [serve_samplePlan turn len plan]
  simp [bodySamplePlan, hostCall, len, new, settled, steady, receives]

end

/-! ### Outputs, arming and trim (R425 to R427) -/

theorem serve_clockOut_sets (len : p.length = 6) (output : p1 p 0 ≤ 3) : serve cmdClockOut (hostCall tag p) s =
    okay (clockOutReply s.clocks (p1 p 0) (parseClockOut s.clocks p)) (setClocks gateOutputs (updOut (p1 p 0) (fun _ => parseClockOut s.clocks p) s)) := by
  rw [serve_main turn (lenIn_of_eq len rfl) (decide_eq_true output)]
  simp [cmdClockOut, bodyClockOut, hostCall, len]

theorem serve_syncArm (len : p.length = 0 ∨ p.length = 1) : serve cmdSyncArm (hostCall tag p) s = bodySyncArm (hostCall tag p) s :=
  serve_main turn (by simpa [cmdSyncArm, lenIn, hostCall] using len) rfl

theorem serve_syncArm_unlocked (len : p.length = 1) (unlocked : s.clocks.pllA ≠ .locked) (arms : boolOf false (p1 p 0) = true) :
    serve cmdSyncArm (hostCall tag p) s = fail stWrongState s := by
  rw [serve_syncArm turn (Or.inr len)]
  simp [bodySyncArm, hostCall, len, arms, unlocked]

theorem serve_syncArm_sets (len : p.length = 1) (may : boolOf false (p1 p 0) = false ∨ s.clocks.pllA = .locked) :
    serve cmdSyncArm (hostCall tag p) s = okay (syncReply (armedTimeline (boolOf false (p1 p 0)) s.time))
      { s with time := armedTimeline (boolOf false (p1 p 0)) s.time } := by
  rw [serve_syncArm turn (Or.inr len)]
  rcases may with disarms | locked
  · simp [bodySyncArm, hostCall, len, disarms, armedTimeline]
  · simp [bodySyncArm, hostCall, len, locked, armedTimeline]

theorem serve_syncArm_query (len : p.length = 0) : serve cmdSyncArm (hostCall tag p) s = okay (syncReply s.time) s := by
  rw [serve_syncArm turn (Or.inl len)]
  simp [bodySyncArm, hostCall, len]

section
variable (len : p.length = 5) {t : Int} (asked : t = (if boolOf false (p1 p 4) then s.clocks.target + clampInt (-20000) 20000 (rdS p 0 4)
  else clampInt (-20000) 20000 (rdS p 0 4))) (above : -20000 ≤ t) (below : t ≤ 20000)
include len asked above below

/-- A target within the range of the trim is taken as asked, with no record of a clamp. -/
theorem serve_freqTrim : serve cmdFreqTrim (hostCall tag p) s = if (t - s.clocks.trim).natAbs ≤ 200
    then okay (trimReply (trimmedIf (decide ((if s.clocks.pllS = .locked then t else s.clocks.trim) ≠ s.clocks.trim)) (setClocks (fun k =>
        { k with target := t, trim := if s.clocks.pllS = .locked then t else s.clocks.trim, trimTag := none, stepAt := s.now }) s)).clocks)
      (trimmedIf (decide ((if s.clocks.pllS = .locked then t else s.clocks.trim) ≠ s.clocks.trim)) (setClocks (fun k =>
        { k with target := t, trim := if s.clocks.pllS = .locked then t else s.clocks.trim, trimTag := none, stepAt := s.now }) s))
    else { status := stPending, payload := trimReply (setClocks (fun k => { k with target := t, trimTag := some tag }) s).clocks,
           state := setClocks (fun k => { k with target := t, trimTag := some tag }) s } := by
  have inRange : clampInt (-20000) 20000 t = t := by
    unfold clampInt
    omega
  have long : ¬ p.length = 0 := by omega
  rw [serve_main turn (lenIn_of_eq len rfl) rfl]
  simp only [cmdFreqTrim, bodyFreqTrim, hostCall, if_neg long, ← asked, inRange, if_true]

end

end

/-- Calibration runs begin anew in a hop; the clocks stay. -/
theorem calHop_clocks (i : Nat) (s : State) : (calHop i s).clocks = s.clocks := by
  unfold calHop
  split
  · rfl
  · exact (calTrigger_unitsStay i false _).2.1

theorem hop_clocks (plan : Nat) (s : State) : (hop plan s).clocks.plan = plan ∧ (hop plan s).clocks.recorded = plan ∧
    (hop plan s).clocks.hops = satAdd 65535 s.clocks.hops 1 := by
  have calibrated (u : State) : (forEach (List.range 6) calHop u).clocks = u.clocks :=
    foldl_inv (fun v => v.clocks = u.clocks) _ _ u rfl fun v i h => (calHop_clocks i v).trans h
  have recorded (u : State) : (evClock 1 4 plan u).clocks = u.clocks := rfl
  simp [hop, recorded, calibrated, retune, rememberBand, setClocks, drawNat]

theorem setOut_gated {s : State} {n : Nat} (o : ClockOutput) (outs : s.clocks.outs.length = 4) (output : n ≤ 3) :
    ∃ g, (setClocks gateOutputs (updOut n (fun _ => o) s)).clocks.outs[n]? = some { o with gated := g } := by
  have inside : n < s.clocks.outs.length := by omega
  simp only [setClocks, gateOutputs, updOut, List.getElem?_map, getElem?_upd, if_true, List.getElem?_eq_getElem inside]
  exact ⟨_, rfl⟩

/-- Settles O34: the lemmas above say how each command ends, and what a new reference, a plan, a hop and an output leave of the clocks. -/
theorem clockCommandsConfigureTheSynthesizers : Obligations.ClockCommandsConfigureTheSynthesizers := by
  intro tag p s turn
  refine ⟨fun len same => row_reads turn.1 (serve_refConfig_same turn len same), ?_,
    fun len plan quiet => ⟨row_okay turn.1 (serve_samplePlan_records turn len plan quiet), rfl⟩,
    fun len plan new settled steady receives =>
      ⟨row_okay turn.1 (serve_samplePlan_hops turn len plan new settled steady receives), hop_clocks _ _⟩,
    fun len output => ⟨row_okay turn.1 (serve_clockOut_sets turn len output), fun outs => setOut_gated _ outs output⟩,
    fun len unlocked arms => row_fails turn.1 (serve_syncArm_unlocked turn len unlocked arms), fun t len asked above below => ⟨?_, fun far => ?_⟩⟩
  · rintro u len new idle rfl
    have served := serve_refConfig_changes (tag := tag) turn len new idle
    obtain ⟨same, pllS, pllA⟩ := changeRef_relocks (parseRef p) s
    have clocks : (faultEnds 0x50 0 6 (faultEnds 0x41 0 6 (faultEnds 0x40 0 6 (changeRef (parseRef p) s)))).clocks =
        (changeRef (parseRef p) s).clocks := rereferenced_clocks _ _
    refine ⟨by rw [clocks, same], by rw [clocks, pllS], by rw [clocks, pllA], fun up => ?_, fun down => ?_⟩
    · exact row_waits turn.1 (served.trans (if_pos up)) rfl rfl rfl rfl
    · exact row_okay turn.1 (served.trans (if_neg (Bool.eq_false_iff.mp down)))
  · rintro x rfl near
    exact ⟨_, row_okay turn.1 ((serve_freqTrim turn len asked above below).trans (if_pos near))⟩
  · exact ⟨_, row_answers turn.1 ((serve_freqTrim turn len asked above below).trans (if_neg (Nat.not_le.mpr far))) rfl rfl rfl rfl rfl rfl⟩

/-- Settles O35: arming writes `armed` and the note of a lost edge alone. -/
theorem syncArmTouchesArmingOnly : Obligations.SyncArmTouchesArmingOnly := by
  intro tag p s turn
  exact ⟨fun len may => ⟨armedTimeline (boolOf false (p1 p 0)) s.time, rfl, rfl, rfl, rfl, rfl, row_okay turn.1 (serve_syncArm_sets turn len may)⟩,
    fun len => row_reads turn.1 (serve_syncArm_query turn len)⟩

end Sys2Proof.Machine

/-! Supplies: the thresholds of Table 17-2, and the writes that a sag held back. -/

namespace Sys2Proof.Machine

/-! ### Writes that waited (R95, R471) -/

/-- `t` is `s` but for what a write of the retained bank changes: the bank, the calibration that waited for it, and what reports write. -/
def WritesFrame (s t : State) : Prop :=
  t = { s with events := t.events, integ := t.integ, cal := t.cal, retained := t.retained }

theorem WritesFrame.trans {s t u : State} (h : WritesFrame s t) (k : WritesFrame t u) : WritesFrame s u := by
  unfold WritesFrame at h k ⊢
  exact k.trans (by rw [h])

theorem Reports.writesFrame {s t : State} (h : Reports s t) : WritesFrame s t := by
  unfold Reports at h
  rw [h]
  rfl

theorem WritesFrame.stays {s t : State} (h : WritesFrame s t) :
    t.supply = s.supply ∧ t.lanes = s.lanes ∧ t.progs = s.progs ∧ t.link = s.link ∧ t.reset_ = s.reset_ := by
  rw [h]
  exact ⟨rfl, rfl, rfl, rfl, rfl⟩

theorem writeEntry_writesFrame (i plan : Nat) (e : CalEntry) (s : State) : WritesFrame s (writeEntry i plan e s) := by
  have counted : WritesFrame s (if (tableAt s i plan).initialised && !(tableAt s i plan).ok then count 22 1 (retainedItem i plan) s else s) :=
    (ite_reports (count_reports _ _ _ s) (Reports.refl s)).writesFrame
  exact counted.trans rfl

theorem writeEntry_cal (i plan : Nat) (e : CalEntry) (s : State) : (writeEntry i plan e s).cal = s.cal := by
  have counted : Reports s (if (tableAt s i plan).initialised && !(tableAt s i plan).ok then count 22 1 (retainedItem i plan) s else s) :=
    ite_reports (count_reports _ _ _ s) (Reports.refl s)
  exact (congrArg State.cal counted :)

theorem flushWrite_writesFrame (i : Nat) (s : State) : WritesFrame s (flushWrite i s) := by
  unfold flushWrite
  split
  · rfl
  · exact (writeEntry_writesFrame _ _ _ s).trans rfl

theorem flushWrites_writesFrame (s : State) : WritesFrame s (flushWrites s) :=
  foldl_inv (WritesFrame s) _ _ s rfl fun _ i h => h.trans (flushWrite_writesFrame i _)

theorem flushBand_writesFrame (s : State) : WritesFrame s (flushBand s) := by
  unfold flushBand
  split <;> rfl

/-- A flushed input waits no more. -/
theorem flushWrite_clears (i : Nat) (s : State) : (calAt (flushWrite i s) i).writeWaits = none := by
  unfold flushWrite
  split
  case h_1 idle => exact idle
  case h_2 e _ =>
    by_cases inside : i < (writeEntry i e.1 e.2 s).cal.inputs.length
    · rw [calAt_updCal_same _ _ _ inside]
    · simp only [calAt, updCal_cal, List.getD, getElem?_upd, List.getElem?_eq_none (Nat.le_of_not_lt inside)]
      rfl

/-- The flush of an input leaves the others as they wait. -/
theorem flushWrite_leaves {i j : Nat} (s : State) (clear : (calAt s j).writeWaits = none) :
    (calAt (flushWrite i s) j).writeWaits = none := by
  by_cases same : j = i
  · subst same
    exact flushWrite_clears j s
  · unfold flushWrite
    split
    · exact clear
    · rw [calAt_updCal_other _ _ _ _ same, calAt_congr (writeEntry_cal _ _ _ s)]
      exact clear

/-- After the flush no result of a listed input waits. -/
theorem forEach_flushWrite_clears (l : List Nat) (s : State) {i : Nat} (listed : i ∈ l) :
    (calAt (forEach l flushWrite s) i).writeWaits = none := by
  obtain ⟨before, after, rfl⟩ := List.append_of_mem listed
  unfold forEach
  rw [List.foldl_append, List.foldl_cons]
  exact foldl_inv (fun u => (calAt u i).writeWaits = none) _ _ _ (flushWrite_clears i _) fun _ _ h => flushWrite_leaves _ h

theorem flushBand_cal (s : State) : (flushBand s).cal = s.cal := by
  unfold flushBand
  split <;> rfl

/-! ### The rows of Table 17-2 -/

theorem execSagCleared_clears {mv : Nat} {s : State} (on : s.supply.backupOn = true) (sag : s.supply.sag = true) (up : 2970 < mv) :
    ∃ t, execSagCleared mv s = .next t ∧ (∀ i < 6, (calAt t i).writeWaits = none) ∧
      WritesFrame { s with supply := { s.supply with vmain := mv, sag := false } } t := by
  refine ⟨_, if_pos ⟨on, sag, up⟩, fun i inside => ?_, ?_⟩
  · rw [calAt_congr (flushBand_cal _)]
    exact forEach_flushWrite_clears _ _ (List.mem_range.mpr inside)
  · exact ((Reports.writesFrame (raise_reports _ _ _)).trans (flushWrites_writesFrame _)).trans (flushBand_writesFrame _)

/-- Settles O55: each row compares with its threshold; the end of a sag is `execSagCleared_clears`. -/
theorem supplyRowsFollowTheThresholds : Obligations.SupplyRowsFollowTheThresholds := by
  intro s on
  refine ⟨fun mv steady low => ?_, fun mv good => ?_, fun mv sag up => ?_, fun mv low => ?_, fun mv vbak main low => ?_,
    fun mv vbak good => ?_, fun mv backup up => ?_, fun mv low => ?_, fun mv => ⟨_, rfl, rfl, rfl⟩⟩
  · exact if_pos ⟨on, by simp [steady], low⟩
  · exact if_neg fun h => by omega
  · obtain ⟨t, ends, cleared, frame⟩ := execSagCleared_clears on sag up
    obtain ⟨supply, rest⟩ := frame.stays
    exact ⟨t, ends, supply, cleared, rest⟩
  · exact if_neg fun h => by omega
  · exact if_pos ⟨on, by simp [main], low⟩
  · exact if_neg fun h => by omega
  · exact if_pos ⟨on, backup, up⟩
  · exact if_neg fun h => by omega

end Sys2Proof.Machine

/-! Resets: halts of the main domain and its starts, power and loss of the backup domain. -/

namespace Sys2Proof.Machine

/-! ### The main domain stops (R471, R472, R473, R476) -/

/-- The main domain of `s` is gated with a cause: what the link and the main domain hold is wiped, the rest stays. -/
def Halted (cause : OffCause) (s t : State) : Prop :=
  t.reset_.domain = .off ∧ t.reset_.offCause = cause ∧ t.reset_.offTicks = 0 ∧ t.supply = s.supply ∧ t.link.queue = [] ∧ t.link.fifo = [] ∧
  t.link.address = s.link.address ∧ t.cues = [] ∧ t.held = [] ∧ t.lanes = Lanes.reset s.chip.variant ∧
  t.progs = List.replicate s.chip.variant.programs Program.stopped ∧ t.retained = s.retained ∧ t.chip = s.chip ∧ t.ghost = s.ghost

theorem Halted.handles {cause : OffCause} {s t u : State} (h : Halted cause s t) (k : Handles t u) : Halted cause s u := by
  rw [k.1]
  exact h

theorem stopMain_halted (cause : OffCause) (s : State) : Halted cause s (stopMain cause (discardLink s)) := by
  have faults : Reports (discardLink s) (endMainFaults (discardLink s)) := endMainFaults_reports _
  unfold stopMain
  rw [faults]
  generalize (endMainFaults (discardLink s)).events = e
  generalize (endMainFaults (discardLink s)).integ = i
  exact ⟨rfl, rfl, rfl, rfl, rfl, rfl, rfl, rfl, rfl, rfl, rfl, rfl, rfl, rfl⟩

/-- A write that is cut touches the bank and the draws alone (R102). -/
theorem cutWrite_frame (s : State) : cutWrite s = { s with draws := (cutWrite s).draws, retained := (cutWrite s).retained } := by
  unfold cutWrite drawBool
  dsimp only
  (repeat' split) <;> rfl

theorem cutWrite_idle {s : State} (idle : s.retained.writing = none) : cutWrite s = s := by
  simp [cutWrite, idle]

theorem leaveBlackout_of_ready {s : State} (ready : s.reset_.domain = .ready) : leaveBlackout s = s :=
  if_neg (by simp [ready])

/-- A hard halt counts itself and opens fault 0x10 (R474, R510). -/
theorem hardHalt_halted {s : State} (ready : s.reset_.domain = .ready) :
    Halted .hardHalt { cutWrite s with supply := { s.supply with halts := satAdd 65535 s.supply.halts 1 } } (hardHalt s) ∧
    faultOpen (hardHalt s) 0x10 0 = true := by
  have cut : (cutWrite s).reset_.domain = .ready ∧ (cutWrite s).supply = s.supply := by
    rw [cutWrite_frame s]
    exact ⟨ready, rfl⟩
  have stays := leaveBlackout_of_ready cut.1
  unfold hardHalt
  dsimp only
  rw [stays]
  refine ⟨Halted.handles ?_ (faultBegins_handles _ _ _ _ _ _), by rw [faultOpen_begins]; simp⟩
  obtain ⟨domain, cause, ticks, supply, rest⟩ := stopMain_halted .hardHalt (cutWrite s)
  refine ⟨domain, cause, ticks, ?_, rest⟩
  simp only [evSupply, setSupply, raise, refreshMirror, supply, cut.2]

theorem execHardHalt_ready {mv vb : Nat} {s : State} (on : s.supply.backupOn = true) (ready : s.reset_.domain = .ready) (low : mv < 2700) :
    execHardHalt mv vb s = .next (hardHalt (setSupply (fun u => { u with vmain := mv, vbak := vb }) s)) := by
  simp [execHardHalt, on, mainOff, setSupply, ready, Nat.not_le.mpr low]

/-- The bank after a halt is that of the cut write, whatever the supplies. -/
theorem cutWrite_setSupply (f : Supply → Supply) (s : State) :
    cutWrite (setSupply f s) = { cutWrite s with supply := f s.supply } := by
  unfold cutWrite setSupply drawBool
  dsimp only
  (repeat' split) <;> rfl

/-- A running main domain that halts for low VMAIN (R474). -/
theorem execHardHalt_halts {mv vb : Nat} {s : State} (on : s.supply.backupOn = true) (ready : s.reset_.domain = .ready) (low : mv < 2700) :
    ∃ t, execHardHalt mv vb s = .next t ∧ faultOpen t 0x10 0 = true ∧
      Halted .hardHalt { s with supply := { s.supply with vmain := mv, vbak := vb, halts := satAdd 65535 s.supply.halts 1 },
                                retained := (cutWrite s).retained } t := by
  obtain ⟨halted, fault⟩ := hardHalt_halted (s := setSupply (fun u => { u with vmain := mv, vbak := vb }) s) ready
  refine ⟨_, execHardHalt_ready on ready low, fault, ?_⟩
  rw [cutWrite_setSupply, cutWrite_frame s] at halted
  exact halted

/-! ### The main domain starts (R471, R479, R487) -/

theorem execMainDomainReturn_starts {mv : Nat} {s : State} (on : s.supply.backupOn = true) (off : s.reset_.domain = .off)
    (halted : s.reset_.offCause = .hardHalt) (released : s.supply.resetnLow = false) (up : 2970 < mv) : execMainDomainReturn mv s =
      .next (startMain .mainReturn false (evSupply 3 (setSupply (fun u => { u with vmain := mv }) s))) :=
  if_pos ⟨on, by simp [mainOff, off], halted, by simp [released], up⟩

theorem execVmainRise_starts {mv : Nat} {s : State} (on : s.supply.backupOn = true) (off : s.reset_.domain = .off)
    (backupOnly : s.reset_.offCause = .backupOnly) (released : s.supply.resetnLow = false) (up : 2970 < mv) :
    execVmainRiseAfterBackupOnlyStart mv s = .next (startMain .cold false (setSupply (fun u => { u with vmain := mv }) s)) :=
  if_pos ⟨on, by simp [mainOff, off], backupOnly, by simp [released], up⟩

/-! ### Power and loss of the backup domain (R471, R475) -/

/-- A cold start leaves the supplies but for the counts, empties the event queue, and starts the domain that may run. -/
theorem coldStart_begins (addr : Nat) (s : State) :
    (coldStart addr s).supply = { s.supply with halts := 0, switchovers := 0, backupOn := true } ∧
    (coldStart addr s).events = State.reset.events ∧ (coldStart addr s).reset_.cause = .cold ∧
    (coldStart addr s).reset_.domain = if 2970 < s.supply.vmain ∧ s.supply.resetnLow = false then .starting else .off := by
  unfold coldStart
  dsimp only
  simp only [Bool.not_eq_true']
  split
  · exact ⟨rfl, rfl, rfl, rfl⟩
  · exact ⟨rfl, rfl, rfl, rfl⟩

theorem execBackupPowerOn_starts {a b : Bool} {mv vb : Nat} {s : State} (off : s.supply.backupOn = false) :
    execBackupPowerOn a b mv vb s = .next (coldStart (addressOf a b) (setSupply (powerUp mv vb) s)) :=
  if_neg (by simp [off])

/-- Settles O56: a halt is `Halted`, the starts are `startMain` and `coldStart`, and a loss of power leaves the reset state. -/
theorem haltAndBackupRowsStopAndStartTheDomains : Obligations.HaltAndBackupRowsStopAndStartTheDomains := by
  intro s
  refine ⟨fun mv vb on ready low => ?_, fun mv vb _ up => if_pos (.inr up), fun mv on off halted released up => ?_,
    fun mv low => if_neg fun h => by omega, fun a b mv vb off => ?_, fun a b mv vb on => if_pos on, fun on => ?_,
    fun off => if_pos (by simp [off]), fun mv on off backupOnly released up => ?_, fun mv low => if_neg fun h => by omega⟩
  · obtain ⟨t, ends, fault, domain, cause, ticks, supply, queue, fifo, address, cues, held, lanes, progs, retained, chip, ghost⟩ :=
      execHardHalt_halts (vb := vb) on ready low
    exact ⟨t, ends, domain, cause, ticks, supply, queue, fifo, address, cues, held, lanes, progs, retained,
      fun idle => retained.trans (by rw [cutWrite_idle idle]), chip, ghost, fault⟩
  · obtain ⟨domain, cause, offCause, watch⟩ := startMain_starts .mainReturn false (evSupply 3 (setSupply (fun u => { u with vmain := mv }) s))
    obtain ⟨chip, supply, -, -, -, retained⟩ := startMain_leaves .mainReturn false (evSupply 3 (setSupply (fun u => { u with vmain := mv }) s))
    exact ⟨_, execMainDomainReturn_starts on off halted released up, domain, cause, offCause, watch, supply, chip,
      by rw [retained]; rfl, by rw [retained]; rfl⟩
  · obtain ⟨chip, retained, queue, fifo, address, lanes, -⟩ := coldStart_wipes (addressOf a b) (setSupply (powerUp mv vb) s)
    obtain ⟨supply, events, cause, domain⟩ := coldStart_begins (addressOf a b) (setSupply (powerUp mv vb) s)
    refine ⟨_, execBackupPowerOn_starts off, address, retained, chip, by rw [supply], by rw [supply]; rfl, by rw [supply]; rfl, queue, fifo,
      by rw [events]; rfl, by rw [events]; rfl, lanes, ?_, ?_, cause⟩ <;> rw [domain]
    · by_cases runs : 2970 < mv ∧ s.supply.resetnLow = false <;> simp [setSupply, powerUp, runs]
    · split <;> simp
  · exact ⟨_, if_neg (by simp [on]), rfl, rfl, rfl, rfl, rfl, rfl, rfl⟩
  · obtain ⟨domain, cause, -, -⟩ := startMain_starts .cold false (setSupply (fun u => { u with vmain := mv }) s)
    obtain ⟨chip, supply, -, address, -, -⟩ := startMain_leaves .cold false (setSupply (fun u => { u with vmain := mv }) s)
    exact ⟨_, execVmainRise_starts on off backupOnly released up, domain, cause, supply, chip, address⟩

end Sys2Proof.Machine

/-! Recoveries while no port is in recovery: they leave every port as it is (R320, R513). -/

namespace Sys2Proof.Machine

/-- No recovery of a port is open. -/
def Portless (s : State) : Prop := ∀ r ∈ s.integ.recoveries, r.rank ≠ 6

/-- With no recovery of a port open, the ports stay and none comes to be. -/
def PortsStay (s t : State) : Prop := Portless s → t.ports = s.ports ∧ Portless t

theorem PortsStay.trans {s t u : State} (h : PortsStay s t) (k : PortsStay t u) : PortsStay s u := fun free =>
  have first := h free
  have second := k first.2
  ⟨second.1.trans first.1, second.2⟩

/-- A step that leaves the ports and only swaps recoveries for others of no port. -/
theorem PortsStay.of_reports {s t : State} (h : Reports s t) (free : Portless s → Portless t) : PortsStay s t :=
  fun f => ⟨h.ports, free f⟩

theorem PortsStay.of_same {s t : State} (ports : t.ports = s.ports) (recs : t.integ.recoveries = s.integ.recoveries) : PortsStay s t :=
  fun free => ⟨ports, by rw [Portless, recs]; exact free⟩

theorem Completes.portsStay {s t : State} (h : Completes s t) : PortsStay s t := by
  rw [h]
  exact .of_same rfl rfl

theorem PortsStay.refl (s : State) : PortsStay s s := .of_same rfl rfl

theorem logRec_portsStay (r : Recovery) (phase other : Nat) (s : State) : PortsStay s (logRec r phase other s) :=
  .of_same (logRec_reports r phase other s).ports (recs_logRec r phase other s)

theorem updRec_portsStay (code inst : Nat) {f : Recovery → Recovery} (s : State) (rank : ∀ r, (f r).rank = r.rank) :
    PortsStay s (updRec code inst f s) :=
  .of_reports (updRec_reports code inst f s) fun free q mem => by
    obtain ⟨r, here, rfl⟩ := List.mem_map.mp mem
    split
    · rw [rank]
      exact free r here
    · exact free r here

theorem filterRecs_portsStay (keep : Recovery → Bool) (s : State) : PortsStay s (setRecs (s.integ.recoveries.filter keep) s) :=
  .of_reports (setRecs_reports _ s) fun free r mem => free r (List.mem_filter.mp mem).1

theorem startRec_portsStay {r : Recovery} (s : State) (other : r.rank ≠ 6) : PortsStay s (startRec r s) := by
  have started (phase : Nat) := (updRec_portsStay r.code r.inst (f := fun x => { x with phase := .running, ready := true }) s fun _ => rfl).trans
    (logRec_portsStay r phase 0 _)
  unfold startRec
  split
  · rw [freePort, if_neg other]
    exact started 5
  · exact started 1

theorem abortRec_portsStay {r : Recovery} (rank : Nat) (s : State) (other : r.rank ≠ 6) : PortsStay s (abortRec r rank s) := by
  unfold abortRec
  rw [if_neg other]
  exact (updRec_portsStay _ _ (f := fun x => { x with phase := .aborted rank }) s fun _ => rfl).trans (logRec_portsStay _ _ _ _)

theorem queueRec_portsStay (r : Recovery) (rank : Nat) (s : State) : PortsStay s (queueRec r rank s) :=
  (updRec_portsStay _ _ (f := fun x => { x with phase := .queued }) s fun _ => rfl).trans (logRec_portsStay _ _ _ _)

theorem recAt_mem {s : State} {code inst : Nat} {r : Recovery} (here : recAt s code inst = some r) : r ∈ s.integ.recoveries :=
  List.mem_of_find?_eq_some here

theorem runningRec_mem {s : State} {r : Recovery} (runs : runningRec s = some r) : r ∈ s.integ.recoveries :=
  List.mem_of_find?_eq_some runs

theorem becomesRunnable_portsStay (code inst : Nat) (s : State) : PortsStay s (becomesRunnable code inst s) := by
  intro free
  have ready := updRec_portsStay code inst (f := fun x => { x with ready := true }) s fun _ => rfl
  suffices PortsStay s (becomesRunnable code inst s) from this free
  unfold becomesRunnable
  split
  · exact .refl s
  · next r here =>
    have other := free r (recAt_mem here)
    dsimp only
    split
    · split
      · exact ready.trans (startRec_portsStay _ other)
      · exact ready
    · next q runs =>
      split
      · exact .refl s
      · split
        · exact (ready.trans (abortRec_portsStay _ _ (free q (runningRec_mem runs)))).trans (startRec_portsStay _ other)
        · split
          · exact ready.trans (queueRec_portsStay _ _ _)
          · exact ready

theorem nextRec_mem {s : State} {r : Recovery} (next : nextRec s = some r) : r ∈ s.integ.recoveries := by
  refine List.foldlRecOn _ _ (motive := fun best => ∀ b, best = some b → b ∈ s.integ.recoveries) ?_ ?_ r next
  · simp
  · intro best held x mem b found
    have waits := (List.mem_filter.mp mem).1
    cases best with
    | none => exact Option.some.inj found ▸ waits
    | some c =>
      dsimp only at found
      split at found
      · exact Option.some.inj found ▸ waits
      · exact held b found

theorem slotFree_portsStay (s : State) : PortsStay s (slotFree s) := by
  unfold slotFree
  split
  · exact .refl s
  · split
    · next r next => exact fun free => startRec_portsStay s (free r (nextRec_mem next)) free
    · exact .refl s

theorem faultEnds_portsStay (code inst phase : Nat) (s : State) : PortsStay s (faultEnds code inst phase s) := by
  unfold faultEnds
  split
  · exact .refl s
  · exact ((filterRecs_portsStay _ s).trans (logRec_portsStay _ _ _ _)).trans (slotFree_portsStay _)

theorem openRec_portsStay {r : Recovery} (s : State) (other : r.rank ≠ 6) : PortsStay s (setRecs (s.integ.recoveries ++ [r]) s) :=
  .of_reports (setRecs_reports _ s) fun free q mem => by
    rcases List.mem_append.mp mem with old | new
    · exact free q old
    · rw [List.mem_singleton.mp new]
      exact other

theorem faultBegins_portsStay {code : Nat} (inst a : Nat) (b : Int) (ready : Bool) (s : State) (other : rankOf code ≠ 6) :
    PortsStay s (faultBegins code inst a b ready s) := by
  unfold faultBegins
  split
  · dsimp only
    have detailed := updRec_portsStay code inst (f := fun x => { x with detailA := a, detailB := b }) s fun _ => rfl
    split <;> exact detailed.trans (logRec_portsStay _ _ _ _)
  · dsimp only
    have opened (r : Recovery) (h : r.rank ≠ 6) := (openRec_portsStay s h).trans (logRec_portsStay r 0 0 _)
    split
    · exact (opened _ other).trans (becomesRunnable_portsStay _ _ _)
    · split
      · exact opened _ other
      · next q runs =>
        split
        · intro free
          have both := opened { rank := rankOf code, code := code, inst := inst, phase := .waiting, detailA := a, detailB := b, ready := ready } other
          exact (both.trans (abortRec_portsStay _ _ ((both free).2 q (runningRec_mem runs)))) free
        · exact (opened _ other).trans (queueRec_portsStay _ _ _)

end Sys2Proof.Machine

/-! The rows of the reference and of the synthesizers: how they move the clocks, and what they leave. -/

namespace Sys2Proof.Machine

/-! ### What the shared operations of the clocks leave -/

/-- `t` is `s` but for the gating of the clock outputs, the timeline's source, reports, waits that completed and gated ports. -/
def Settles (s t : State) : Prop :=
  t = { s with clocks := { s.clocks with outs := t.clocks.outs }, time := { s.time with source := t.time.source }, mgr := t.mgr,
               link := { s.link with fifo := t.link.fifo, waiting := t.link.waiting }, events := t.events, integ := t.integ,
               ports := { s.ports with tdm := t.ports.tdm } }

theorem Settles.refl (s : State) : Settles s s := rfl

theorem Settles.trans {s t u : State} (h : Settles s t) (k : Settles t u) : Settles s u := by
  unfold Settles at h k ⊢
  exact k.trans (by rw [h])

theorem Handles.settles {s t : State} (h : Handles s t) : Settles s t := by
  rw [h.1]
  rfl

theorem raise_settles (bit : Nat) (body : List Byte) (s : State) : Settles s (raise bit body s) := rfl

theorem refreshClocks_settles (s : State) : Settles s (refreshClocks s) := rfl

theorem ite_settles {s a b : State} {c : Prop} [Decidable c] (ha : Settles s a) (hb : Settles s b) : Settles s (if c then a else b) := by
  split <;> assumption

theorem putReply_settles (r : Reply) (s : State) : Settles s (putReply r s) := by
  unfold putReply
  split <;> rfl

theorem completeWait_settles (e : Executing) (m : Manager) (s : State) : Settles s (completeWait e { s with mgr := m }) := by
  unfold completeWait
  split
  · exact Settles.trans (t := { s with mgr := m }) rfl (putReply_settles _ _)
  · rfl

theorem finishWait_settles (w : Wait) (s : State) : Settles s (finishWait w s) := by
  have host : Settles s (finishHostWait w s) := by
    unfold finishHostWait
    split
    · exact ite_settles (completeWait_settles _ _ s) (.refl s)
    · exact .refl s
  refine host.trans ?_
  rw [finishWait_eq]
  unfold finishCueWait
  split
  · exact ite_settles (completeWait_settles _ _ _) (.refl _)
  · exact .refl _

/-- A change of the clocks that does not look at the outputs follows what has settled. -/
theorem Settles.setClocks {s t : State} (h : Settles s t) (f : Clocks → Clocks) (outs : ∀ c o, f { c with outs := o } = { f c with outs := o }) :
    Settles (setClocks f s) (setClocks f t) := by
  have clocks : f t.clocks = { f s.clocks with outs := t.clocks.outs } := by
    rw [← outs, h]
  unfold Settles Machine.setClocks at *
  dsimp only
  rw [clocks]
  exact h ▸ rfl

section
variable {s t : State} (h : Settles s t)
include h

theorem Settles.ref : t.clocks.ref = s.clocks.ref := by rw [h]
theorem Settles.pllS : t.clocks.pllS = s.clocks.pllS := by rw [h]
theorem Settles.pllA : t.clocks.pllA = s.clocks.pllA := by rw [h]
theorem Settles.lanes : t.lanes = s.lanes := by rw [h]
theorem Settles.progs : t.progs = s.progs := by rw [h]
theorem Settles.retained : t.retained = s.retained := by rw [h]
theorem Settles.spdif : t.ports.spdif = s.ports.spdif := by rw [h]
theorem Settles.dfc : t.time.dfc = s.time.dfc := by rw [h]
theorem Settles.epoch : t.time.epoch = s.time.epoch := by rw [h]

end

/-- The timeline changes where it does not look at its source. -/
theorem Settles.setTime {s t : State} (h : Settles s t) (g : Timeline → Timeline) (source : ∀ x y, g { x with source := y } = { g x with source := y }) :
    Settles { s with time := g s.time } { t with time := g t.time } := by
  have time : g t.time = { g s.time with source := t.time.source } := by
    rw [← source, h]
  unfold Settles at *
  dsimp only
  rw [time]
  exact h ▸ rfl

/-! ### The reference goes and returns (R444, R461 to R464) -/

/-- The clocks as the reference goes: what was locked coasts (R462). -/
def refLost (c : Clocks) : Clocks :=
  { c with ref := .absent, stepMax := 0, pllS := if c.pllS = .locked ∨ c.pllS = .hopping then .coasting else c.pllS,
           pllA := if c.pllA = .locked then .coasting else c.pllA }

theorem coastS_settles (s : State) :
    Settles (setClocks (fun c => { c with pllS := if c.pllS = .locked ∨ c.pllS = .hopping then .coasting else c.pllS }) s) (coastS s) := by
  unfold coastS setClocks
  split
  · simp only [*, if_true]
    exact raise_settles _ _ _
  · simp only [*, if_false]
    exact .refl s

theorem coastA_settles (s : State) :
    Settles (setClocks (fun c => { c with pllA := if c.pllA = .locked then .coasting else c.pllA }) s) (coastA s) := by
  unfold coastA setClocks
  split
  · simp only [*, if_true]
    exact raise_settles _ _ _
  · simp only [*, if_false]
    exact .refl s

theorem coast_settles (s : State) :
    Settles (setClocks refLost s) (coastA (coastS (evClock 0 1 0 (setClocks (fun c => { c with ref := .absent, stepMax := 0 }) s)))) := by
  have absent : Settles (setClocks (fun c => { c with ref := .absent, stepMax := 0 }) s)
    (evClock 0 1 0 (setClocks (fun c => { c with ref := .absent, stepMax := 0 }) s)) := raise_settles _ _ _
  refine Settles.trans ?_ (coastA_settles _)
  exact ((absent.setClocks _ fun _ _ => rfl).trans (coastS_settles _)).setClocks _ fun _ _ => rfl

/-- The timeline as the reference goes: it is aligned no more. -/
def timeLost (back : Bool) (x : Timeline) : Timeline :=
  { x with inUse := false, lostSinceArm := x.inUse || x.lostSinceArm, usedAtLoss := back, edgeInReturn := false }

/-- The return of the reference may find an alignment that was in use (R464). -/
def usedBefore (s : State) : Bool := s.time.inUse || (s.clocks.ref == .buildOut && s.time.usedAtLoss)

theorem refConfigGivesUp_settles (s : State) : Settles s (refConfigGivesUp s) := by
  have answered (m : Manager) : Settles s { s with mgr := m } := rfl
  exact (answered _).trans (finishWait_settles _ _)

/-- The alignment goes, with its record where it was in use (R464). -/
def dropSync (used back : Bool) (s : State) : State :=
  let s1 := if used then loseSync 0 s else s
  { s1 with time := { s1.time with usedAtLoss := back, edgeInReturn := false } }

theorem timeLost_unused {x : Timeline} (back : Bool) (unused : x.inUse = false) :
    timeLost back x = { x with usedAtLoss := back, edgeInReturn := false } := by
  cases x
  simp_all [timeLost]

theorem dropSync_settles (back : Bool) (s : State) : Settles { s with time := timeLost back s.time } (dropSync s.time.inUse back s) := by
  unfold dropSync
  by_cases used : s.time.inUse = true
  · rw [if_pos used, timeLost, used]
    rfl
  · rw [if_neg used, timeLost_unused back (Bool.not_eq_true _ ▸ used)]
    rfl

theorem loseRef_eq (s : State) : loseRef s = refreshClocks (refConfigGivesUp (
    let u := dropSync s.time.inUse (usedBefore s) (coastA (coastS (evClock 0 1 0 (setClocks (fun c => { c with ref := .absent, stepMax := 0 }) s))))
    if mainOff s then u else faultBegins 0x40 0 0 0 false u)) := rfl

theorem loseRef_settles (s : State) : Settles { setClocks refLost s with time := timeLost (usedBefore s) s.time } (loseRef s) := by
  have coasts := coast_settles s
  rw [loseRef_eq]
  generalize coastA _ = u at coasts ⊢
  have used : u.time.inUse = s.time.inUse := by rw [coasts]; rfl
  have lost := (coasts.setTime (timeLost (usedBefore s)) fun _ _ => rfl).trans (dropSync_settles (usedBefore s) u)
  rw [used] at lost
  refine ((lost.trans ?_).trans (refConfigGivesUp_settles _)).trans (refreshClocks_settles _)
  exact ite_settles (.refl _) (faultBegins_handles _ _ _ _ _ _).settles

theorem ite_portsStay {s a b : State} {c : Prop} [Decidable c] (ha : PortsStay s a) (hb : PortsStay s b) : PortsStay s (if c then a else b) := by
  split <;> assumption

theorem finishWait_portsStay (w : Wait) (s : State) : PortsStay s (finishWait w s) := (finishWait_completes w s).portsStay

theorem coast_portsStay (s : State) : PortsStay s (coastA (coastS s)) := by
  have coasts (u : State) : PortsStay u (coastS u) := ite_portsStay (.of_same rfl rfl) (.refl u)
  exact (coasts s).trans (ite_portsStay (.of_same rfl rfl) (.refl _))

theorem dropSync_portsStay (used back : Bool) (s : State) : PortsStay s (dropSync used back s) := by
  cases used <;> exact .of_same rfl rfl

theorem loseRef_portsStay (s : State) : PortsStay s (loseRef s) := by
  rw [loseRef_eq]
  have absent : PortsStay s (evClock 0 1 0 (setClocks (fun c => { c with ref := .absent, stepMax := 0 }) s)) := .of_same rfl rfl
  have lost := (absent.trans (coast_portsStay _)).trans (dropSync_portsStay s.time.inUse (usedBefore s) _)
  have answered (u : State) (m : Manager) : PortsStay u { u with mgr := m } := .of_same rfl rfl
  have gaveUp (u : State) : PortsStay u (refConfigGivesUp u) := (answered u _).trans (finishWait_portsStay _ _)
  refine ((lost.trans ?_).trans (gaveUp _)).trans (.of_same rfl rfl)
  exact ite_portsStay (.refl _) (faultBegins_portsStay _ _ _ _ _ (by decide))

/-- The clocks as the reference returns: what coasts has to be built out (R463). -/
def refBack (c : Clocks) : Clocks :=
  if anyCoasting c then { c with ref := .buildOut, stepMax := 0 } else { c with ref := .present }

theorem startRecord_settles (s : State) : Settles s (if s.reset_.domain = .starting then s else evClock 0 0 0 s) :=
  ite_settles (.refl s) (raise_settles _ _ s)

theorem returnRef_settles (s : State) : Settles (setClocks refBack s) (returnRef s) := by
  have back (f : Clocks → Clocks) (outs : ∀ c o, f { c with outs := o } = { f c with outs := o }) :=
    (((startRecord_settles s).setClocks f outs).trans (refreshClocks_settles _)).trans (becomesRunnable_handles 0x40 0 _).settles
  unfold returnRef setClocks refBack
  dsimp only
  split
  · exact back (fun c => { c with ref := .buildOut, stepMax := 0 }) fun _ _ => rfl
  · exact (back (fun c => { c with ref := .present }) fun _ _ => rfl).trans (faultEnds_handles _ _ _ _).settles

theorem returnRef_portsStay (s : State) : PortsStay s (returnRef s) := by
  have record : PortsStay s (if s.reset_.domain = .starting then s else evClock 0 0 0 s) := ite_portsStay (.refl s) (.of_same rfl rfl)
  have back (f : Clocks → Clocks) := (record.trans (u := refreshClocks (setClocks f _)) (.of_same rfl rfl)).trans (becomesRunnable_portsStay 0x40 0 _)
  unfold returnRef
  dsimp only
  split
  · exact back _
  · exact (back _).trans (faultEnds_portsStay _ _ _ _)

/-- The timeline after a return with a phase step, and after one with none (R464). -/
def alignmentLost (x : Timeline) : Timeline := { x with inUse := false, lostSinceArm := true, usedAtLoss := false, edgeInReturn := false }

def alignmentBack (edge : Bool) (x : Timeline) : Timeline := { x with inUse := x.inUse || edge, usedAtLoss := false, edgeInReturn := false }

/-- The return is complete: the reference is present, and the timeline may lose its alignment (R464). -/
theorem endReturn_settles (s : State) : ∃ g : Timeline → Timeline, (∀ x y, g { x with source := y } = { g x with source := y }) ∧
    Settles { setClocks (fun c => { c with ref := .present }) s with time := g s.time } (endReturn s) := by
  have ended := (faultEnds_handles 0x40 0 2 (setClocks (fun c => { c with ref := .present }) s)).settles
  unfold endReturn
  dsimp only
  generalize faultEnds 0x40 0 2 _ = u at ended ⊢
  split
  · refine ⟨alignmentLost, fun _ _ => rfl, (ended.setTime alignmentLost fun _ _ => rfl).trans ?_⟩
    exact raise_settles 17 [byte 1, 0, 0, 0] { u with time := alignmentLost u.time }
  · exact ⟨alignmentBack s.time.edgeInReturn, fun _ _ => rfl, ended.setTime (alignmentBack s.time.edgeInReturn) fun _ _ => rfl⟩

/-- A synthesizer is built out: the return ends with the last that coasted. -/
theorem builtOut_settles (clock stepPs : Nat) (coastErr : Int) (f : Clocks → Clocks) (s : State) :
    ∃ x, Settles { s with clocks := { f s.clocks with stepMax := max s.clocks.stepMax stepPs,
                                                      ref := if anyCoasting (f s.clocks) then (f s.clocks).ref else .present }, time := x }
      (builtOut clock stepPs coastErr f s) := by
  have built : Settles (setClocks (fun c => { f c with stepMax := max c.stepMax stepPs }) s)
      (refreshClocks (updRec 0x40 0 (fun r => { r with detailB := coastErr }) (evClock clock 3 coastErr
        (setClocks (fun c => { f c with stepMax := max c.stepMax stepPs }) s)))) := rfl
  unfold builtOut
  dsimp only
  generalize refreshClocks _ = u at built ⊢
  have coasts : anyCoasting u.clocks = anyCoasting (f s.clocks) := by
    rw [anyCoasting, built.pllS, built.pllA]
    rfl
  rw [coasts]
  split
  · exact ⟨_, built⟩
  · obtain ⟨g, source, ended⟩ := endReturn_settles u
    exact ⟨_, ((built.setClocks (fun c => { c with ref := .present }) fun _ _ => rfl).setTime g source).trans ended⟩

/-! ### A synthesizer loses lock (R460, R461) -/

theorem losePllS_settles (s : State) : Settles (setClocks (fun c => { c with pllS := .locking }) s) (losePllS s) := by
  have lost : Settles (setClocks (fun c => { c with pllS := .locking }) s) (evClock 1 1 0 (setClocks (fun c => { c with pllS := .locking }) s)) := rfl
  exact (lost.trans (faultBegins_handles _ _ _ _ _ _).settles).trans (refreshClocks_settles _)

theorem losePllS_portsStay (s : State) : PortsStay s (losePllS s) := by
  have lost : PortsStay s (evClock 1 1 0 (setClocks (fun c => { c with pllS := .locking }) s)) := .of_same rfl rfl
  exact (lost.trans (faultBegins_portsStay _ _ _ _ _ (by decide))).trans (.of_same rfl rfl)

theorem losePllS_open (s : State) : faultOpen (losePllS s) 0x41 0 = true := by
  have same (u : State) : faultOpen (refreshClocks u) 0x41 0 = faultOpen u 0x41 0 := rfl
  simp [losePllS, same, faultOpen_begins]

theorem gatePort_gatePort (p : Port) : gatePort (gatePort p) = gatePort p := by
  cases state : p.st <;> simp [gatePort, state]

/-- Gating every port hides which of them a recovery has gated. -/
theorem abortRec_gates (r : Recovery) (rank : Nat) (s : State) :
    (abortRec r rank s).ports.tdm.map gatePort = s.ports.tdm.map gatePort := by
  have logged : Reports s (logRec r 3 rank (updRec r.code r.inst (fun x => { x with phase := .aborted rank }) s)) :=
    (updRec_reports _ _ _ s).trans (logRec_reports _ _ _ _)
  unfold abortRec
  dsimp only
  split
  · refine List.ext_getElem? fun i => ?_
    simp only [updPort_ports, logged.ports, List.getElem?_map, getElem?_upd]
    split
    · simp [Function.comp_def, gatePort_gatePort]
    · rfl
  · rw [logged.ports]

theorem becomesRunnable_gates {s : State} {code inst : Nat} {r : Recovery} (here : recAt s code inst = some r) (other : r.rank ≠ 6) :
    (becomesRunnable code inst s).ports.tdm.map gatePort = s.ports.tdm.map gatePort := by
  have ready := updRec_reports code inst (fun x => { x with ready := true }) s
  unfold becomesRunnable
  rw [here]
  dsimp only
  split
  · split
    · rw [(startRec_reports _ other).ports, ready.ports]
    · rw [ready.ports]
  · split
    · rfl
    · split
      · rw [(startRec_reports _ other).ports, abortRec_gates, ready.ports]
      · split
        · have queued (q : Recovery) (u : State) : Reports u (queueRec r q.rank u) := (updRec_reports _ _ _ _).trans (logRec_reports _ _ _ _)
          rw [(queued _ _).ports, ready.ports]
        · rw [ready.ports]

/-- A fault that has just been detected is found in the list. -/
theorem recAt_opened {s : State} {r : Recovery} (absent : recAt s r.code r.inst = none) (phase : Nat) :
    recAt (logRec r phase 0 (setRecs (s.integ.recoveries ++ [r]) s)) r.code r.inst = some r := by
  rw [recAt_congr (recs_logRec _ _ _ _)]
  unfold recAt at absent
  simp [recAt, setRecs, absent, isRec]

theorem faultBegins_gates {code : Nat} (inst a : Nat) (b : Int) (s : State) (other : rankOf code ≠ 6) :
    (faultBegins code inst a b true s).ports.tdm.map gatePort = s.ports.tdm.map gatePort := by
  unfold faultBegins
  split
  · dsimp only
    split <;> rw [((updRec_reports _ _ _ s).trans (logRec_reports _ _ _ _)).ports]
  · next absent =>
    dsimp only
    rw [if_pos rfl]
    rw [becomesRunnable_gates (recAt_opened (r := ⟨rankOf code, code, inst, .waiting, a, b, true⟩) absent 0) other,
      ((setRecs_reports _ s).trans (logRec_reports _ 0 0 _)).ports]

/-- PLL-A with the reference present is gated with every port, under fault 0x50. -/
theorem losePllA_gates {s : State} (present : s.clocks.ref = .present) :
    faultOpen (losePllA s) 0x50 0 = true ∧ (losePllA s).ports.tdm = s.ports.tdm.map gatePort ∧
    ∃ u, Settles (setClocks (fun c => { c with pllA := .gated }) s) u ∧ Settles (gatePorts u) (losePllA s) := by
  have lost : Settles (setClocks (fun c => { c with pllA := .gated }) s) (evClock 2 1 0 (setClocks (fun c => { c with pllA := .gated }) s)) := rfl
  have begun := lost.trans (faultBegins_handles 0x50 0 0 0 true _).settles
  have opened := faultOpen_begins 0x50 0 0 0 true (evClock 2 1 0 (setClocks (fun c => { c with pllA := .gated }) s)) 0x50 0
  have gates := faultBegins_gates (code := 0x50) 0 0 0 (evClock 2 1 0 (setClocks (fun c => { c with pllA := .gated }) s)) (by decide)
  unfold losePllA
  dsimp only
  rw [if_neg (by simp [present])]
  exact ⟨opened.trans (by simp), gates, _, begun, refreshClocks_settles _⟩

/-! ### A synthesizer locks (R460, R461, R467) -/

theorem lockRecord_settles (clock : Nat) (s : State) : Settles s (lockRecord clock s) :=
  ite_settles (.refl s) (raise_settles _ _ s)

/-- Both synthesizers have locked: the start-up, or the relock, is over. -/
def startComplete (c : Clocks) : Clocks := if c.pllS = .locked ∧ c.pllA = .locked then { c with startLocked := true } else c

theorem bothLocked_settles (s : State) : Settles (setClocks startComplete s) (bothLocked s) := by
  unfold bothLocked setClocks startComplete
  split
  · exact (refreshClocks_settles _).trans (finishWait_settles _ _)
  · exact refreshClocks_settles s

end Sys2Proof.Machine

/-! The synthesizers lock, and the rows of the reference and of the synthesizers. -/

namespace Sys2Proof.Machine

/-! ### PLL-S locks (R461, R467) -/

theorem startComplete_leaves (c : Clocks) : (startComplete c).pllS = c.pllS ∧ (startComplete c).pllA = c.pllA := by
  unfold startComplete
  split <;> exact ⟨rfl, rfl⟩

theorem startComplete_outs (c : Clocks) (o : List ClockOutput) : startComplete { c with outs := o } = { startComplete c with outs := o } := by
  unfold startComplete
  dsimp only
  split <;> rfl

theorem startComplete_both {c : Clocks} (lockedS : c.pllS = .locked) (lockedA : c.pllA = .locked) : (startComplete c).startLocked = true := by
  rw [startComplete, if_pos ⟨lockedS, lockedA⟩]

def lockedS (c : Clocks) : Clocks := { c with pllS := .locked, band := List.replicate 4 true }

/-- PLL-S has locked; its fault is still to end. -/
def lockingS (s : State) : State := bothLocked (rememberBand (lockRecord 1 (setClocks lockedS s)))

theorem lockPllS_eq (s : State) : lockPllS s = faultEnds 0x41 0 2 (lockingS s) := rfl

/-- A memory of the sub-band changes the clocks and the bank alone, and does not look at what settles. -/
theorem Settles.rememberBand {s t : State} (h : Settles s t) : Settles (rememberBand s) (rememberBand t) := by
  unfold Settles at h
  rw [h]
  rfl

theorem lockingS_settles (s : State) : Settles (setClocks startComplete (rememberBand (setClocks lockedS s))) (lockingS s) := by
  have remembered := (lockRecord_settles 1 (setClocks lockedS s)).rememberBand
  exact (remembered.setClocks startComplete startComplete_outs).trans (bothLocked_settles _)

theorem lockPllS_settles (s : State) : Settles (setClocks startComplete (rememberBand (setClocks lockedS s))) (lockPllS s) := by
  rw [lockPllS_eq]
  exact (lockingS_settles s).trans (faultEnds_handles _ _ _ _).settles

/-- What holds of the state in which PLL-S has locked. -/
theorem lockPllS_locks (s : State) : (lockPllS s).clocks.pllS = .locked ∧ (lockPllS s).clocks.pllA = s.clocks.pllA ∧
    (s.clocks.pllA = .locked → (lockPllS s).clocks.startLocked = true) ∧ (lockPllS s).lanes = s.lanes ∧ (lockPllS s).progs = s.progs := by
  have locks := lockPllS_settles s
  obtain ⟨pllS, pllA⟩ := startComplete_leaves (rememberBand (setClocks lockedS s)).clocks
  have started : (lockPllS s).clocks.startLocked = (startComplete (rememberBand (setClocks lockedS s)).clocks).startLocked := by
    rw [locks]
    rfl
  exact ⟨locks.pllS.trans pllS, locks.pllA.trans pllA, fun both => started.trans (startComplete_both rfl both), locks.lanes, locks.progs⟩

theorem bothLocked_same (s : State) : (bothLocked s).integ = s.integ ∧ (bothLocked s).ports = s.ports := by
  unfold bothLocked
  split
  · rw [finishWait_completes]
    exact ⟨rfl, rfl⟩
  · exact ⟨rfl, rfl⟩

theorem lockRecord_same (clock : Nat) (s : State) : (lockRecord clock s).integ = s.integ ∧ (lockRecord clock s).ports = s.ports := by
  unfold lockRecord
  split <;> exact ⟨rfl, rfl⟩

/-- With no fault of PLL-S open a lock ends none, and the ports stay. -/
theorem lockPllS_ports {s : State} (closed : faultOpen s 0x41 0 = false) : (lockPllS s).ports = s.ports := by
  obtain ⟨integ, ports⟩ := bothLocked_same (rememberBand (lockRecord 1 (setClocks lockedS s)))
  obtain ⟨recordInteg, recordPorts⟩ := lockRecord_same 1 (setClocks lockedS s)
  have same : (lockingS s).integ = s.integ := integ.trans recordInteg
  rw [lockPllS_eq, faultEnds_closed ((faultOpen_congr same _ _).trans closed)]
  exact ports.trans recordPorts

/-! ### PLL-A and PLL-N lock (R27, R466) -/

/-- PLL-A has locked, and the timeline runs (R27). -/
def startedA (s : State) : State := setClocks (fun c => { c with pllA := .locked }) { s with time := startTimeline s.time }

theorem lockPllA_settles (s : State) : ∃ u, Settles (setClocks startComplete (startedA s)) u ∧ Settles (ungatePorts u) (lockPllA s) := by
  refine ⟨bothLocked (lockRecord 2 (startedA s)), ?_, ite_settles (faultEnds_handles _ _ _ _).settles (.refl _)⟩
  exact ((lockRecord_settles 2 (startedA s)).setClocks startComplete startComplete_outs).trans (bothLocked_settles _)

/-- What holds of the state in which PLL-A has locked: the timeline has started. -/
theorem lockPllA_locks (s : State) : (lockPllA s).clocks.pllA = .locked ∧ (lockPllA s).time.started = (startTimeline s.time).started ∧
    (lockPllA s).time.dfc = (startTimeline s.time).dfc ∧ (lockPllA s).time.epoch = (startTimeline s.time).epoch ∧
    (lockPllA s).lanes = s.lanes ∧ (lockPllA s).progs = s.progs := by
  obtain ⟨u, locks, opens⟩ := lockPllA_settles s
  have started : (lockPllA s).time.started = u.time.started := by rw [opens]; rfl
  exact ⟨opens.pllA.trans (locks.pllA.trans (startComplete_leaves _).2), started.trans (by rw [locks]; rfl), opens.dfc.trans locks.dfc,
    opens.epoch.trans locks.epoch, opens.lanes.trans locks.lanes, opens.progs.trans locks.progs⟩

theorem startTimeline_started (x : Timeline) : (startTimeline x).started = true := by
  unfold startTimeline
  split
  · assumption
  · rfl

theorem startTimeline_again {x : Timeline} (started : x.started = true) : startTimeline x = x := if_pos started

theorem startTimeline_first {x : Timeline} (first : x.started = false) : (startTimeline x).dfc = 0 ∧
    (startTimeline x).epoch = if x.coldLock then x.epoch else x.epoch + 1 := by
  simp [startTimeline, first]

theorem lockPllN_locks {s : State} (locking : s.clocks.pllN = .locking) (up : refUp s.clocks = true) :
    (lockPllN s).clocks = { s.clocks with pllN := .locked } ∧ (lockPllN s).ghost.watch = s.ghost.watch ∧ (lockPllN s).lanes = s.lanes := by
  unfold lockPllN
  rw [if_pos ⟨locking, up⟩]
  dsimp only
  split <;> exact ⟨rfl, rfl, rfl⟩

theorem refBack_leaves (c : Clocks) : (refBack c).ref = (if c.pllS = .coasting ∨ c.pllA = .coasting then .buildOut else .present) ∧
    (refBack c).pllS = c.pllS ∧ (refBack c).pllA = c.pllA := by
  by_cases coasts : c.pllS = .coasting ∨ c.pllA = .coasting <;> simp [refBack, anyCoasting, coasts]

/-! ### Whose turn it is (R513) -/

theorem recoveryTurn_closed {s : State} {code : Nat} (closed : faultOpen s code 0 = false) : recoveryTurn code s = (s, true) := by
  simp [recoveryTurn, becomesRunnable_closed closed, closed]

theorem recoveryTurn_holds {s : State} {code : Nat} (holds : holdsSlot (becomesRunnable code 0 s) code 0 = true) :
    recoveryTurn code s = (becomesRunnable code 0 s, true) := by
  simp [recoveryTurn, holds]

/-! ### The rows -/

section
variable {s : State}

theorem execReferenceAbsent_loses (ready : s.reset_.domain = .ready) (up : s.clocks.ref ≠ .absent) :
    execReferenceAbsent s = .next (loseRef s) :=
  if_neg (by simp [refWatched, mainOff, ready, up])

theorem execReferencePresent_returns (ready : s.reset_.domain = .ready) (absent : s.clocks.ref = .absent) :
    execReferencePresent s = .next (returnRef s) :=
  if_pos (by simp [refWatched, mainOff, ready, absent])

theorem execBuildOutComplete_s (ps : Nat) (err : Int) (back : s.clocks.ref = .buildOut) (coasts : s.clocks.pllS = .coasting) :
    execBuildOutComplete .s ps err s = .next (builtOut 1 ps err (fun c => { c with pllS := .locked, offS := ps }) s) := by
  simp [execBuildOutComplete, back, coasts]

theorem execBuildOutComplete_a (ps : Nat) (err : Int) (back : s.clocks.ref = .buildOut) (coasts : s.clocks.pllA = .coasting) :
    execBuildOutComplete .a ps err s = .next (builtOut 2 ps err (fun c => { c with pllA := .locked, offA := ps }) s) := by
  simp [execBuildOutComplete, back, coasts]

theorem execPllLock_s (locking : s.clocks.pllS = .locking) (up : s.clocks.ref ≠ .absent) (closed : faultOpen s 0x41 0 = false) :
    execPllLock .s s = .next (lockPllS s) := by
  simp [execPllLock, locking, refUp, up, recoveryTurn_closed closed]

theorem execPllLock_a (locking : s.clocks.pllA = .locking ∨ s.clocks.pllA = .gated) (present : s.clocks.ref = .present)
    (closed : faultOpen s 0x50 0 = false) : execPllLock .a s = .next (lockPllA s) := by
  simp [execPllLock, locking, refUp, present, recoveryTurn_closed closed]

theorem execPllSRelockRetry_turn (b : Bool) (locking : s.clocks.pllS = .locking) (lost : faultOpen s 0x41 0 = true) (up : s.clocks.ref ≠ .absent)
    (turn : holdsSlot (becomesRunnable 0x41 0 s) 0x41 0 = true) :
    execPllSRelockRetry b s = .next (if b then lockPllS (becomesRunnable 0x41 0 s) else becomesRunnable 0x41 0 s) := by
  simp [execPllSRelockRetry, locking, lost, refUp, up, recoveryTurn_holds turn]

end

/-- Settles O53: the lemmas above say what each row leaves of the clocks, the timeline and the ports. -/
theorem referenceAndSynthesizerRowsMoveTheClocks : Obligations.ReferenceAndSynthesizerRowsMoveTheClocks := by
  intro s
  refine ⟨fun ready up => ?_, fun absent => if_pos (.inl absent), fun ready absent => ?_, fun up => if_neg fun h => up h.1,
    fun ps err back coasts => ?_, fun ps err back coasts => ?_, fun locked up => ?_, fun locked present => ?_, fun locked => ?_,
    fun locking up closed => ?_, fun locking present closed => ?_, fun locking up => ?_, fun b locking lost up turn => ?_⟩
  · have lost := loseRef_settles s
    exact ⟨_, execReferenceAbsent_loses ready up, lost.ref, lost.pllS, lost.pllA, by rw [lost]; rfl, lost.dfc, lost.epoch, by rw [lost]; rfl,
      lost.lanes, lost.progs, lost.retained, lost.spdif, fun free => (loseRef_portsStay s free).1⟩
  · have back := returnRef_settles s
    obtain ⟨ref, pllS, pllA⟩ := refBack_leaves s.clocks
    exact ⟨_, execReferencePresent_returns ready absent, back.ref.trans ref, back.pllS.trans pllS, back.pllA.trans pllA, back.dfc, back.epoch,
      back.lanes, back.progs, back.spdif, fun free => (returnRef_portsStay s free).1⟩
  · obtain ⟨x, built⟩ := builtOut_settles 1 ps err (fun c => { c with pllS := .locked, offS := ps }) s
    exact ⟨_, execBuildOutComplete_s ps err back coasts, built.pllS, by rw [built], built.pllA,
      built.ref.trans (by simp [anyCoasting, back]), built.lanes⟩
  · obtain ⟨x, built⟩ := builtOut_settles 2 ps err (fun c => { c with pllA := .locked, offA := ps }) s
    exact ⟨_, execBuildOutComplete_a ps err back coasts, built.pllA, by rw [built], built.pllS,
      built.ref.trans (by simp [anyCoasting, back]), built.lanes⟩
  · have lost := losePllS_settles s
    exact ⟨_, if_pos ⟨locked, up⟩, lost.pllS, losePllS_open s, lost.pllA, lost.lanes, lost.progs, lost.spdif,
      fun free => (losePllS_portsStay s free).1⟩
  · obtain ⟨fault, ports, u, lost, gated⟩ := losePllA_gates present
    exact ⟨_, if_pos (.inl ⟨locked, by simp [present]⟩), gated.pllA.trans lost.pllA, fault, gated.pllS.trans lost.pllS, ports,
      gated.dfc.trans lost.dfc, gated.lanes.trans lost.lanes, gated.progs.trans lost.progs⟩
  · exact ⟨_, rfl, by rw [losePllN, if_pos locked]; rfl⟩
  · obtain ⟨pllS, pllA, started, lanes, progs⟩ := lockPllS_locks s
    exact ⟨_, execPllLock_s locking up closed, pllS, pllA, started, lanes, progs, lockPllS_ports closed⟩
  · obtain ⟨pllA, started, dfc, epoch, lanes, progs⟩ := lockPllA_locks s
    refine ⟨_, execPllLock_a locking present closed, pllA, started.trans (startTimeline_started _), fun again => ?_, fun first => ?_, lanes, progs⟩
    · rw [dfc, epoch, startTimeline_again again]
      exact ⟨rfl, rfl⟩
    · rw [dfc, epoch]
      exact startTimeline_first first
  · exact ⟨_, rfl, lockPllN_locks locking (by simp [refUp, up])⟩
  · have runs := (becomesRunnable_handles 0x41 0 s).settles
    refine ⟨_, execPllSRelockRetry_turn b locking lost up turn, ?_⟩
    cases b with
    | true =>
      obtain ⟨pllS, pllA, -, lanes, -⟩ := lockPllS_locks (becomesRunnable 0x41 0 s)
      exact ⟨pllS, pllA.trans runs.pllA, lanes.trans runs.lanes⟩
    | false => exact ⟨runs.pllS.trans locking, runs.pllA, runs.lanes⟩

end Sys2Proof.Machine

/-! What the operations of linking and of the curtain leave: all but programs, decoders, alerts, records and the scene's mark. -/

namespace Sys2Proof.Machine

/-- `t` is `s` but for programs, decoders, alerts, event records and the stage manager. -/
def ProgramsOnly (s t : State) : Prop :=
  t = { s with events := t.events, mgr := t.mgr, decoders := t.decoders, progs := t.progs, alerts := t.alerts }

theorem ProgramsOnly.refl (s : State) : ProgramsOnly s s := rfl

theorem ProgramsOnly.trans {s t u : State} (h : ProgramsOnly s t) (k : ProgramsOnly t u) : ProgramsOnly s u := by
  unfold ProgramsOnly at h k ⊢
  exact k.trans (by rw [h])

theorem SelectionOnly.programsOnly {s t : State} (h : SelectionOnly s t) : ProgramsOnly s t := by
  rw [h]
  rfl

theorem ite_programsOnly {s a b : State} {c : Prop} [Decidable c] (ha : ProgramsOnly s a) (hb : ProgramsOnly s b) :
    ProgramsOnly s (if c then a else b) := by
  split <;> assumption

theorem forEach_programsOnly {α : Type} (l : List α) (f : α → State → State) (s : State) (h : ∀ x u, ProgramsOnly u (f x u)) :
    ProgramsOnly s (forEach l f s) :=
  foldl_inv (ProgramsOnly s) l _ s (.refl s) fun _ x hu => hu.trans (h x _)

/-! ### The operations on one program -/

theorem updProgram_programsOnly (n : Nat) (f : Program → Program) (s : State) : ProgramsOnly s (updProgram n f s) := rfl

theorem evLink_programsOnly (n reason a b : Nat) (key : List Byte) (c : Int) (s : State) : ProgramsOnly s (evLink n reason a b key c s) := rfl

theorem sceneChange_programsOnly (s : State) : ProgramsOnly s (sceneChange s) := rfl

theorem fitOwn_programsOnly (n : Nat) (s : State) : ProgramsOnly s (fitOwn n s) := (fitOwn_selectionOnly n s).programsOnly

theorem releaseOwn_programsOnly (n : Nat) (s : State) : ProgramsOnly s (releaseOwn n s) := (releaseOwn_selectionOnly n s).programsOnly

theorem releaseLoans_programsOnly (n : Nat) (t : Source → Bool) (s : State) : ProgramsOnly s (releaseLoans n t s) := rfl

theorem setCurtain_programsOnly (n : Nat) (f : Curtain → Curtain) (s : State) : ProgramsOnly s (setCurtain n f s) := rfl

theorem reopen_programsOnly (n : Nat) (s : State) : ProgramsOnly s (reopen n s) := rfl

theorem dropPages_programsOnly (n : Nat) (s : State) : ProgramsOnly s (dropPages n s) := rfl

theorem exitAligned_programsOnly (n : Nat) (s : State) : ProgramsOnly s (exitAligned n s) := rfl

theorem setAnchor_programsOnly (n : Nat) (dab : Bool) (slot : Option Nat) (s : State) : ProgramsOnly s (setAnchor n dab slot s) := by
  cases dab <;> rfl

theorem selectMember_programsOnly (n : Nat) (dab : Bool) (slot : Nat) (s : State) : ProgramsOnly s (selectMember n dab slot s) := by
  unfold selectMember
  dsimp only
  split
  · exact ite_programsOnly ((updProgram_programsOnly _ _ s).trans (setAnchor_programsOnly _ _ _ _)) (updProgram_programsOnly _ _ s)
  · exact updProgram_programsOnly _ _ s

theorem swapDecoders_programsOnly (n : Nat) (key : Source) (s : State) : ProgramsOnly s (swapDecoders n key s) := by
  unfold swapDecoders
  (repeat' split) <;> rfl

theorem ownMember_programsOnly (n slot : Nat) (s : State) : ProgramsOnly s (ownMember n slot s) := by
  unfold ownMember
  split
  · exact ite_programsOnly ((swapDecoders_programsOnly n _ s).trans (fitOwn_programsOnly n _)) (.refl s)
  · exact .refl s

theorem selectPrimary_programsOnly (n : Nat) (s : State) : ProgramsOnly s (selectPrimary n s) :=
  (updProgram_programsOnly _ _ s).trans (fitOwn_programsOnly n _)

theorem alignIfReady_programsOnly (n : Nat) (s : State) : ProgramsOnly s (alignIfReady n s) := by
  unfold alignIfReady
  split
  · exact ite_programsOnly rfl (.refl s)
  · exact .refl s

theorem removeMember_programsOnly (n slot : Nat) (s : State) : ProgramsOnly s (removeMember n slot s) := by
  unfold removeMember
  split
  · exact .refl s
  · next p m _ =>
    dsimp only
    refine ProgramsOnly.trans ?_ (evLink_programsOnly _ _ _ _ _ _ _)
    have anchored (f : Program → Program) (c : Prop) [Decidable c] (slot : Option Nat) :
        ProgramsOnly s (if c then setAnchor n (m.src.kind == 2) slot (updProgram n f s) else updProgram n f s) :=
      ite_programsOnly ((updProgram_programsOnly _ _ s).trans (setAnchor_programsOnly _ _ _ _)) (updProgram_programsOnly _ _ s)
    have fitted (u : State) (k : ProgramsOnly s u) :
        ProgramsOnly s (if m.src.kind == 2 then fitOwn n (releaseLoans n (fun k => k == m.src) u) else u) :=
      ite_programsOnly ((k.trans (releaseLoans_programsOnly _ _ _)).trans (fitOwn_programsOnly _ _)) k
    exact ite_programsOnly ((fitted _ (anchored _ _ _)).trans (sceneChange_programsOnly _)) (fitted _ (anchored _ _ _))

/-! ### The closed instant (R226, R231, R234, R264) -/

theorem leaveAll_programsOnly (n : Nat) (p : Program) (s : State) : ProgramsOnly s (leaveAll n p s) := by
  refine forEach_programsOnly _ _ s fun i u => ?_
  split
  · exact evLink_programsOnly _ _ _ _ _ _ u
  · exact .refl u

theorem endProgram_programsOnly (n : Nat) (s : State) : ProgramsOnly s (endProgram n s) := by
  unfold endProgram
  split
  · exact .refl s
  · exact ((((leaveAll_programsOnly n _ s).trans (releaseLoans_programsOnly _ _ _)).trans (releaseOwn_programsOnly _ _)).trans
      (sceneChange_programsOnly _)).trans (updProgram_programsOnly _ _ _)

theorem takeHolding_programsOnly (n : Nat) (p : Program) (o : Bool) (s : State) : ProgramsOnly s (takeHolding n p o s) := by
  unfold takeHolding
  split
  · exact reopen_programsOnly n s
  · have taken (f : Program → Program) (t : Source → Bool) := (updProgram_programsOnly n f s).trans (releaseLoans_programsOnly n t _)
    exact ite_programsOnly ((taken _ _).trans (setCurtain_programsOnly _ _ _)) ((taken _ _).trans (reopen_programsOnly _ _))

theorem returnNormal_programsOnly (n : Nat) (p : Program) (s : State) : ProgramsOnly s (returnNormal n p s) := by
  have returned (f : Program → Program) (t : Source → Bool) :=
    ((updProgram_programsOnly n f s).trans (releaseLoans_programsOnly n t _)).trans (fitOwn_programsOnly n _)
  exact ite_programsOnly ((returned _ _).trans (setCurtain_programsOnly _ _ _)) ((returned _ _).trans (reopen_programsOnly _ _))

theorem atClosed_programsOnly (n : Nat) (a : AfterClose) (s : State) : ProgramsOnly s (atClosed n a s) := by
  unfold atClosed
  split
  · exact .refl s
  · next p _ =>
    cases a with
    | stop => exact endProgram_programsOnly n s
    | newPrimary => exact (selectPrimary_programsOnly n s).trans (reopen_programsOnly n _)
    | switchMember dab slot => exact ((selectMember_programsOnly n dab slot s).trans (ownMember_programsOnly n slot _)).trans (reopen_programsOnly n _)
    | switchPath dab => exact ((updProgram_programsOnly n _ s).trans (alignIfReady_programsOnly n _)).trans (reopen_programsOnly n _)
    | enterAligned => 
      dsimp only
      refine ProgramsOnly.trans (ite_programsOnly ?_ (.refl s)) (reopen_programsOnly n _)
      rfl
    | leaveAligned => exact (exitAligned_programsOnly n s).trans (reopen_programsOnly n _)
    | takeAnnouncement => exact takeHolding_programsOnly n p _ s
    | returnNormal => exact returnNormal_programsOnly n p s

theorem closedInstant_programsOnly (n : Nat) (s : State) : ProgramsOnly s (closedInstant n s) := by
  unfold closedInstant
  split
  · exact .refl s
  · exact foldl_inv (ProgramsOnly s) _ _ _ (setCurtain_programsOnly n _ s) fun _ a h => h.trans (atClosed_programsOnly n a _)

theorem closeThen_programsOnly (n : Nat) (a : AfterClose) (s : State) : ProgramsOnly s (closeThen n a s) := by
  unfold closeThen
  dsimp only
  split
  · exact ite_programsOnly ((setCurtain_programsOnly n _ s).trans (closedInstant_programsOnly n _)) (setCurtain_programsOnly n _ s)
  · exact setCurtain_programsOnly n _ s

theorem leaveAligned_programsOnly (n : Nat) (s : State) : ProgramsOnly s (leaveAligned n s) := by
  unfold leaveAligned
  split
  · exact .refl s
  · exact ite_programsOnly (dropPages_programsOnly n s) (ite_programsOnly (.refl s)
      (ite_programsOnly (exitAligned_programsOnly n s) (closeThen_programsOnly n _ s)))

/-! ### A decision point (R237 to R264) -/

theorem requestPages_programsOnly (n lag : Nat) (s : State) : ProgramsOnly s (requestPages n lag s) := by
  unfold requestPages
  split
  · exact .refl s
  · exact ite_programsOnly rfl (ite_programsOnly rfl rfl)

theorem trimGroup_programsOnly (n k : Nat) (s : State) : ProgramsOnly s (trimGroup n k s) := by
  induction k generalizing s with
  | zero => exact .refl s
  | succ k ih =>
    unfold trimGroup
    split
    · exact .refl s
    · split
      · exact .refl s
      · split
        · exact (removeMember_programsOnly n _ s).trans (ih _)
        · exact .refl s

theorem takeLinkPolicy_programsOnly (n : Nat) (s : State) : ProgramsOnly s (takeLinkPolicy n s) := by
  unfold takeLinkPolicy
  split
  · exact (updProgram_programsOnly n _ s).trans (trimGroup_programsOnly n 12 _)
  · exact .refl s

theorem leavePass_programsOnly (n : Nat) (s : State) : ProgramsOnly s (leavePass n s) := by
  unfold leavePass
  split
  · exact .refl s
  · dsimp only
    split
    · exact updProgram_programsOnly n _ s
    · exact (updProgram_programsOnly n _ s).trans (forEach_programsOnly _ _ _ fun i u => removeMember_programsOnly n i u)

theorem searchPass_programsOnly (n : Nat) (s : State) : ProgramsOnly s (searchPass n s) := by
  unfold searchPass
  dsimp only
  split
  · exact updProgram_programsOnly n _ s
  · refine ite_programsOnly (updProgram_programsOnly n _ s) ?_
    split
    · exact ite_programsOnly rfl (updProgram_programsOnly n _ s)
    · refine ite_programsOnly (updProgram_programsOnly n _ s) ?_
      split
      · have refining (a : AlignState) (u : State) : ProgramsOnly u (updAlign n a u) := rfl
        exact ((updProgram_programsOnly n _ s).trans (refining _ _)).trans (requestPages_programsOnly n _ _)
      · exact updProgram_programsOnly n _ s
    · exact updProgram_programsOnly n _ s

theorem switchWithin_programsOnly (n : Nat) (dab : Bool) (new : Nat) (s : State) : ProgramsOnly s (switchWithin n dab new s) := by
  unfold switchWithin
  split
  · exact .refl s
  · have named (reason : Int) (old : Nat) : ProgramsOnly s (evLink n 6 old new [] reason (updProgram n clearBetter s)) := rfl
    exact ite_programsOnly rfl ((named 3 _).trans (closeThen_programsOnly n _ _))

theorem switchPaths_programsOnly (n : Nat) (dab : Bool) (s : State) : ProgramsOnly s (switchPaths n dab s) := by
  unfold switchPaths
  split
  · exact .refl s
  · exact ite_programsOnly rfl ((evLink_programsOnly _ _ _ _ _ _ s).trans (closeThen_programsOnly n _ _))

/-- A switch within a path, or of the output, where one is due. -/
def switchDue (n : Nat) (dab : Bool) (p : Program) (s : State) : State :=
  match pathSwitch s p dab with
  | some i => switchWithin n dab i s
  | none => s

def outputDue (n : Nat) (p : Program) (s : State) : State :=
  match outputSwitch s p with
  | some d => switchPaths n d s
  | none => s

/-- A decision on a program that nothing holds. -/
def whenFree (n : Nat) (decision : Program → State → State) (s : State) : State :=
  match progAt s n with
  | some p => if decisionsHeld p then s else decision p s
  | none => s

theorem switchPass_eq (n : Nat) (s : State) : switchPass n s = whenFree n (fun p u =>
    whenFree n (outputDue n) (whenFree n (switchDue n true) (switchDue n false p u))) (reversePass n s) := by
  unfold switchPass whenFree
  dsimp only
  cases progAt (reversePass n s) n with
  | none => rfl
  | some p => rfl

theorem switchDue_programsOnly (n : Nat) (dab : Bool) (p : Program) (s : State) : ProgramsOnly s (switchDue n dab p s) := by
  unfold switchDue
  split
  · exact switchWithin_programsOnly n dab _ s
  · exact .refl s

theorem outputDue_programsOnly (n : Nat) (p : Program) (s : State) : ProgramsOnly s (outputDue n p s) := by
  unfold outputDue
  split
  · exact switchPaths_programsOnly n _ s
  · exact .refl s

theorem whenFree_programsOnly {n : Nat} {decision : Program → State → State} (s : State) (h : ∀ p u, ProgramsOnly u (decision p u)) :
    ProgramsOnly s (whenFree n decision s) := by
  unfold whenFree
  split
  · exact ite_programsOnly (.refl s) (h _ s)
  · exact .refl s

theorem switchPass_programsOnly (n : Nat) (s : State) : ProgramsOnly s (switchPass n s) := by
  rw [switchPass_eq]
  have reversed : ProgramsOnly s (reversePass n s) := rfl
  refine reversed.trans (whenFree_programsOnly _ fun p u => ?_)
  exact ((switchDue_programsOnly n false p u).trans (whenFree_programsOnly _ (switchDue_programsOnly n true))).trans
    (whenFree_programsOnly _ (outputDue_programsOnly n))

theorem modePass_programsOnly (n : Nat) (s : State) : ProgramsOnly s (modePass n s) := by
  unfold modePass
  split
  · exact .refl s
  · refine ite_programsOnly (ite_programsOnly (.refl s) ((updProgram_programsOnly n _ s).trans (leaveAligned_programsOnly n _))) ?_
    exact ite_programsOnly (.refl s) (ite_programsOnly (alignIfReady_programsOnly n s) (ite_programsOnly (closeThen_programsOnly n _ s) (.refl s)))

theorem loanPass_programsOnly (n : Nat) (s : State) : ProgramsOnly s (loanPass n s) := by
  unfold loanPass
  split
  · exact .refl s
  · refine ite_programsOnly (.refl s) ?_
    split
    · next m _ =>
      cases lent : lend n m.src s with
      | some t => exact (lend_selectionOnly lent).programsOnly
      | none => exact .refl s
    · exact .refl s

theorem sourcePass_programsOnly (n : Nat) (s : State) : ProgramsOnly s (sourcePass n s) := by
  unfold sourcePass
  split
  · exact .refl s
  · exact ite_programsOnly rfl (ite_programsOnly (.refl s) rfl)

theorem decide1_programsOnly (o : ProgObs) (s : State) : ProgramsOnly s (decide1 o s) := by
  have policy := takeLinkPolicy_programsOnly o.program s
  unfold decide1
  dsimp only
  split
  · exact policy
  · refine ite_programsOnly policy ?_
    have stored := policy.trans (updProgram_programsOnly o.program (fun p => { p with store := o.upsets.foldl upset p.store }) _)
    have aged (u : State) : ProgramsOnly u (agePass o.program u) := updProgram_programsOnly _ _ u
    exact ((((((stored.trans (leavePass_programsOnly _ _)).trans (aged _)).trans (searchPass_programsOnly _ _)).trans (switchPass_programsOnly _ _)).trans
      (modePass_programsOnly _ _)).trans (loanPass_programsOnly _ _)).trans (sourcePass_programsOnly _ _)

theorem execDecisionPoint_programsOnly (obs : List ProgObs) (s : State) :
    ∃ t, execDecisionPoint obs s = .next t ∧ ProgramsOnly s t := by
  unfold execDecisionPoint
  split
  · exact ⟨_, rfl, (forEach_programsOnly _ _ s fun n u => decide1_programsOnly _ u).trans (reselectAll_selectionOnly _).programsOnly⟩
  · exact ⟨s, rfl, .refl s⟩

end Sys2Proof.Machine

/-! The rows of members: underruns, crossfades, delays, and programs without a DAB member (R241, R242, R254, R260 to R266). -/

namespace Sys2Proof.Machine

/-! ### A program that is not aligned, nor was (R249, R254) -/

/-- The alignment of a program, and whether it was aligned. -/
def alignment (_ : Nat) (p : Program) : AlignState × Bool := (p.align, p.wasAligned)

def NeverAligned (n : Nat) (s : State) : Prop := ∃ q, progAt s n = some q ∧ alignment n q = (.off, false)

section
variable {s t : State} {n : Nat}

theorem NeverAligned.kept (h : NeverAligned n s) (k : Kept alignment s t) : NeverAligned n t := by
  obtain ⟨q, here, off⟩ := h
  obtain ⟨r, there, same⟩ := k.progAt here
  exact ⟨r, there, same.trans off⟩

theorem NeverAligned.updProgram {f : Program → Program} (h : NeverAligned n s) (off : ∀ q, alignment n q = (.off, false) → alignment n (f q) = (.off, false)) :
    NeverAligned n (updProgram n f s) := by
  obtain ⟨q, here, isOff⟩ := h
  exact ⟨f q, by simp [progAt_updProgram, here], off q isOff⟩

theorem NeverAligned.realign (h : NeverAligned n s) : NeverAligned n (realign n s) := by
  refine h.updProgram fun q off => ?_
  obtain ⟨isOff, was⟩ := Prod.mk.inj off
  simp [alignment, isOff, was]

theorem NeverAligned.ite {c : Prop} [Decidable c] (h : NeverAligned n s) (k : NeverAligned n t) : NeverAligned n (if c then s else t) := by
  split <;> assumption

theorem NeverAligned.setAnchor (h : NeverAligned n s) (dab : Bool) (slot : Option Nat) : NeverAligned n (setAnchor n dab slot s) := by
  unfold Machine.setAnchor
  cases dab with
  | true => exact NeverAligned.realign (NeverAligned.updProgram h fun _ off => off)
  | false => exact NeverAligned.updProgram h fun _ off => off

theorem NeverAligned.selectMember (h : NeverAligned n s) (dab : Bool) (slot : Nat) : NeverAligned n (selectMember n dab slot s) := by
  have selected : NeverAligned n (Machine.updProgram n (fun p => if dab then { p with selD := some slot } else { p with selA := some slot }) s) :=
    h.updProgram fun _ off => by cases dab <;> exact off
  unfold Machine.selectMember
  dsimp only
  split
  · exact .ite (selected.setAnchor dab _) selected
  · exact selected

theorem ownMember_alignment (n slot : Nat) (s : State) : Kept alignment s (ownMember n slot s) := by
  unfold ownMember
  split
  · exact .ite (.fitOwn (.progs (.refl s) (swapDecoders_progs n _ s))) (.refl s)
  · exact .refl s

theorem alignIfReady_alignment (n : Nat) (s : State) : Kept alignment s (alignIfReady n s) := by
  unfold alignIfReady
  split
  · exact .ite (.evLink (.updProgram (.refl s) fun _ => rfl)) (.refl s)
  · exact .refl s

theorem exitAligned_alignment (n : Nat) (s : State) : Kept alignment s (exitAligned n s) :=
  .updProgram (.evLink (.updProgram (.refl s) fun _ => rfl)) fun _ => rfl

theorem takeHolding_alignment (n : Nat) (p : Program) (o : Bool) (s : State) : Kept alignment s (takeHolding n p o s) := by
  unfold takeHolding
  split
  · exact .updProgram (.refl s) fun _ => rfl
  · refine .ite (.updProgram ?_ fun _ => rfl) (.updProgram ?_ fun _ => rfl)
    all_goals exact .releaseLoans (.updProgram (.refl s) fun _ => rfl)

theorem returnNormal_alignment (n : Nat) (p : Program) (s : State) : Kept alignment s (returnNormal n p s) := by
  refine .ite (.updProgram ?_ fun _ => rfl) (.updProgram ?_ fun _ => rfl)
  all_goals exact .fitOwn (.releaseLoans (.updProgram (.refl s) fun _ => rfl))

theorem NeverAligned.endProgram (h : NeverAligned n s) : NeverAligned n (endProgram n s) := by
  obtain ⟨p, here, -⟩ := h
  have left : Kept alignment s (sceneChange (releaseOwn n (releaseLoans n (fun _ => true) (leaveAll n p s)))) :=
    .sceneChange (.releaseOwn (.releaseLoans (.leaveAll (.refl s))))
  obtain ⟨z, there, -⟩ := left.progAt here
  unfold Machine.endProgram
  simp only [here]
  exact ⟨_, by rw [progAt_updProgram, if_pos rfl, there]; rfl, rfl⟩

/-- Nothing that is made at the closed instant aligns a program that is not. -/
theorem NeverAligned.atClosed (h : NeverAligned n s) (a : AfterClose) : NeverAligned n (atClosed n a s) := by
  have reopened (u : State) (k : NeverAligned n u) : NeverAligned n (reopen n u) := k.updProgram fun _ off => off
  unfold Machine.atClosed
  split
  · exact h
  · cases a with
    | stop => exact h.endProgram
    | newPrimary => exact reopened _ (h.kept (.fitOwn (.updProgram (.refl s) fun _ => rfl)))
    | switchMember dab slot => exact reopened _ ((h.selectMember dab slot).kept (ownMember_alignment n slot _))
    | switchPath dab =>
      refine reopened _ (NeverAligned.kept ?_ (alignIfReady_alignment n _))
      exact h.updProgram fun _ off => off
    | enterAligned => exact reopened _ (h.kept (.ite (.evLink (.updProgram (.refl s) fun _ => rfl)) (.refl s)))
    | leaveAligned => exact reopened _ (h.kept (exitAligned_alignment n s))
    | takeAnnouncement => exact h.kept (takeHolding_alignment n _ _ s)
    | returnNormal => exact h.kept (returnNormal_alignment n _ s)

theorem NeverAligned.closeThen (h : NeverAligned n s) (a : AfterClose) : NeverAligned n (closeThen n a s) := by
  have ordered (f : Curtain → Curtain) (u : State) (k : NeverAligned n u) : NeverAligned n (setCurtain n f u) := k.updProgram fun _ off => off
  have closed (u : State) (k : NeverAligned n u) : NeverAligned n (closedInstant n u) := by
    unfold closedInstant
    split
    · exact k
    · exact foldl_inv (NeverAligned n) _ _ _ (ordered _ u k) fun _ a h => h.atClosed a
  unfold Machine.closeThen
  dsimp only
  split
  · split
    · exact closed _ (ordered _ s h)
    · exact ordered _ s h
  · exact ordered _ s h

theorem NeverAligned.leaveAligned (h : NeverAligned n s) : NeverAligned n (leaveAligned n s) := by
  unfold Machine.leaveAligned
  split
  · exact h
  · split
    · exact h.updProgram fun _ off => off
    · split
      · exact h
      · split
        · exact h.kept (exitAligned_alignment n s)
        · exact h.closeThen _

end

/-! ### The rows of members -/

theorem updProgram_of_progAt {s : State} {n : Nat} {p : Program} (f : Program → Program) (here : progAt s n = some p) :
    updProgram n f s = { s with progs := s.progs.set n (f p) } := by
  unfold updProgram
  rw [upd_of_some f here]

theorem progAt_updProgram_same {s : State} {n : Nat} {p : Program} (f : Program → Program) (here : progAt s n = some p) :
    progAt (updProgram n f s) n = some (f p) := by
  simp [progAt_updProgram, here]

theorem countLate_reports (n late bad : Nat) (s : State) : Reports s (countLate n late bad s) :=
  (count_reports _ _ _ s).trans (count_reports _ _ _ _)

section
variable {s : State} {n : Nat} {p : Program} (here : progAt s n = some p)
include here

/-- A late member of a running program: its mark, the record of the first, and the count. -/
theorem execUnderrun_marks {k : Nat} {m : Member} (late bad : Nat) (filled : memberAt p k = some m) (runs : p.running = true) :
    execUnderrun n ⟨k, late, bad⟩ s = .next (countLate n late bad (
      let u := { s with progs := s.progs.set n { p with members := p.members.set k (some (runLate s.now (max 1 (late + bad)) m)) } }
      if m.underrun then u else evLink n 8 k 0 [] 0 u)) := by
  simp only [execUnderrun, here, filled, runs, Bool.not_true, Bool.false_eq_true, if_false, updProgram_of_progAt _ here]

theorem execMemberReturn_returns {k t : Nat} {m : Member} (filled : memberAt p k = some m) (under : m.underrun = true) (analog : m.src.kind ≠ 2)
    (since : m.onTimeSince = some t) (due : t + 4800 ≤ s.now) : execMemberReturn n k s = .next { s with progs := s.progs.set n (
      let back := { m with underrun := false, delta := if p.anchorA = some k then m.delta else none,
                           measuredAt := if p.anchorA = some k then m.measuredAt else none }
      { p with members := p.members.set k (some back) }) } := by
  simp [execMemberReturn, here, filled, under, onTime, since, due, analog, updProgram_of_progAt _ here]

theorem execMemberReturn_waits {k t : Nat} {m : Member} (filled : memberAt p k = some m) (since : m.onTimeSince = some t) (early : s.now < t + 4800) :
    execMemberReturn n k s = .next s := by
  simp [execMemberReturn, here, filled, onTime, since, Nat.not_le.mpr early]

/-! ### Crossfades (R260, R262) -/

theorem execCrossfadeEnd_runs {f : Fade} (fading : p.fade = some f) (early : s.now < f.start + 48 * f.ms) : execCrossfadeEnd n s = .next s := by
  simp [execCrossfadeEnd, here, fading, elapsed, ticksOfMs, Nat.not_le.mpr early]

/-- The fade is over and was not reversed: the output or a path takes the new member. -/
theorem execCrossfadeEnd_path {f : Fade} {m : Member} (fading : p.fade = some f) (done : f.start + 48 * f.ms ≤ s.now) (forward : f.reversed = false)
    (path : f.output = false) (filled : memberAt p f.new = some m) : execCrossfadeEnd n s =
      .next (ownMember n f.new (selectMember n (m.src.kind == 2) f.new (updProgram n (fun p => { p with fade := none }) s))) := by
  simp [execCrossfadeEnd, here, fading, elapsed, ticksOfMs, done, forward, path, filled]

theorem updProgram_twice (f g : Program → Program) : updProgram n g (updProgram n f s) = { s with progs := s.progs.set n (g (f p)) } := by
  rw [updProgram_of_progAt g (progAt_updProgram_same f here), updProgram_of_progAt f here]
  simp

theorem execCrossfadeEnd_output {f : Fade} (fading : p.fade = some f) (done : f.start + 48 * f.ms ≤ s.now) (forward : f.reversed = false)
    (output : f.output = true) : execCrossfadeEnd n s = .next { s with progs := s.progs.set n { p with fade := none, outDab := !p.outDab } } := by
  simp [execCrossfadeEnd, here, fading, elapsed, ticksOfMs, done, forward, output, updProgram_twice here]

theorem selectMember_analog (slot : Nat) : selectMember n false slot s =
    if p.anchorA.isNone then setAnchor n false (some slot) (updProgram n (fun p => { p with selA := some slot }) s)
    else updProgram n (fun p => { p with selA := some slot }) s := by
  simp [selectMember, progAt_updProgram, here]

/-- An analogue member needs no decoder. -/
theorem ownMember_analog {slot : Nat} {m : Member} (filled : memberAt p slot = some m) (analog : m.src.kind ≠ 2) : ownMember n slot s = s := by
  simp [ownMember, here, filled, analog]

end

/-- The first anchor of the analogue path has no delay; its members stay where they are. -/
theorem setAnchor_analog {s : State} {n slot : Nat} {p : Program} {m : Member} (here : progAt s n = some p) (filled : memberAt p slot = some m)
    (analog : m.src.kind ≠ 2) : ∃ q, progAt (setAnchor n false (some slot) s) n = some q ∧ memberAt q slot = some { m with delta := some 0 } ∧
      q.anchorA = some slot ∧ q.fade = p.fade ∧ q.selA = p.selA := by
  refine ⟨_, progAt_updProgram_same _ here, ?_, rfl, rfl, rfl⟩
  have listed : p.members[slot]? = some (some m) := by simpa [memberAt, Option.join_eq_some_iff] using filled
  have analogPath : onPath false m = true := by simp [onPath, analog]
  simp [memberAt, getElem?_mapIdx, listed, analogPath]

/-! ### Delays of members, and programs without a DAB member (R241, R242, R254) -/

section
variable {s : State} {n : Nat} {p : Program} (here : progAt s n = some p)
include here

/-- A crossfade to an analogue member: its path takes the member, which anchors a path that has no anchor. -/
theorem execCrossfadeEnd_analog {f : Fade} {m : Member} (fading : p.fade = some f) (done : f.start + 48 * f.ms ≤ s.now) (forward : f.reversed = false)
    (path : f.output = false) (filled : memberAt p f.new = some m) (analog : m.src.kind ≠ 2) :
    (p.anchorA ≠ none → execCrossfadeEnd n s = .next { s with progs := s.progs.set n { p with fade := none, selA := some f.new } }) ∧
    (p.anchorA = none → ∃ t q, execCrossfadeEnd n s = .next t ∧ progAt t n = some q ∧ q.fade = none ∧ q.selA = some f.new ∧
      q.anchorA = some f.new ∧ t = { s with progs := t.progs }) := by
  have ends := execCrossfadeEnd_path here fading done forward path filled
  have faded := progAt_updProgram_same (fun p => { p with fade := none }) here
  have selected := updProgram_twice here (fun p => { p with fade := none }) fun p => { p with selA := some f.new }
  rw [beq_false_of_ne analog, selectMember_analog faded] at ends
  have placed := progAt_updProgram_same (fun p => { p with selA := some f.new }) faded
  constructor
  · intro anchored
    rw [if_neg (by simpa using anchored), ownMember_analog placed filled analog, selected] at ends
    exact ends
  · intro first
    rw [if_pos (by simp [first])] at ends
    obtain ⟨q, anchor, member, anchorA, fade, selA⟩ := setAnchor_analog placed filled analog
    rw [ownMember_analog anchor member analog] at ends
    exact ⟨_, q, ends, anchor, fade, selA, anchorA, rfl⟩

theorem execMemberDelayMeasure_early {k : Nat} {m : Member} (frac : Int) (filled : memberAt p k = some m) (early : measureDue s m = false) :
    execMemberDelayMeasure n k frac s = .next s := by
  simp [execMemberDelayMeasure, here, filled, early]

/-- The delay of a member that a measurement leaves: the old one where correlation finds none (R242). -/
def measuredDelta (found : Option TauObs) (old : Option Int) : Option Int :=
  (found.filter (·.ok)).elim old fun o => if o.ticks.natAbs ≤ 2400 then some (-o.ticks) else none

theorem execMemberDelayMeasure_measures {k i : Nat} {m a : Member} (frac : Int) (filled : memberAt p k = some m)
    (anchor : (if m.src.kind = 2 then p.anchorD else p.anchorA) = some i) (other : i ≠ k) (anchored : memberAt p i = some a)
    (due : measureDue s m = true) : execMemberDelayMeasure n k frac s = .next { s with progs := s.progs.set n (
      let measured := { m with delta := measuredDelta (memberDelta frac a.trace m.trace) m.delta, measuredAt := some s.now }
      { p with members := p.members.set k (some measured) }) } := by
  have notSelf : ¬ some i = some k := by simpa using other
  simp only [execMemberDelayMeasure, here, filled, notSelf, due, anchor, anchored, Option.bind_some, Bool.not_true, Bool.or_false, decide_false,
    Bool.false_eq_true, if_false, updProgram_of_progAt _ here]
  cases memberDelta frac a.trace m.trace with
  | none => rfl
  | some o => cases good : o.ok <;> simp [measuredDelta, Option.filter, good]

theorem execNoDabMemberTimeout_leaves {since : Nat} (runs : p.running = true) (nobody : pathSlots p true = []) (left : p.noDabSince = some since)
    (due : since + 2880000 ≤ s.now) : execNoDabMemberTimeout n s =
      .next (leaveAligned n (updProgram n (fun p => { p with align := .off, wasAligned := false }) s)) := by
  simp [execNoDabMemberTimeout, here, runs, nobody, heldFor, left, elapsed, ticksOfMs, due]

end

/-- Settles O42: each row acts on its program as the lemmas above say, and a decision point moves programs alone. -/
theorem memberRowsMarkUnderrunsAndRetirePaths : Obligations.MemberRowsMarkUnderrunsAndRetirePaths := by
  intro s n p here
  refine ⟨fun k m late bad filled runs => ?_, fun late bad => countLate_reports n late bad s, fun k m t filled under analog since due =>
      execMemberReturn_returns here filled under analog since due,
    fun k m t filled since early => execMemberReturn_waits here filled since early, fun f fading early => execCrossfadeEnd_runs here fading early,
    fun f m fading done forward path filled analog => (execCrossfadeEnd_analog here fading done forward path filled analog).1,
    fun f m fading done forward path filled analog => (execCrossfadeEnd_analog here fading done forward path filled analog).2,
    fun f fading done forward output => execCrossfadeEnd_output here fading done forward output,
    fun k m i a frac filled anchor other anchored due => ?_, fun k m frac filled early => execMemberDelayMeasure_early here frac filled early,
    fun since runs without left due => ?_, fun _ obs => execDecisionPoint_programsOnly obs s⟩
  · have marks := execUnderrun_marks here late bad filled runs
    refine ⟨runLate s.now (max 1 (late + bad)) m, rfl, rfl, rfl, rfl, rfl, rfl, fun first => ?_, fun again => ?_⟩
    · rw [if_neg (by simp [first])] at marks
      exact marks
    · rw [if_pos again] at marks
      exact marks
  · exact ⟨_, execMemberDelayMeasure_measures here frac filled anchor other anchored due, fun inside => memberAt_setMember_same inside⟩
  · have off : NeverAligned n (updProgram n (fun p => { p with align := .off, wasAligned := false }) s) :=
      ⟨_, progAt_updProgram_same _ here, rfl⟩
    obtain ⟨q, after, unaligned⟩ := off.leaveAligned
    obtain ⟨align, was⟩ := Prod.mk.inj unaligned
    have frame : ProgramsOnly s (leaveAligned n (updProgram n (fun p => { p with align := .off, wasAligned := false }) s)) :=
      ProgramsOnly.trans (updProgram_programsOnly n _ s) (leaveAligned_programsOnly n _)
    exact ⟨_, q, execNoDabMemberTimeout_leaves here runs without left due, after, align, was, by rw [frame], by rw [frame]⟩

end Sys2Proof.Machine

/-! The trim and the sync instant (R27, R29, R34, R427, R457, R458). -/

namespace Sys2Proof.Machine

/-! ### TRIM_STEP (R197, R427) -/

/-- A step is at most 200 units, and ends nearer to the target. -/
theorem trimStep_nears {target now : Int} (away : now ≠ target) : (trimStep target now - now).natAbs ≤ 200 ∧
    (trimStep target now - target).natAbs < (now - target).natAbs := by
  unfold trimStep clampInt
  omega

/-- The last step arrives. -/
theorem trimStep_arrives {target now : Int} (near : (target - now).natAbs ≤ 200) : trimStep target now = target := by
  unfold trimStep clampInt
  omega

section
variable {s : State} (locked : s.clocks.pllS = .locked) (away : s.clocks.trim ≠ s.clocks.target) (due : s.clocks.stepAt + 48 ≤ s.now)
include locked away due

theorem execTrimStep_steps (unasked : s.clocks.trimTag = none) : execTrimStep s = .next (afterTrim { s with clocks := { s.clocks with
    trim := trimStep s.clocks.target s.clocks.trim, stepAt := s.now, trimTag := none } }) := by
  simp [execTrimStep, locked, away, elapsed, due, unasked, setClocks]

theorem execTrimStep_completes {tag : Byte} (asked : s.clocks.trimTag = some tag) (near : (s.clocks.target - s.clocks.trim).natAbs ≤ 200) :
    execTrimStep s = .next (evCmdDone 0x84 tag stOk (afterTrim { s with clocks := { s.clocks with
      trim := s.clocks.target, stepAt := s.now, trimTag := none } })) := by
  simp [execTrimStep, locked, away, elapsed, due, asked, setClocks, trimStep_arrives near]

end

theorem afterTrim_engine {s : State} {e : Nat} {x : Engine} (here : engineAt s e = some x) (used : x.st ≠ .free) :
    engineAt (afterTrim s) e = some (tuneEngine s.clocks { x with clockSince := x.clockSince.map fun _ => s.now }) := by
  unfold engineAt at *
  simp [afterTrim, retune, here, used]

/-! ### The sync instant -/

/-- `t` is `s` but for what the audio effects change: the programs with their records, and the ports. -/
def AudioOnly (s t : State) : Prop :=
  t = { s with events := t.events, mgr := t.mgr, decoders := t.decoders, progs := t.progs, alerts := t.alerts, ports := t.ports }

theorem AudioOnly.trans {s t u : State} (h : AudioOnly s t) (k : AudioOnly t u) : AudioOnly s u := by
  unfold AudioOnly at h k ⊢
  exact k.trans (by rw [h])

theorem ProgramsOnly.audioOnly {s t : State} (h : ProgramsOnly s t) : AudioOnly s t := by
  rw [h]
  rfl

theorem dropSource_programsOnly (n : Nat) (src : Source) (s : State) : ProgramsOnly s (dropSource n src s) := by
  unfold dropSource
  split
  · next p i _ =>
    have removed := removeMember_programsOnly n i s
    exact ite_programsOnly (removed.trans (updProgram_programsOnly n _ _)) removed
  · exact .refl s

theorem applyEffect_audioOnly (e : AudioEffect) (s : State) : AudioOnly s (applyEffect e s) := by
  unfold applyEffect
  cases e with
  | slots port first l => rfl
  | spdif c => rfl
  | curtain n hold down up => rfl
  | remove n src => exact (dropSource_programsOnly n src s).audioOnly
  | primary n =>
    dsimp only
    split
    · exact (ite_programsOnly (selectPrimary_programsOnly n s) (closeThen_programsOnly n _ s)).audioOnly
    · rfl
  | stop n => exact (closeThen_programsOnly n _ s).audioOnly

theorem releaseEffects_audioOnly (s : State) : AudioOnly { s with held := [] } (releaseEffects s) :=
  foldl_inv (AudioOnly { s with held := [] }) _ _ _ rfl fun _ h k => k.trans (applyEffect_audioOnly h.effect _)

/-- Cancelled cues leave their records alone. -/
theorem cancelCues_reports (s : State) : Reports { s with cues := [] } (cancelCues s) :=
  foldl_inv (Reports { s with cues := [] }) _ _ _ rfl fun _ _ k => k.trans (raise_reports _ _ _)

/-- `t` is `s` but for reports and the ports. -/
def PortsOnly (s t : State) : Prop := t = { s with events := t.events, integ := t.integ, ports := t.ports }

theorem PortsOnly.trans {s t u : State} (h : PortsOnly s t) (k : PortsOnly t u) : PortsOnly s u := by
  unfold PortsOnly at h k ⊢
  exact k.trans (by rw [h])

theorem stepRate_portsOnly (n : Nat) (ppm : Int) (s : State) : PortsOnly s (stepRate n ppm s) := by
  have stepped : PortsOnly s (evPort n 2 ppm (updPort n (fun p => { p with curtainUp := false, ppm := ppm }) s)) := rfl
  refine stepped.trans ?_
  unfold stepRate
  rw [(faultBegins_handles _ _ _ _ _ _).1]
  rfl

theorem syncTargets_portsOnly (s : State) : PortsOnly s (syncTargets s) := by
  refine foldl_inv (PortsOnly s) _ _ s rfl fun u n h => h.trans ?_
  dsimp only
  split
  · split
    · exact stepRate_portsOnly n _ u
    · rfl
  · rfl

/-- The sync instant after the timeline is set: held effects apply, cues are cancelled, ports take the step. -/
theorem syncRelease_leaves (s : State) (t : State) (made : syncTargets (cancelCues (releaseEffects s)) = t) :
    t.time = s.time ∧ t.clocks = s.clocks ∧ t.cues = [] ∧ t.held = [] ∧ t.lanes = s.lanes ∧ t.link = s.link ∧ t.inputs = s.inputs := by
  have ports := syncTargets_portsOnly (cancelCues (releaseEffects s))
  have cancelled := cancelCues_reports (releaseEffects s)
  have released := releaseEffects_audioOnly s
  rw [made] at ports
  rw [ports, cancelled, released]
  exact ⟨rfl, rfl, rfl, rfl, rfl, rfl, rfl⟩

/-- Settles O54: a step is `trimStep`, and the sync instant leaves what `syncRelease_leaves` says. -/
theorem trimAndSyncRowsMoveTrimAndTimeline : Obligations.TrimAndSyncRowsMoveTrimAndTimeline := by
  intro s
  refine ⟨?_, fun tag locked away due asked near => execTrimStep_completes locked away due asked near,
    fun e x here used => ⟨_, afterTrim_engine here used, rfl, rfl, rfl, rfl⟩, ⟨rfl, rfl, rfl⟩, fun there => if_neg fun h => h.2.1 there,
    fun armed up => if_pos ⟨armed, by simp [refUp, up]⟩, fun idle => if_neg (by simp [idle]), fun captured => ?_,
    fun idle => if_neg (by simp [idle])⟩
  · rintro t locked away due unasked rfl
    exact ⟨execTrimStep_steps locked away due unasked, trimStep_nears away⟩
  · obtain ⟨time, clocks, cues, held, lanes, link, inputs⟩ := syncRelease_leaves _ (syncInstant s) rfl
    exact ⟨_, if_pos captured, by rw [time]; rfl, by rw [time]; rfl, by rw [time]; rfl, by rw [time]; rfl, by rw [time]; rfl, by rw [clocks]; rfl,
      by rw [clocks]; rfl, by rw [clocks]; rfl, by rw [clocks]; rfl, cues, held, lanes, link, inputs⟩

end Sys2Proof.Machine

/-! Resets: RESETN, core failures, the device becoming ready, and the scene (R476 to R485, R517, R518). -/

namespace Sys2Proof.Machine

/-! ### RESETN (R476, R479) -/

theorem execResetnLow_holds {ns : Nat} {s : State} (on : s.supply.backupOn = true) (high : s.supply.resetnLow = false) (long : 1000 ≤ ns)
    (ready : s.reset_.domain = .ready) :
    ∃ t, execResetnLow ns s = .next t ∧ Halted .resetn { s with supply := { s.supply with resetnLow := true } } t := by
  have held : execResetnLow ns s = .next (stopMain .resetn (discardLink (setSupply (fun u => { u with resetnLow := true }) s))) := by
    have notShort : ¬ ns < 200 := by omega
    simp [execResetnLow, on, high, long, notShort, resetHeld, mainOff, setSupply, ready, leaveBlackout]
  exact ⟨_, held, stopMain_halted _ _⟩

/-- A pulse of a length that leaves its outcome open: nothing, or a start of the main domain. -/
theorem execResetnLow_open {ns : Nat} {s : State} (on : s.supply.backupOn = true) (high : s.supply.resetnLow = false) (longer : 200 ≤ ns)
    (shorter : ns < 1000) : execResetnLow ns s = .next { s with draws := s.draws + 1 } ∨
      ∃ cause, execResetnLow ns s = .next (startMain cause false { s with draws := s.draws + 1 }) := by
  unfold execResetnLow drawBool
  rw [if_neg (by simp [on, high]; omega), if_neg (by omega)]
  dsimp only
  split
  · next c _ _ => exact .inr ⟨c, rfl⟩
  · exact .inl rfl

theorem execResetnRelease_starts {a b : Bool} {s : State} (on : s.supply.backupOn = true) (low : s.supply.resetnLow = true)
    (held : s.reset_.offCause = .resetn) (supplied : 2700 ≤ s.supply.vmain) : execResetnRelease a b s =
      .next (startMain .resetn false { s with supply := { s.supply with resetnLow := false }, link := { s.link with address := addressOf a b } }) := by
  simp [execResetnRelease, on, low, releaseCause, setSupply, held, supplied]

theorem execResetnRelease_waits {a b : Bool} {s : State} (on : s.supply.backupOn = true) (low : s.supply.resetnLow = true)
    (unsupplied : s.supply.vmain < 2700) :
    execResetnRelease a b s = .next { s with supply := { s.supply with resetnLow := false } } := by
  have notGood : ¬ 2970 < s.supply.vmain := by omega
  simp [execResetnRelease, on, low, releaseCause, setSupply, Nat.not_le.mpr unsupplied, notGood]

/-! ### Core failures (R476, R510, R518) -/

/-- A core failure leaves a chain of at least itself. -/
theorem chainAfter_core (r : Reset) (now : Nat) {cause : ResetCause} (core : cause = .watchdog ∨ cause = .ramError) :
    1 ≤ chainAfter r now cause := by
  unfold chainAfter
  rw [if_pos core]
  split <;> omega

theorem coreFailure_starts (counter code : Nat) (detail : Int) {cause : ResetCause} (core : cause = .watchdog ∨ cause = .ramError) (s : State) :
    (coreFailure counter code detail cause s).reset_.domain = .starting ∧ (coreFailure counter code detail cause s).reset_.cause = cause ∧
    (coreFailure counter code detail cause s).link.queue = [] ∧ (coreFailure counter code detail cause s).link.fifo = [] ∧
    (coreFailure counter code detail cause s).cues = [] ∧
    (coreFailure counter code detail cause s).progs = List.replicate s.chip.variant.programs Program.stopped ∧
    (coreFailure counter code detail cause s).chip = s.chip ∧ 1 ≤ (coreFailure counter code detail cause s).reset_.coreChain := by
  have failed := (handles_of_reports ((setInteg_reports s { s.integ with holding := true }).trans (count_reports counter 1 0 _))).trans
    (faultBegins_handles code 0 0 detail true _)
  unfold coreFailure
  dsimp only
  generalize faultBegins code 0 0 detail true _ = u at failed ⊢
  have chip : u.chip = s.chip := failed.resetFrame.1
  obtain ⟨domain, reset, -, -⟩ := startMain_starts cause false u
  obtain ⟨-, chain⟩ := startMain_reset cause false u
  obtain ⟨queue, fifo⟩ := startMain_link cause false u
  obtain ⟨cues, -, -, -, progs⟩ := startMain_wipes cause false u
  obtain ⟨same, -⟩ := startMain_leaves cause false u
  exact ⟨domain, reset, queue, fifo, cues, progs.trans (by rw [chip]), same.trans chip, chain ▸ chainAfter_core _ _ core⟩

theorem coreRuns_of_ready {s : State} (ready : s.reset_.domain = .ready) : coreRuns s = true := by
  simp [coreRuns, ready]

/-! ### The device becomes ready (R467, R478, R479) -/

/-- The part, the supplies, the address and the record of resets stay. -/
def LoadFrame (s t : State) : Prop :=
  t.chip = s.chip ∧ t.supply = s.supply ∧ t.link.address = s.link.address ∧ t.reset_ = s.reset_

theorem LoadFrame.refl (s : State) : LoadFrame s s := ⟨rfl, rfl, rfl, rfl⟩

theorem LoadFrame.trans {s t u : State} (h : LoadFrame s t) (k : LoadFrame t u) : LoadFrame s u :=
  ⟨k.1.trans h.1, k.2.1.trans h.2.1, k.2.2.1.trans h.2.2.1, k.2.2.2.trans h.2.2.2⟩

theorem Settles.loadFrame {s t : State} (h : Settles s t) : LoadFrame s t := by
  rw [h]
  exact ⟨rfl, rfl, rfl, rfl⟩

theorem Handles.loadFrame {s t : State} (h : Handles s t) : LoadFrame s t := h.settles.loadFrame

theorem ite_loadFrame {s a b : State} {c : Prop} [Decidable c] (ha : LoadFrame s a) (hb : LoadFrame s b) : LoadFrame s (if c then a else b) := by
  split <;> assumption

/-- A retained item that fails leaves its mark in the bank, and its count. -/
theorem failItem_loadFrame (code : Nat) (s : State) : LoadFrame s (failItem code s) := by
  have failed (r : Retained) : LoadFrame s (count 22 1 code { s with retained := r }) :=
    LoadFrame.trans (t := { s with retained := r }) ⟨rfl, rfl, rfl, rfl⟩ (handles_of_reports (count_reports _ _ _ _)).loadFrame
  unfold failItem
  dsimp only
  refine ite_loadFrame ?_ (ite_loadFrame ?_ (ite_loadFrame ?_ (ite_loadFrame ?_ (ite_loadFrame ?_ (ite_loadFrame ⟨rfl, rfl, rfl, rfl⟩ (.refl s))))))
  · split
    · exact ite_loadFrame (failed _) (.refl s)
    · exact .refl s
  · exact ite_loadFrame (failed _) (.refl s)
  · split
    · exact ite_loadFrame (failed _) (.refl s)
    · exact .refl s
  · exact ite_loadFrame (failed _) (.refl s)
  · exact ite_loadFrame (failed _) (.refl s)

theorem lockPllS_loadFrame (s : State) : LoadFrame s (lockPllS s) :=
  LoadFrame.trans (t := setClocks startComplete (rememberBand (setClocks lockedS s))) ⟨rfl, rfl, rfl, rfl⟩ (lockPllS_settles s).loadFrame

theorem lockPllA_loadFrame (s : State) : LoadFrame s (lockPllA s) := by
  obtain ⟨u, locks, opens⟩ := lockPllA_settles s
  have started : LoadFrame s (setClocks startComplete (startedA s)) := ⟨rfl, rfl, rfl, rfl⟩
  have ungated : LoadFrame u (ungatePorts u) := ⟨rfl, rfl, rfl, rfl⟩
  exact (started.trans locks.loadFrame).trans (ungated.trans opens.loadFrame)

theorem startClocks_loadFrame (present : Bool) (s : State) : LoadFrame s (startClocks present s) := by
  have referred : LoadFrame s (if present && s.clocks.ref == .absent then setClocks (fun c => { c with ref := .present }) s else s) :=
    ite_loadFrame ⟨rfl, rfl, rfl, rfl⟩ (.refl s)
  have refreshed (u : State) : LoadFrame u (refreshClocks u) := ⟨rfl, rfl, rfl, rfl⟩
  refine referred.trans ?_
  unfold startClocks
  dsimp only
  generalize (if present && s.clocks.ref == .absent then setClocks (fun c => { c with ref := .present }) s else s) = u
  refine ite_loadFrame ((refreshed u).trans (faultBegins_handles _ _ _ _ _ _).loadFrame) ?_
  have locksA : LoadFrame u (if u.clocks.pllA = .locking then lockPllA u else u) := ite_loadFrame (lockPllA_loadFrame u) (.refl u)
  exact ite_loadFrame (locksA.trans (lockPllS_loadFrame _)) (locksA.trans (refreshed _))

/-- The state that a ready device leaves: the capacity is measured, and the scene is still to be applied. -/
theorem becomeReady_readies (o : ReadyObs) (s : State) : (becomeReady o s).reset_ = { s.reset_ with reapplying := true, domain := .ready } ∧
    (becomeReady o s).cap.cmeas = Config.capacityOfRing (o.cmeasRings.foldl max 0) ∧ (becomeReady o s).chip = s.chip ∧
    (becomeReady o s).link.address = s.link.address ∧ (becomeReady o s).supply = s.supply := by
  have items : LoadFrame s (forEach (o.badItems ++ (stillBad s).filter fun c => !o.badItems.contains c) failItem (count 20 o.corrected 0 s)) :=
    foldl_inv (LoadFrame s) _ _ _ (handles_of_reports (count_reports _ _ _ s)).loadFrame fun _ c h => h.trans (failItem_loadFrame c _)
  unfold becomeReady
  dsimp only
  generalize forEach _ failItem _ = u at items ⊢
  have loaded (r : Rds) (c : Clocks) : LoadFrame u { u with rds := r, clocks := c } := ⟨rfl, rfl, rfl, rfl⟩
  obtain ⟨chip, supply, address, reset⟩ := (items.trans (loaded _ _)).trans (startClocks_loadFrame o.refPresent _)
  generalize startClocks o.refPresent _ = v at chip supply address reset ⊢
  exact ⟨by rw [← reset]; rfl, rfl, chip, address, supply⟩

theorem releaseHeld_reports (s : State) : Reports s (releaseHeld s) := by
  have record (r : Nat × Nat × Nat) (u : State) : Reports u (evIntegrity r.1 r.2.1 r.2.2
    { u with integ := { u.integ with recorded := u.integ.recorded.set r.1 (some (u.now, r.2.2)) } }) := rfl
  exact foldl_inv (Reports s) _ _ _ rfl fun _ r h => h.trans (record r _)

/-- Blackout keeps the part and the bank (R517, R518). -/
theorem enterBlackout_stops (code region : Nat) (s : State) : (enterBlackout code region s).reset_.domain = .blackout ∧
    (enterBlackout code region s).reset_.blackoutCode = some code ∧ (enterBlackout code region s).reset_.reapplying = false ∧
    (enterBlackout code region s).chip = s.chip ∧ (enterBlackout code region s).retained = s.retained := by
  have opened := ((handles_of_reports (releaseHeld_reports s)).trans (faultBegins_handles code 0 region 0 false _)).trans
    (handles_of_reports (count_reports 29 1 code _))
  unfold enterBlackout
  dsimp only
  generalize count 29 1 code _ = u at opened ⊢
  obtain ⟨chip, -, -, retained, -⟩ := opened.resetFrame
  exact ⟨rfl, rfl, rfl, chip, retained⟩

section
variable {s : State} {o : ReadyObs} (starting : s.reset_.domain = .starting)
include starting

theorem execDeviceReady_readies (wiped : o.wipeFailed = none) (rom : o.romOk = true) (chain : s.reset_.coreChain < 3) :
    execDeviceReady o s = .next (becomeReady o s) := by
  simp [execDeviceReady, starting, wiped, rom, Nat.not_le.mpr chain]

theorem execDeviceReady_romFails (wiped : o.wipeFailed = none) (rom : o.romOk = false) :
    execDeviceReady o s = .next (enterBlackout 0x33 0 s) := by
  simp [execDeviceReady, starting, wiped, rom]

theorem execDeviceReady_wipeFails {region : Nat} (unwiped : o.wipeFailed = some region) :
    execDeviceReady o s = .next (enterBlackout 0x32 region (count 28 1 region (count 28 1 region s))) := by
  simp [execDeviceReady, starting, unwiped]

end

/-! ### The scene (R482, R484, R485) -/

theorem completeResetFaults_handles (s : State) : Handles s (completeResetFaults s) :=
  (handles_of_reports (foldl_inv (Reports s) _ _ _ (setRecs_reports _ s) fun _ r h => h.trans (logRec_reports r 2 0 _))).trans (slotFree_handles _)

theorem completeResetFaults_portsStay (s : State) : PortsStay s (completeResetFaults s) :=
  PortsStay.trans (foldl_inv (PortsStay s) _ _ _ (filterRecs_portsStay _ s) fun _ r h => h.trans (logRec_portsStay r 2 0 _)) (slotFree_portsStay _)

/-- The record of a reset that has ended. -/
def endedReset (s : State) : Reset := { s.reset_ with reapplying := false, doneQueued := true, doneAt := s.now, sceneBarred := false }

theorem endReset_eq (scene : Nat) (skipped : List (Byte × Byte)) (s : State) : endReset scene skipped s = refreshFeeds (releaseHeld
    (completeResetFaults (evResetDone (causeCode s.reset_.cause) scene skipped { s with reset_ := endedReset s }))) := rfl

theorem endReset_ends (scene : Nat) (skipped : List (Byte × Byte)) (s : State) :
    (endReset scene skipped s).reset_ = endedReset s ∧ (endReset scene skipped s).lanes = s.lanes ∧ (endReset scene skipped s).progs = s.progs ∧
    (endReset scene skipped s).dab = s.dab ∧ (endReset scene skipped s).mgr = s.mgr := by
  have recorded : Handles { s with reset_ := endedReset s } (evResetDone (causeCode s.reset_.cause) scene skipped { s with reset_ := endedReset s }) :=
    handles_of_reports (raise_reports _ _ _)
  have ended := (recorded.trans (completeResetFaults_handles _)).trans (handles_of_reports (releaseHeld_reports _))
  rw [endReset_eq]
  generalize releaseHeld _ = u at ended ⊢
  rw [ended.1]
  exact ⟨rfl, rfl, rfl, rfl, rfl⟩

theorem endReset_portsStay (scene : Nat) (skipped : List (Byte × Byte)) (s : State) : PortsStay s (endReset scene skipped s) := by
  have recorded : PortsStay s (evResetDone (causeCode s.reset_.cause) scene skipped { s with reset_ := endedReset s }) := .of_same rfl rfl
  have released (u : State) : PortsStay u (releaseHeld u) :=
    foldl_inv (PortsStay u) _ _ _ (.of_same rfl rfl) fun _ _ h => h.trans (.of_same rfl rfl)
  exact ((recorded.trans (completeResetFaults_portsStay _)).trans (released _)).trans (.of_same rfl rfl)

/-- However the scene is applied, the reset has ended. -/
theorem reapply_ends (s : State) : ∃ scene skipped u, reapply s = endReset scene skipped u := by
  unfold reapply
  split <;> exact ⟨_, _, _, rfl⟩

theorem reapply_without_scene {s : State} (without : s.retained.scene = none) : reapply s = endReset 0 [] s := by
  simp [reapply, sceneBar, without]

/-- Settles O57: the lemmas above say how each row stops, starts or readies the main domain. -/
theorem resetRowsWipeStartAndReapplyTheScene : Obligations.ResetRowsWipeStartAndReapplyTheScene := by
  intro s on
  refine ⟨fun ns high long ready => ?_, fun ns short => if_pos (.inr (.inr short)), fun ns high longer shorter => ?_, fun a b low held supplied => ?_,
    fun a b low unsupplied => execResetnRelease_waits on low unsupplied, fun ready => ?_, fun addr ready => ?_, fun o starting wiped rom chain => ?_,
    fun o starting wiped rom => ?_, fun o region starting unwiped => ?_, fun ready reapplying => ?_, fun done => if_neg (by simp [done]),
    fun due => ⟨_, _, if_pos due, rfl, rfl, rfl, rfl, rfl, rfl, rfl⟩, fun sag => if_neg (by simp [captureDue, sag])⟩
  · obtain ⟨t, ends, domain, cause, -, supply, queue, fifo, -, cues, -, lanes, -, retained, chip, ghost⟩ := execResetnLow_holds on high long ready
    exact ⟨t, ends, supply, domain, cause, queue, fifo, cues, lanes, retained, chip, ghost⟩
  · rcases execResetnLow_open on high longer shorter with nothing | ⟨cause, starts⟩
    · exact ⟨_, nothing, rfl, rfl, .inl rfl⟩
    · obtain ⟨domain, -, -, -⟩ := startMain_starts cause false { s with draws := s.draws + 1 }
      obtain ⟨-, supply, draws, -⟩ := startMain_leaves cause false { s with draws := s.draws + 1 }
      exact ⟨_, starts, draws, supply, .inr domain⟩
  · obtain ⟨domain, cause, -, -⟩ := startMain_starts .resetn false { s with supply := { s.supply with resetnLow := false }, link := { s.link with address := addressOf a b } }
    obtain ⟨chip, supply, -, address, cfg, -⟩ := startMain_leaves .resetn false { s with supply := { s.supply with resetnLow := false }, link := { s.link with address := addressOf a b } }
    exact ⟨_, execResetnRelease_starts on low held supplied, domain, cause, address, supply, chip, cfg⟩
  · obtain ⟨domain, cause, queue, fifo, cues, progs, chip, chain⟩ := coreFailure_starts 30 0x31 0 (.inl rfl) s
    exact ⟨_, if_pos (coreRuns_of_ready ready), domain, cause, queue, fifo, cues, progs, chip, chain⟩
  · obtain ⟨domain, cause, queue, fifo, cues, -, chip, chain⟩ := coreFailure_starts 19 0x30 addr (.inr rfl) s
    exact ⟨_, if_pos (coreRuns_of_ready ready), domain, cause, queue, fifo, cues, chip, chain⟩
  · obtain ⟨reset, cmeas, chip, address, supply⟩ := becomeReady_readies o s
    exact ⟨_, execDeviceReady_readies starting wiped rom chain, by rw [reset], by rw [reset], by rw [reset], cmeas, chip, address, supply⟩
  · obtain ⟨domain, code, reapplying, chip, retained⟩ := enterBlackout_stops 0x33 0 s
    exact ⟨_, execDeviceReady_romFails starting wiped rom, domain, code, reapplying, chip, retained⟩
  · obtain ⟨domain, code, -, chip, -⟩ := enterBlackout_stops 0x32 region (count 28 1 region (count 28 1 region s))
    have counted : Reports s (count 28 1 region (count 28 1 region s)) := (count_reports _ _ _ s).trans (count_reports _ _ _ _)
    exact ⟨_, execDeviceReady_wipeFails starting unwiped, domain, code, chip.trans (handles_of_reports counted).resetFrame.1⟩
  · obtain ⟨scene, skipped, u, ends⟩ := reapply_ends s
    obtain ⟨reset, -⟩ := endReset_ends scene skipped u
    refine ⟨_, if_pos (by simp [mainReady, ready, reapplying]), by rw [ends, reset]; rfl, by rw [ends, reset]; rfl, fun without => ?_⟩
    obtain ⟨record, lanes, progs, dab, mgr⟩ := endReset_ends 0 [] s
    rw [reapply_without_scene without]
    exact ⟨lanes, progs, dab, by rw [record]; rfl, mgr, fun free => (endReset_portsStay 0 [] s free).1⟩

end Sys2Proof.Machine

/-! The ghost light watch and its alert log (R486 to R493). -/

namespace Sys2Proof.Machine

/-! ### What the edges of conditions leave -/

/-- `t` is `s` but for records and the alert log. -/
def LogOnly (s t : State) : Prop := t = { s with events := t.events, retained := { s.retained with alertLog := t.retained.alertLog } }

theorem LogOnly.refl (s : State) : LogOnly s s := rfl

theorem LogOnly.trans {s t u : State} (h : LogOnly s t) (k : LogOnly t u) : LogOnly s u := by
  unfold LogOnly at h k ⊢
  exact k.trans (by rw [h])

theorem LogOnly.stays {s t : State} (h : LogOnly s t) : t.ghost = s.ghost ∧ t.reset_ = s.reset_ ∧ t.clocks = s.clocks ∧ t.link = s.link := by
  rw [h]
  exact ⟨rfl, rfl, rfl, rfl⟩

theorem updLog_logOnly (f : AlertLog → AlertLog) (s : State) : LogOnly s (updLog f s) := rfl

theorem evAnnounce_logOnly (a : Announce) (start : Bool) (s : State) : LogOnly s (evAnnounce a start s) := rfl

theorem endHeld_logOnly (a : Announce) (s : State) : LogOnly s (endHeld a s) := by
  have edge : LogOnly s (if prompted s a then evAnnounce (watchEdge s a) false s else s) := by
    split
    · exact evAnnounce_logOnly _ _ s
    · exact .refl s
  exact edge.trans (updLog_logOnly _ _)

theorem conditionStarts_logOnly (a : Announce) (s : State) : LogOnly s (conditionStarts a s) := by
  unfold conditionStarts
  split
  · exact .refl s
  · exact (evAnnounce_logOnly a true s).trans (updLog_logOnly _ _)

theorem conditionEnds_logOnly (a : Announce) (s : State) : LogOnly s (conditionEnds a s) := by
  unfold conditionEnds
  split
  · exact endHeld_logOnly a s
  · exact .refl s

theorem forEach_logOnly {α : Type} (l : List α) (f : α → State → State) (s : State) (h : ∀ x u, LogOnly u (f x u)) : LogOnly s (forEach l f s) :=
  foldl_inv (LogOnly s) l _ s (.refl s) fun _ x hu => hu.trans (h x _)

theorem endAllHeld_logOnly (s : State) : LogOnly s (endAllHeld s) := forEach_logOnly _ _ s endHeld_logOnly

/-! ### The rows -/

section
variable {s : State}

theorem execGhostLightEntry_starts (on : s.supply.backupOn = true) (off : s.reset_.domain = .off) (halted : s.reset_.offCause = .hardHalt)
    (idle : s.ghost.watch = .off) (auto : s.ghost.cfg.auto = true) (set : watchSet s.ghost.cfg = true) (power : 2500 ≤ s.supply.vbak) :
    execGhostLightEntry s = .next (startWatch s) := by
  simp [execGhostLightEntry, entryDue, mainOff, on, off, halted, idle, auto, set, power]

theorem execWatchStateChange_sees {o : WatchObs} (watching : s.ghost.watch ≠ .off) : execWatchStateChange o s = .next (watchSees o s) :=
  if_neg watching

theorem logId_identity (id : Id16) (l : AlertLog) : (logId id l).identity = some id := by
  unfold logId
  split
  · assumption
  · rfl

/-- The watch that confirms an identity, before its record. -/
def confirmed (id : Id16) (s : State) : State :=
  setWatch .watching (updLog (logId id) { s with ghost := { s.ghost with identity := some id } })

theorem watchSees_identity {id : Id16} (acquiring : s.ghost.watch = .acquiring ∨ s.ghost.watch = .lost) (locked : s.clocks.pllN = .locked)
    (named : s.ghost.cfg.expectId = 0 ∨ s.ghost.cfg.expectId = id) : watchSees (.identity id) s = evGhost 3 (confirmed id s) := by
  have notYet : s.ghost.watch ≠ .watching := by rcases acquiring with h | h <;> simp [h]
  have accepts : expected s id = true := by simpa [expected] using named
  simp [watchSees, locked, watchIdentity, accepts, watchConfirms, notYet, confirmed]

/-- The watch that is lost, before its record. -/
def lostWatch (s : State) : State := setWatch .lost (setClusters [] (endAllHeld s))

theorem watchSees_lost (watching : s.ghost.watch = .watching) : watchSees .lost s = evGhost 2 (lostWatch s) := if_pos watching

/-- The use of FIG 0/19 that a DAB watch receives, for a cluster that it knows or a fresh one. -/
def usedCluster (s : State) (c asw subch : Nat) (new : Bool) (region : Nat) : Cluster :=
  (clusterUse ((s.ghost.clusters.find? (·.id == c)).getD (Cluster.fresh c)) asw subch new region s.now).1

theorem usedCluster_id (c asw subch : Nat) (new : Bool) (region : Nat) : (usedCluster s c asw subch new region).id = c := by
  unfold usedCluster clusterUse
  cases known : s.ghost.clusters.find? (·.id == c) with
  | none => rfl
  | some k => exact eq_of_beq (List.find?_some known :)

theorem watchSwitch_keeps_cluster {c : Nat} (asw subch : Nat) (new : Bool) (region : Nat) (room : s.ghost.clusters.length < 16) :
    LogOnly (setClusters (usedCluster s c asw subch new region :: s.ghost.clusters.filter (·.id != c)) s) (watchSwitch c asw subch new region s) := by
  unfold watchSwitch
  dsimp only
  rw [if_neg (by simp [Nat.not_le.mpr room])]
  exact (forEach_logOnly _ _ _ fun t u => conditionStarts_logOnly _ u).trans (forEach_logOnly _ _ _ fun t u => conditionEnds_logOnly _ u)

theorem watchSees_switching {c a i r : Nat} {w : Bool} (watching : s.ghost.watch = .watching) (locked : s.clocks.pllN = .locked)
    (dab : s.ghost.cfg.watch = 2) : watchSees (.switching c a i w r) s = watchSwitch c a i w r s := by
  simp [watchSees, watching, locked, dab]

end

/-- Settles O58: the lemmas above say what the watch sees, and what its edges leave. -/
theorem ghostLightRowsWatchAndLog : Obligations.GhostLightRowsWatchAndLog := by
  intro s
  refine ⟨fun on off halted idle auto set power => ⟨_, execGhostLightEntry_starts on off halted idle auto set power, rfl, rfl, rfl, rfl, rfl, rfl, rfl⟩,
    fun manual => if_neg (by simp [entryDue, manual]), fun o idle => if_pos idle, fun id acquiring locked named => ?_, fun id watching unlocked => ?_,
    fun watching => ?_, fun acquiring => ?_, fun c a i w r watching locked dab room => ?_, fun on changed => if_pos ⟨on, changed⟩,
    fun same => if_neg (by simp [same])⟩
  · have on : s.ghost.watch ≠ .off := by rcases acquiring with h | h <;> simp [h]
    exact ⟨confirmed id s, by rw [← watchSees_identity acquiring locked named]; exact execWatchStateChange_sees on, rfl, rfl, rfl,
      logId_identity id _, rfl, rfl, rfl⟩
  · exact (execWatchStateChange_sees watching).trans (congrArg _ (if_neg unlocked))
  · obtain ⟨ghost, reset, clocks, link⟩ := (endAllHeld_logOnly s).stays
    refine ⟨lostWatch s, by rw [← watchSees_lost watching]; exact execWatchStateChange_sees (by simp [watching]), rfl, ?_, reset, clocks, link⟩
    exact (congrArg Ghost.cfg ghost :)
  · exact (execWatchStateChange_sees (by simp [acquiring])).trans (congrArg _ (if_neg (by simp [acquiring])))
  · obtain ⟨ghost, reset, clocks, -⟩ := (watchSwitch_keeps_cluster (c := c) a i w r room).stays
    exact ⟨_, usedCluster s c a i w r, (execWatchStateChange_sees (by simp [watching])).trans (congrArg _ (watchSees_switching watching locked dab)),
      by rw [ghost]; rfl, usedCluster_id c a i w r, rfl, rfl, rfl, rfl, rfl, by rw [ghost]; rfl, reset, clocks⟩

end Sys2Proof.Machine

/-! Scrubbing, counters, recoveries and the fault log (R500 to R522). -/

namespace Sys2Proof.Machine

/-! ### The recovery slot (R513) -/

/-- A recovery that starts while none runs is the one that holds the slot. -/
theorem startRec_holds {s : State} {r : Recovery} (listed : ∃ q ∈ s.integ.recoveries, isRec r.code r.inst q = true)
    (idle : ∀ q ∈ s.integ.recoveries, q.phase ≠ .running) : holdsSlot (startRec r s) r.code r.inst = true := by
  have recs : (startRec r s).integ.recoveries = s.integ.recoveries.map fun q =>
      if isRec r.code r.inst q then { q with phase := .running, ready := true } else q := by
    have freed (u : State) : (freePort r u).integ = u.integ := by unfold freePort; split <;> rfl
    unfold startRec
    split
    · rw [freed, recs_logRec]; rfl
    · rw [recs_logRec]; rfl
  have runs : ∃ q, runningRec (startRec r s) = some q := by
    obtain ⟨q, mem, named⟩ := listed
    refine Option.isSome_iff_exists.mp (List.find?_isSome.mpr ⟨{ q with phase := .running, ready := true }, ?_, rfl⟩)
    rw [recs]
    exact List.mem_map.mpr ⟨q, mem, if_pos named⟩
  obtain ⟨q, found⟩ := runs
  have running : q.phase = .running := eq_of_beq (List.find?_some found :)
  have mem := runningRec_mem found
  rw [recs] at mem
  obtain ⟨x, old, rfl⟩ := List.mem_map.mp mem
  rw [holdsSlot, found]
  by_cases named : isRec r.code r.inst x = true
  · rw [if_pos named]
    exact named
  · rw [if_neg named] at running
    exact absurd running (idle x old)

theorem recAt_names {s : State} {code inst : Nat} {r : Recovery} (here : recAt s code inst = some r) : r.code = code ∧ r.inst = inst := by
  have named : isRec code inst r = true := List.find?_some here
  simpa [isRec] using named

theorem becomesRunnable_holds {s : State} {code inst : Nat} (opened : faultOpen s code inst = true) (free : runningRec s = none)
    (may : ∀ r, recAt s code inst = some r → mayStart s r = true) : holdsSlot (becomesRunnable code inst s) code inst = true := by
  obtain ⟨r, here⟩ := Option.isSome_iff_exists.mp opened
  obtain ⟨rfl, rfl⟩ := recAt_names here
  have idle : ∀ q ∈ s.integ.recoveries, q.phase ≠ .running := by
    simpa [runningRec] using free
  unfold becomesRunnable
  simp only [here, free, may r here, if_true]
  refine startRec_holds ⟨{ r with ready := true }, ?_, by simp [isRec]⟩ ?_
  · exact List.mem_map.mpr ⟨r, recAt_mem here, by simp [isRec]⟩
  · intro q mem
    obtain ⟨x, old, rfl⟩ := List.mem_map.mp mem
    split <;> exact idle x old

/-! ### Scrubbing (R500, R502, R505) -/

section
variable {s : State}

theorem execScrub_retained (x n : Nat) (bad : Bool) (on : s.supply.backupOn = true) :
    execScrub (.retained x) n bad s = .next (scrubRetained n (if bad then some x else none) s) := if_pos on

theorem execScrub_firmware (x n : Nat) (bad : Bool) (ready : s.reset_.domain = .ready) :
    execScrub (.firmware x) n bad s = .next (scrubFirmware n (if bad then some x else none) s) := if_pos (coreRuns_of_ready ready)

theorem execScrub_buffers (x : BufferItem) (n : Nat) (bad : Bool) (ready : s.reset_.domain = .ready) :
    execScrub (.buffers x) n bad s = .next (readBuffers n (if bad then some x else none) s) := if_pos (by simp [mainReady, ready])

/-- A table of a good CRC that a scrub finds bad. -/
theorem scrubRetained_table {i : Nat} {x : CalTable} (n : Nat) (low : i < 16) (table : s.retained.tables[i]? = some x) (good : x.ok = true) :
    ∃ t, scrubRetained n (some i) s = t ∧ t.retained = { s.retained with tables := s.retained.tables.set i { x with ok := false } } ∧
      Reports { s with retained := t.retained } t := by
  have counted : Reports s (count 21 1 i (count 20 n 0 s)) := (count_reports _ _ _ s).trans (count_reports _ _ _ _)
  refine ⟨_, rfl, ?_⟩
  unfold scrubRetained
  dsimp only
  generalize count 21 1 i _ = u at counted ⊢
  have same : u.retained = s.retained := by rw [counted]
  have marked : failItem i u = count 22 1 i { u with retained := { u.retained with tables := u.retained.tables.set i { x with ok := false } } } := by
    simp [failItem, same, table, good, show i < 0x12 by omega, show i < 0x10 by omega]
  have failed := count_reports 22 1 i { u with retained := { u.retained with tables := u.retained.tables.set i { x with ok := false } } }
  rw [marked]
  generalize count 22 1 i _ = v at failed ⊢
  rw [failed, counted]
  exact ⟨rfl, rfl⟩

/-- A queued packet under which a read finds a bad word. -/
theorem readBuffers_packet {i j : Nat} {f : Flow} {k : FlowPacket} (n : Nat) (flow : flowAt s i = some f) (queued : f.queue[j]? = some k) :
    ∃ t, readBuffers n (some (.packet i j)) s = t ∧
      t.flows = { s.flows with flows := s.flows.flows.set i { f with queue := f.queue.set j { k with flags := k.flags ||| 1 } } } ∧
      Reports { s with flows := t.flows } t := by
  have counted : Reports s (count 17 1 0 (count 16 n 0 s)) := (count_reports _ _ _ s).trans (count_reports _ _ _ _)
  refine ⟨_, rfl, ?_⟩
  unfold readBuffers
  dsimp only
  generalize count 17 1 0 _ = u at counted ⊢
  have here : u.flows.flows[i]? = some f := by rw [counted]; exact flow
  have marked : failPacket j f = { f with queue := f.queue.set j { k with flags := k.flags ||| 1 } } := by
    simp [failPacket, upd_of_some _ queued, setFlag]
  simp only [failBuffer, updFlow, upd_of_some _ here, marked]
  rw [counted]
  exact ⟨rfl, rfl⟩

end

theorem lastRecords_length (l : List LogRec) : (lastRecords l).length ≤ 256 := by
  rw [lastRecords, List.length_drop]
  omega

/-- Settles O59: the lemmas above say what a scrub finds and who takes the recovery slot. -/
theorem integrityRowsCountRecordAndLog : Obligations.IntegrityRowsCountRecordAndLog := by
  intro s
  refine ⟨fun x n on => ⟨execScrub_retained x n false on, count_reports _ _ _ s⟩, fun x n ready => ⟨execScrub_firmware x n false ready, count_reports _ _ _ s⟩,
    fun x n ready => ⟨execScrub_buffers x n false ready, count_reports _ _ _ s⟩, fun n i j f k ready flow queued => ?_, fun n addr ready => ?_,
    fun n i x on low table good => ?_, fun i due => if_pos due, fun i early => if_neg (by simp [early]), fun code inst not => if_neg (by simp [not]),
    fun code inst may opened free turn => ⟨_, if_pos may, becomesRunnable_holds opened free turn, becomesRunnable_handles code inst s⟩,
    fun on steady staged => ⟨if_pos ⟨on, by simp [steady], staged⟩, lastRecords_length _⟩, fun sag => if_neg (by simp [sag]), fun b => ⟨_, rfl, rfl⟩⟩
  · obtain ⟨t, read, marked⟩ := readBuffers_packet n flow queued
    exact ⟨t, read ▸ execScrub_buffers _ n true ready, marked⟩
  · obtain ⟨domain, cause, -, fifo, -, -, chip, -⟩ := coreFailure_starts 19 0x30 addr (.inr rfl) (count 18 n 0 s)
    exact ⟨_, execScrub_firmware addr n true ready, domain, cause, chip.trans (handles_of_reports (count_reports _ _ _ s)).resetFrame.1, fifo⟩
  · obtain ⟨t, scrubbed, failed⟩ := scrubRetained_table n low table good
    exact ⟨t, scrubbed ▸ execScrub_retained i n true on, failed⟩

end Sys2Proof.Machine
